-- ==== Sys2Proof/Word.lean ====
section
/-! DEFINITION. The words of the device: 32-bit registers (R4), bytes, 48-bit web positions, and the plain
arithmetic on them that the rest of the model uses. -/

set_option Elab.async false

namespace Sys2Proof

/-- A register word (R4: registers are 32 bits wide). -/
abbrev Word := BitVec 32

/-- A byte of a descriptor, a completion or a packet. -/
abbrev Byte := BitVec 8

/-- Bits hi down to lo of a number. -/
def bits (n hi lo : Nat) : Nat := (n / 2 ^ lo) % 2 ^ (hi - lo + 1)

/-- A number with bits hi down to lo replaced by v. -/
def putBits (n hi lo v : Nat) : Nat :=
  n / 2 ^ (hi + 1) * 2 ^ (hi + 1) + (v % 2 ^ (hi - lo + 1)) * 2 ^ lo + n % 2 ^ lo

/-- One bit of a number, as a Bool. -/
def bitOf (n i : Nat) : Bool := n / 2 ^ i % 2 = 1

/-- A Bool as 0 or 1. -/
def b2n (b : Bool) : Nat := if b then 1 else 0

/-- Two's complement of an integer in w bits. -/
def toTwos (w : Nat) (x : Int) : Nat := (x % (2 ^ w : Int)).toNat

/-- The signed value of w bits. -/
def ofTwos (w : Nat) (n : Nat) : Int :=
  let m := n % 2 ^ w
  if m < 2 ^ (w - 1) then (m : Int) else (m : Int) - 2 ^ w

/-- A little-endian number from bytes. -/
def leNat : List Byte → Nat
  | [] => 0
  | b :: bs => b.toNat + 256 * leNat bs

/-- k little-endian bytes of a number. -/
def leBytes : Nat → Nat → List Byte
  | 0, _ => []
  | k + 1, n => BitVec.ofNat 8 n :: leBytes k (n / 256)

/-- Bytes at, at + 1, …, at + len − 1 as a little-endian number. -/
def leAt (bs : List Byte) (at_ len : Nat) : Nat := leNat ((bs.drop at_).take len)

/-- Big-endian bytes (network order). -/
def beBytes (k n : Nat) : List Byte := (leBytes k n).reverse

/-- Upward division. -/
def ceilDiv (a b : Nat) : Nat := (a + b - 1) / b

/-- A value taken as the nearer limit where it lies outside. -/
def clampNat (lo hi x : Nat) : Nat := if x < lo then lo else if hi < x then hi else x

/-- A value with 0 taken as another. -/
def orIfZero (x d : Nat) : Nat := if x = 0 then d else x

/-- Counting that stops at the largest value of w bits. -/
def satAdd (w a b : Nat) : Nat := if a + b < 2 ^ w then a + b else 2 ^ w - 1

/-- An entry of a list by number, changed. -/
def modifyAt {α : Type} (xs : List α) (i : Nat) (f : α → α) : List α := xs.modify i f

end Sys2Proof
end

