-- ==== Sys2Proof/Syntax.lean ====
section
/-! DEFINITION. The commands of the block: one constructor per row of the opcode table. The first operand dt of every
command is the number of ticks of the 1 GHz tick that pass between the command before it and this one (R2). Descriptor
rows name the ring and slot of the descriptor that was read (R43); what the world supplies (bytes read from host memory,
packets, samples, verdicts of detectors) is an operand. -/

set_option Elab.async false

namespace Sys2Proof

/-- An entry of a page list in host memory (R58): the page address, and with tags the CRC-32C of the page and the word at
offset 12. -/
structure PageEnt where
  addr : Nat
  tag : Word
  top : Word
  deriving DecidableEq, Repr, Inhabited

/-- A word of the MRAM in error that a read of a record finds (R489): in slot B, not A; double: it cannot be corrected. -/
structure WordErr where
  slotB : Bool
  double : Bool
  deriving DecidableEq, Repr, Inhabited

/-- What CAL_RUN_READ is given: the page list of its buffer (R58), and the words in error that the reading of the record
meets (R489). -/
structure RunRead where
  list : List PageEnt
  errs : List WordErr
  deriving DecidableEq, Repr, Inhabited

/-- How a record's write ended (R492): how many readbacks differed, 2 where the slot is marked bad, and the words in error
that the readbacks found (R489), corrected or lost. -/
structure Readback where
  mismatches : Fin 3
  corrected : Nat
  lost : Nat
  deriving DecidableEq, Repr, Inhabited

/-- What a tick finds at a bar (R195): the two engines disagree, or the SRAM holds the codes back and the line event FIFO
does not drain. -/
structure TickCheck where
  disagree : Bool
  stalled : Bool
  deriving DecidableEq, Repr, Inhabited

/-- A tick of a burst (R164): the bar, and what the tick finds there. -/
structure BurstAt where
  bar : Fin 8
  found : TickCheck
  deriving DecidableEq, Repr, Inhabited

/-- One of the two fire lines of a bar (R198). -/
structure FireLine where
  bar : Fin 8
  lineB : Bool
  deriving DecidableEq, Repr, Inhabited

/-- A marker codeword as it comes in (R222): its bytes, and the number of symbols corrected in it, or none where it cannot
be corrected. -/
structure MarkerWord where
  fec : Option Nat
  bytes : List Byte
  deriving DecidableEq, Repr, Inhabited

/-- A command/address parity error (R345): its channel, and the address of the read that the command served, where it served
one. -/
structure ParityAlert where
  channel : Fin 8
  read : Option Nat
  deriving DecidableEq, Repr, Inhabited

/-- The commands. -/
inductive Instr
  /-- REGISTER_WRITE (R7). A register write to a field without its own row takes effect by its access code; a write
  without all byte enables is discarded. -/
  | registerWrite (dt : Nat) (agent : Fin 7) (off : Nat) (be : BitVec 4) (data : Word)
  /-- RC_FIELD_READ (R8). A read of an RC field returns its value and clears it, unless the hardware sets it in the
  same instant. -/
  | rcFieldRead (dt : Nat) (agent : Fin 7) (off : Nat)
  /-- WIDE_QUANTITY_READ (R6). A read of the lower word of a two-register quantity captures the upper part for later
  reads. -/
  | wideQuantityRead (dt : Nat) (agent : Fin 7) (off : Nat)
  /-- CONFIG_REQUEST (R30). A PCIe configuration request is answered, with Configuration Request Retry Status until
  HIF_STATUS.ready is 1. -/
  | configRequest (dt : Nat)
  /-- FUNCTION_LEVEL_RESET (R32). A function-level reset returns the HIF registers to reset values, disables every
  ring, ends all leases and withdraws unretired descriptors. -/
  | functionLevelReset (dt : Nat)
  /-- PCIE_RESET (R30). PERST_N or a PCIe hot reset resets the host interface, with ready at 0 until it is complete. -/
  | pcieReset (dt : Nat)
  /-- HIF_READY (R30). The host interface completes its reset and HIF_STATUS.ready becomes 1. -/
  | hifReady (dt : Nat)
  /-- PCIE_LINK_TRAINED (R31). The PCIe link trains or retrains; a low rate or width raises FS069, and EV020 is raised.
  -/
  | pcieLinkTrained (dt : Nat) (rate : Nat) (width : Nat)
  /-- PCIE_LINK_DOWN (R67). The PCIe link goes down, which raises FS068 while any bar has HV_EN asserted. -/
  | pcieLinkDown (dt : Nat)
  /-- RING_ENABLE (R35). Writing enable 1 to HIF_RING_CFG checks the configuration and enables the ring, setting its
  count to 0 and writing held completions from slot 0. -/
  | ringEnable (dt : Nat) (ring : Fin 64) (cfg : Word)
  /-- RING_DISABLE (R35). Writing enable 0 to HIF_RING_CFG disables the ring and clears halted; completions for it are
  then held on the chip. -/
  | ringDisable (dt : Nat) (ring : Fin 64) (cfg : Word)
  /-- DOORBELL_POLL (R40). The poll interval expires and the device issues one read of the 256 doorbell bytes. -/
  | doorbellPoll (dt : Nat)
  /-- DOORBELL_READ_DONE (R41). The doorbell read returns and the device acts on every changed doorbell. -/
  | doorbellReadDone (dt : Nat) (bells : List Word)
  /-- DOORBELL_READ_FAIL (R42). A doorbell read fails; the third failure in succession raises FS065. -/
  | doorbellReadFail (dt : Nat)
  /-- DB_BACKOFF (R40). No doorbell change for 10 ms with backoff_en 1 sets the poll interval to 100 µs and raises
  EV018. -/
  | dbBackoff (dt : Nat)
  /-- DB_KICK (R40). A write to HIF_DB_KICK causes one immediate poll and leaves back-off. -/
  | dbKick (dt : Nat)
  /-- DESCRIPTOR_FETCH (R43). The device reads descriptors from a ring with posted work, in priority order and while
  fewer than 1,024 are in flight and completion room exists. -/
  | descriptorFetch (dt : Nat)
  /-- DESCRIPTOR_ARRIVE (R45). A descriptor arrives, is checked for check word, opcode and format, and is started or
  completed with an error. -/
  | descriptorArrive (dt : Nat) (ring : Fin 64) (bytes : List Byte)
  /-- DESCRIPTOR_READ_FAIL (R68). A descriptor read fails, halting the ring with cause DMA and raising FS064 and FS066.
  -/
  | descriptorReadFail (dt : Nat) (ring : Fin 64) (n : Nat)
  /-- HOST_READ_FAIL (R556). A host read request fails through an error status, poison or completion timeout, failing
  every page it touches and raising FS064. -/
  | hostReadFail (dt : Nat) (ring : Fin 64) (slot : Nat) (pages : List Nat)
  /-- COMPLETION_WRITE (R51). A completion is written to its completion ring when room exists, bytes 0–14 then the
  phase byte. -/
  | completionWrite (dt : Nat)
  /-- COMPLETION_DRAIN (R51). Room appears in a completion ring and held completions are written in order. -/
  | completionDrain (dt : Nat) (ring : Fin 64)
  /-- COMPLETION_MOD_TIMEOUT (R50). mod_time passes since the first unsignalled completion and the ring's event is
  raised. -/
  | completionModTimeout (dt : Nat) (ring : Fin 64)
  /-- MSIX_UNMASK (R65). Unmasking an MSI-X vector with its pending bit set sends its message. -/
  | msixUnmask (dt : Nat) (vector : Fin 256)
  /-- JOB_OPEN (R70). JOB_OPEN checks its operands and offsets, samples the job parameters, allocates delay rings and
  opens a job. -/
  | jobOpen (dt : Nat) (ring : Fin 64) (slot : Nat)
  /-- JOB_CLOSE (R71). JOB_CLOSE decides the job's last image and refuses later commits of the job. -/
  | jobClose (dt : Nat) (ring : Fin 64) (slot : Nat)
  /-- LAYER_SET (R76). LAYER_SET checks a layer, starts its staging or streaming and binds it to the next commit. -/
  | layerSet (dt : Nat) (ring : Fin 64) (slot : Nat) (list : List PageEnt)
  /-- LAYER_FREE (R79). LAYER_FREE binds an empty layer to the next commit, or empties it at once with no job open. -/
  | layerFree (dt : Nat) (ring : Fin 64) (slot : Nat)
  /-- IMAGE_COMMIT (R90). IMAGE_COMMIT decides the image it reaches, computes its fetch and completes COMPLETED or
  COMMIT_DEFERRED. -/
  | imageCommit (dt : Nat) (ring : Fin 64) (slot : Nat)
  /-- TABLE_LOAD (R121). TABLE_LOAD checks its type, selector and length and begins copying a table on chip. -/
  | tableLoad (dt : Nat) (ring : Fin 64) (slot : Nat)
  /-- TABLE_HELD (R125). The table copy ends, its content is checked and it is held in its shadow slot, or refused with
  TABLE_BAD, TABLE_BUSY, IL_SLOW or IL_PHASE. -/
  | tableHeld (dt : Nat) (ring : Fin 64) (slot : Nat) (list : List PageEnt) (data : List Byte)
  /-- NOZZLE_MAP_REMAP (R183). NOZZLE_MAP REMAP copies, checks and compiles a remap table into runs and binds it. -/
  | nozzleMapRemap (dt : Nat) (ring : Fin 64) (slot : Nat) (list : List PageEnt) (data : List Byte)
  /-- NOZZLE_MAP_STATUS_LOAD (R272). NOZZLE_MAP STATUS_LOAD loads a status map bound as a remap table. -/
  | nozzleMapStatusLoad (dt : Nat) (ring : Fin 64) (slot : Nat) (list : List PageEnt) (data : List Byte)
  /-- NOZZLE_MAP_STATUS_READ (R272). NOZZLE_MAP STATUS_READ writes the half-bar's status map to the host buffer. -/
  | nozzleMapStatusRead (dt : Nat) (ring : Fin 64) (slot : Nat) (list : List PageEnt)
  /-- NOZZLE_MAP_SET (R272). NOZZLE_MAP SET sets one entry's status at once and its lasting count to 0. -/
  | nozzleMapSet (dt : Nat) (ring : Fin 64) (slot : Nat)
  /-- NOZZLE_MAP_RETEST (R272). NOZZLE_MAP RETEST requests an element check at the bar's next idle and two re-fires for
  the covered entries. -/
  | nozzleMapRetest (dt : Nat) (ring : Fin 64) (slot : Nat)
  /-- BAR_CFG_TRAIN (R252). BAR_CFG TRAIN trains all four lanes of each named bar from OFF. -/
  | barCfgTrain (dt : Nat) (ring : Fin 64) (slot : Nat)
  /-- BAR_CFG_WRITE (R252). BAR_CFG WRITE sends a CFG to the hubs of the named bars. -/
  | barCfgWrite (dt : Nat) (ring : Fin 64) (slot : Nat)
  /-- BAR_CFG_READ (R252). BAR_CFG READ sends a STAT to one bar's hub and writes the returned words to host memory. -/
  | barCfgRead (dt : Nat) (ring : Fin 64) (slot : Nat)
  /-- BAR_CFG_SLEEP (R252). BAR_CFG SLEEP puts the named directions of the named bars to sleep. -/
  | barCfgSleep (dt : Nat) (ring : Fin 64) (slot : Nat)
  /-- BAR_CFG_WAKE (R252). BAR_CFG WAKE wakes the named directions of the named bars. -/
  | barCfgWake (dt : Nat) (ring : Fin 64) (slot : Nat)
  /-- CAL_RUN_TILE (R499). CAL_RUN TILE makes a tile run of a port pending, or refuses it. -/
  | calRunTile (dt : Nat) (ring : Fin 64) (slot : Nat)
  /-- CAL_RUN_STRIP (R500). CAL_RUN STRIP makes a strip run of a port pending, or completes with CAL_NO_REF. -/
  | calRunStrip (dt : Nat) (ring : Fin 64) (slot : Nat)
  /-- CAL_RUN_READ (R505). CAL_RUN READ writes a record's slot in use to the host buffer. -/
  | calRunRead (dt : Nat) (ring : Fin 64) (slot : Nat) (read : RunRead)
  /-- CAL_RUN_WRITE (R505). CAL_RUN WRITE writes a host payload as a record under R492. -/
  | calRunWrite (dt : Nat) (ring : Fin 64) (slot : Nat) (list : List PageEnt) (data : List Byte)
  /-- CAM_CFG_CONTEXT (R301). CAM_CFG CONTEXT copies, checks and holds a port's context block in its shadow. -/
  | camCfgContext (dt : Nat) (ring : Fin 64) (slot : Nat) (list : List PageEnt) (data : List Byte)
  /-- CAM_CFG_DEFECT (R301). CAM_CFG DEFECT copies, checks and holds a port's defect table. -/
  | camCfgDefect (dt : Nat) (ring : Fin 64) (slot : Nat) (list : List PageEnt) (data : List Byte)
  /-- CAM_CFG_SHADING (R301). CAM_CFG SHADING copies, checks and holds a port's shading table. -/
  | camCfgShading (dt : Nat) (ring : Fin 64) (slot : Nat) (list : List PageEnt) (data : List Byte)
  /-- CAM_CFG_UPLOAD (R301). CAM_CFG UPLOAD makes the buffer the port's upload area, or ends uploading with length 0.
  -/
  | camCfgUpload (dt : Nat) (ring : Fin 64) (slot : Nat) (list : List PageEnt)
  /-- EXPOSE_SET (R286). EXPOSE_SET queues one I2C write of new sensor settings under a generation. -/
  | exposeSet (dt : Nat) (ring : Fin 64) (slot : Nat)
  /-- I2C_WRITE_DONE (R286). An EXPOSE_SET write ends with STOP, a NAK or a timeout and completes. -/
  | i2cWriteDone (dt : Nat) (bus : Fin 2) (outcome : Fin 3)
  /-- TALLY_START (R511). TALLY_CTL START takes a journal region and begins recording with a START entry. -/
  | tallyStart (dt : Nat) (ring : Fin 64) (slot : Nat)
  /-- TALLY_STOP (R513). TALLY_CTL STOP ends recording with an END entry and seals the last chunk. -/
  | tallyStop (dt : Nat) (ring : Fin 64) (slot : Nat)
  /-- TALLY_EXPORT (R516). TALLY_CTL EXPORT copies sealed chunks to the host buffer. -/
  | tallyExport (dt : Nat) (ring : Fin 64) (slot : Nat) (list : List PageEnt)
  /-- TALLY_REPLAY (R520). TALLY_CTL REPLAY checks the record's START signatures and begins replay. -/
  | tallyReplay (dt : Nat) (ring : Fin 64) (slot : Nat) (list : List PageEnt) (data : List Byte)
  /-- TALLY_SNAP_DUMP (R518). TALLY_CTL SNAP_DUMP writes a snapshot bank to the host buffer. -/
  | tallySnapDump (dt : Nat) (ring : Fin 64) (slot : Nat) (list : List PageEnt)
  /-- MARK_PKG_CONTENT (R479). A MARK_PKG of kind CONTENT is decrypted and placed in an LYP store slot for its images.
  -/
  | markPkgContent (dt : Nat) (ring : Fin 64) (slot : Nat) (list : List PageEnt) (data : List Byte)
  /-- MARK_PKG_CSP (R479). A MARK_PKG of kind CSP is decrypted and installed as CSP, bound to the next commit. -/
  | markPkgCsp (dt : Nat) (ring : Fin 64) (slot : Nat) (list : List PageEnt) (data : List Byte)
  /-- MARK_PKG_KEY (R479). A MARK_PKG of kind KEY is decrypted and written to a mark key slot. -/
  | markPkgKey (dt : Nat) (ring : Fin 64) (slot : Nat) (list : List PageEnt) (data : List Byte)
  /-- FENCE (R54). FENCE holds back its ring until the descriptors in its scope have written the named completion. -/
  | fence (dt : Nat) (ring : Fin 64) (slot : Nat)
  /-- FENCE_RELEASE (R54). Every descriptor in a FENCE's scope has completed, so the FENCE completes and its ring
  resumes. -/
  | fenceRelease (dt : Nat) (ring : Fin 64) (slot : Nat)
  /-- ABORT (R55). ABORT finds its target and withdraws it or reports ABORT_LATE or ABORT_UNKNOWN. -/
  | abort (dt : Nat) (ring : Fin 64) (slot : Nat)
  /-- STAGING_COMPLETE (R59). The last byte of a STAGED buffer is on the device with tags checked, and STAGED or
  TAG_MISMATCH is written. -/
  | stagingComplete (dt : Nat) (ring : Fin 64) (slot : Nat) (data : List Byte)
  /-- STAGE_WAIT_TIMEOUT (R60). stage_wait expires without quota room and the waiting descriptor completes with
  NO_QUOTA. -/
  | stageWaitTimeout (dt : Nat) (ring : Fin 64) (slot : Nat)
  /-- STREAMED_PAGE_ARRIVE (R63). A STREAMED page arrives and its tag is checked. -/
  | streamedPageArrive (dt : Nat) (ring : Fin 64) (slot : Nat) (page : Nat) (data : List Byte)
  /-- COMPOSITION_BAND_START (R93). Composition starts a band, judging STREAMED readiness and applying not-ready
  policies. -/
  | compositionBandStart (dt : Nat)
  /-- BAND_COMPLETE (R181). All 32 engines have written a band's strips and its complete flag is set. -/
  | bandComplete (dt : Nat)
  /-- COMPOSITION_RESUME (R73). The web advances so the lead falls below its limit and stopped composition resumes. -/
  | compositionResume (dt : Nat)
  /-- REJECT_DUE (R97). The web passes a marked image's REJECT position, and a REJECT pulse falls due. -/
  | rejectDue (dt : Nat)
  /-- REJECT_END (R97). A REJECT pulse's width expires and the pin returns to inactive. -/
  | rejectEnd (dt : Nat)
  /-- PACE_SAMPLE (R13). Each microsecond the pace counters of the screening engines are sampled. -/
  | paceSample (dt : Nat) (busy : List Nat)
  /-- CEILING_RECOMPUTE (R22). The 1,024 µs timer expires and the speed ceiling is recomputed and published. -/
  | ceilingRecompute (dt : Nat)
  /-- TABLE_VERIFY (R145). verify_ms expires and active table CRCs are recomputed and compared. flips are the bits that have changed in the table
memories since the last pass: the number of the table, the byte in it, the bits of that byte. -/
  | tableVerify (dt : Nat) (flips : List (Nat × Nat × Nat))
  /-- WHEEL_ENABLE (R151). Writing enable 1 to BELL_W_CFG sets the filtered levels and enables the wheel, unless
  pitches is below 16. -/
  | wheelEnable (dt : Nat) (wheel : Fin 2) (cfg : Word)
  /-- WHEEL_INPUT_CHANGE (R151). A level change on W0 or W1 input A or B starts the filter; a shorter pulse is rejected
  and counted. -/
  | wheelInputChange (dt : Nat) (wheel : Fin 2) (inputB : Bool) (level : Bool)
  /-- WHEEL_TRANSITION_ACCEPT (R150). A filtered transition is accepted and interpreted as a forward or backward
  reference edge or a trailing edge, moving position, speed and state. -/
  | wheelTransitionAccept (dt : Nat) (wheel : Fin 2) (inputB : Bool)
  /-- STILL_TIMEOUT (R156). No edge for still_timeout moves a wheel to STILL and raises EV066. -/
  | stillTimeout (dt : Nat) (wheel : Fin 2)
  /-- COAST_END (R160). coast_teeth periods elapse in COAST; FS019 and EV070 are raised and the wheel enters FIRST. -/
  | coastEnd (dt : Nat)
  /-- FIRE_TICK (R165). The fire position less a bar's offset reaches a new line above the high-water mark and a tick
  is issued to the bar. -/
  | fireTick (dt : Nat) (bar : Fin 8) (found : TickCheck)
  /-- BURST_TICK (R164). The burst spacing elapses and the next tick of a burst is issued. -/
  | burstTick (dt : Nat) (tick : BurstAt)
  /-- FIRE_PULSE_END (R198). A fire pulse's width expires and the line returns to logic 0. -/
  | firePulseEnd (dt : Nat) (bar : Fin 8)
  /-- ENC_PULSE_END (R168). An ENC_OUT pulse ends and a waiting pulse starts. -/
  | encPulseEnd (dt : Nat)
  /-- TICK_PLL_UNLOCK (R174). The 1 GHz tick PLL loses lock, raising FS022. -/
  | tickPllUnlock (dt : Nat)
  /-- DOT_SEND_START (R192). The fire position reaches tick m − ahead_lines and the engines send tick m's DOT packets.
  -/
  | dotSendStart (dt : Nat) (bar : Fin 8)
  /-- BAR_ARM (R199). Writing arm 1 arms a bar, making start_b's line active and sending SYNC. -/
  | barArm (dt : Nat) (bar : Fin 8)
  /-- BAR_DISARM (R200). Writing arm 0 disarms a bar and holds both fire lines at 0. -/
  | barDisarm (dt : Nat) (bar : Fin 8)
  /-- HV_EN_WRITE (R206). A write of hv_en sets HV_EN[b], unless Crook is SAFE. -/
  | hvEnWrite (dt : Nat) (bar : Fin 8) (level : Bool)
  /-- DRILL_REQUEST (R205). Writing drill 1 asks for a drill at the bar's next suitable gap. -/
  | drillRequest (dt : Nat) (bar : Fin 8)
  /-- DRILL_START (R205). At gap line 8 of a long enough gap, SYNC names the standby line active for a drill. -/
  | drillStart (dt : Nat) (bar : Fin 8)
  /-- FIRE_REPAIR (R204). Writing repair_a or repair_b returns a failed fire line as standby. -/
  | fireRepair (dt : Nat) (bar : Fin 8) (lineB : Bool)
  /-- FIRE_PAD_FAULT (R201). The pad monitor finds an active fire line's level wrong, raising FS008 and switching over.
  -/
  | firePadFault (dt : Nat) (line : FireLine)
  /-- ECHO_TIMEOUT (R201). No hub report arrives within echo_ns of a pulse, raising FS009. -/
  | echoTimeout (dt : Nat) (bar : Fin 8)
  /-- ECHO_RECEIVE (R228). An upstream SEQ ECHO arrives and is checked against the pulsed tick. -/
  | echoReceive (dt : Nat) (lane : Fin 32) (pkt : List Byte)
  /-- FIRE_SELF_TEST (R204). At the bar's next long gap, 16 pulses are sent on the failed fire line. -/
  | fireSelfTest (dt : Nat) (bar : Fin 8)
  /-- LANE_TRAIN (R241). Writing train 1 to LINK_CTRL trains one lane from OFF. -/
  | laneTrain (dt : Nat) (lane : Fin 32)
  /-- LANE_OOS (R235). Writing oos takes a lane out of its pair or allows it to rejoin. -/
  | laneOos (dt : Nat) (lane : Fin 32) (out : Bool)
  /-- LANE_QUIET_DONE (R241). 10 µs in QUIET elapse and the lane enters EQ. -/
  | laneQuietDone (dt : Nat) (lane : Fin 32)
  /-- LANE_EQ_ADAPTED (R241). The receiver has adapted after at least 100 µs and the lane enters LOCK. -/
  | laneEqAdapted (dt : Nat) (lane : Fin 32) (eq : Word)
  /-- LANE_EQ_TIMEOUT (R241). eq_time elapses in EQ and the lane fails with cause EQ. -/
  | laneEqTimeout (dt : Nat) (lane : Fin 32)
  /-- LANE_LOCK_TIMEOUT (R241). 2 ms without lock fail the lane with cause LOCK. -/
  | laneLockTimeout (dt : Nat) (lane : Fin 32)
  /-- TRAINING_SET_RECEIVE (R242). A training codeword arrives and advances LOCK, NEGOTIATE or ALIGN. -/
  | trainingSetReceive (dt : Nat) (lane : Fin 32) (bytes : List Byte)
  /-- MARKER_RECEIVE (R222). A marker codeword arrives, is checked and its upstream health and FEC counts are taken. -/
  | markerReceive (dt : Nat) (lane : Fin 32) (word : MarkerWord)
  /-- MARKER_MISSING (R235). Two consecutive markers fail to arrive and the lane leaves its pair. -/
  | markerMissing (dt : Nat) (lane : Fin 32)
  /-- CODEWORD_RECEIVE (R223). A data codeword arrives and is corrected or discarded with its packets. -/
  | codewordReceive (dt : Nat) (lane : Fin 32) (symbols : List Nat)
  /-- LANE_SIGNAL_LOSS (R235). Loss of signal or CDR lock at the device receiver makes the lane leave its pair. -/
  | laneSignalLoss (dt : Nat) (lane : Fin 32)
  /-- FEC_WARN (R254). A lane corrects more than fec_warn symbols in one ms and EV106 is raised. -/
  | fecWarn (dt : Nat) (lane : Fin 32)
  /-- CFG_ACK_RECEIVE (R229). An upstream CFG_ACK arrives and is matched to its CFG by ctag. -/
  | cfgAckReceive (dt : Nat) (lane : Fin 32) (pkt : List Byte)
  /-- STAT_DATA_RECEIVE (R229). An upstream STAT_DATA arrives and is matched to its STAT by ctag. -/
  | statDataReceive (dt : Nat) (lane : Fin 32) (pkt : List Byte)
  /-- CFG_ACK_TIMEOUT (R252). cfg_timeout expires without a reply; the CFG or STAT is sent once more or the BAR_CFG
  fails with HUB_TIMEOUT. -/
  | cfgAckTimeout (dt : Nat) (bar : Fin 8) (ctag : Nat)
  /-- HUB_SLEEP_RECEIVE (R245). A hub SLEEP arrives and the upstream direction sleeps. -/
  | hubSleepReceive (dt : Nat) (lane : Fin 32) (pkt : List Byte)
  /-- HUB_WAKE_RECEIVE (R246). A hub WAKE naming downstream arrives and downstream wakes. -/
  | hubWakeReceive (dt : Nat) (lane : Fin 32) (pkt : List Byte)
  /-- DS_SLEEP_ENTER (R246). A bar's sleep condition has held for sleep_after µs and its downstream sleeps. -/
  | dsSleepEnter (dt : Nat) (bar : Fin 8)
  /-- US_SLEEP_ENTER (R247). A bar has been DISARMED for sleep_after µs and SLEEP naming upstream is sent. -/
  | usSleepEnter (dt : Nat) (bar : Fin 8)
  /-- WAKE_COMPLETE (R245). A direction's wake sequence ends and it can carry packets again, raising EV103. -/
  | wakeComplete (dt : Nat) (bar : Fin 8) (upstream : Bool)
  /-- WAKE_LATE (R245). A wake exceeds 12 µs, raising FS005 and making the lane leave its pair. -/
  | wakeLate (dt : Nat) (bar : Fin 8) (upstream : Bool) (lane : Fin 32)
  /-- GATE_REPORT (R266). GATE packets of a test batch arrive and queue re-fires or decide faults. -/
  | gateReport (dt : Nat) (lane : Fin 32) (pkts : List (List Byte))
  /-- IMP_REPORT (R268). IMP packets of an element check arrive and are judged against the limits. -/
  | impReport (dt : Nat) (lane : Fin 32) (pkts : List (List Byte))
  /-- IMP_REQUEST (R267). The bar is DISARMED and measurement is possible, so an IMP_ALL batch is requested. -/
  | impRequest (dt : Nat) (bar : Fin 8)
  /-- NH_SNAPSHOT_WRITE (R274). With changes pending, the 10 s timer expires and the nozzle-status snapshot is written.
  -/
  | nhSnapshotWrite (dt : Nat)
  /-- DD_STALE (R277). An armed bar has not completed a sweep within dd_max_age, raising FS110. -/
  | ddStale (dt : Nat) (bar : Fin 8)
  /-- PORT_ENABLE (R280). Writing enable 1 to SEE_PORT_CFG takes the port configuration or fails. -/
  | portEnable (dt : Nat) (port : Fin 6) (cfg : Word)
  /-- CSI_FRAME_START (R287). A Frame Start arrives; the frame takes its generation and tables in force. -/
  | csiFrameStart (dt : Nat) (port : Fin 6)
  /-- CSI_LINE (R284). A long packet line arrives and is stored in the port FIFO or discarded. -/
  | csiLine (dt : Nat) (port : Fin 6) (data : List Byte)
  /-- CSI_FRAME_END (R294). A Frame End arrives and the frame's statistics record is closed and written. -/
  | csiFrameEnd (dt : Nat) (port : Fin 6)
  /-- PORT_SILENT (R281). No FS for frame_timeout ms while the web moves, raising FS060 and EV134. -/
  | portSilent (dt : Nat) (port : Fin 6)
  /-- VP_LINE (R283). A pipeline takes a waiting line and passes it through correction, registration and statistics. -/
  | vpLine (dt : Nat) (pipe : Fin 4)
  /-- SENSOR_TEMP_READ (R285). Each second the port's sensor temperature is read over I2C. -/
  | sensorTempRead (dt : Nat) (port : Fin 6) (value : Word) (ok : Bool)
  /-- HOLD_FILL_DONE (R310). Filling the hold shadow ends and waiting composition may start the image. -/
  | holdFillDone (dt : Nat)
  /-- GRAZE_START (R325). Graze's Drover grant arrives; it takes a second store copy and begins re-screening. -/
  | grazeStart (dt : Nat)
  /-- GRAZE_COMPLETE (R326). Graze finishes re-screening the store, and its copy awaits the next image start. -/
  | grazeComplete (dt : Nat)
  /-- HOLD_SNAPSHOT (R328). With gains changed, snap_s expires and the hold snapshot record is written. -/
  | holdSnapshot (dt : Nat)
  /-- HOLD_RESTART (R327). Writing restart empties the colour hold history. -/
  | holdRestart (dt : Nat)
  /-- REF_DUE (R342). tREFI elapses and a REF is issued or postponed. -/
  | refDue (dt : Nat) (channel : Fin 8)
  /-- MPR_TEMP_READ (R341). The DRAM MPR temperature is read and the refresh interval judged. -/
  | mprTempRead (dt : Nat) (channel : Fin 8) (range : Nat) (ok : Bool)
  /-- ZQ_CAL (R344). Every 128 ms a ZQ short calibration is issued after a due REF. -/
  | zqCal (dt : Nat) (channel : Fin 8)
  /-- CA_PARITY_ALERT (R345). ALERT_n signals a parity error and the channel replays discarded commands. -/
  | caParityAlert (dt : Nat) (alert : ParityAlert)
  /-- DRAM_READ_RETURN (R346). A DRAM read returns, correcting or poisoning its data. -/
  | dramReadReturn (dt : Nat) (channel : Fin 8) (addr : Nat) (errors : Nat)
  /-- DRAM_WORD_TEST (R348). The targeted word test of an uncorrectable word runs and gives TRANSIENT or LASTING. -/
  | dramWordTest (dt : Nat) (addr : Nat) (lasting : Bool)
  /-- SCRUB_PAGE (R349). The patrol scrub reads the next page after its Drover grant. -/
  | scrubPage (dt : Nat) (errors : List Nat) (uncorrectable : List Nat)
  /-- SELF_REFRESH_ENTRY (R350). The idle conditions hold for sr_idle µs and the channels enter self-refresh. -/
  | selfRefreshEntry (dt : Nat)
  /-- SELF_REFRESH_EXIT (R351). A request arrives in self-refresh and the channels exit. -/
  | selfRefreshExit (dt : Nat)
  /-- TRAINED (R353). DRAM training ends on every enabled channel and EV166 is raised. -/
  | trained (dt : Nat) (ok : List Bool)
  /-- WIPE_DONE (R354). The DRAM wipe completes and EV167 is raised. -/
  | wipeDone (dt : Nat)
  /-- MEMC_GEOM_WRITE (R536). A write changing MEMC_GEOM before READY restarts training with the new geometry. -/
  | memcGeomWrite (dt : Nat) (data : Word)
  /-- PADDOCK_GRANT (R357). Pages or a region come free and waiting Paddock requests are judged and granted in order.
  -/
  | paddockGrant (dt : Nat)
  /-- PADDOCK_FREE (R358). A holder frees a region, whose pages are zeroed, retired or returned. -/
  | paddockFree (dt : Nat) (region : Nat)
  /-- PAGE_ZERO_DONE (R358). A freed page has been zeroed and returns to the free pool. -/
  | pageZeroDone (dt : Nat) (page : Nat)
  /-- PAD_RETIRE (R358). A write to PAD_RETIRE lists a page for retirement or is refused. -/
  | padRetire (dt : Nat) (data : Word)
  /-- DFL_CONTEXT_OPEN (R365). A stream context opens, taking a slot or evicting a firmware context, and takes its
  dictionary. -/
  | dflContextOpen (dt : Nat) (ctx : Fin 128) (wrap : Nat) (level : Nat) (deflate : Bool) (expect : Nat)
  /-- DFL_INPUT_ARRIVE (R375). Input arrives for a suspended context and it resumes. -/
  | dflInputArrive (dt : Nat) (ctx : Fin 128) (data : List Byte) (flush : Nat)
  /-- DFL_OUTPUT_BUFFER (R374). A new output buffer arrives for a suspended context and its pending bits are written
  first. -/
  | dflOutputBuffer (dt : Nat) (ctx : Fin 128) (room : Nat)
  /-- SAVE_AREA (R366). The save area is not granted within 100 ms and EV177 is raised. -/
  | saveArea (dt : Nat)
  /-- NET_FRAME_RECEIVE (R382). An Ethernet frame arrives and is kept, timestamped or discarded. -/
  | netFrameReceive (dt : Nat) (port : Fin 2) (frame : List Byte)
  /-- NET_LINK (R393). A port's link comes up or goes down, raising EV230 and FS115. -/
  | netLink (dt : Nat) (port : Fin 2) (up : Bool)
  /-- SERVO_OFFSET (R388). C3 writes NET_SERVO_OFF_LO and the offset is stepped, accepted or refused. -/
  | servoOffset (dt : Nat) (lo : Word)
  /-- SERVO_HOLDOVER (R388). No offset for hold_ms moves the servo to HOLDOVER, raising FS112. -/
  | servoHoldover (dt : Nat)
  /-- SERVO_RESTART (R388). Writing restart returns the servo to FREE with I and F at 0. -/
  | servoRestart (dt : Nat)
  /-- TIME_WRAP (R385). Device time wraps to 0, incrementing the wrap count and raising EV224. -/
  | timeWrap (dt : Nat)
  /-- SNAP_NOW (R389). Writing snap_now issues a snapshot strobe on the next tick. -/
  | snapNow (dt : Nat)
  /-- SNAP_ARM (R390). Writing arm arms a snapshot target, or misses it if not later than now. -/
  | snapArm (dt : Nat)
  /-- SNAP_SCHEDULED (R389). The extended time reaches the armed target and a strobe latches the snapshot set. -/
  | snapScheduled (dt : Nat)
  /-- CEIL_MSG_PERIODIC (R391). ceil_period expires and a periodic ceiling message is sent. -/
  | ceilMsgPeriodic (dt : Nat)
  /-- CEIL_MSG_CAUSE (R391). A ceiling message for EV064 or EV065 is sent after the 25 µs spacing. -/
  | ceilMsgCause (dt : Nat)
  /-- DOMAIN_REQUEST (R397). A write to SYS_PD_CTRL requests a domain state, refused if forbidden. -/
  | domainRequest (dt : Nat) (domain : Fin 10) (data : Word)
  /-- DOMAIN_CHANGE (R397). A requested domain has no work in flight and changes state. -/
  | domainChange (dt : Nat) (domain : Fin 10)
  /-- DOMAIN_POWER_UP (R398). Work is issued to a domain in RETAIN or OFF and it is powered up. -/
  | domainPowerUp (dt : Nat) (domain : Fin 10)
  /-- DOMAIN_ON (R399). A powering domain reaches ON and its waiting work proceeds. -/
  | domainOn (dt : Nat) (domain : Fin 10)
  /-- DOMAIN_UP_TIMEOUT (R399). A domain does not reach ON within its bound, raising FS082. -/
  | domainUpTimeout (dt : Nat) (domain : Fin 10)
  /-- SHELF_ENTER (R400). Writing 0x5E1F to SYS_SHELF completes MRAM writes and drives PWR_ON low, unless HV_EN is
  asserted. -/
  | shelfEnter (dt : Nat) (data : Word)
  /-- MAIN_RAIL_LOSS (R400). The main rails fall and the device ends in Shelf. -/
  | mainRailLoss (dt : Nat)
  /-- SHELF_WAKE (R401). SHELF_WAKE stays above threshold for 1 ms and PWR_ON is driven high. -/
  | shelfWake (dt : Nat)
  /-- POWER_SAMPLE (R402). Each 62.5 µs the domain power monitors report their mean power. -/
  | powerSample (dt : Nat) (mw : List Nat)
  /-- THERMAL_SAMPLE (R404). A model sample interval ends; node temperatures and Tj are computed and thresholds judged.
  -/
  | thermalSample (dt : Nat)
  /-- VCORE_STEP_TIMER (R411). 10 ms since the last step elapse and the throttle steps VCORE toward its target. -/
  | vcoreStepTimer (dt : Nat)
  /-- VCORE_STEP (R414). A step takes effect settle_us after acknowledgement, recomputing the ceiling and raising
  EV202. -/
  | vcoreStep (dt : Nat)
  /-- PMBUS (R414). A VOUT_COMMAND write fails after two repeats, raising FS080 and EV209. -/
  | pmbus (dt : Nat)
  /-- VOUT_READ (R414). Every 10 ms READ_VOUT is read and compared with the commanded value. -/
  | voutRead (dt : Nat) (value : Nat)
  /-- PMBUS_ENABLE (R413). Writing pmb_en 1 reads READ_VOUT and takes it as the commanded VCORE. -/
  | pmbusEnable (dt : Nat) (mode : Word) (vout : Nat)
  /-- THERM_REF_READ (R405). Every 100 ms the reference temperature is read. -/
  | thermRefRead (dt : Nat) (value : Int) (ok : Bool)
  /-- REF_STALE (R405). No valid reference for ref_timeout ms; the guarded value is used and FS075 raised. -/
  | refStale (dt : Nat)
  /-- MODEL_DIVERGE (R407). The check sensor differs from its node by more than div_limit for 100 ms, raising FS074. -/
  | modelDiverge (dt : Nat)
  /-- SHUT_RELEASE (R412). Writing shut_release below 100 °C clears the SHUTDOWN latch, or is ignored. -/
  | shutRelease (dt : Nat)
  /-- DROVER_GRANT (R417). The request at the head of the Drover queue meets its conditions and is granted. -/
  | droverGrant (dt : Nat)
  /-- DROVER_RETURN (R418). A holder returns its tokens or withdraws a waiting request. -/
  | droverReturn (dt : Nat) (cls : Nat) (index : Nat)
  /-- HOLD_LONG (R419). A grant is held beyond hold_max, raising FS084. -/
  | holdLong (dt : Nat) (index : Nat)
  /-- DROVER_WAIT (R419). A request waits longer than wait_warn, raising EV207. -/
  | droverWait (dt : Nat) (index : Nat)
  /-- BUDGET_OVER (R419). Device power exceeds the budget for 10 ms, raising FS081 and EV208. -/
  | budgetOver (dt : Nat)
  /-- FOLD_FORCE (R444). Writing 1 to a FOLD_FORCE bit makes one occurrence of that source. -/
  | foldForce (dt : Nat) (word : Fin 4) (data : Word)
  /-- FAULT_INJECT (R445). Writing go to FOLD_INJECT in FACTORY with STRAP_TEST makes a detector report. -/
  | faultInject (dt : Nat) (data : Word)
  /-- CLASS_ACKNOWLEDGE (R432). Writing 1 to a FOLD_OPEN bit closes the class. -/
  | classAcknowledge (dt : Nat) (data : Word)
  /-- STICKY_CLEAR (R430). Clearing FOLD_STICKY or FOLD_LASTING bits ends bar holds whose causes are gone. -/
  | stickyClear (dt : Nat) (word : Fin 4) (lasting : Bool) (data : Word)
  /-- SELF_TEST (R440). A targeted self-test gives its result; LASTING re-enters Fold. -/
  | selfTest (dt : Nat) (source : Fin 128) (target : Nat) (lasting : Bool)
  /-- SRAM_ERROR (R443). An on-chip SRAM read finds a correctable or uncorrectable error. -/
  | sramError (dt : Nat) (store : Nat) (uncorrectable : Bool)
  /-- CROOK_ENTER (R434). Writing enter with the key to CROOK_CTRL enters the safe state with cause SOFTWARE. -/
  | crookEnter (dt : Nat) (data : Word)
  /-- CROOK_RELEASE (R439). Writing release with the key to CROOK_CTRL releases Crook or is refused. -/
  | crookRelease (dt : Nat) (data : Word)
  /-- MBX_POST (R456). Writing MBX_POST copies the staged notice into a mailbox and wakes the receiver, or is refused.
  -/
  | mbxPost (dt : Nat) (agent : Fin 7) (data : Word)
  /-- MBX_ACK (R455). The receiver writes MBX_ACK, moving the mailbox to DONE and telling the sender. -/
  | mbxAck (dt : Nat) (agent : Fin 7) (box : Fin 16) (data : Word)
  /-- MBX_CLEAR (R455). The sender writes MBX_CLEAR, emptying a DONE mailbox. -/
  | mbxClear (dt : Nat) (agent : Fin 7) (box : Fin 16) (data : Word)
  /-- MBX_WAKE_LATE (R457). The receiving core has not read MBX_STATE within wake_limit, raising FS098. -/
  | mbxWakeLate (dt : Nat) (box : Fin 16)
  /-- STILE_READ (R462). A read of MBX_STILE wins a free stile or returns its owner. -/
  | stileRead (dt : Nat) (agent : Fin 7) (stile : Fin 8)
  /-- STILE_RELEASE (R463). A write of the owner's number to MBX_STILE releases the stile. -/
  | stileRelease (dt : Nat) (stile : Fin 8) (data : Word)
  /-- STILE_LONG (R463). A stile is held beyond stile_max, raising FS099. -/
  | stileLong (dt : Nat) (stile : Fin 8)
  /-- CORE_RESET_WRITE (R452). A keyed write to MBX_CORE_CTRL resets C1, C2 or C3. -/
  | coreResetWrite (dt : Nat) (data : Word)
  /-- WATCHDOG_EXPIRE (R452). A core watchdog expires, raising FS100 + n and resetting the core. -/
  | watchdogExpire (dt : Nat) (core : Fin 4)
  /-- FW_DROVER_REQUEST (R464). A core writes request to DROVER_FW_REQ, queuing a FIRMWARE request. -/
  | fwDroverRequest (dt : Nat) (core : Fin 4) (data : Word)
  /-- FW_DROVER_WITHDRAW (R464). A core writes withdraw to DROVER_FW_REQ, ending its request or grant. -/
  | fwDroverWithdraw (dt : Nat) (core : Fin 4) (data : Word)
  /-- TOKEN_SUBMIT (R473). Writing go to SEC_TOKEN_CTRL makes C0 read the token. -/
  | tokenSubmit (dt : Nat) (data : Word)
  /-- TOKEN_DONE (R473). C0 finishes checking a token, acts on it, replaces the nonce and raises EV251. -/
  | tokenDone (dt : Nat) (token : List Byte) (nonce : List Byte)
  /-- TAMPER (R471). TAMPER_N low for 10 µs sets the tamper bit and raises FS093. -/
  | tamper (dt : Nat)
  /-- RECOVERY_LOAD (R475). Writing SEC_LOAD_ADDR_HI in recovery mode starts loading a firmware image. -/
  | recoveryLoad (dt : Nat) (data : Word)
  /-- TRNG_HEALTH (R477). A TRNG health test fails, raising FS094 and EV254. -/
  | trngHealth (dt : Nat) (failing : Bool)
  /-- DEBUG_SESSION_EXPIRE (R482). valid_s of a debug scope elapses and the scope closes. -/
  | debugSessionExpire (dt : Nat)
  /-- MRAM_WRITE_DONE (R492). An MRAM record write and its readback complete, or the slot is marked bad. -/
  | mramWriteDone (dt : Nat) (back : Readback)
  /-- MRAM_DEFERRED_WRITE (R493). The 1 s deferral of a record write ends and the write proceeds. -/
  | mramDeferredWrite (dt : Nat) (typ : Nat) (sel : Nat)
  /-- SPLICE_SET (R497). Writing splice 1 lets camera lines qualify for calibration. -/
  | spliceSet (dt : Nat)
  /-- SPLICE_EXPIRE (R497). splice_ms elapses and the device clears splice. -/
  | spliceExpire (dt : Nat)
  /-- CHUNK (R514). chunk_ms elapses since a chunk's first entry and the chunk is sealed. -/
  | chunk (dt : Nat)
  /-- LOST (R515). The entry FIFO lacks room and an entry is lost. -/
  | lost (dt : Nat) (n : Nat)
  /-- REPLAY_ENTRY (R522). The replay clock reaches a recorded entry's time and the entry is presented. -/
  | replayEntry (dt : Nat)
  /-- REPLAY_HALT (R528). The replay clock has been halted for replay_wait / 2 ms and EV246 is raised. -/
  | replayHalt (dt : Nat)
  /-- REPLAY_WAIT_TIMEOUT (R523). A recorded outcome's requester has not asked within replay_wait, a DECISION
  divergence. -/
  | replayWaitTimeout (dt : Nat)
  /-- REPLAY_STOP (R524). Writing replay_stop ends replay, disarming bars and closing jobs. -/
  | replayStop (dt : Nat)
  /-- SNAP_HOLD (R518). Writing TALLY_SNAP_CTRL.hold holds a snapshot bank for readout. -/
  | snapHold (dt : Nat) (data : Word)
  /-- PORST_FALL (R435). PORST_N falls, forcing fire lines and HV_EN low and PRESS_STOP asserted. -/
  | porstFall (dt : Nat)
  /-- PORST_RISE (R534). PORST_N rises, sampling straps and starting the start-up sequence. -/
  | porstRise (dt : Nat) (straps : BitVec 10)
  /-- SYS_RESET (R533). A keyed write to SYS_RST makes a device reset. -/
  | sysReset (dt : Nat) (data : Word)
  /-- DEVICE_READY (R537). All READY conditions hold; SYS_STATUS.ready becomes 1 and anti-rollback counters are raised.
  -/
  | deviceReady (dt : Nat)
  /-- SETUP_LOCK (R538). Writing SYS_LOCK.lock sets the set-up lock until the next device reset. -/
  | setupLock (dt : Nat)
  /-- REPLAY_SESSION_EXPIRE (R524). The valid_s of the REPLAY token session runs out and replay ends, disarming bars
  and closing jobs. -/
  | replaySessionExpire (dt : Nat)
  /-- SCRUB_LATE (R349). A patrol scrub pass is not complete within scrub_h hours and FS025 is raised. -/
  | scrubLate (dt : Nat)
  /-- TICK_PLL_LOCK (R175). The 1 GHz tick PLL regains lock after a loss and BELL_STATUS.pll_lock reads 1 again. -/
  | tickPllLock (dt : Nat)
  /-- LINE_CLOCK_BOUNDARY (R168). The fire position crosses a line boundary above the high-water mark and, with enc_src
  at line clock, adds M to the ENC_OUT accumulator. -/
  | lineClockBoundary (dt : Nat)
  /-- PTP_EVENT_SEND (R384). A PTP event message sent by C3 crosses the port's pins, is given an egress timestamp, or
  loses it to a full queue with FS116. -/
  | ptpEventSend (dt : Nat) (port : Fin 2) (frame : List Byte)
  /-- LC_TRANSITION_RESET (R470). Within 10 ms after committing a life-cycle transition, C0 resets the device with
  cause life-cycle transition. -/
  | lcTransitionReset (dt : Nat)
  /-- SRAM_WIPE_DONE (R534). The wipe of SRAMs and registers completes after reset, setting SYS_STATUS.sram_wiped and
  ending phase WIPE. -/
  | sramWipeDone (dt : Nat)
  /-- C0_IMAGE_VERIFIED (R475). The ROM finishes verifying the C0 image from slot A or B and starts C0, or enters
  recovery mode. -/
  | c0ImageVerified (dt : Nat) (image : List Byte) (slotB : Bool)
  /-- CORES_STARTED (R534). C0 has verified and started C1–C3, C1 sets MEMC_GEOM and DRAM training begins. -/
  | coresStarted (dt : Nat) (images : List (List Byte))
  deriving DecidableEq, Repr

/-- The ticks that pass before the command (R2). -/
def Instr.dt : Instr → Nat
  | .registerWrite dt _ _ _ _ => dt
  | .rcFieldRead dt _ _ => dt
  | .wideQuantityRead dt _ _ => dt
  | .configRequest dt => dt
  | .functionLevelReset dt => dt
  | .pcieReset dt => dt
  | .hifReady dt => dt
  | .pcieLinkTrained dt _ _ => dt
  | .pcieLinkDown dt => dt
  | .ringEnable dt _ _ => dt
  | .ringDisable dt _ _ => dt
  | .doorbellPoll dt => dt
  | .doorbellReadDone dt _ => dt
  | .doorbellReadFail dt => dt
  | .dbBackoff dt => dt
  | .dbKick dt => dt
  | .descriptorFetch dt => dt
  | .descriptorArrive dt _ _ => dt
  | .descriptorReadFail dt _ _ => dt
  | .hostReadFail dt _ _ _ => dt
  | .completionWrite dt => dt
  | .completionDrain dt _ => dt
  | .completionModTimeout dt _ => dt
  | .msixUnmask dt _ => dt
  | .jobOpen dt _ _ => dt
  | .jobClose dt _ _ => dt
  | .layerSet dt _ _ _ => dt
  | .layerFree dt _ _ => dt
  | .imageCommit dt _ _ => dt
  | .tableLoad dt _ _ => dt
  | .tableHeld dt _ _ _ _ => dt
  | .nozzleMapRemap dt _ _ _ _ => dt
  | .nozzleMapStatusLoad dt _ _ _ _ => dt
  | .nozzleMapStatusRead dt _ _ _ => dt
  | .nozzleMapSet dt _ _ => dt
  | .nozzleMapRetest dt _ _ => dt
  | .barCfgTrain dt _ _ => dt
  | .barCfgWrite dt _ _ => dt
  | .barCfgRead dt _ _ => dt
  | .barCfgSleep dt _ _ => dt
  | .barCfgWake dt _ _ => dt
  | .calRunTile dt _ _ => dt
  | .calRunStrip dt _ _ => dt
  | .calRunRead dt _ _ _ => dt
  | .calRunWrite dt _ _ _ _ => dt
  | .camCfgContext dt _ _ _ _ => dt
  | .camCfgDefect dt _ _ _ _ => dt
  | .camCfgShading dt _ _ _ _ => dt
  | .camCfgUpload dt _ _ _ => dt
  | .exposeSet dt _ _ => dt
  | .i2cWriteDone dt _ _ => dt
  | .tallyStart dt _ _ => dt
  | .tallyStop dt _ _ => dt
  | .tallyExport dt _ _ _ => dt
  | .tallyReplay dt _ _ _ _ => dt
  | .tallySnapDump dt _ _ _ => dt
  | .markPkgContent dt _ _ _ _ => dt
  | .markPkgCsp dt _ _ _ _ => dt
  | .markPkgKey dt _ _ _ _ => dt
  | .fence dt _ _ => dt
  | .fenceRelease dt _ _ => dt
  | .abort dt _ _ => dt
  | .stagingComplete dt _ _ _ => dt
  | .stageWaitTimeout dt _ _ => dt
  | .streamedPageArrive dt _ _ _ _ => dt
  | .compositionBandStart dt => dt
  | .bandComplete dt => dt
  | .compositionResume dt => dt
  | .rejectDue dt => dt
  | .rejectEnd dt => dt
  | .paceSample dt _ => dt
  | .ceilingRecompute dt => dt
  | .tableVerify dt _ => dt
  | .wheelEnable dt _ _ => dt
  | .wheelInputChange dt _ _ _ => dt
  | .wheelTransitionAccept dt _ _ => dt
  | .stillTimeout dt _ => dt
  | .coastEnd dt => dt
  | .fireTick dt _ _ => dt
  | .burstTick dt _ => dt
  | .firePulseEnd dt _ => dt
  | .encPulseEnd dt => dt
  | .tickPllUnlock dt => dt
  | .dotSendStart dt _ => dt
  | .barArm dt _ => dt
  | .barDisarm dt _ => dt
  | .hvEnWrite dt _ _ => dt
  | .drillRequest dt _ => dt
  | .drillStart dt _ => dt
  | .fireRepair dt _ _ => dt
  | .firePadFault dt _ => dt
  | .echoTimeout dt _ => dt
  | .echoReceive dt _ _ => dt
  | .fireSelfTest dt _ => dt
  | .laneTrain dt _ => dt
  | .laneOos dt _ _ => dt
  | .laneQuietDone dt _ => dt
  | .laneEqAdapted dt _ _ => dt
  | .laneEqTimeout dt _ => dt
  | .laneLockTimeout dt _ => dt
  | .trainingSetReceive dt _ _ => dt
  | .markerReceive dt _ _ => dt
  | .markerMissing dt _ => dt
  | .codewordReceive dt _ _ => dt
  | .laneSignalLoss dt _ => dt
  | .fecWarn dt _ => dt
  | .cfgAckReceive dt _ _ => dt
  | .statDataReceive dt _ _ => dt
  | .cfgAckTimeout dt _ _ => dt
  | .hubSleepReceive dt _ _ => dt
  | .hubWakeReceive dt _ _ => dt
  | .dsSleepEnter dt _ => dt
  | .usSleepEnter dt _ => dt
  | .wakeComplete dt _ _ => dt
  | .wakeLate dt _ _ _ => dt
  | .gateReport dt _ _ => dt
  | .impReport dt _ _ => dt
  | .impRequest dt _ => dt
  | .nhSnapshotWrite dt => dt
  | .ddStale dt _ => dt
  | .portEnable dt _ _ => dt
  | .csiFrameStart dt _ => dt
  | .csiLine dt _ _ => dt
  | .csiFrameEnd dt _ => dt
  | .portSilent dt _ => dt
  | .vpLine dt _ => dt
  | .sensorTempRead dt _ _ _ => dt
  | .holdFillDone dt => dt
  | .grazeStart dt => dt
  | .grazeComplete dt => dt
  | .holdSnapshot dt => dt
  | .holdRestart dt => dt
  | .refDue dt _ => dt
  | .mprTempRead dt _ _ _ => dt
  | .zqCal dt _ => dt
  | .caParityAlert dt _ => dt
  | .dramReadReturn dt _ _ _ => dt
  | .dramWordTest dt _ _ => dt
  | .scrubPage dt _ _ => dt
  | .selfRefreshEntry dt => dt
  | .selfRefreshExit dt => dt
  | .trained dt _ => dt
  | .wipeDone dt => dt
  | .memcGeomWrite dt _ => dt
  | .paddockGrant dt => dt
  | .paddockFree dt _ => dt
  | .pageZeroDone dt _ => dt
  | .padRetire dt _ => dt
  | .dflContextOpen dt _ _ _ _ _ => dt
  | .dflInputArrive dt _ _ _ => dt
  | .dflOutputBuffer dt _ _ => dt
  | .saveArea dt => dt
  | .netFrameReceive dt _ _ => dt
  | .netLink dt _ _ => dt
  | .servoOffset dt _ => dt
  | .servoHoldover dt => dt
  | .servoRestart dt => dt
  | .timeWrap dt => dt
  | .snapNow dt => dt
  | .snapArm dt => dt
  | .snapScheduled dt => dt
  | .ceilMsgPeriodic dt => dt
  | .ceilMsgCause dt => dt
  | .domainRequest dt _ _ => dt
  | .domainChange dt _ => dt
  | .domainPowerUp dt _ => dt
  | .domainOn dt _ => dt
  | .domainUpTimeout dt _ => dt
  | .shelfEnter dt _ => dt
  | .mainRailLoss dt => dt
  | .shelfWake dt => dt
  | .powerSample dt _ => dt
  | .thermalSample dt => dt
  | .vcoreStepTimer dt => dt
  | .vcoreStep dt => dt
  | .pmbus dt => dt
  | .voutRead dt _ => dt
  | .pmbusEnable dt _ _ => dt
  | .thermRefRead dt _ _ => dt
  | .refStale dt => dt
  | .modelDiverge dt => dt
  | .shutRelease dt => dt
  | .droverGrant dt => dt
  | .droverReturn dt _ _ => dt
  | .holdLong dt _ => dt
  | .droverWait dt _ => dt
  | .budgetOver dt => dt
  | .foldForce dt _ _ => dt
  | .faultInject dt _ => dt
  | .classAcknowledge dt _ => dt
  | .stickyClear dt _ _ _ => dt
  | .selfTest dt _ _ _ => dt
  | .sramError dt _ _ => dt
  | .crookEnter dt _ => dt
  | .crookRelease dt _ => dt
  | .mbxPost dt _ _ => dt
  | .mbxAck dt _ _ _ => dt
  | .mbxClear dt _ _ _ => dt
  | .mbxWakeLate dt _ => dt
  | .stileRead dt _ _ => dt
  | .stileRelease dt _ _ => dt
  | .stileLong dt _ => dt
  | .coreResetWrite dt _ => dt
  | .watchdogExpire dt _ => dt
  | .fwDroverRequest dt _ _ => dt
  | .fwDroverWithdraw dt _ _ => dt
  | .tokenSubmit dt _ => dt
  | .tokenDone dt _ _ => dt
  | .tamper dt => dt
  | .recoveryLoad dt _ => dt
  | .trngHealth dt _ => dt
  | .debugSessionExpire dt => dt
  | .mramWriteDone dt _ => dt
  | .mramDeferredWrite dt _ _ => dt
  | .spliceSet dt => dt
  | .spliceExpire dt => dt
  | .chunk dt => dt
  | .lost dt _ => dt
  | .replayEntry dt => dt
  | .replayHalt dt => dt
  | .replayWaitTimeout dt => dt
  | .replayStop dt => dt
  | .snapHold dt _ => dt
  | .porstFall dt => dt
  | .porstRise dt _ => dt
  | .sysReset dt _ => dt
  | .deviceReady dt => dt
  | .setupLock dt => dt
  | .replaySessionExpire dt => dt
  | .scrubLate dt => dt
  | .tickPllLock dt => dt
  | .lineClockBoundary dt => dt
  | .ptpEventSend dt _ _ => dt
  | .lcTransitionReset dt => dt
  | .sramWipeDone dt => dt
  | .c0ImageVerified dt _ _ => dt
  | .coresStarted dt _ => dt

end Sys2Proof
end

