-- ==== Sys2Proof/Decode.lean ====
section
/-! DEFINITION. Reading a command from a table word. No row of the opcode table gives bits: the commands of this block
are events and register accesses with operands of their own, so no word spells one. -/

set_option Elab.async false

namespace Sys2Proof

/-- The command that a word of nbits bits spells by the table's bits: none, since no row of the table gives any. -/
def decodeTableWord (_nbits _w : Nat) : Option Instr := none

end Sys2Proof
end

