-- ==== Sys2Proof/Config.lean ====
section
/-! DEFINITION. What one part fixes and the spec does not state, and the free values: constants with no body, so that
nothing can be proved of a particular value. -/

set_option Elab.async false

namespace Sys2Proof.Config

/-- A fresh free value, by its number in the order of taking (assumption log, free values). -/
opaque freeValue : Nat → Nat

/-- What a register shows that the spec gives no way to compute: by the number of free values taken, and its offset. -/
opaque freeView : Nat → Nat → Nat

/-- SEC_DEVICE_ID of this part (R487 gives no value). -/
opaque deviceId : Nat

/-- The key under which KPROV and mark keys are wrapped (R472, R495): 32 bytes, never readable. -/
opaque deviceKey : Nat

/-- Thermal capacities, conductances to the heatsink side, couplings, and rated power that a THERM_PARAM payload
gives; the argument none stands for the built-in parameters (R406 leaves the record's layout open). Capacities in
mJ/°C of node i. -/
opaque thermC : Option (List Byte) → Nat → Nat

/-- Conductance between nodes i and j in mW/°C. -/
opaque thermG : Option (List Byte) → Nat → Nat → Nat

/-- Conductance from node i to the reference in mW/°C. -/
opaque thermGref : Option (List Byte) → Nat → Nat

/-- Rated power of a domain in mW (R406). -/
opaque ratedPower : Option (List Byte) → Nat → Nat

/-- The codes of a dynamic block (RFC 1951): lengths of the literal and length codes, of the distance codes, of the 19 code length
codes in the order of their symbols, and the code length symbols that spell the first two, each with the value of its extra bits. -/
structure DynCodes where
  lit : List Nat
  dist : List Nat
  cl : List Nat
  ops : List (Nat × Nat)
  deriving DecidableEq, Repr, Inhabited

/-- The codes that a deflate context chooses for a dynamic block (R370 does not fix them), from the block's symbols: a literal as its value,
a match as 256 + length × 65536 + distance. -/
opaque dynCodes : List Nat → DynCodes

/-- The value of a channel that no pixel of the demosaic window holds (R291 states no mean of nothing): row, column,
channel. -/
opaque emptyMean : Nat → Nat → Nat → Nat

/-- The quotient of a calibration gain or reference whose denominator is 0 (R499, R500 state none), from its numerator. -/
opaque calQuotient : Nat → Nat

/-- A byte of what a training reaches (R353): the number of the training's record, and the byte. -/
opaque seedByte : Nat → Nat → Nat

/-- Bank, and row in its bank, of a device DRAM address on its channel (R339): the spec does not say how addresses lie in banks (log 76). -/
opaque dramBank : Nat → Nat
opaque dramRow : Nat → Nat

/-- Pages of the regions that the cores take for themselves (R356): C0's memory, the working memory of C1 to C3, the mailboxes' shared memory.
UNSAFE as a whole only in that they stay the same: what the firmware takes is its own. -/
opaque corePages : Nat → Nat

end Sys2Proof.Config
end

