-- ==== Sys2Proof/Machine/Check.lean ====
section
/-! DEFINITION. Check words: CRC-32C (R44), CRC-32 (R100), Adler-32 (R377). -/

set_option Elab.async false

namespace Sys2Proof.Machine

/-- k steps of a reflected CRC over one byte. -/
def crcBits (poly : Nat) : Nat → Nat → Nat
  | 0, c => c
  | k + 1, c => crcBits poly k (if c % 2 = 1 then (c / 2) ^^^ poly else c / 2)

/-- A reflected 32-bit CRC with initial value and final exclusive-or of all ones, continued from a register. -/
def crcRun (poly : Nat) (c : Nat) (bs : List Byte) : Nat :=
  bs.foldl (fun c b => crcBits poly 8 (c ^^^ b.toNat)) c

/-- CRC-32C: polynomial 0x1EDC6F41 reflected (R44). -/
def crc32c (bs : List Byte) : Nat := crcRun 0x82F63B78 0xFFFFFFFF bs ^^^ 0xFFFFFFFF

/-- CRC-32 of ISO 3309, as gzip uses it: polynomial 0x04C11DB7 reflected. -/
def crc32 (bs : List Byte) : Nat := crcRun 0xEDB88320 0xFFFFFFFF bs ^^^ 0xFFFFFFFF

/-- Adler-32 (RFC 1950). -/
def adler32 (bs : List Byte) : Nat :=
  let p := bs.foldl (fun (p : Nat × Nat) b => ((p.1 + b.toNat) % 65521, (p.2 + p.1 + b.toNat) % 65521)) (1, 0)
  p.2 * 65536 + p.1

end Sys2Proof.Machine
end

