-- ==== Sys2Proof/Machine/Inflate.lean ====
section
/-! DEFINITION. Inflate (R363, R368, R375, R376): RFC 1951 with the wrappers of RFC 1950 and RFC 1952. The output so far is a
function of the input so far, so that a stream may stop at any byte of its input and resume. -/

set_option Elab.async false

namespace Sys2Proof.Machine

/-- What a read of the bit stream gives: a value and the bits after it, a want of more input, or an error code of
R376. -/
inductive Inf (α : Type) where
  | ok (a : α) (rest : List Bool)
  | more
  | err (code : Nat)

/-- The bits of a byte, least significant first. -/
def byteBits (b : Byte) : List Bool := (List.range 8).map (fun i => bitOf b.toNat i)

/-- The bits of a run of bytes in the order of RFC 1951. -/
def bytesBits (bs : List Byte) : List Bool := bs.flatMap byteBits

/-- n bits as a number, the first the least significant. -/
def infBits : Nat → List Bool → Inf Nat
  | 0, r => .ok 0 r
  | _ + 1, [] => .more
  | n + 1, b :: r =>
    match infBits n r with
    | .ok v r => .ok (b2n b + 2 * v) r
    | .more => .more
    | .err c => .err c

/-- Number of codes of a length. -/
def lenCount (lens : List Nat) (l : Nat) : Nat := lens.countP (· = l)

/-- Symbols in order of code length, then of number. -/
def huffSymbols (lens : List Nat) : List Nat :=
  (List.range 15).flatMap (fun l => (List.range lens.length).filter (fun i => lens.getD i 0 = l + 1))

/-- A symbol of a canonical Huffman code, read bit by bit from length l. -/
def huffRead (lens syms : List Nat) : Nat → Nat → Nat → Nat → Nat → List Bool → Inf Nat
  | 0, _, _, _, _, _ => .err 4
  | _ + 1, _, _, _, _, [] => .more
  | fuel + 1, l, code, first, index, b :: r =>
    let code := 2 * code + b2n b
    let first := 2 * first
    let n := lenCount lens l
    if code < first + n then .ok (syms.getD (index + (code - first)) 0) r
    else huffRead lens syms fuel (l + 1) code (first + n) (index + n) r

/-- A symbol of the code with the given lengths. -/
def huffSym (lens : List Nat) (r : List Bool) : Inf Nat := huffRead lens (huffSymbols lens) 15 1 0 0 0 r

/-- Codes left over by a set of lengths, scaled to length 15: 0 is a complete set, below 0 over-subscribed. -/
def huffLeft (lens : List Nat) : Int :=
  (32768 : Int) - ((lens.filter (· ≠ 0)).map (fun l => (2 ^ (15 - l) : Int))).sum

/-- Base and extra bits of the length codes 257 to 285. -/
def lenBase : List Nat := [3, 4, 5, 6, 7, 8, 9, 10, 11, 13, 15, 17, 19, 23, 27, 31, 35, 43, 51, 59, 67, 83, 99, 115, 131, 163, 195, 227, 258]
def lenExtra : List Nat := [0, 0, 0, 0, 0, 0, 0, 0, 1, 1, 1, 1, 2, 2, 2, 2, 3, 3, 3, 3, 4, 4, 4, 4, 5, 5, 5, 5, 0]

/-- Base and extra bits of the distance codes. -/
def distBase : List Nat := [1, 2, 3, 4, 5, 7, 9, 13, 17, 25, 33, 49, 65, 97, 129, 193, 257, 385, 513, 769, 1025, 1537, 2049, 3073, 4097, 6145, 8193, 12289, 16385, 24577]
def distExtra : List Nat := [0, 0, 0, 0, 1, 1, 2, 2, 3, 3, 4, 4, 5, 5, 6, 6, 7, 7, 8, 8, 9, 9, 10, 10, 11, 11, 12, 12, 13, 13]

/-- Lengths of the fixed code (RFC 1951). -/
def fixedLit : List Nat :=
  List.replicate 144 8 ++ List.replicate 112 9 ++ List.replicate 24 7 ++ List.replicate 8 8
def fixedDist : List Nat := List.replicate 32 5

/-- How far an inflate has come: output in reverse, and how it stands. -/
inductive InfEnd
  | more
  | err (code : Nat)
  | done (rest : List Bool)

/-- A match of len bytes at distance d, copied one by one; the history is the output and then the dictionary. -/
def infCopy : Nat → Nat → List Byte → List Byte
  | 0, _, out => out
  | n + 1, d, out => infCopy n d (out.getD (d - 1) 0 :: out)

/-- One symbol with its length, distance and extra bits: a literal, the end of the block, or a match. -/
def infSymbol (lit dist : List Nat) (r : List Bool) : Inf (Nat × Nat × Nat) :=
  match huffSym lit r with
  | .more => .more
  | .err c => .err c
  | .ok s r =>
    if s < 256 then .ok (0, s, 0) r
    else if s = 256 then .ok (1, 0, 0) r
    else if s > 285 then .err 4
    else
      match infBits (lenExtra.getD (s - 257) 0) r with
      | .more => .more
      | .err c => .err c
      | .ok x r =>
        match huffSym dist r with
        | .more => .more
        | .err c => .err c
        | .ok ds r =>
          if ds > 29 then .err 4
          else
            match infBits (distExtra.getD ds 0) r with
            | .more => .more
            | .err c => .err c
            | .ok y r => .ok (2, lenBase.getD (s - 257) 0 + x, distBase.getD ds 0 + y) r

/-- The symbols of a block until its end: output in reverse over the history, and how it stands. -/
def infCodes (lit dist : List Nat) : Nat → List Byte → List Bool → List Byte × InfEnd
  | 0, out, _ => (out, .more)
  | fuel + 1, out, r =>
    match infSymbol lit dist r with
    | .more => (out, .more)
    | .err c => (out, .err c)
    | .ok (k, a, d) r =>
      if k = 0 then infCodes lit dist fuel (BitVec.ofNat 8 a :: out) r
      else if k = 1 then (out, .done r)
      else if d > min out.length 32768 then (out, .err 5)
      else infCodes lit dist fuel (infCopy a d out) r

/-- The code lengths of a dynamic header (RFC 1951), in reverse. -/
def infLengths (cl : List Nat) (n : Nat) : Nat → List Nat → List Bool → Inf (List Nat)
  | 0, _, _ => .err 3
  | fuel + 1, acc, r =>
    if acc.length = n then .ok acc.reverse r
    else if acc.length > n then .err 3
    else
      match huffSym cl r with
      | .more => .more
      | .err c => .err c
      | .ok s r =>
        if s < 16 then infLengths cl n fuel (s :: acc) r
        else if s = 16 && acc.isEmpty then .err 4
        else
          match infBits (if s = 16 then 2 else if s = 17 then 3 else 7) r with
          | .more => .more
          | .err c => .err c
          | .ok x r =>
            let rep := if s = 18 then 11 + x else 3 + x
            let v := if s = 16 then acc.headD 0 else 0
            infLengths cl n fuel (List.replicate rep v ++ acc) r

/-- Order of the code length codes (RFC 1951). -/
def clOrder : List Nat := [16, 17, 18, 0, 8, 7, 9, 6, 10, 5, 11, 4, 12, 3, 13, 2, 14, 1, 15]

/-- n three-bit lengths. -/
def infThrees : Nat → List Bool → Inf (List Nat)
  | 0, r => .ok [] r
  | n + 1, r =>
    match infBits 3 r with
    | .more => .more
    | .err c => .err c
    | .ok v r =>
      match infThrees n r with
      | .more => .more
      | .err c => .err c
      | .ok vs r => .ok (v :: vs) r

/-- A dynamic header: literal and distance lengths, checked as R376 states. -/
def infHeader (r : List Bool) : Inf (List Nat × List Nat) :=
  match infBits 14 r with
  | .more => .more
  | .err c => .err c
  | .ok h r =>
    let hlit := h % 32 + 257
    let hdist := h / 32 % 32 + 1
    let hclen := h / 1024 + 4
    if hlit > 286 || hdist > 30 then .err 3
    else
      match infThrees hclen r with
      | .more => .more
      | .err c => .err c
      | .ok ts r =>
        let cl := (List.range 19).map (fun s => ts.getD (clOrder.idxOf s) 0)
        if huffLeft cl ≠ 0 then .err 3
        else
          match infLengths cl (hlit + hdist) 400 [] r with
          | .more => .more
          | .err c => .err c
          | .ok ls r =>
            let lit := ls.take hlit
            let dist := ls.drop hlit
            let one := dist.countP (· ≠ 0) ≤ 1
            if huffLeft lit ≠ 0 || lit.getD 256 0 = 0 || (huffLeft dist ≠ 0 && !(one && 0 ≤ huffLeft dist)) then .err 3
            else .ok (lit, dist) r

/-- The blocks of a bare stream. bitsIn is the number of bits of the stream, for alignment to a byte. -/
def infBlocks (bitsIn : Nat) : Nat → List Byte → List Bool → List Byte × InfEnd
  | 0, out, _ => (out, .more)
  | fuel + 1, out, r =>
    match infBits 3 r with
    | .more => (out, .more)
    | .err c => (out, .err c)
    | .ok h r =>
      let final := h % 2 = 1
      let fin := fun (p : List Byte × InfEnd) =>
        match p.2 with
        | .done r => if final then (p.1, InfEnd.done r) else infBlocks bitsIn fuel p.1 r
        | e => (p.1, e)
      match h / 2 with
      | 0 =>
        let r := r.drop (r.length % 8)
        match infBits 32 r with
        | .more => (out, .more)
        | .err c => (out, .err c)
        | .ok n r =>
          if n % 65536 + n / 65536 ≠ 65535 then (out, .err 2)
          else
            let len := n % 65536
            let have_ := min len (r.length / 8)
            let bytes := (List.range have_).map (fun i =>
              match infBits 8 (r.drop (8 * i)) with
              | .ok v _ => BitVec.ofNat 8 v
              | _ => 0)
            if have_ < len then (bytes.reverse ++ out, .more) else fin (bytes.reverse ++ out, .done (r.drop (8 * len)))
      | 1 => fin (infCodes fixedLit fixedDist (r.length + 1) out r)
      | 2 =>
        match infHeader r with
        | .more => (out, .more)
        | .err c => (out, .err c)
        | .ok (lit, dist) r => fin (infCodes lit dist (r.length + 1) out r)
      | _ => (out, .err 1)

/-- Whole bytes of what is left, from the next byte boundary. -/
def restBytes (input : List Byte) (rest : List Bool) : List Byte := input.drop (input.length - rest.length / 8)

/-- The result of an inflate so far: output, and how it stands; when done, the bytes after the stream. -/
structure Inflated where
  out : List Byte
  status : Nat
  code : Nat
  trailing : List Byte

/-- Statuses of an inflate: wants more input, done, error. -/
def Inflated.more (out : List Byte) : Inflated := ⟨out, 0, 0, []⟩
def Inflated.done (out rest : List Byte) : Inflated := ⟨out, 1, 0, rest⟩
def Inflated.err (out : List Byte) (c : Nat) : Inflated := ⟨out, 2, c, []⟩

/-- A bare stream behind a header of the given bytes, with a check on its trailer of tlen bytes. -/
def inflateBody (dict body : List Byte) (tlen : Nat) (good : List Byte → List Byte → Bool) : Inflated :=
  let p := infBlocks (8 * body.length) (8 * body.length + 1) dict.reverse (bytesBits body)
  let out := p.1.reverse.drop dict.length
  match p.2 with
  | .more => .more out
  | .err c => .err out c
  | .done r =>
    let rest := restBytes body r
    if rest.length < tlen then .more out
    else if good out (rest.take tlen) then .done out (rest.drop tlen) else .err out 8

/-- The length of a zero-ended string, its end included; none when it has not ended. -/
def zeroEnded (bs : List Byte) : Option Nat :=
  let n := (bs.takeWhile (· ≠ 0)).length
  if n < bs.length then some (n + 1) else none

/-- Skip an optional zero-ended string of a gzip header. -/
def skipString (on : Bool) (bs : List Byte) : Option (List Byte) :=
  if on then (zeroEnded bs).map (fun n => bs.drop n) else some bs

/-- The header of a gzip member: none for a want of input, an error, or the bytes after it (R363). -/
def gzipHeader (bs : List Byte) : Option (Except Nat (List Byte)) :=
  if (bs.take 3) ≠ ([0x1f, 0x8b, 8] : List Byte).take (min 3 bs.length) then some (.error 6)
  else if bs.length < 10 then none
  else
    let flg := leAt bs 3 1
    if flg / 32 ≠ 0 then some (.error 6)
    else
      let b := bs.drop 10
      let b? := if bitOf flg 2 then (if b.length < 2 + leAt b 0 2 || b.length < 2 then none else some (b.drop (2 + leAt b 0 2))) else some b
      match (b?.bind (skipString (bitOf flg 3))).bind (skipString (bitOf flg 4)) with
      | none => none
      | some b =>
        if bitOf flg 1 then
          if b.length < 2 then none
          else if leAt b 0 2 = crc32 (bs.take (bs.length - b.length)) % 65536 then some (.ok (b.drop 2)) else some (.error 6)
        else some (.ok b)

/-- Inflate of a whole input so far. wrap: 0 bare, 1 zlib, 2 gzip; dict is the content a bare or gzip stream
preloads, and byId gives the dictionary of a DICTID (R378). -/
def inflate (wrap : Nat) (dict : List Byte) (byId : Nat → Option (List Byte)) (input : List Byte) : Inflated :=
  match wrap with
  | 0 => inflateBody dict input 0 (fun _ _ => true)
  | 1 =>
    if input.length < 2 then .more []
    else
      let cmf := leAt input 0 1
      let flg := leAt input 1 1
      if cmf % 16 ≠ 8 || cmf / 16 > 7 || (cmf * 256 + flg) % 31 ≠ 0 then .err [] 6
      else
        let check := fun (out t : List Byte) => decide (adler32 out = leNat t.reverse)
        if bitOf flg 5 then
          if input.length < 6 then .more []
          else
            match byId (leNat ((input.drop 2).take 4).reverse) with
            | none => .err [] 7
            | some d => inflateBody d (input.drop 6) 4 check
        else inflateBody [] (input.drop 2) 4 check
  | _ =>
    match gzipHeader input with
    | none => .more []
    | some (.error c) => .err [] c
    | some (.ok body) =>
      inflateBody dict body 8 (fun out t => crc32 out = leAt t 0 4 && out.length % 2 ^ 32 = leAt t 4 4)

end Sys2Proof.Machine
end

