-- ==== Sys2Proof/Machine/Kernel.lean ====
section
/-! DEFINITION. Filter coefficients of the layer scalers (R82, R83, R558). Distances are in units of 2^−20 source pixel. -/

set_option Elab.async false

namespace Sys2Proof.Machine

/-- A quotient rounded to the nearest whole number, halves away from zero (R558). -/
def roundDiv (a : Int) (b : Nat) : Int :=
  if 0 ≤ a then (2 * a + b) / (2 * b) else -((2 * (-a) + b) / (2 * b))

/-- Arithmetic shift right. -/
def sar (a : Int) (n : Nat) : Int := a / 2 ^ n

/-- A signed value limited to lo … hi. -/
def clampInt (lo hi x : Int) : Int := if x < lo then lo else if hi < x then hi else x

/-- A signed value limited to 0 … hi, as a natural number. -/
def clampTo (hi : Nat) (x : Int) : Nat := (clampInt 0 hi x).toNat

/-- π × 2^96, to the nearest whole number. -/
def piFix : Int := 248902613312231085230521944622

/-- Taylor terms of the sine of t / 2^96, from the term at step k on. -/
def sinTerms (t2 : Int) : Nat → Nat → Int → Int
  | 0, _, _ => 0
  | n + 1, k, term =>
    term + sinTerms t2 n (k + 1) (-(term * t2 / 2 ^ 96) / ((2 * k + 2) * (2 * k + 3) : Nat))

/-- sin(t / 2^96) × 2^96, for |t| at most π × 2^96. -/
def sinFix (t : Int) : Int := sinTerms (t * t / 2 ^ 96) 40 0 t

/-- sin(π x) × 2^96 of x = X / 2^20. -/
def sinPi (x : Int) : Int :=
  let r := x % 2097152
  let r := if r ≥ 1048576 then r - 2097152 else r
  sinFix (r * piFix / 1048576)

/-- The coefficient 16,384 × weight of R558 as a fraction: K at X / 2^20, times f / 4,096. -/
def kernelFrac (filter : Nat) (x : Int) (f : Nat) : Int × Nat :=
  let a : Int := x.natAbs
  let one : Int := 1048576
  match filter with
  | 1 => if a < one then (16384 * (one - a) * f, 1048576 * 4096) else (0, 1)
  | 2 =>
    let den := 2 * 1048576 ^ 3 * 4096
    if a < one then (16384 * (3 * a ^ 3 - 5 * a ^ 2 * one + 2 * one ^ 3) * f, den)
    else if a < 2 * one then
      (16384 * (5 * a ^ 2 * one - a ^ 3 - 8 * a * one ^ 2 + 4 * one ^ 3) * f, den)
    else (0, 1)
  | 3 =>
    if a = 0 then (16384 * f, 4096)
    else if a < 12 * one then
      let s1 := sinPi x
      let s2 := sinFix (x * piFix / (12 * 1048576))
      (16384 * 12 * s1 * s2 * 1048576 ^ 2 * f, (piFix ^ 2 * x ^ 2 * 4096).toNat)
    else (0, 1)
  | _ => (0, 1)

/-- Coefficient of tap k at phase p (R558), before the correction of the sum. -/
def coeff (filter scale p : Nat) (k : Int) : Int :=
  let d := 256 * k - (p : Int)
  let r := if scale ≥ 4096 then kernelFrac filter (d * 4096) 4096 else kernelFrac filter (d * scale) scale
  roundDiv r.1 r.2

/-- Tap count of R83 at a scale. -/
def tapCount (filter scale : Nat) : Nat :=
  let t := match filter with | 0 => 1 | 1 => 2 | 2 => 4 | _ => 24
  if scale ≥ 4096 then t else 2 * t

/-- The coefficients of a phase, for k = 1 − N/2 to N/2, summing to 16,384 (R558). -/
def coeffs (filter scale p : Nat) : List Int :=
  let n := tapCount filter scale
  let h := n / 2
  let cs := (List.range n).map (fun (i : Nat) => coeff filter scale p ((i : Int) + 1 - (h : Int)))
  let miss := 16384 - cs.sum
  cs.modify (if p < 128 then h - 1 else h) (· + miss)

/-- Reciprocal of a scale (R82). -/
def scaleInv (scale : Nat) : Nat := (2 ^ 32 + scale / 2) / scale

/-- Source coordinate of output position j, Q12.20 (R82). -/
def srcCoord (scale j : Nat) : Int := (j * scaleInv scale + scaleInv scale / 2 : Nat) - (524288 : Int)

/-- A source index clamped to the edge (R82). -/
def clampIdx (n : Nat) (i : Int) : Nat := clampTo (n - 1) i

/-- The source indices and coefficients that give output position j of an axis (R82, R83): NEAREST takes one pixel. -/
def taps (filter scale n j : Nat) : List (Nat × Int) :=
  let u := srcCoord scale j
  if filter = 0 then [(clampIdx n (sar (u + 524288) 20), 16384)]
  else
    let b := sar u 20
    let p := (sar u 12 % 256).toNat
    let h := tapCount filter scale / 2
    (coeffs filter scale p).mapIdx (fun i c => (clampIdx n (b + i + 1 - h), c))

/-- A filtered sample (R83): sum, round, clamp. -/
def filterSum (hi : Nat) (cs : List (Nat × Int)) (f : Nat → Nat) : Nat :=
  clampTo hi (sar ((cs.map (fun c => c.2 * (f c.1 : Int))).sum + 8192) 14)

end Sys2Proof.Machine
end

