-- ==== Sys2Proof/Machine/Deflate.lean ====
section
/-! DEFINITION. Deflate (R363, R369, R370, R374): the bytes of a deflated stream as a function of its input, level,
dictionary and flush points (R367). -/

set_option Elab.async false

namespace Sys2Proof.Machine

/-- Chain depth of a level (R369). -/
def chainDepth (level : Nat) : Nat := [4, 4, 8, 16, 32, 64, 128, 256, 1024, 4096].getD level 4096

/-- Whether a level is lazy (R369). -/
def lazyLevel (level : Nat) : Bool := 4 ≤ level

/-- The hash of the three bytes at a position (R369). -/
def hash3 (a : Array Byte) (p : Nat) : Nat :=
  ((a.getD p 0).toNat * 1024 ^^^ (a.getD (p + 1) 0).toNat * 32 ^^^ (a.getD (p + 2) 0).toNat) % 32768

/-- Length of the match between positions p and q, at most n. -/
def matchLen (a : Array Byte) (p q : Nat) : Nat → Nat
  | 0 => 0
  | n + 1 => if a.getD p 0 = a.getD q 0 then matchLen a (p + 1) (q + 1) n + 1 else 0

/-- A search of the chain at p: back over the positions before q, with visits left, and the best match so far as
length and distance. limit is the end of the input that a match may cover. -/
def searchChain (a : Array Byte) (p limit : Nat) : Nat → Nat → Nat × Nat → Nat × Nat
  | 0, _, best => best
  | q + 1, visits, best =>
    if visits = 0 || best.1 = 258 || p - q > 32768 then best
    else if hash3 a q = hash3 a p then
      let l := matchLen a p q (min 258 (limit - p))
      let good := l ≥ 3 && (l > 3 || p - q ≤ 4096)
      searchChain a p limit q (visits - 1) (if good && l > best.1 then (l, p - q) else best)
    else searchChain a p limit q visits best

/-- The match that a search at p finds: length 0 when there is none (R369). -/
def searchAt (a : Array Byte) (level p limit : Nat) : Nat × Nat :=
  if p + 3 ≤ limit then searchChain a p limit p (chainDepth level) (0, 0) else (0, 0)

/-- The symbols of a block from p to its end: a literal as its value, a match as 256 + length × 65536 + distance. -/
def lzSymbols (a : Array Byte) (level limit : Nat) : Nat → Nat → List Nat
  | 0, _ => []
  | fuel + 1, p =>
    if p ≥ limit then []
    else
      let m := searchAt a level p limit
      let better := lazyLevel level && (searchAt a level (p + 1) limit).1 > m.1
      if m.1 = 0 || better then (a.getD p 0).toNat :: lzSymbols a level limit fuel (p + 1)
      else (256 + m.1 * 65536 + m.2) :: lzSymbols a level limit fuel (p + m.1)

/-- n bits of a number, least significant first. -/
def numBits : Nat → Nat → List Bool
  | 0, _ => []
  | n + 1, v => bitOf v 0 :: numBits n (v / 2)

/-- A Huffman code of n bits, most significant first. -/
def codeBits (n v : Nat) : List Bool := (numBits n v).reverse

/-- The code of a symbol in the canonical code with the given lengths (RFC 1951). -/
def huffCode (lens : List Nat) (s : Nat) : List Bool :=
  let l := lens.getD s 0
  let shorter := (lens.filter (fun x => x ≠ 0 && x < l)).map (fun x => 2 ^ (l - x))
  codeBits l (shorter.sum + (lens.take s).countP (· = l))

/-- The last index whose base is not above a value. -/
def baseIndex (bases : List Nat) (v : Nat) : Nat := (bases.countP (· ≤ v)) - 1

/-- The length code less 257, and the distance code, of a match. -/
def lenIndex (len : Nat) : Nat := if len = 258 then 28 else baseIndex (lenBase.take 28) len
def distIndex (dist : Nat) : Nat := baseIndex distBase dist

/-- A symbol in two codes: a literal, or length code, extra bits, distance code, extra bits. -/
def symbolBits (lit dist : List Nat) (s : Nat) : List Bool :=
  if s < 256 then huffCode lit s
  else
    let len := (s - 256) / 65536
    let d := (s - 256) % 65536
    let li := lenIndex len
    let di := distIndex d
    huffCode lit (257 + li) ++ numBits (lenExtra.getD li 0) (len - lenBase.getD li 0) ++ huffCode dist di
      ++ numBits (distExtra.getD di 0) (d - distBase.getD di 0)

/-- Bits cut into units of at most 8, as they reach the accumulator where no symbol of R374 is written. -/
def eights : Nat → List Bool → List (List Bool)
  | 0, _ => []
  | fuel + 1, bs => if bs.isEmpty then [] else bs.take 8 :: eights fuel (bs.drop 8)

/-- The units of a run of bits. -/
def unitsOf (bs : List Bool) : List (List Bool) := eights bs.length bs

/-- The symbols of a block in two codes, and the end of the block. -/
def codedUnits (lit dist syms : List Nat) : List (List Bool) := syms.map (symbolBits lit dist) ++ [huffCode lit 256]

/-- A block in the fixed form. -/
def fixedBlock (final : Bool) (syms : List Nat) : List (List Bool) :=
  (final :: numBits 2 1) :: codedUnits fixedLit fixedDist syms

/-! ### The dynamic form -/

/-- The header of a dynamic block behind BTYPE. -/
def dynHeader (d : Config.DynCodes) : List Bool :=
  numBits 5 (d.lit.length - 257) ++ numBits 5 (d.dist.length - 1) ++ numBits 4 15 ++ clOrder.flatMap (fun s => numBits 3 (d.cl.getD s 0))
    ++ d.ops.flatMap (fun o => huffCode d.cl o.1 ++ numBits (if o.1 = 16 then 2 else if o.1 = 17 then 3 else if o.1 = 18 then 7 else 0) o.2)

/-- A length stands for every symbol that a block uses. -/
def dynCovers (lit dist syms : List Nat) : Bool :=
  lit.getD 256 0 ≠ 0 && syms.all (fun s =>
    if s < 256 then lit.getD s 0 ≠ 0
    else lit.getD (257 + lenIndex ((s - 256) / 65536)) 0 ≠ 0 && dist.getD (distIndex ((s - 256) % 65536)) 0 ≠ 0)

/-- The codes may stand in a dynamic block of those symbols: the header reads back as they are (R376), fits the 320 bytes of R374, and gives
every symbol a code. -/
def dynFits (d : Config.DynCodes) (syms : List Nat) : Bool :=
  (match infHeader (dynHeader d) with
   | .ok h rest => h.1 = d.lit && h.2 = d.dist && rest.isEmpty
   | _ => false)
    && (dynHeader d).length + 3 ≤ 2560 && dynCovers d.lit d.dist syms

/-- Codes that give every symbol a length: 226 of 8 and 60 of 9 bits, distances of 4 and 5 bits. -/
def plainCodes : Config.DynCodes :=
  let lit := List.replicate 226 8 ++ List.replicate 60 9
  let dist := List.replicate 2 4 ++ List.replicate 28 5
  ⟨lit, dist, (List.range 19).map (fun s => if [4, 5, 8, 9].contains s then 2 else 0), (lit ++ dist).map (fun l => (l, 0))⟩

/-- A block in the dynamic form (RFC 1951), with codes that are free (R370). -/
def dynBlock (final : Bool) (syms : List Nat) : List (List Bool) :=
  let d := Config.dynCodes syms
  let d := if dynFits d syms then d else plainCodes
  unitsOf (final :: numBits 2 2 ++ dynHeader d) ++ codedUnits d.lit d.dist syms

/-! ### Blocks -/

/-- Number of bits of a run of units. -/
def unitBits (us : List (List Bool)) : Nat := (us.map (fun u => u.length)).sum

/-- Bits to the next byte boundary after n bits. -/
def padBits (n : Nat) : List Bool := List.replicate ((8 - n % 8) % 8) false

/-- Stored blocks of a run of bytes after n bits; a run of 65,536 bytes takes two, since LEN has 16 bits. -/
def storedBlock (final : Bool) (n : Nat) (bs : List Byte) : List (List Bool) :=
  let one := fun (fin : Bool) (n : Nat) (x : List Byte) =>
    ([fin, false, false] ++ padBits (n + 3)) :: unitsOf (numBits 16 x.length ++ numBits 16 (65535 - x.length)) ++ x.map byteBits
  if bs.length ≤ 65535 then one final n bs
  else
    let first := one false n (bs.take 65535)
    first ++ one final (n + unitBits first) (bs.drop 65535)

/-- A block in the shortest form, a tie in the order stored, fixed, dynamic (R370). -/
def bestBlock (final : Bool) (n : Nat) (bs : List Byte) (syms : List Nat) : List (List Bool) :=
  let st := storedBlock final n bs
  let fx := fixedBlock final syms
  let dy := dynBlock final syms
  if unitBits st ≤ unitBits fx && unitBits st ≤ unitBits dy then st else if unitBits fx ≤ unitBits dy then fx else dy

/-- The blocks of a stream after n bits, as the units in which they are written (R374). dictLen bytes of history come first; start is where
the open block begins, relative to the input; flushes are (input bytes, FINAL). A block ends with its 65,536th byte whatever comes
after, so that what has been given out stands (R367). -/
def deflateBlocks (a : Array Byte) (dictLen level total : Nat) : Nat → Nat → Nat → List (Nat × Bool) → List (List Bool)
  | 0, _, _, _ => []
  | fuel + 1, n, start, fl =>
    let block := fun (final : Bool) (stop : Nat) =>
      bestBlock final n ((a.toList.drop (dictLen + start)).take (stop - start))
        (lzSymbols a level (dictLen + stop) (stop - start) (dictLen + start))
    let full := block false (start + 65536)
    let onFull := fun (fl : List (Nat × Bool)) =>
      full ++ deflateBlocks a dictLen level total fuel (n + unitBits full) (start + 65536) fl
    match fl with
    | (x, final) :: rest =>
      if start + 65536 ≤ x then onFull ((x, final) :: rest)
      else if final then block true x
      else
        let blk := if start = x then [] else block false x
        let blk := blk ++ storedBlock false (n + unitBits blk) []
        blk ++ deflateBlocks a dictLen level total fuel (n + unitBits blk) x rest
    | [] => if start + 65536 ≤ total then onFull [] else []

/-- Bits packed into bytes, the last filled with zeros. -/
def packBits : Nat → List Bool → List Byte
  | 0, _ => []
  | fuel + 1, bs =>
    if bs.isEmpty then []
    else BitVec.ofNat 8 ((bs.take 8).foldr (fun b v => b2n b + 2 * v) 0) :: packBits fuel (bs.drop 8)

/-- The header bytes of a wrapper for a level (R363, R378). -/
def wrapHeader (wrap level : Nat) (dict : List Byte) : List Byte :=
  if wrap = 1 then
    let fl := if level ≤ 1 then 0 else if level ≤ 5 then 1 else if level = 6 then 2 else 3
    let f := fl * 64 + (if dict.isEmpty then 0 else 32)
    let f := f + (31 - (0x78 * 256 + f) % 31) % 31
    [0x78, BitVec.ofNat 8 f] ++ (if dict.isEmpty then [] else beBytes 4 (adler32 dict))
  else if wrap = 2 then
    [0x1f, 0x8b, 8, 0, 0, 0, 0, 0, (if level ≤ 1 then 4 else if level = 9 then 2 else 0), 255]
  else []

/-- The trailer bytes of a wrapper. -/
def wrapTrailer (wrap : Nat) (input : List Byte) : List Byte :=
  if wrap = 1 then beBytes 4 (adler32 input)
  else if wrap = 2 then leBytes 4 (crc32 input) ++ leBytes 4 input.length
  else []

/-- What a deflated stream consists of so far (R367), as the units that enter the bit accumulator (R374). A stream is at its end once a
FINAL flush has been made. -/
def deflateUnits (wrap level : Nat) (dict input : List Byte) (flushes : List (Nat × Bool)) : List (List Bool) :=
  let level := if level = 0 then 1 else min level 9
  let body := deflateBlocks (dict ++ input).toArray dict.length level input.length
    (input.length + flushes.length + 1) 0 0 flushes
  (wrapHeader wrap level dict).map byteBits ++ body
    ++ (if flushes.any (fun f => f.2) then padBits (unitBits body) :: (wrapTrailer wrap input).map byteBits else [])

/-- All the bits of a deflated stream so far. -/
def deflateBits (wrap level : Nat) (dict input : List Byte) (flushes : List (Nat × Bool)) : List Bool :=
  (deflateUnits wrap level dict input flushes).flatten

/-- Bits of the first units that reach n bits: no further one enters the accumulator before (R374). -/
def reachBits (n : Nat) : List (List Bool) → Nat
  | [] => 0
  | u :: us => if n = 0 then 0 else u.length + reachBits (n - u.length) us

/-- A whole stream deflated in one piece. -/
def deflateWhole (wrap level : Nat) (dict input : List Byte) : List Byte :=
  let bits := deflateBits wrap level dict input [(input.length, true)]
  packBits (bits.length + 1) bits

end Sys2Proof.Machine
end

