-- ==== Sys2Proof/Machine/Regs.lean ====
section
/-! DEFINITION. The register map of BAR0 as the spec's tables give it: one address constant, one name per field,
and one row per register with the access code of R7 for every field (R5: what no row covers holds no register; R9:
what no field covers is reserved and reads 0).

The rows are R105, R149, R175, R212, R256, R278, R307, R334, R361, R362, R380, R394, R422, R423, R424, R448, R449,
R467, R487, R508, R529, R540 and the HIF tables of the host chapter. -/

set_option Elab.async false

namespace Sys2Proof.Machine

/-- One 32-bit register: its BAR0 offset and its reset value. -/
structure Reg where
  off : Nat
  rst : Nat
  deriving DecidableEq, Repr

/-- One field of a register: bits hi down to lo. -/
structure Field where
  reg : Reg
  hi : Nat
  lo : Nat
  deriving DecidableEq, Repr

/-- The access codes of R7. -/
inductive Access
  | rw | ro | wo | w1c | w1s | rc | rwl
  deriving DecidableEq, Repr

/-- One field of a register table row. -/
structure FieldSpec where
  hi : Nat
  lo : Nat
  acc : Access
  deriving DecidableEq, Repr

/-- The names of the registers. -/
inductive RegId
  | HIF_CTRL | HIF_STATUS | HIF_LINK_STAT | HIF_DB_ADDR_LO | HIF_DB_ADDR_HI | HIF_DB_CFG
  | HIF_DB_KICK | HIF_STAGE_WAIT | HIF_RTT | HIF_RING_BASE_LO | HIF_RING_BASE_HI | HIF_RING_CFG
  | HIF_RING_MOD | HIF_RING_STAT | HIF_EV_MAP | HIF_EV_STATUS | HIF_EV_ENABLE | MSIX_ADDR_LO
  | MSIX_ADDR_HI | MSIX_DATA | MSIX_VCTRL | MSIX_PBA | LAYER_CTRL | LAYER_LEAD_MIN
  | LAYER_LEAD_MAX | LAYER_REJECT_DIST | LAYER_REJECT_WIDTH | LAYER_STATUS | LAYER_IMAGE | LAYER_NEXT
  | LAYER_POS | LAYER_LEAD_NOW | LAYER_FETCH | LAYER_REJECT_CNT | LAYER_FREEZE_STAT | LAYER_NR_STAT
  | LAYER_SIG | LAYER_NR_CNT | INK_CTRL | INK_STATUS | INK_TSEL | INK_TSTATE
  | INK_TCRC_ACT | INK_TCRC_SHD | INK_VERIFY | INK_PACE_FLOOR | INK_CLAMP_LIMIT | INK_CLAMP_CNT
  | INK_COMP_LOST | INK_PENNED_CNT | INK_PACE | BELL_CTRL | BELL_STATUS | BELL_SPEED
  | BELL_LRATE | BELL_POS_LO | BELL_POS_HI | BELL_FPOS_LO | BELL_FPOS_HI | BELL_HWM_LO
  | BELL_HWM_HI | BELL_CEILING | BELL_CEIL_LINES | BELL_CEIL_DELTA | BELL_STILL | BELL_COAST
  | BELL_BACK_LIMIT | BELL_ENC_CFG | BELL_ENC_RATIO | BELL_DIFF_LIMIT | BELL_BACK_CNT | BELL_SLIP_CNT
  | BELL_GLITCH_CNT | BELL_BURST_CNT | BELL_ENC_LOST | BELL_OVER_STAT | BELL_PHASE_ERR | BELL_W_CFG
  | BELL_W_PITCH_INT | BELL_W_PITCH_FRAC | BELL_W_FILTER | BELL_W_STAT | BELL_W_IDXCNT | BELL_W_POS_LO
  | BELL_W_POS_HI | BELL_W_INTERVAL | BELL_FMAX | BELL_OFF_LO | BELL_OFF_HI | BELL_SKIP_CNT
  | JET_CTRL | JET_STATUS | JET_LEAD_CAP | JET_FIRE_WIDTH | JET_ECHO | JET_DRILL_MIN
  | JET_IMAGE | JET_FLIP_IMAGE | JET_FLIP_TIME | JET_MATCH | JET_BAR_CTRL | JET_BAR_CFG
  | JET_BAR_STAT | JET_BAR_IMAGE | JET_BAR_LINE | JET_BAR_MATCH | JET_BAR_EVSTAT | JET_BAR_UNDERRUN
  | JET_BAR_FIRE_LOST | JET_BAR_SWAPS | JET_BAR_PULSE_CUT | JET_BAR_RING | JET_BAR_IL | JET_BAR_RUNS
  | JET_BAR_DOT_LATE | JET_BAR_PAGES | LINK_CTRL | LINK_STATUS | LINK_ROLE | LINK_FEC_CORR
  | LINK_FEC_UNCORR | LINK_HUB_FEC | LINK_SEQ | LINK_HUB_ACC | LINK_SKEW | LINK_EQ
  | LINK_TRAIN_TIME | LINK_LATE_DROP | LINK_LEAVE_CNT | LINK_BAR_CTRL | LINK_BAR_AFTER | LINK_BAR_STAT
  | LINK_GLOBAL | LINK_FEC_WARN | JET_NH_CTRL | JET_NH_DD_CFG | JET_NH_WINDOW | JET_NH_IMP_LIM
  | JET_NH_IMP_MARGIN | JET_NH_LIMITS | JET_NH_AGE | JET_NH_LAST | JET_NH_TRANSIENT | JET_NH_UNTESTED
  | JET_NH_BAR_STAT | JET_NH_BAR_SPARES | JET_NH_BAR_SWEEP | JET_NH_BAR_PROG | SEE_CTRL | SEE_STATUS
  | SEE_PORT_CFG | SEE_PORT_GEOM | SEE_PORT_STAT | SEE_PORT_FSEQ | SEE_PORT_FIFO | SEE_PORT_ERR
  | SEE_PORT_TIMEOUT | SEE_PORT_TEMPCFG | SEE_PORT_TEMP | SEE_PORT_UPL | SEE_PORT_UPL_SKIP | SEE_VP_STAT
  | HOLD_CTRL | HOLD_STATUS | HOLD_GAIN | HOLD_STEP | HOLD_LIMITS | HOLD_WINDOW
  | HOLD_PAPER_CFG | HOLD_PAPER_RG | HOLD_PAPER_B | HOLD_ALARM | HOLD_DELAY | HOLD_CTX
  | HOLD_LAST_IMAGE | HOLD_SWAP_IMAGE | HOLD_DISCARD_CNT | HOLD_GRAZE | HOLD_GRAZE_STAT | HOLD_SNAP
  | HOLD_CELL_SEL | HOLD_CELL_VAL | HOLD_CELL_PAPER | HOLD_COV | MEMC_STATUS | MEMC_QUEUE
  | MEMC_REF | MEMC_TEMP | MEMC_CE_CNT | MEMC_UE_CNT | MEMC_ERR_ADDR_LO | MEMC_ERR_ADDR_HI
  | MEMC_CA_CNT | MEMC_SCAN_LAT | MEMC_TRAIN | MEMC_GEOM | MEMC_CTRL | MEMC_GSTATUS
  | MEMC_SR_IDLE | MEMC_URGENT | MEMC_CE_LIMIT | MEMC_SCRUB | MEMC_WIPE | PAD_TOTAL
  | PAD_FREE | PAD_DIRTY | PAD_REGIONS | PAD_RETIRE | PAD_RETIRED_N | PAD_Q_LIMIT
  | PAD_Q_RESERVE | PAD_Q_HELD | PAD_Q_PEAK | PAD_RETIRED_LIST | DFL_CTRL | DFL_STATUS
  | DFL_DEMAND | DFL_PACE | DFL_ERR | DFL_ERR_CNT | DFL_EVICT_CNT | DFL_CTX_SEL
  | DFL_CTX_STAT | DFL_CTX_IN | DFL_CTX_OUT | DFL_ERR_TIME | DFL_PROD | DFL_DICT_ID
  | DFL_DICT_LEN | NET_CTRL | NET_STATUS | NET_TIME_LO | NET_TIME_HI | NET_SERVO_CFG
  | NET_STEP_MAX | NET_LOCK | NET_FREQ_MAX | NET_FREQ | NET_OFFSET_LAST | NET_REFUSE_CNT
  | NET_SERVO_OFF_LO | NET_SERVO_OFF_HI | NET_SNAP_CTRL | NET_SNAP_AT_LO | NET_SNAP_AT_HI | NET_SNAP_LAST_LO
  | NET_SNAP_LAST_HI | NET_CEIL_CFG | NET_CEIL_DST_LO | NET_CEIL_DST_HI | NET_CEIL_NODE | NET_CEIL_SEQ
  | NET_CEIL_VLAN | NET_PORT_CFG | NET_PORT_STAT | NET_PORT_MAC_LO | NET_PORT_MAC_HI | NET_PORT_LAT
  | NET_PORT_RX_CNT | NET_PORT_DROP_CNT | NET_PORT_TS_LOST | SYS_PD_CTRL | SYS_PD_STAT | SYS_PD_REFUSE
  | SYS_SHELF | SYS_SHELF_STAT | THERM_CTRL | THERM_STATUS | THERM_TJ | THERM_TJ_MAX
  | THERM_REF | THERM_REF_HOST | THERM_REF_CFG | THERM_REF_DEFAULT | THERM_HS | THERM_BOARD_MW
  | THERM_CHECK | THERM_DIV_LIMIT | THERM_NODE_SEL | THERM_NODE | THERM_VCORE_CFG | THERM_VCORE
  | THERM_PMBUS_CFG | THERM_PWR | THERM_PWR_TOTAL | DROVER_BUDGET | DROVER_CTRL | DROVER_STATUS
  | DROVER_WAIT_WARN | DROVER_WAIT_MAX | DROVER_HOLD_MAX | DROVER_GRANTS | DROVER_FW_REQ | DROVER_CLASS
  | DROVER_HELD | FOLD_STICKY | FOLD_LASTING | FOLD_ENABLE | FOLD_FORCE | FOLD_INJECT
  | FOLD_OPEN | FOLD_HELD | FOLD_CTRL | FOLD_LAST | FOLD_MERGE_CNT | FOLD_ST
  | FOLD_SRAM_CE | FOLD_SEV | FOLD_CLASS | FOLD_COUNT | CROOK_STATUS | CROOK_CTRL
  | CROOK_ENTRIES | CROOK_PADS | MBX_STAGE_PTR_LO | MBX_STAGE_PTR_HI | MBX_STAGE_TAG | MBX_POST
  | MBX_POST_STAT | MBX_CORE_STAT | MBX_CORE_CTRL | MBX_LIMITS | MBX_PTR_LO | MBX_PTR_HI
  | MBX_TAG | MBX_STATE | MBX_ACK | MBX_RESULT | MBX_CLEAR | MBX_STILE
  | MBX_STILE_OWNER | SEC_LC | SEC_BOOT | SEC_DEVICE_ID_LO | SEC_DEVICE_ID_HI | SEC_SVN
  | SEC_NONCE | SEC_TOKEN_ADDR_LO | SEC_TOKEN_ADDR_HI | SEC_TOKEN_CTRL | SEC_TOKEN_STAT | SEC_DBG_CTRL
  | SEC_DBG_STAT | SEC_LOAD_ADDR_LO | SEC_LOAD_ADDR_HI | SEC_LYP_STAT | CAL_CTRL | CAL_STATUS
  | CAL_DT | CAL_GAP | CAL_TOL | CAL_WEAR | CAL_WRITES | CAL_ECC
  | CAL_REC_SEL | CAL_REC_STAT | CAL_REC_GEN | CAL_PORT_STRIP | CAL_PORT_STAT | CAL_PORT_KC_RG
  | CAL_PORT_KC_B | CAL_PORT_REF | TALLY_CTRL | TALLY_STATUS | TALLY_CHUNK_CFG | TALLY_CHUNKS
  | TALLY_EXPORTED | TALLY_OVERWRITE | TALLY_LOST | TALLY_SETUP | TALLY_TABLE_SIG | TALLY_STATUS_SIG
  | TALLY_REPLAY_TIME | TALLY_REPLAY_WAIT | TALLY_DIV_CAUSE | TALLY_DIV_IMAGE | TALLY_DIV_LINE | TALLY_DIV_REC
  | TALLY_DIV_NOW | TALLY_DIV_CNT | TALLY_SNAP_CTRL | TALLY_SNAP_SEL | TALLY_SNAP_VAL | TALLY_SNAP_N
  | SYS_ID | SYS_STRAP | SYS_STATUS | SYS_RST_CAUSE | SYS_RST | SYS_LOCK
  | SYS_BOOT_MS | SYS_LC_VIEW
  deriving DecidableEq, Repr

/-- One row of a register table: registers base, base + stride, … (count of them), with their reset values. -/
structure RegSpec where
  id : RegId
  base : Nat
  stride : Nat
  count : Nat
  rst : Nat → Nat
  fields : List FieldSpec

namespace Reg

def HIF_CTRL : Reg := ⟨0x00100000, 0⟩
def HIF_STATUS : Reg := ⟨0x00100004, 0⟩
def HIF_LINK_STAT : Reg := ⟨0x00100008, 0⟩
def HIF_DB_ADDR_LO : Reg := ⟨0x00100010, 0⟩
def HIF_DB_ADDR_HI : Reg := ⟨0x00100014, 0⟩
def HIF_DB_CFG : Reg := ⟨0x00100018, 2147485648⟩
def HIF_DB_KICK : Reg := ⟨0x0010001C, 0⟩
def HIF_STAGE_WAIT : Reg := ⟨0x00100020, 100⟩
def HIF_RTT : Reg := ⟨0x00100024, 0⟩
def HIF_RING_BASE_LO (i : Nat) : Reg := ⟨0x00101000 + i * 0x20, 0⟩
def HIF_RING_BASE_HI (i : Nat) : Reg := ⟨0x00101004 + i * 0x20, 0⟩
def HIF_RING_CFG (i : Nat) : Reg := ⟨0x00101008 + i * 0x20, 0⟩
def HIF_RING_MOD (i : Nat) : Reg := ⟨0x0010100C + i * 0x20, 1⟩
def HIF_RING_STAT (i : Nat) : Reg := ⟨0x00101010 + i * 0x20, 0⟩
def HIF_EV_MAP (i : Nat) : Reg := ⟨0x00102000 + i * 0x4, (fun i => i) i⟩
def HIF_EV_STATUS (i : Nat) : Reg := ⟨0x00102400 + i * 0x4, 0⟩
def HIF_EV_ENABLE (i : Nat) : Reg := ⟨0x00102420 + i * 0x4, 0⟩
def MSIX_ADDR_LO (i : Nat) : Reg := ⟨0x00180000 + i * 0x10, 0⟩
def MSIX_ADDR_HI (i : Nat) : Reg := ⟨0x00180004 + i * 0x10, 0⟩
def MSIX_DATA (i : Nat) : Reg := ⟨0x00180008 + i * 0x10, 0⟩
def MSIX_VCTRL (i : Nat) : Reg := ⟨0x0018000C + i * 0x10, 1⟩
def MSIX_PBA (i : Nat) : Reg := ⟨0x00181000 + i * 0x4, 0⟩
def LAYER_CTRL : Reg := ⟨0x00800000, 64⟩
def LAYER_LEAD_MIN : Reg := ⟨0x00800004, 512⟩
def LAYER_LEAD_MAX : Reg := ⟨0x00800008, 0⟩
def LAYER_REJECT_DIST : Reg := ⟨0x0080000C, 0⟩
def LAYER_REJECT_WIDTH : Reg := ⟨0x00800010, 1000⟩
def LAYER_STATUS : Reg := ⟨0x00800014, 0⟩
def LAYER_IMAGE : Reg := ⟨0x00800018, 0⟩
def LAYER_NEXT : Reg := ⟨0x0080001C, 0⟩
def LAYER_POS : Reg := ⟨0x00800020, 0⟩
def LAYER_LEAD_NOW : Reg := ⟨0x00800024, 0⟩
def LAYER_FETCH : Reg := ⟨0x00800028, 0⟩
def LAYER_REJECT_CNT : Reg := ⟨0x0080002C, 0⟩
def LAYER_FREEZE_STAT : Reg := ⟨0x00800030, 0⟩
def LAYER_NR_STAT : Reg := ⟨0x00800034, 0⟩
def LAYER_SIG (i : Nat) : Reg := ⟨0x00800040 + i * 0x4, 0⟩
def LAYER_NR_CNT (i : Nat) : Reg := ⟨0x00800060 + i * 0x4, 0⟩
def INK_CTRL : Reg := ⟨0x00900000, 3⟩
def INK_STATUS : Reg := ⟨0x00900004, 0⟩
def INK_TSEL : Reg := ⟨0x00900008, 1⟩
def INK_TSTATE : Reg := ⟨0x0090000C, 0⟩
def INK_TCRC_ACT : Reg := ⟨0x00900010, 0⟩
def INK_TCRC_SHD : Reg := ⟨0x00900014, 0⟩
def INK_VERIFY : Reg := ⟨0x00900018, 100⟩
def INK_PACE_FLOOR : Reg := ⟨0x0090001C, 0⟩
def INK_CLAMP_LIMIT : Reg := ⟨0x00900020, 0⟩
def INK_CLAMP_CNT : Reg := ⟨0x00900024, 0⟩
def INK_COMP_LOST : Reg := ⟨0x00900028, 0⟩
def INK_PENNED_CNT : Reg := ⟨0x0090002C, 0⟩
def INK_PACE (i : Nat) : Reg := ⟨0x00900100 + i * 0x4, 0⟩
def BELL_CTRL : Reg := ⟨0x00B00000, 512⟩
def BELL_STATUS : Reg := ⟨0x00B00004, 16⟩
def BELL_SPEED : Reg := ⟨0x00B00008, 0⟩
def BELL_LRATE : Reg := ⟨0x00B0000C, 0⟩
def BELL_POS_LO : Reg := ⟨0x00B00010, 0⟩
def BELL_POS_HI : Reg := ⟨0x00B00014, 0⟩
def BELL_FPOS_LO : Reg := ⟨0x00B00018, 0⟩
def BELL_FPOS_HI : Reg := ⟨0x00B0001C, 0⟩
def BELL_HWM_LO : Reg := ⟨0x00B00020, 0⟩
def BELL_HWM_HI : Reg := ⟨0x00B00024, 0⟩
def BELL_CEILING : Reg := ⟨0x00B00028, 1342177280⟩
def BELL_CEIL_LINES : Reg := ⟨0x00B0002C, 118110⟩
def BELL_CEIL_DELTA : Reg := ⟨0x00B00030, 500⟩
def BELL_STILL : Reg := ⟨0x00B00034, 50⟩
def BELL_COAST : Reg := ⟨0x00B00038, 8⟩
def BELL_BACK_LIMIT : Reg := ⟨0x00B0003C, 16⟩
def BELL_ENC_CFG : Reg := ⟨0x00B00040, 500⟩
def BELL_ENC_RATIO : Reg := ⟨0x00B00044, 65537⟩
def BELL_DIFF_LIMIT : Reg := ⟨0x00B00048, 8⟩
def BELL_BACK_CNT : Reg := ⟨0x00B00060, 0⟩
def BELL_SLIP_CNT : Reg := ⟨0x00B00064, 0⟩
def BELL_GLITCH_CNT : Reg := ⟨0x00B00068, 0⟩
def BELL_BURST_CNT : Reg := ⟨0x00B0006C, 0⟩
def BELL_ENC_LOST : Reg := ⟨0x00B00070, 0⟩
def BELL_OVER_STAT : Reg := ⟨0x00B00074, 0⟩
def BELL_PHASE_ERR : Reg := ⟨0x00B00078, 0⟩
def BELL_W_CFG (i : Nat) : Reg := ⟨0x00B00100 + i * 0x40, 0⟩
def BELL_W_PITCH_INT (i : Nat) : Reg := ⟨0x00B00104 + i * 0x40, 0⟩
def BELL_W_PITCH_FRAC (i : Nat) : Reg := ⟨0x00B00108 + i * 0x40, 0⟩
def BELL_W_FILTER (i : Nat) : Reg := ⟨0x00B0010C + i * 0x40, 40⟩
def BELL_W_STAT (i : Nat) : Reg := ⟨0x00B00110 + i * 0x40, 0⟩
def BELL_W_IDXCNT (i : Nat) : Reg := ⟨0x00B00114 + i * 0x40, 0⟩
def BELL_W_POS_LO (i : Nat) : Reg := ⟨0x00B00118 + i * 0x40, 0⟩
def BELL_W_POS_HI (i : Nat) : Reg := ⟨0x00B0011C + i * 0x40, 0⟩
def BELL_W_INTERVAL (i : Nat) : Reg := ⟨0x00B00120 + i * 0x40, 0⟩
def BELL_FMAX (i : Nat) : Reg := ⟨0x00B00200 + i * 0x10, 0⟩
def BELL_OFF_LO (i : Nat) : Reg := ⟨0x00B00204 + i * 0x10, 0⟩
def BELL_OFF_HI (i : Nat) : Reg := ⟨0x00B00208 + i * 0x10, 0⟩
def BELL_SKIP_CNT (i : Nat) : Reg := ⟨0x00B0020C + i * 0x10, 0⟩
def JET_CTRL : Reg := ⟨0x00C00000, 624⟩
def JET_STATUS : Reg := ⟨0x00C00004, 0⟩
def JET_LEAD_CAP : Reg := ⟨0x00C00008, 4096⟩
def JET_FIRE_WIDTH : Reg := ⟨0x00C0000C, 500⟩
def JET_ECHO : Reg := ⟨0x00C00010, 3000⟩
def JET_DRILL_MIN : Reg := ⟨0x00C00014, 64⟩
def JET_IMAGE : Reg := ⟨0x00C00018, 0⟩
def JET_FLIP_IMAGE : Reg := ⟨0x00C0001C, 0⟩
def JET_FLIP_TIME : Reg := ⟨0x00C00020, 0⟩
def JET_MATCH : Reg := ⟨0x00C00024, 0⟩
def JET_BAR_CTRL (i : Nat) : Reg := ⟨0x00C00100 + i * 0x40, 0⟩
def JET_BAR_CFG (i : Nat) : Reg := ⟨0x00C00104 + i * 0x40, 0⟩
def JET_BAR_STAT (i : Nat) : Reg := ⟨0x00C00108 + i * 0x40, 0⟩
def JET_BAR_IMAGE (i : Nat) : Reg := ⟨0x00C0010C + i * 0x40, 0⟩
def JET_BAR_LINE (i : Nat) : Reg := ⟨0x00C00110 + i * 0x40, 0⟩
def JET_BAR_MATCH (i : Nat) : Reg := ⟨0x00C00114 + i * 0x40, 0⟩
def JET_BAR_EVSTAT (i : Nat) : Reg := ⟨0x00C00118 + i * 0x40, 0⟩
def JET_BAR_UNDERRUN (i : Nat) : Reg := ⟨0x00C0011C + i * 0x40, 0⟩
def JET_BAR_FIRE_LOST (i : Nat) : Reg := ⟨0x00C00120 + i * 0x40, 0⟩
def JET_BAR_SWAPS (i : Nat) : Reg := ⟨0x00C00124 + i * 0x40, 0⟩
def JET_BAR_PULSE_CUT (i : Nat) : Reg := ⟨0x00C00128 + i * 0x40, 0⟩
def JET_BAR_RING (i : Nat) : Reg := ⟨0x00C0012C + i * 0x40, 0⟩
def JET_BAR_IL (i : Nat) : Reg := ⟨0x00C00130 + i * 0x40, 16842752⟩
def JET_BAR_RUNS (i : Nat) : Reg := ⟨0x00C00134 + i * 0x40, 0⟩
def JET_BAR_DOT_LATE (i : Nat) : Reg := ⟨0x00C00138 + i * 0x40, 0⟩
def JET_BAR_PAGES (i : Nat) : Reg := ⟨0x00C0013C + i * 0x40, 0⟩
def LINK_CTRL (i : Nat) : Reg := ⟨0x00D00000 + i * 0x4000, 1946157056⟩
def LINK_STATUS (i : Nat) : Reg := ⟨0x00D00004 + i * 0x4000, 0⟩
def LINK_ROLE (i : Nat) : Reg := ⟨0x00D00008 + i * 0x4000, (fun i => ((i / 2) % 2) * 2 + i % 2) i⟩
def LINK_FEC_CORR (i : Nat) : Reg := ⟨0x00D0000C + i * 0x4000, 0⟩
def LINK_FEC_UNCORR (i : Nat) : Reg := ⟨0x00D00010 + i * 0x4000, 0⟩
def LINK_HUB_FEC (i : Nat) : Reg := ⟨0x00D00014 + i * 0x4000, 0⟩
def LINK_SEQ (i : Nat) : Reg := ⟨0x00D00018 + i * 0x4000, 0⟩
def LINK_HUB_ACC (i : Nat) : Reg := ⟨0x00D0001C + i * 0x4000, 0⟩
def LINK_SKEW (i : Nat) : Reg := ⟨0x00D00020 + i * 0x4000, 0⟩
def LINK_EQ (i : Nat) : Reg := ⟨0x00D00024 + i * 0x4000, 0⟩
def LINK_TRAIN_TIME (i : Nat) : Reg := ⟨0x00D00028 + i * 0x4000, 0⟩
def LINK_LATE_DROP (i : Nat) : Reg := ⟨0x00D0002C + i * 0x4000, 0⟩
def LINK_LEAVE_CNT (i : Nat) : Reg := ⟨0x00D00030 + i * 0x4000, 0⟩
def LINK_BAR_CTRL (i : Nat) : Reg := ⟨0x00D00100 + i * 0x10000, 64⟩
def LINK_BAR_AFTER (i : Nat) : Reg := ⟨0x00D00104 + i * 0x10000, 1000⟩
def LINK_BAR_STAT (i : Nat) : Reg := ⟨0x00D00108 + i * 0x10000, 0⟩
def LINK_GLOBAL : Reg := ⟨0x00D00200, 1310724⟩
def LINK_FEC_WARN : Reg := ⟨0x00D00204, 20000⟩
def JET_NH_CTRL : Reg := ⟨0x00C01000, 798⟩
def JET_NH_DD_CFG : Reg := ⟨0x00C01004, 537002240⟩
def JET_NH_WINDOW : Reg := ⟨0x00C01008, 26214440⟩
def JET_NH_IMP_LIM : Reg := ⟨0x00C0100C, 4294836225⟩
def JET_NH_IMP_MARGIN : Reg := ⟨0x00C01010, 0⟩
def JET_NH_LIMITS : Reg := ⟨0x00C01014, 3⟩
def JET_NH_AGE : Reg := ⟨0x00C01018, 0⟩
def JET_NH_LAST : Reg := ⟨0x00C0101C, 0⟩
def JET_NH_TRANSIENT : Reg := ⟨0x00C01020, 0⟩
def JET_NH_UNTESTED : Reg := ⟨0x00C01024, 0⟩
def JET_NH_BAR_STAT (i : Nat) : Reg := ⟨0x00C01100 + i * 0x10, 0⟩
def JET_NH_BAR_SPARES (i : Nat) : Reg := ⟨0x00C01104 + i * 0x10, 0⟩
def JET_NH_BAR_SWEEP (i : Nat) : Reg := ⟨0x00C01108 + i * 0x10, 0⟩
def JET_NH_BAR_PROG (i : Nat) : Reg := ⟨0x00C0110C + i * 0x10, 0⟩
def SEE_CTRL : Reg := ⟨0x00E00000, 5⟩
def SEE_STATUS : Reg := ⟨0x00E00004, 0⟩
def SEE_PORT_CFG (i : Nat) : Reg := ⟨0x00E01000 + i * 0x100, (fun i => 0x2B * 65536 + (if i < 4 then 4 else 2) * 4096) i⟩
def SEE_PORT_GEOM (i : Nat) : Reg := ⟨0x00E01004 + i * 0x100, 0⟩
def SEE_PORT_STAT (i : Nat) : Reg := ⟨0x00E01008 + i * 0x100, 0⟩
def SEE_PORT_FSEQ (i : Nat) : Reg := ⟨0x00E0100C + i * 0x100, 0⟩
def SEE_PORT_FIFO (i : Nat) : Reg := ⟨0x00E01010 + i * 0x100, 0⟩
def SEE_PORT_ERR (i : Nat) : Reg := ⟨0x00E01014 + i * 0x100, 0⟩
def SEE_PORT_TIMEOUT (i : Nat) : Reg := ⟨0x00E01018 + i * 0x100, 500⟩
def SEE_PORT_TEMPCFG (i : Nat) : Reg := ⟨0x00E0101C + i * 0x100, 0⟩
def SEE_PORT_TEMP (i : Nat) : Reg := ⟨0x00E01020 + i * 0x100, 0⟩
def SEE_PORT_UPL (i : Nat) : Reg := ⟨0x00E01024 + i * 0x100, 0⟩
def SEE_PORT_UPL_SKIP (i : Nat) : Reg := ⟨0x00E01028 + i * 0x100, 0⟩
def SEE_VP_STAT (i : Nat) : Reg := ⟨0x00E02000 + i * 0x100, 0⟩
def HOLD_CTRL : Reg := ⟨0x00A00000, 4278190084⟩
def HOLD_STATUS : Reg := ⟨0x00A00004, 0⟩
def HOLD_GAIN : Reg := ⟨0x00A00008, 5374362⟩
def HOLD_STEP : Reg := ⟨0x00A0000C, 164⟩
def HOLD_LIMITS : Reg := ⟨0x00A00010, 1342189568⟩
def HOLD_WINDOW : Reg := ⟨0x00A00014, 0⟩
def HOLD_PAPER_CFG : Reg := ⟨0x00A00018, 538550288⟩
def HOLD_PAPER_RG : Reg := ⟨0x00A0001C, 0⟩
def HOLD_PAPER_B : Reg := ⟨0x00A00020, 0⟩
def HOLD_ALARM : Reg := ⟨0x00A00024, 17173709⟩
def HOLD_DELAY : Reg := ⟨0x00A00028, 4026531840⟩
def HOLD_CTX : Reg := ⟨0x00A0002C, 0⟩
def HOLD_LAST_IMAGE : Reg := ⟨0x00A00030, 0⟩
def HOLD_SWAP_IMAGE : Reg := ⟨0x00A00034, 0⟩
def HOLD_DISCARD_CNT : Reg := ⟨0x00A00038, 0⟩
def HOLD_GRAZE : Reg := ⟨0x00A0003C, 176⟩
def HOLD_GRAZE_STAT : Reg := ⟨0x00A00040, 0⟩
def HOLD_SNAP : Reg := ⟨0x00A00044, 60⟩
def HOLD_CELL_SEL : Reg := ⟨0x00A00048, 0⟩
def HOLD_CELL_VAL : Reg := ⟨0x00A0004C, 0⟩
def HOLD_CELL_PAPER : Reg := ⟨0x00A00050, 0⟩
def HOLD_COV : Reg := ⟨0x00A00054, 0⟩
def MEMC_STATUS (i : Nat) : Reg := ⟨0x00500000 + i * 0x10000, 0⟩
def MEMC_QUEUE (i : Nat) : Reg := ⟨0x00500004 + i * 0x10000, 0⟩
def MEMC_REF (i : Nat) : Reg := ⟨0x00500008 + i * 0x10000, 0⟩
def MEMC_TEMP (i : Nat) : Reg := ⟨0x0050000C + i * 0x10000, 0⟩
def MEMC_CE_CNT (i : Nat) : Reg := ⟨0x00500010 + i * 0x10000, 0⟩
def MEMC_UE_CNT (i : Nat) : Reg := ⟨0x00500014 + i * 0x10000, 0⟩
def MEMC_ERR_ADDR_LO (i : Nat) : Reg := ⟨0x00500018 + i * 0x10000, 0⟩
def MEMC_ERR_ADDR_HI (i : Nat) : Reg := ⟨0x0050001C + i * 0x10000, 0⟩
def MEMC_CA_CNT (i : Nat) : Reg := ⟨0x00500020 + i * 0x10000, 0⟩
def MEMC_SCAN_LAT (i : Nat) : Reg := ⟨0x00500024 + i * 0x10000, 0⟩
def MEMC_TRAIN (i : Nat) : Reg := ⟨0x00500028 + i * 0x10000, 0⟩
def MEMC_GEOM : Reg := ⟨0x00508000, 16712192⟩
def MEMC_CTRL : Reg := ⟨0x00508004, 7⟩
def MEMC_GSTATUS : Reg := ⟨0x00508008, 0⟩
def MEMC_SR_IDLE : Reg := ⟨0x0050800C, 500⟩
def MEMC_URGENT : Reg := ⟨0x00508010, 6000⟩
def MEMC_CE_LIMIT : Reg := ⟨0x00508014, 100⟩
def MEMC_SCRUB : Reg := ⟨0x00508018, 1572868⟩
def MEMC_WIPE : Reg := ⟨0x0050801C, 0⟩
def PAD_TOTAL : Reg := ⟨0x00600000, 0⟩
def PAD_FREE : Reg := ⟨0x00600004, 0⟩
def PAD_DIRTY : Reg := ⟨0x00600008, 0⟩
def PAD_REGIONS : Reg := ⟨0x0060000C, 0⟩
def PAD_RETIRE : Reg := ⟨0x00600010, 0⟩
def PAD_RETIRED_N : Reg := ⟨0x00600014, 0⟩
def PAD_Q_LIMIT (i : Nat) : Reg := ⟨0x00600100 + i * 0x10, 2147549184⟩
def PAD_Q_RESERVE (i : Nat) : Reg := ⟨0x00600104 + i * 0x10, 0⟩
def PAD_Q_HELD (i : Nat) : Reg := ⟨0x00600108 + i * 0x10, 0⟩
def PAD_Q_PEAK (i : Nat) : Reg := ⟨0x0060010C + i * 0x10, 0⟩
def PAD_RETIRED_LIST (i : Nat) : Reg := ⟨0x00601000 + i * 0x4, 0⟩
def DFL_CTRL : Reg := ⟨0x00700000, 8⟩
def DFL_STATUS : Reg := ⟨0x00700004, 0⟩
def DFL_DEMAND : Reg := ⟨0x00700008, 0⟩
def DFL_PACE : Reg := ⟨0x0070000C, 0⟩
def DFL_ERR : Reg := ⟨0x00700010, 0⟩
def DFL_ERR_CNT : Reg := ⟨0x00700014, 0⟩
def DFL_EVICT_CNT : Reg := ⟨0x00700018, 0⟩
def DFL_CTX_SEL : Reg := ⟨0x0070001C, 0⟩
def DFL_CTX_STAT : Reg := ⟨0x00700020, 0⟩
def DFL_CTX_IN : Reg := ⟨0x00700024, 0⟩
def DFL_CTX_OUT : Reg := ⟨0x00700028, 0⟩
def DFL_ERR_TIME : Reg := ⟨0x0070002C, 0⟩
def DFL_PROD (i : Nat) : Reg := ⟨0x00700100 + i * 0x4, 0⟩
def DFL_DICT_ID (i : Nat) : Reg := ⟨0x00700200 + i * 0x8, 0⟩
def DFL_DICT_LEN (i : Nat) : Reg := ⟨0x00700204 + i * 0x8, 0⟩
def NET_CTRL : Reg := ⟨0x00F00000, 0⟩
def NET_STATUS : Reg := ⟨0x00F00004, 0⟩
def NET_TIME_LO : Reg := ⟨0x00F00010, 0⟩
def NET_TIME_HI : Reg := ⟨0x00F00014, 0⟩
def NET_SERVO_CFG : Reg := ⟨0x00F00018, 5046451⟩
def NET_STEP_MAX : Reg := ⟨0x00F0001C, 1000⟩
def NET_LOCK : Reg := ⟨0x00F00020, 196608100⟩
def NET_FREQ_MAX : Reg := ⟨0x00F00024, 100000⟩
def NET_FREQ : Reg := ⟨0x00F00028, 0⟩
def NET_OFFSET_LAST : Reg := ⟨0x00F0002C, 0⟩
def NET_REFUSE_CNT : Reg := ⟨0x00F00030, 0⟩
def NET_SERVO_OFF_LO : Reg := ⟨0x00F00034, 0⟩
def NET_SERVO_OFF_HI : Reg := ⟨0x00F00038, 0⟩
def NET_SNAP_CTRL : Reg := ⟨0x00F00040, 0⟩
def NET_SNAP_AT_LO : Reg := ⟨0x00F00044, 0⟩
def NET_SNAP_AT_HI : Reg := ⟨0x00F00048, 0⟩
def NET_SNAP_LAST_LO : Reg := ⟨0x00F0004C, 0⟩
def NET_SNAP_LAST_HI : Reg := ⟨0x00F00050, 0⟩
def NET_CEIL_CFG : Reg := ⟨0x00F00060, 10⟩
def NET_CEIL_DST_LO : Reg := ⟨0x00F00064, 9024⟩
def NET_CEIL_DST_HI : Reg := ⟨0x00F00068, 768⟩
def NET_CEIL_NODE : Reg := ⟨0x00F0006C, 0⟩
def NET_CEIL_SEQ : Reg := ⟨0x00F00070, 0⟩
def NET_CEIL_VLAN : Reg := ⟨0x00F00074, 0⟩
def NET_PORT_CFG (i : Nat) : Reg := ⟨0x00F00100 + i * 0x40, 2⟩
def NET_PORT_STAT (i : Nat) : Reg := ⟨0x00F00104 + i * 0x40, 0⟩
def NET_PORT_MAC_LO (i : Nat) : Reg := ⟨0x00F00108 + i * 0x40, 0⟩
def NET_PORT_MAC_HI (i : Nat) : Reg := ⟨0x00F0010C + i * 0x40, 0⟩
def NET_PORT_LAT (i : Nat) : Reg := ⟨0x00F00110 + i * 0x40, 0⟩
def NET_PORT_RX_CNT (i : Nat) : Reg := ⟨0x00F00114 + i * 0x40, 0⟩
def NET_PORT_DROP_CNT (i : Nat) : Reg := ⟨0x00F00118 + i * 0x40, 0⟩
def NET_PORT_TS_LOST (i : Nat) : Reg := ⟨0x00F0011C + i * 0x40, 0⟩
def SYS_PD_CTRL (i : Nat) : Reg := ⟨0x00001000 + i * 0x4, 0⟩
def SYS_PD_STAT : Reg := ⟨0x00001040, 0⟩
def SYS_PD_REFUSE : Reg := ⟨0x00001044, 0⟩
def SYS_SHELF : Reg := ⟨0x00001050, 0⟩
def SYS_SHELF_STAT : Reg := ⟨0x00001054, 0⟩
def THERM_CTRL : Reg := ⟨0x00400000, 6⟩
def THERM_STATUS : Reg := ⟨0x00400004, 16⟩
def THERM_TJ : Reg := ⟨0x00400008, 0⟩
def THERM_TJ_MAX : Reg := ⟨0x0040000C, 0⟩
def THERM_REF : Reg := ⟨0x00400010, 0⟩
def THERM_REF_HOST : Reg := ⟨0x00400014, 0⟩
def THERM_REF_CFG : Reg := ⟨0x00400018, 1207960552⟩
def THERM_REF_DEFAULT : Reg := ⟨0x0040001C, 41946240⟩
def THERM_HS : Reg := ⟨0x00400020, 0⟩
def THERM_BOARD_MW : Reg := ⟨0x00400024, 0⟩
def THERM_CHECK : Reg := ⟨0x00400028, 0⟩
def THERM_DIV_LIMIT : Reg := ⟨0x0040002C, 640⟩
def THERM_NODE_SEL : Reg := ⟨0x00400030, 0⟩
def THERM_NODE : Reg := ⟨0x00400034, 0⟩
def THERM_VCORE_CFG : Reg := ⟨0x00400040, 3404595800⟩
def THERM_VCORE : Reg := ⟨0x00400044, 0⟩
def THERM_PMBUS_CFG : Reg := ⟨0x00400048, 1476920820⟩
def THERM_PWR (i : Nat) : Reg := ⟨0x00400100 + i * 0x4, 0⟩
def THERM_PWR_TOTAL : Reg := ⟨0x00400140, 0⟩
def DROVER_BUDGET : Reg := ⟨0x00480000, 30409344⟩
def DROVER_CTRL : Reg := ⟨0x00480004, 3⟩
def DROVER_STATUS : Reg := ⟨0x00480008, 0⟩
def DROVER_WAIT_WARN : Reg := ⟨0x0048000C, 500000⟩
def DROVER_WAIT_MAX : Reg := ⟨0x00480010, 0⟩
def DROVER_HOLD_MAX : Reg := ⟨0x00480014, 10⟩
def DROVER_GRANTS : Reg := ⟨0x00480018, 0⟩
def DROVER_FW_REQ : Reg := ⟨0x00480020, 0⟩
def DROVER_CLASS (i : Nat) : Reg := ⟨0x00480100 + i * 0x4, (fun i => ([32772, 98308, 131072, 196624, 262144, 327680, 393216, 458752] : List Nat).getD i 0) i⟩
def DROVER_HELD (i : Nat) : Reg := ⟨0x00480140 + i * 0x4, 0⟩
def FOLD_STICKY (i : Nat) : Reg := ⟨0x00300000 + i * 0x4, 0⟩
def FOLD_LASTING (i : Nat) : Reg := ⟨0x00300010 + i * 0x4, 0⟩
def FOLD_ENABLE (i : Nat) : Reg := ⟨0x00300020 + i * 0x4, 4294967295⟩
def FOLD_FORCE (i : Nat) : Reg := ⟨0x00300030 + i * 0x4, 0⟩
def FOLD_INJECT : Reg := ⟨0x00300040, 0⟩
def FOLD_OPEN : Reg := ⟨0x00300044, 0⟩
def FOLD_HELD : Reg := ⟨0x00300048, 0⟩
def FOLD_CTRL : Reg := ⟨0x0030004C, 100⟩
def FOLD_LAST : Reg := ⟨0x00300050, 0⟩
def FOLD_MERGE_CNT : Reg := ⟨0x00300054, 0⟩
def FOLD_ST : Reg := ⟨0x00300058, 0⟩
def FOLD_SRAM_CE : Reg := ⟨0x0030005C, 0⟩
def FOLD_SEV (i : Nat) : Reg := ⟨0x00300100 + i * 0x4, (fun i => ([17, 589961, 799808, 0, 65553, 8192, 0, 0, 8256, 4, 128, 6389760, 0, 0, 0, 2884752] : List Nat).getD i 0) i⟩
def FOLD_CLASS (i : Nat) : Reg := ⟨0x00300200 + i * 0x4, (fun i => ([1, 1, 0, 1, 0, 2, 0, 0, 0, 0, 2, 256, 0, 0, 0, 258] : List Nat).getD i 0) i⟩
def FOLD_COUNT (i : Nat) : Reg := ⟨0x00300400 + i * 0x4, 0⟩
def CROOK_STATUS : Reg := ⟨0x00380000, 1610612864⟩
def CROOK_CTRL : Reg := ⟨0x00380004, 0⟩
def CROOK_ENTRIES : Reg := ⟨0x00380008, 0⟩
def CROOK_PADS : Reg := ⟨0x0038000C, 0⟩
def MBX_STAGE_PTR_LO : Reg := ⟨0x00200000, 0⟩
def MBX_STAGE_PTR_HI : Reg := ⟨0x00200004, 0⟩
def MBX_STAGE_TAG : Reg := ⟨0x00200008, 0⟩
def MBX_POST : Reg := ⟨0x0020000C, 0⟩
def MBX_POST_STAT : Reg := ⟨0x00200010, 0⟩
def MBX_CORE_STAT : Reg := ⟨0x00200014, 0⟩
def MBX_CORE_CTRL : Reg := ⟨0x00200018, 0⟩
def MBX_LIMITS : Reg := ⟨0x0020001C, 655360100⟩
def MBX_PTR_LO (i : Nat) : Reg := ⟨0x00200100 + i * 0x20, 0⟩
def MBX_PTR_HI (i : Nat) : Reg := ⟨0x00200104 + i * 0x20, 0⟩
def MBX_TAG (i : Nat) : Reg := ⟨0x00200108 + i * 0x20, 0⟩
def MBX_STATE (i : Nat) : Reg := ⟨0x0020010C + i * 0x20, 0⟩
def MBX_ACK (i : Nat) : Reg := ⟨0x00200110 + i * 0x20, 0⟩
def MBX_RESULT (i : Nat) : Reg := ⟨0x00200114 + i * 0x20, 0⟩
def MBX_CLEAR (i : Nat) : Reg := ⟨0x00200118 + i * 0x20, 0⟩
def MBX_STILE (i : Nat) : Reg := ⟨0x00200400 + i * 0x4, 0⟩
def MBX_STILE_OWNER (i : Nat) : Reg := ⟨0x00200420 + i * 0x4, 0⟩
def SEC_LC : Reg := ⟨0x01200000, 0⟩
def SEC_BOOT : Reg := ⟨0x01200004, 0⟩
def SEC_DEVICE_ID_LO : Reg := ⟨0x01200008, 0⟩
def SEC_DEVICE_ID_HI : Reg := ⟨0x0120000C, 0⟩
def SEC_SVN (i : Nat) : Reg := ⟨0x01200010 + i * 0x4, 0⟩
def SEC_NONCE (i : Nat) : Reg := ⟨0x01200020 + i * 0x4, 0⟩
def SEC_TOKEN_ADDR_LO : Reg := ⟨0x01200040, 0⟩
def SEC_TOKEN_ADDR_HI : Reg := ⟨0x01200044, 0⟩
def SEC_TOKEN_CTRL : Reg := ⟨0x01200048, 0⟩
def SEC_TOKEN_STAT : Reg := ⟨0x0120004C, 0⟩
def SEC_DBG_CTRL : Reg := ⟨0x01200050, 0⟩
def SEC_DBG_STAT : Reg := ⟨0x01200054, 0⟩
def SEC_LOAD_ADDR_LO : Reg := ⟨0x01200058, 0⟩
def SEC_LOAD_ADDR_HI : Reg := ⟨0x0120005C, 0⟩
def SEC_LYP_STAT : Reg := ⟨0x01200060, 0⟩
def CAL_CTRL : Reg := ⟨0x01100000, 2147484148⟩
def CAL_STATUS : Reg := ⟨0x01100004, 0⟩
def CAL_DT : Reg := ⟨0x01100008, 256⟩
def CAL_GAP : Reg := ⟨0x0110000C, 8389120⟩
def CAL_TOL : Reg := ⟨0x01100010, 50⟩
def CAL_WEAR : Reg := ⟨0x01100014, 900⟩
def CAL_WRITES : Reg := ⟨0x01100018, 0⟩
def CAL_ECC : Reg := ⟨0x0110001C, 0⟩
def CAL_REC_SEL : Reg := ⟨0x01100020, 0⟩
def CAL_REC_STAT : Reg := ⟨0x01100024, 0⟩
def CAL_REC_GEN : Reg := ⟨0x01100028, 0⟩
def CAL_PORT_STRIP (i : Nat) : Reg := ⟨0x01100100 + i * 0x20, 0⟩
def CAL_PORT_STAT (i : Nat) : Reg := ⟨0x01100104 + i * 0x20, 0⟩
def CAL_PORT_KC_RG (i : Nat) : Reg := ⟨0x01100108 + i * 0x20, 0⟩
def CAL_PORT_KC_B (i : Nat) : Reg := ⟨0x0110010C + i * 0x20, 0⟩
def CAL_PORT_REF (i : Nat) : Reg := ⟨0x01100110 + i * 0x20, 0⟩
def TALLY_CTRL : Reg := ⟨0x01000000, 1⟩
def TALLY_STATUS : Reg := ⟨0x01000004, 0⟩
def TALLY_CHUNK_CFG : Reg := ⟨0x01000008, 65536256⟩
def TALLY_CHUNKS : Reg := ⟨0x0100000C, 0⟩
def TALLY_EXPORTED : Reg := ⟨0x01000010, 0⟩
def TALLY_OVERWRITE : Reg := ⟨0x01000014, 0⟩
def TALLY_LOST : Reg := ⟨0x01000018, 0⟩
def TALLY_SETUP : Reg := ⟨0x0100001C, 0⟩
def TALLY_TABLE_SIG : Reg := ⟨0x01000020, 0⟩
def TALLY_STATUS_SIG : Reg := ⟨0x01000024, 0⟩
def TALLY_REPLAY_TIME : Reg := ⟨0x01000028, 0⟩
def TALLY_REPLAY_WAIT : Reg := ⟨0x0100002C, 1000⟩
def TALLY_DIV_CAUSE : Reg := ⟨0x01000030, 0⟩
def TALLY_DIV_IMAGE : Reg := ⟨0x01000034, 0⟩
def TALLY_DIV_LINE : Reg := ⟨0x01000038, 0⟩
def TALLY_DIV_REC : Reg := ⟨0x0100003C, 0⟩
def TALLY_DIV_NOW : Reg := ⟨0x01000040, 0⟩
def TALLY_DIV_CNT : Reg := ⟨0x01000044, 0⟩
def TALLY_SNAP_CTRL : Reg := ⟨0x01000050, 0⟩
def TALLY_SNAP_SEL : Reg := ⟨0x01000054, 0⟩
def TALLY_SNAP_VAL : Reg := ⟨0x01000058, 0⟩
def TALLY_SNAP_N : Reg := ⟨0x0100005C, 0⟩
def SYS_ID : Reg := ⟨0x00000000, 591397040⟩
def SYS_STRAP : Reg := ⟨0x00000004, 0⟩
def SYS_STATUS : Reg := ⟨0x00000008, 0⟩
def SYS_RST_CAUSE : Reg := ⟨0x0000000C, 0⟩
def SYS_RST : Reg := ⟨0x00000010, 0⟩
def SYS_LOCK : Reg := ⟨0x00000014, 0⟩
def SYS_BOOT_MS : Reg := ⟨0x00000018, 0⟩
def SYS_LC_VIEW : Reg := ⟨0x0000001C, 0⟩

end Reg

namespace Fld

def HIF_CTRL_quiesce : Field := ⟨Reg.HIF_CTRL, 1, 1⟩
def HIF_CTRL_db_enable : Field := ⟨Reg.HIF_CTRL, 0, 0⟩
def HIF_STATUS_slow : Field := ⟨Reg.HIF_STATUS, 2, 2⟩
def HIF_STATUS_quiesced : Field := ⟨Reg.HIF_STATUS, 1, 1⟩
def HIF_STATUS_ready : Field := ⟨Reg.HIF_STATUS, 0, 0⟩
def HIF_LINK_STAT_up : Field := ⟨Reg.HIF_LINK_STAT, 8, 8⟩
def HIF_LINK_STAT_rate : Field := ⟨Reg.HIF_LINK_STAT, 7, 4⟩
def HIF_LINK_STAT_width : Field := ⟨Reg.HIF_LINK_STAT, 3, 0⟩
def HIF_DB_ADDR_LO_value : Field := ⟨Reg.HIF_DB_ADDR_LO, 31, 12⟩
def HIF_DB_ADDR_HI_value : Field := ⟨Reg.HIF_DB_ADDR_HI, 31, 0⟩
def HIF_DB_CFG_backoff_en : Field := ⟨Reg.HIF_DB_CFG, 31, 31⟩
def HIF_DB_CFG_db_poll : Field := ⟨Reg.HIF_DB_CFG, 19, 0⟩
def HIF_DB_KICK_kick : Field := ⟨Reg.HIF_DB_KICK, 31, 0⟩
def HIF_STAGE_WAIT_stage_wait : Field := ⟨Reg.HIF_STAGE_WAIT, 15, 0⟩
def HIF_RTT_last : Field := ⟨Reg.HIF_RTT, 15, 0⟩
def HIF_RTT_max : Field := ⟨Reg.HIF_RTT, 31, 16⟩
def HIF_RING_BASE_LO_value (i : Nat) : Field := ⟨Reg.HIF_RING_BASE_LO i, 31, 12⟩
def HIF_RING_BASE_HI_value (i : Nat) : Field := ⟨Reg.HIF_RING_BASE_HI i, 31, 0⟩
def HIF_RING_CFG_enable (i : Nat) : Field := ⟨Reg.HIF_RING_CFG i, 31, 31⟩
def HIF_RING_CFG_halted (i : Nat) : Field := ⟨Reg.HIF_RING_CFG i, 30, 30⟩
def HIF_RING_CFG_kind (i : Nat) : Field := ⟨Reg.HIF_RING_CFG i, 24, 24⟩
def HIF_RING_CFG_size_log2 (i : Nat) : Field := ⟨Reg.HIF_RING_CFG i, 20, 16⟩
def HIF_RING_CFG_cring (i : Nat) : Field := ⟨Reg.HIF_RING_CFG i, 13, 8⟩
def HIF_RING_CFG_prio (i : Nat) : Field := ⟨Reg.HIF_RING_CFG i, 6, 6⟩
def HIF_RING_CFG_check (i : Nat) : Field := ⟨Reg.HIF_RING_CFG i, 5, 5⟩
def HIF_RING_CFG_event (i : Nat) : Field := ⟨Reg.HIF_RING_CFG i, 3, 0⟩
def HIF_RING_MOD_mod_time (i : Nat) : Field := ⟨Reg.HIF_RING_MOD i, 31, 16⟩
def HIF_RING_MOD_mod_count (i : Nat) : Field := ⟨Reg.HIF_RING_MOD i, 15, 0⟩
def HIF_RING_STAT_cause (i : Nat) : Field := ⟨Reg.HIF_RING_STAT i, 31, 28⟩
def HIF_RING_STAT_pending (i : Nat) : Field := ⟨Reg.HIF_RING_STAT i, 16, 16⟩
def HIF_RING_STAT_slot (i : Nat) : Field := ⟨Reg.HIF_RING_STAT i, 15, 0⟩
def HIF_EV_MAP_vector (i : Nat) : Field := ⟨Reg.HIF_EV_MAP i, 7, 0⟩
def HIF_EV_STATUS_status (i : Nat) : Field := ⟨Reg.HIF_EV_STATUS i, 31, 0⟩
def HIF_EV_ENABLE_enable (i : Nat) : Field := ⟨Reg.HIF_EV_ENABLE i, 31, 0⟩
def MSIX_ADDR_LO_value (i : Nat) : Field := ⟨Reg.MSIX_ADDR_LO i, 31, 0⟩
def MSIX_ADDR_HI_value (i : Nat) : Field := ⟨Reg.MSIX_ADDR_HI i, 31, 0⟩
def MSIX_DATA_value (i : Nat) : Field := ⟨Reg.MSIX_DATA i, 31, 0⟩
def MSIX_VCTRL_mask (i : Nat) : Field := ⟨Reg.MSIX_VCTRL i, 0, 0⟩
def MSIX_PBA_pending (i : Nat) : Field := ⟨Reg.MSIX_PBA i, 31, 0⟩
def LAYER_CTRL_reject_pol : Field := ⟨Reg.LAYER_CTRL, 17, 17⟩
def LAYER_CTRL_reject_en : Field := ⟨Reg.LAYER_CTRL, 16, 16⟩
def LAYER_CTRL_latch_lines : Field := ⟨Reg.LAYER_CTRL, 12, 0⟩
def LAYER_LEAD_MIN_lead_min : Field := ⟨Reg.LAYER_LEAD_MIN, 23, 0⟩
def LAYER_LEAD_MAX_lead_max : Field := ⟨Reg.LAYER_LEAD_MAX, 23, 0⟩
def LAYER_REJECT_DIST_reject_dist : Field := ⟨Reg.LAYER_REJECT_DIST, 31, 0⟩
def LAYER_REJECT_WIDTH_reject_width : Field := ⟨Reg.LAYER_REJECT_WIDTH, 15, 0⟩
def LAYER_STATUS_queued : Field := ⟨Reg.LAYER_STATUS, 15, 9⟩
def LAYER_STATUS_lead_low : Field := ⟨Reg.LAYER_STATUS, 3, 3⟩
def LAYER_STATUS_in_gap : Field := ⟨Reg.LAYER_STATUS, 2, 2⟩
def LAYER_STATUS_repeat : Field := ⟨Reg.LAYER_STATUS, 1, 1⟩
def LAYER_STATUS_job_open : Field := ⟨Reg.LAYER_STATUS, 0, 0⟩
def LAYER_IMAGE_image : Field := ⟨Reg.LAYER_IMAGE, 31, 0⟩
def LAYER_NEXT_value : Field := ⟨Reg.LAYER_NEXT, 31, 0⟩
def LAYER_POS_value : Field := ⟨Reg.LAYER_POS, 23, 0⟩
def LAYER_LEAD_NOW_value : Field := ⟨Reg.LAYER_LEAD_NOW, 23, 0⟩
def LAYER_FETCH_value : Field := ⟨Reg.LAYER_FETCH, 31, 0⟩
def LAYER_REJECT_CNT_value : Field := ⟨Reg.LAYER_REJECT_CNT, 31, 0⟩
def LAYER_FREEZE_STAT_value : Field := ⟨Reg.LAYER_FREEZE_STAT, 7, 0⟩
def LAYER_NR_STAT_lyp : Field := ⟨Reg.LAYER_NR_STAT, 8, 8⟩
def LAYER_NR_STAT_layers : Field := ⟨Reg.LAYER_NR_STAT, 7, 0⟩
def LAYER_SIG_value (i : Nat) : Field := ⟨Reg.LAYER_SIG i, 31, 0⟩
def LAYER_NR_CNT_value (i : Nat) : Field := ⟨Reg.LAYER_NR_CNT i, 31, 0⟩
def INK_CTRL_verify_en : Field := ⟨Reg.INK_CTRL, 1, 1⟩
def INK_CTRL_comp_en : Field := ⟨Reg.INK_CTRL, 0, 0⟩
def INK_STATUS_screen_wait : Field := ⟨Reg.INK_STATUS, 7, 7⟩
def INK_STATUS_tile_wait : Field := ⟨Reg.INK_STATUS, 6, 6⟩
def INK_STATUS_lin_wait : Field := ⟨Reg.INK_STATUS, 5, 5⟩
def INK_STATUS_cs_wait : Field := ⟨Reg.INK_STATUS, 3, 0⟩
def INK_TSEL_sub : Field := ⟨Reg.INK_TSEL, 23, 16⟩
def INK_TSEL_index : Field := ⟨Reg.INK_TSEL, 15, 8⟩
def INK_TSEL_type : Field := ⟨Reg.INK_TSEL, 7, 0⟩
def INK_TSTATE_dims : Field := ⟨Reg.INK_TSTATE, 2, 2⟩
def INK_TSTATE_shadow_valid : Field := ⟨Reg.INK_TSTATE, 1, 1⟩
def INK_TSTATE_active_loaded : Field := ⟨Reg.INK_TSTATE, 0, 0⟩
def INK_TCRC_ACT_value : Field := ⟨Reg.INK_TCRC_ACT, 31, 0⟩
def INK_TCRC_SHD_value : Field := ⟨Reg.INK_TCRC_SHD, 31, 0⟩
def INK_VERIFY_verify_ms : Field := ⟨Reg.INK_VERIFY, 15, 0⟩
def INK_PACE_FLOOR_pace_floor : Field := ⟨Reg.INK_PACE_FLOOR, 15, 0⟩
def INK_CLAMP_LIMIT_value : Field := ⟨Reg.INK_CLAMP_LIMIT, 23, 0⟩
def INK_CLAMP_CNT_value : Field := ⟨Reg.INK_CLAMP_CNT, 31, 0⟩
def INK_COMP_LOST_value : Field := ⟨Reg.INK_COMP_LOST, 31, 0⟩
def INK_PENNED_CNT_value : Field := ⟨Reg.INK_PENNED_CNT, 23, 0⟩
def INK_PACE_pace_min (i : Nat) : Field := ⟨Reg.INK_PACE i, 31, 16⟩
def INK_PACE_pace_last (i : Nat) : Field := ⟨Reg.INK_PACE i, 15, 0⟩
def BELL_CTRL_res_600 : Field := ⟨Reg.BELL_CTRL, 15, 15⟩
def BELL_CTRL_speed_avg : Field := ⟨Reg.BELL_CTRL, 14, 12⟩
def BELL_CTRL_overspeed : Field := ⟨Reg.BELL_CTRL, 9, 8⟩
def BELL_CTRL_src_auto : Field := ⟨Reg.BELL_CTRL, 4, 4⟩
def BELL_CTRL_src : Field := ⟨Reg.BELL_CTRL, 3, 3⟩
def BELL_CTRL_w1_mode : Field := ⟨Reg.BELL_CTRL, 2, 2⟩
def BELL_CTRL_dir_sel : Field := ⟨Reg.BELL_CTRL, 1, 0⟩
def BELL_STATUS_pll_lock : Field := ⟨Reg.BELL_STATUS, 10, 10⟩
def BELL_STATUS_slewing : Field := ⟨Reg.BELL_STATUS, 9, 9⟩
def BELL_STATUS_ceil_low : Field := ⟨Reg.BELL_STATUS, 8, 8⟩
def BELL_STATUS_src_now : Field := ⟨Reg.BELL_STATUS, 7, 7⟩
def BELL_STATUS_coast : Field := ⟨Reg.BELL_STATUS, 6, 6⟩
def BELL_STATUS_reversing : Field := ⟨Reg.BELL_STATUS, 5, 5⟩
def BELL_STATUS_still : Field := ⟨Reg.BELL_STATUS, 4, 4⟩
def BELL_STATUS_speed_valid : Field := ⟨Reg.BELL_STATUS, 3, 3⟩
def BELL_STATUS_state : Field := ⟨Reg.BELL_STATUS, 2, 0⟩
def BELL_SPEED_value : Field := ⟨Reg.BELL_SPEED, 31, 0⟩
def BELL_LRATE_value : Field := ⟨Reg.BELL_LRATE, 23, 0⟩
def BELL_POS_LO_value : Field := ⟨Reg.BELL_POS_LO, 31, 0⟩
def BELL_POS_HI_value : Field := ⟨Reg.BELL_POS_HI, 15, 0⟩
def BELL_FPOS_LO_value : Field := ⟨Reg.BELL_FPOS_LO, 31, 0⟩
def BELL_FPOS_HI_value : Field := ⟨Reg.BELL_FPOS_HI, 15, 0⟩
def BELL_HWM_LO_value : Field := ⟨Reg.BELL_HWM_LO, 31, 0⟩
def BELL_HWM_HI_value : Field := ⟨Reg.BELL_HWM_HI, 15, 0⟩
def BELL_CEILING_term : Field := ⟨Reg.BELL_CEILING, 31, 28⟩
def BELL_CEILING_speed : Field := ⟨Reg.BELL_CEILING, 27, 0⟩
def BELL_CEIL_LINES_unit : Field := ⟨Reg.BELL_CEIL_LINES, 28, 24⟩
def BELL_CEIL_LINES_lines : Field := ⟨Reg.BELL_CEIL_LINES, 23, 0⟩
def BELL_CEIL_DELTA_ceil_delta : Field := ⟨Reg.BELL_CEIL_DELTA, 23, 0⟩
def BELL_STILL_still_timeout : Field := ⟨Reg.BELL_STILL, 9, 0⟩
def BELL_COAST_coast_teeth : Field := ⟨Reg.BELL_COAST, 7, 0⟩
def BELL_BACK_LIMIT_back_limit : Field := ⟨Reg.BELL_BACK_LIMIT, 15, 0⟩
def BELL_ENC_CFG_enc_en : Field := ⟨Reg.BELL_ENC_CFG, 31, 31⟩
def BELL_ENC_CFG_enc_pol : Field := ⟨Reg.BELL_ENC_CFG, 18, 18⟩
def BELL_ENC_CFG_enc_src : Field := ⟨Reg.BELL_ENC_CFG, 17, 16⟩
def BELL_ENC_CFG_enc_width : Field := ⟨Reg.BELL_ENC_CFG, 15, 0⟩
def BELL_ENC_RATIO_M : Field := ⟨Reg.BELL_ENC_RATIO, 31, 16⟩
def BELL_ENC_RATIO_N : Field := ⟨Reg.BELL_ENC_RATIO, 15, 0⟩
def BELL_DIFF_LIMIT_diff_limit : Field := ⟨Reg.BELL_DIFF_LIMIT, 15, 0⟩
def BELL_BACK_CNT_value : Field := ⟨Reg.BELL_BACK_CNT, 31, 0⟩
def BELL_SLIP_CNT_value : Field := ⟨Reg.BELL_SLIP_CNT, 31, 0⟩
def BELL_GLITCH_CNT_value : Field := ⟨Reg.BELL_GLITCH_CNT, 31, 0⟩
def BELL_BURST_CNT_value : Field := ⟨Reg.BELL_BURST_CNT, 31, 0⟩
def BELL_ENC_LOST_value : Field := ⟨Reg.BELL_ENC_LOST, 31, 0⟩
def BELL_OVER_STAT_warn : Field := ⟨Reg.BELL_OVER_STAT, 15, 8⟩
def BELL_OVER_STAT_over : Field := ⟨Reg.BELL_OVER_STAT, 7, 0⟩
def BELL_PHASE_ERR_value : Field := ⟨Reg.BELL_PHASE_ERR, 31, 0⟩
def BELL_W_CFG_enable (i : Nat) : Field := ⟨Reg.BELL_W_CFG i, 31, 31⟩
def BELL_W_CFG_b_present (i : Nat) : Field := ⟨Reg.BELL_W_CFG i, 21, 21⟩
def BELL_W_CFG_b_inv (i : Nat) : Field := ⟨Reg.BELL_W_CFG i, 20, 20⟩
def BELL_W_CFG_a_inv (i : Nat) : Field := ⟨Reg.BELL_W_CFG i, 19, 19⟩
def BELL_W_CFG_index (i : Nat) : Field := ⟨Reg.BELL_W_CFG i, 17, 16⟩
def BELL_W_CFG_pitches (i : Nat) : Field := ⟨Reg.BELL_W_CFG i, 15, 0⟩
def BELL_W_PITCH_INT_pitch_int (i : Nat) : Field := ⟨Reg.BELL_W_PITCH_INT i, 31, 0⟩
def BELL_W_PITCH_FRAC_pitch_frac (i : Nat) : Field := ⟨Reg.BELL_W_PITCH_FRAC i, 15, 0⟩
def BELL_W_FILTER_filter (i : Nat) : Field := ⟨Reg.BELL_W_FILTER i, 9, 0⟩
def BELL_W_STAT_gap_known (i : Nat) : Field := ⟨Reg.BELL_W_STAT i, 5, 5⟩
def BELL_W_STAT_armed (i : Nat) : Field := ⟨Reg.BELL_W_STAT i, 4, 4⟩
def BELL_W_STAT_speed_valid (i : Nat) : Field := ⟨Reg.BELL_W_STAT i, 3, 3⟩
def BELL_W_STAT_state (i : Nat) : Field := ⟨Reg.BELL_W_STAT i, 2, 0⟩
def BELL_W_IDXCNT_value (i : Nat) : Field := ⟨Reg.BELL_W_IDXCNT i, 31, 0⟩
def BELL_W_POS_LO_value (i : Nat) : Field := ⟨Reg.BELL_W_POS_LO i, 31, 0⟩
def BELL_W_POS_HI_value (i : Nat) : Field := ⟨Reg.BELL_W_POS_HI i, 15, 0⟩
def BELL_W_INTERVAL_value (i : Nat) : Field := ⟨Reg.BELL_W_INTERVAL i, 31, 0⟩
def BELL_FMAX_fmax_b (i : Nat) : Field := ⟨Reg.BELL_FMAX i, 17, 0⟩
def BELL_OFF_LO_value (i : Nat) : Field := ⟨Reg.BELL_OFF_LO i, 31, 0⟩
def BELL_OFF_HI_value (i : Nat) : Field := ⟨Reg.BELL_OFF_HI i, 15, 0⟩
def BELL_SKIP_CNT_value (i : Nat) : Field := ⟨Reg.BELL_SKIP_CNT i, 31, 0⟩
def JET_CTRL_ahead_lines : Field := ⟨Reg.JET_CTRL, 11, 8⟩
def JET_CTRL_ref_bar : Field := ⟨Reg.JET_CTRL, 6, 4⟩
def JET_CTRL_il_strict : Field := ⟨Reg.JET_CTRL, 2, 2⟩
def JET_CTRL_underrun_reject : Field := ⟨Reg.JET_CTRL, 1, 1⟩
def JET_CTRL_underrun_all : Field := ⟨Reg.JET_CTRL, 0, 0⟩
def JET_STATUS_ring_held : Field := ⟨Reg.JET_STATUS, 15, 8⟩
def JET_STATUS_armed : Field := ⟨Reg.JET_STATUS, 7, 0⟩
def JET_LEAD_CAP_lead_cap : Field := ⟨Reg.JET_LEAD_CAP, 16, 0⟩
def JET_FIRE_WIDTH_fire_width : Field := ⟨Reg.JET_FIRE_WIDTH, 12, 0⟩
def JET_ECHO_echo_ns : Field := ⟨Reg.JET_ECHO, 11, 0⟩
def JET_DRILL_MIN_drill_min : Field := ⟨Reg.JET_DRILL_MIN, 15, 0⟩
def JET_IMAGE_value : Field := ⟨Reg.JET_IMAGE, 31, 0⟩
def JET_FLIP_IMAGE_value : Field := ⟨Reg.JET_FLIP_IMAGE, 31, 0⟩
def JET_FLIP_TIME_value : Field := ⟨Reg.JET_FLIP_TIME, 31, 0⟩
def JET_MATCH_value : Field := ⟨Reg.JET_MATCH, 23, 0⟩
def JET_BAR_CTRL_arm (i : Nat) : Field := ⟨Reg.JET_BAR_CTRL i, 31, 31⟩
def JET_BAR_CTRL_hv_en (i : Nat) : Field := ⟨Reg.JET_BAR_CTRL i, 30, 30⟩
def JET_BAR_CTRL_drill (i : Nat) : Field := ⟨Reg.JET_BAR_CTRL i, 29, 29⟩
def JET_BAR_CTRL_swap_keep (i : Nat) : Field := ⟨Reg.JET_BAR_CTRL i, 28, 28⟩
def JET_BAR_CTRL_repair_a (i : Nat) : Field := ⟨Reg.JET_BAR_CTRL i, 27, 27⟩
def JET_BAR_CTRL_repair_b (i : Nat) : Field := ⟨Reg.JET_BAR_CTRL i, 26, 26⟩
def JET_BAR_CTRL_start_b (i : Nat) : Field := ⟨Reg.JET_BAR_CTRL i, 24, 24⟩
def JET_BAR_CTRL_ev_en (i : Nat) : Field := ⟨Reg.JET_BAR_CTRL i, 19, 16⟩
def JET_BAR_CFG_en (i : Nat) : Field := ⟨Reg.JET_BAR_CFG i, 31, 31⟩
def JET_BAR_CFG_ms_capable (i : Nat) : Field := ⟨Reg.JET_BAR_CFG i, 30, 30⟩
def JET_BAR_CFG_sr_count (i : Nat) : Field := ⟨Reg.JET_BAR_CFG i, 25, 24⟩
def JET_BAR_STAT_remap_ok (i : Nat) : Field := ⟨Reg.JET_BAR_STAT i, 29, 29⟩
def JET_BAR_STAT_ring_ok (i : Nat) : Field := ⟨Reg.JET_BAR_STAT i, 28, 28⟩
def JET_BAR_STAT_fire_state (i : Nat) : Field := ⟨Reg.JET_BAR_STAT i, 27, 24⟩
def JET_BAR_STAT_active_b (i : Nat) : Field := ⟨Reg.JET_BAR_STAT i, 23, 23⟩
def JET_BAR_STAT_drill_pass (i : Nat) : Field := ⟨Reg.JET_BAR_STAT i, 22, 22⟩
def JET_BAR_STAT_self_test (i : Nat) : Field := ⟨Reg.JET_BAR_STAT i, 21, 21⟩
def JET_BAR_IMAGE_value (i : Nat) : Field := ⟨Reg.JET_BAR_IMAGE i, 31, 0⟩
def JET_BAR_LINE_in_gap (i : Nat) : Field := ⟨Reg.JET_BAR_LINE i, 31, 31⟩
def JET_BAR_LINE_line (i : Nat) : Field := ⟨Reg.JET_BAR_LINE i, 23, 0⟩
def JET_BAR_MATCH_value (i : Nat) : Field := ⟨Reg.JET_BAR_MATCH i, 23, 0⟩
def JET_BAR_EVSTAT_underrun (i : Nat) : Field := ⟨Reg.JET_BAR_EVSTAT i, 3, 3⟩
def JET_BAR_EVSTAT_image_done (i : Nat) : Field := ⟨Reg.JET_BAR_EVSTAT i, 2, 2⟩
def JET_BAR_EVSTAT_line_match (i : Nat) : Field := ⟨Reg.JET_BAR_EVSTAT i, 1, 1⟩
def JET_BAR_EVSTAT_gap_start (i : Nat) : Field := ⟨Reg.JET_BAR_EVSTAT i, 0, 0⟩
def JET_BAR_UNDERRUN_value (i : Nat) : Field := ⟨Reg.JET_BAR_UNDERRUN i, 31, 0⟩
def JET_BAR_FIRE_LOST_value (i : Nat) : Field := ⟨Reg.JET_BAR_FIRE_LOST i, 31, 0⟩
def JET_BAR_SWAPS_value (i : Nat) : Field := ⟨Reg.JET_BAR_SWAPS i, 15, 0⟩
def JET_BAR_PULSE_CUT_value (i : Nat) : Field := ⟨Reg.JET_BAR_PULSE_CUT i, 31, 0⟩
def JET_BAR_RING_value (i : Nat) : Field := ⟨Reg.JET_BAR_RING i, 23, 0⟩
def JET_BAR_IL_period (i : Nat) : Field := ⟨Reg.JET_BAR_IL i, 30, 24⟩
def JET_BAR_IL_s_min (i : Nat) : Field := ⟨Reg.JET_BAR_IL i, 22, 16⟩
def JET_BAR_IL_res_right (i : Nat) : Field := ⟨Reg.JET_BAR_IL i, 13, 8⟩
def JET_BAR_IL_res_left (i : Nat) : Field := ⟨Reg.JET_BAR_IL i, 5, 0⟩
def JET_BAR_RUNS_right (i : Nat) : Field := ⟨Reg.JET_BAR_RUNS i, 29, 16⟩
def JET_BAR_RUNS_left (i : Nat) : Field := ⟨Reg.JET_BAR_RUNS i, 13, 0⟩
def JET_BAR_DOT_LATE_value (i : Nat) : Field := ⟨Reg.JET_BAR_DOT_LATE i, 31, 0⟩
def JET_BAR_PAGES_value (i : Nat) : Field := ⟨Reg.JET_BAR_PAGES i, 15, 0⟩
def LINK_CTRL_train (i : Nat) : Field := ⟨Reg.LINK_CTRL i, 31, 31⟩
def LINK_CTRL_retrain_auto (i : Nat) : Field := ⟨Reg.LINK_CTRL i, 30, 30⟩
def LINK_CTRL_save_seed (i : Nat) : Field := ⟨Reg.LINK_CTRL i, 29, 29⟩
def LINK_CTRL_downshift (i : Nat) : Field := ⟨Reg.LINK_CTRL i, 28, 28⟩
def LINK_CTRL_oos (i : Nat) : Field := ⟨Reg.LINK_CTRL i, 27, 27⟩
def LINK_CTRL_pre_tx_allow (i : Nat) : Field := ⟨Reg.LINK_CTRL i, 26, 26⟩
def LINK_CTRL_pre_rx_want (i : Nat) : Field := ⟨Reg.LINK_CTRL i, 25, 25⟩
def LINK_CTRL_rate_req (i : Nat) : Field := ⟨Reg.LINK_CTRL i, 17, 16⟩
def LINK_STATUS_tstate (i : Nat) : Field := ⟨Reg.LINK_STATUS i, 31, 28⟩
def LINK_STATUS_rate (i : Nat) : Field := ⟨Reg.LINK_STATUS i, 27, 26⟩
def LINK_STATUS_pre_tx (i : Nat) : Field := ⟨Reg.LINK_STATUS i, 25, 25⟩
def LINK_STATUS_pre_rx (i : Nat) : Field := ⟨Reg.LINK_STATUS i, 24, 24⟩
def LINK_STATUS_in_pair (i : Nat) : Field := ⟨Reg.LINK_STATUS i, 23, 23⟩
def LINK_STATUS_preferred (i : Nat) : Field := ⟨Reg.LINK_STATUS i, 22, 22⟩
def LINK_STATUS_ds_sleep (i : Nat) : Field := ⟨Reg.LINK_STATUS i, 21, 20⟩
def LINK_STATUS_us_sleep (i : Nat) : Field := ⟨Reg.LINK_STATUS i, 19, 18⟩
def LINK_STATUS_cause (i : Nat) : Field := ⟨Reg.LINK_STATUS i, 11, 8⟩
def LINK_STATUS_tries (i : Nat) : Field := ⟨Reg.LINK_STATUS i, 7, 0⟩
def LINK_ROLE_half (i : Nat) : Field := ⟨Reg.LINK_ROLE i, 1, 1⟩
def LINK_ROLE_member (i : Nat) : Field := ⟨Reg.LINK_ROLE i, 0, 0⟩
def LINK_FEC_CORR_value (i : Nat) : Field := ⟨Reg.LINK_FEC_CORR i, 31, 0⟩
def LINK_FEC_UNCORR_value (i : Nat) : Field := ⟨Reg.LINK_FEC_UNCORR i, 31, 0⟩
def LINK_HUB_FEC_value (i : Nat) : Field := ⟨Reg.LINK_HUB_FEC i, 31, 16⟩
def LINK_SEQ_value (i : Nat) : Field := ⟨Reg.LINK_SEQ i, 31, 0⟩
def LINK_HUB_ACC_value (i : Nat) : Field := ⟨Reg.LINK_HUB_ACC i, 31, 0⟩
def LINK_SKEW_value (i : Nat) : Field := ⟨Reg.LINK_SKEW i, 13, 0⟩
def LINK_EQ_ctle (i : Nat) : Field := ⟨Reg.LINK_EQ i, 31, 24⟩
def LINK_EQ_pre (i : Nat) : Field := ⟨Reg.LINK_EQ i, 23, 16⟩
def LINK_EQ_main (i : Nat) : Field := ⟨Reg.LINK_EQ i, 15, 8⟩
def LINK_EQ_post (i : Nat) : Field := ⟨Reg.LINK_EQ i, 7, 0⟩
def LINK_TRAIN_TIME_value (i : Nat) : Field := ⟨Reg.LINK_TRAIN_TIME i, 15, 0⟩
def LINK_LATE_DROP_value (i : Nat) : Field := ⟨Reg.LINK_LATE_DROP i, 31, 0⟩
def LINK_LEAVE_CNT_value (i : Nat) : Field := ⟨Reg.LINK_LEAVE_CNT i, 31, 0⟩
def LINK_BAR_CTRL_ds_sleep_en (i : Nat) : Field := ⟨Reg.LINK_BAR_CTRL i, 31, 31⟩
def LINK_BAR_CTRL_us_sleep_en (i : Nat) : Field := ⟨Reg.LINK_BAR_CTRL i, 30, 30⟩
def LINK_BAR_CTRL_sleep_margin (i : Nat) : Field := ⟨Reg.LINK_BAR_CTRL i, 15, 0⟩
def LINK_BAR_AFTER_sleep_after (i : Nat) : Field := ⟨Reg.LINK_BAR_AFTER i, 15, 0⟩
def LINK_BAR_STAT_us_state (i : Nat) : Field := ⟨Reg.LINK_BAR_STAT i, 15, 14⟩
def LINK_BAR_STAT_ds_state (i : Nat) : Field := ⟨Reg.LINK_BAR_STAT i, 13, 12⟩
def LINK_BAR_STAT_right_up (i : Nat) : Field := ⟨Reg.LINK_BAR_STAT i, 9, 9⟩
def LINK_BAR_STAT_left_up (i : Nat) : Field := ⟨Reg.LINK_BAR_STAT i, 8, 8⟩
def LINK_BAR_STAT_in_service (i : Nat) : Field := ⟨Reg.LINK_BAR_STAT i, 3, 0⟩
def LINK_GLOBAL_cfg_timeout : Field := ⟨Reg.LINK_GLOBAL, 31, 16⟩
def LINK_GLOBAL_uncorr_limit : Field := ⟨Reg.LINK_GLOBAL, 7, 0⟩
def LINK_FEC_WARN_fec_warn : Field := ⟨Reg.LINK_FEC_WARN, 23, 0⟩
def JET_NH_CTRL_test_code : Field := ⟨Reg.JET_NH_CTRL, 10, 8⟩
def JET_NH_CTRL_streak_en : Field := ⟨Reg.JET_NH_CTRL, 5, 5⟩
def JET_NH_CTRL_imp_boot : Field := ⟨Reg.JET_NH_CTRL, 4, 4⟩
def JET_NH_CTRL_spare_auto : Field := ⟨Reg.JET_NH_CTRL, 3, 3⟩
def JET_NH_CTRL_retest_en : Field := ⟨Reg.JET_NH_CTRL, 2, 2⟩
def JET_NH_CTRL_auto_pen : Field := ⟨Reg.JET_NH_CTRL, 1, 1⟩
def JET_NH_CTRL_dd_en : Field := ⟨Reg.JET_NH_CTRL, 0, 0⟩
def JET_NH_DD_CFG_stride : Field := ⟨Reg.JET_NH_DD_CFG, 31, 20⟩
def JET_NH_DD_CFG_space : Field := ⟨Reg.JET_NH_DD_CFG, 19, 16⟩
def JET_NH_DD_CFG_gap_min_dd : Field := ⟨Reg.JET_NH_DD_CFG, 15, 0⟩
def JET_NH_WINDOW_close : Field := ⟨Reg.JET_NH_WINDOW, 27, 16⟩
def JET_NH_WINDOW_opn : Field := ⟨Reg.JET_NH_WINDOW, 11, 0⟩
def JET_NH_IMP_LIM_imp_hi : Field := ⟨Reg.JET_NH_IMP_LIM, 31, 16⟩
def JET_NH_IMP_LIM_imp_lo : Field := ⟨Reg.JET_NH_IMP_LIM, 15, 0⟩
def JET_NH_IMP_MARGIN_imp_margin : Field := ⟨Reg.JET_NH_IMP_MARGIN, 15, 0⟩
def JET_NH_LIMITS_pen_limit : Field := ⟨Reg.JET_NH_LIMITS, 31, 16⟩
def JET_NH_LIMITS_weak_limit : Field := ⟨Reg.JET_NH_LIMITS, 3, 0⟩
def JET_NH_AGE_dd_max_age : Field := ⟨Reg.JET_NH_AGE, 15, 0⟩
def JET_NH_LAST_bar : Field := ⟨Reg.JET_NH_LAST, 31, 29⟩
def JET_NH_LAST_half : Field := ⟨Reg.JET_NH_LAST, 28, 28⟩
def JET_NH_LAST_status : Field := ⟨Reg.JET_NH_LAST, 27, 26⟩
def JET_NH_LAST_cause : Field := ⟨Reg.JET_NH_LAST, 25, 24⟩
def JET_NH_LAST_entry : Field := ⟨Reg.JET_NH_LAST, 17, 0⟩
def JET_NH_TRANSIENT_value : Field := ⟨Reg.JET_NH_TRANSIENT, 31, 0⟩
def JET_NH_UNTESTED_value : Field := ⟨Reg.JET_NH_UNTESTED, 31, 0⟩
def JET_NH_BAR_STAT_weak (i : Nat) : Field := ⟨Reg.JET_NH_BAR_STAT i, 31, 16⟩
def JET_NH_BAR_STAT_penned (i : Nat) : Field := ⟨Reg.JET_NH_BAR_STAT i, 15, 0⟩
def JET_NH_BAR_SPARES_spares (i : Nat) : Field := ⟨Reg.JET_NH_BAR_SPARES i, 17, 0⟩
def JET_NH_BAR_SWEEP_value (i : Nat) : Field := ⟨Reg.JET_NH_BAR_SWEEP i, 31, 0⟩
def JET_NH_BAR_PROG_row (i : Nat) : Field := ⟨Reg.JET_NH_BAR_PROG i, 29, 28⟩
def JET_NH_BAR_PROG_next_subset (i : Nat) : Field := ⟨Reg.JET_NH_BAR_PROG i, 27, 16⟩
def JET_NH_BAR_PROG_queued (i : Nat) : Field := ⟨Reg.JET_NH_BAR_PROG i, 5, 0⟩
def SEE_CTRL_bus1_speed : Field := ⟨Reg.SEE_CTRL, 3, 2⟩
def SEE_CTRL_bus0_speed : Field := ⟨Reg.SEE_CTRL, 1, 0⟩
def SEE_STATUS_enabled : Field := ⟨Reg.SEE_STATUS, 13, 8⟩
def SEE_STATUS_frame : Field := ⟨Reg.SEE_STATUS, 5, 0⟩
def SEE_PORT_CFG_enable (i : Nat) : Field := ⟨Reg.SEE_PORT_CFG i, 31, 31⟩
def SEE_PORT_CFG_vc (i : Nat) : Field := ⟨Reg.SEE_PORT_CFG i, 27, 24⟩
def SEE_PORT_CFG_dt (i : Nat) : Field := ⟨Reg.SEE_PORT_CFG i, 21, 16⟩
def SEE_PORT_CFG_lanes (i : Nat) : Field := ⟨Reg.SEE_PORT_CFG i, 14, 12⟩
def SEE_PORT_CFG_i2c_bus (i : Nat) : Field := ⟨Reg.SEE_PORT_CFG i, 11, 11⟩
def SEE_PORT_CFG_i2c_addr (i : Nat) : Field := ⟨Reg.SEE_PORT_CFG i, 10, 4⟩
def SEE_PORT_GEOM_frame_lines (i : Nat) : Field := ⟨Reg.SEE_PORT_GEOM i, 31, 16⟩
def SEE_PORT_GEOM_columns (i : Nat) : Field := ⟨Reg.SEE_PORT_GEOM i, 15, 0⟩
def SEE_PORT_STAT_silent (i : Nat) : Field := ⟨Reg.SEE_PORT_STAT i, 19, 19⟩
def SEE_PORT_STAT_pending (i : Nat) : Field := ⟨Reg.SEE_PORT_STAT i, 18, 18⟩
def SEE_PORT_STAT_in_frame (i : Nat) : Field := ⟨Reg.SEE_PORT_STAT i, 17, 17⟩
def SEE_PORT_STAT_sync (i : Nat) : Field := ⟨Reg.SEE_PORT_STAT i, 16, 16⟩
def SEE_PORT_STAT_gen (i : Nat) : Field := ⟨Reg.SEE_PORT_STAT i, 15, 0⟩
def SEE_PORT_FSEQ_value (i : Nat) : Field := ⟨Reg.SEE_PORT_FSEQ i, 31, 0⟩
def SEE_PORT_FIFO_max (i : Nat) : Field := ⟨Reg.SEE_PORT_FIFO i, 26, 16⟩
def SEE_PORT_FIFO_level (i : Nat) : Field := ⟨Reg.SEE_PORT_FIFO i, 10, 0⟩
def SEE_PORT_ERR_corrected (i : Nat) : Field := ⟨Reg.SEE_PORT_ERR i, 31, 24⟩
def SEE_PORT_ERR_uncorrectable (i : Nat) : Field := ⟨Reg.SEE_PORT_ERR i, 23, 16⟩
def SEE_PORT_ERR_checksum (i : Nat) : Field := ⟨Reg.SEE_PORT_ERR i, 15, 8⟩
def SEE_PORT_ERR_truncated (i : Nat) : Field := ⟨Reg.SEE_PORT_ERR i, 7, 0⟩
def SEE_PORT_TIMEOUT_frame_timeout (i : Nat) : Field := ⟨Reg.SEE_PORT_TIMEOUT i, 15, 0⟩
def SEE_PORT_TEMPCFG_temp_en (i : Nat) : Field := ⟨Reg.SEE_PORT_TEMPCFG i, 31, 31⟩
def SEE_PORT_TEMPCFG_reg_addr (i : Nat) : Field := ⟨Reg.SEE_PORT_TEMPCFG i, 15, 0⟩
def SEE_PORT_TEMP_value (i : Nat) : Field := ⟨Reg.SEE_PORT_TEMP i, 15, 0⟩
def SEE_PORT_UPL_value (i : Nat) : Field := ⟨Reg.SEE_PORT_UPL i, 31, 0⟩
def SEE_PORT_UPL_SKIP_value (i : Nat) : Field := ⟨Reg.SEE_PORT_UPL_SKIP i, 31, 0⟩
def SEE_VP_STAT_lost (i : Nat) : Field := ⟨Reg.SEE_VP_STAT i, 31, 24⟩
def SEE_VP_STAT_ctx (i : Nat) : Field := ⟨Reg.SEE_VP_STAT i, 16, 16⟩
def SEE_VP_STAT_pace (i : Nat) : Field := ⟨Reg.SEE_VP_STAT i, 15, 0⟩
def HOLD_CTRL_ink_en : Field := ⟨Reg.HOLD_CTRL, 31, 24⟩
def HOLD_CTRL_restart : Field := ⟨Reg.HOLD_CTRL, 4, 4⟩
def HOLD_CTRL_paper_keep : Field := ⟨Reg.HOLD_CTRL, 3, 3⟩
def HOLD_CTRL_guard : Field := ⟨Reg.HOLD_CTRL, 2, 2⟩
def HOLD_CTRL_freeze : Field := ⟨Reg.HOLD_CTRL, 1, 1⟩
def HOLD_CTRL_hold_en : Field := ⟨Reg.HOLD_CTRL, 0, 0⟩
def HOLD_STATUS_start : Field := ⟨Reg.HOLD_STATUS, 6, 5⟩
def HOLD_STATUS_graze_run : Field := ⟨Reg.HOLD_STATUS, 4, 4⟩
def HOLD_STATUS_shadow_wait : Field := ⟨Reg.HOLD_STATUS, 3, 3⟩
def HOLD_STATUS_history : Field := ⟨Reg.HOLD_STATUS, 2, 2⟩
def HOLD_STATUS_cov_ok : Field := ⟨Reg.HOLD_STATUS, 1, 1⟩
def HOLD_STATUS_measuring : Field := ⟨Reg.HOLD_STATUS, 0, 0⟩
def HOLD_GAIN_deadband : Field := ⟨Reg.HOLD_GAIN, 27, 16⟩
def HOLD_GAIN_loop_gain : Field := ⟨Reg.HOLD_GAIN, 11, 0⟩
def HOLD_STEP_leak : Field := ⟨Reg.HOLD_STEP, 31, 16⟩
def HOLD_STEP_max_step : Field := ⟨Reg.HOLD_STEP, 15, 0⟩
def HOLD_LIMITS_g_max : Field := ⟨Reg.HOLD_LIMITS, 31, 16⟩
def HOLD_LIMITS_g_min : Field := ⟨Reg.HOLD_LIMITS, 15, 0⟩
def HOLD_WINDOW_window_lines : Field := ⟨Reg.HOLD_WINDOW, 23, 0⟩
def HOLD_PAPER_CFG_gut_alpha : Field := ⟨Reg.HOLD_PAPER_CFG, 31, 24⟩
def HOLD_PAPER_CFG_gut_rej : Field := ⟨Reg.HOLD_PAPER_CFG, 23, 12⟩
def HOLD_PAPER_CFG_paper_max : Field := ⟨Reg.HOLD_PAPER_CFG, 11, 0⟩
def HOLD_PAPER_RG_G : Field := ⟨Reg.HOLD_PAPER_RG, 31, 16⟩
def HOLD_PAPER_RG_R : Field := ⟨Reg.HOLD_PAPER_RG, 15, 0⟩
def HOLD_PAPER_B_B : Field := ⟨Reg.HOLD_PAPER_B, 15, 0⟩
def HOLD_ALARM_alarm_cells : Field := ⟨Reg.HOLD_ALARM, 31, 20⟩
def HOLD_ALARM_osc_count : Field := ⟨Reg.HOLD_ALARM, 19, 16⟩
def HOLD_ALARM_err_alarm : Field := ⟨Reg.HOLD_ALARM, 15, 0⟩
def HOLD_DELAY_d_max : Field := ⟨Reg.HOLD_DELAY, 31, 28⟩
def HOLD_DELAY_d_last : Field := ⟨Reg.HOLD_DELAY, 27, 24⟩
def HOLD_DELAY_k_eff : Field := ⟨Reg.HOLD_DELAY, 11, 0⟩
def HOLD_CTX_value : Field := ⟨Reg.HOLD_CTX, 5, 0⟩
def HOLD_LAST_IMAGE_value : Field := ⟨Reg.HOLD_LAST_IMAGE, 31, 0⟩
def HOLD_SWAP_IMAGE_value : Field := ⟨Reg.HOLD_SWAP_IMAGE, 31, 0⟩
def HOLD_DISCARD_CNT_value : Field := ⟨Reg.HOLD_DISCARD_CNT, 31, 0⟩
def HOLD_GRAZE_graze_tokens : Field := ⟨Reg.HOLD_GRAZE, 9, 0⟩
def HOLD_GRAZE_STAT_state : Field := ⟨Reg.HOLD_GRAZE_STAT, 31, 30⟩
def HOLD_GRAZE_STAT_lines : Field := ⟨Reg.HOLD_GRAZE_STAT, 23, 0⟩
def HOLD_SNAP_snap_s : Field := ⟨Reg.HOLD_SNAP, 15, 0⟩
def HOLD_CELL_SEL_channel : Field := ⟨Reg.HOLD_CELL_SEL, 29, 28⟩
def HOLD_CELL_SEL_ink : Field := ⟨Reg.HOLD_CELL_SEL, 26, 24⟩
def HOLD_CELL_SEL_cell : Field := ⟨Reg.HOLD_CELL_SEL, 10, 0⟩
def HOLD_CELL_VAL_e : Field := ⟨Reg.HOLD_CELL_VAL, 31, 16⟩
def HOLD_CELL_VAL_c : Field := ⟨Reg.HOLD_CELL_VAL, 15, 0⟩
def HOLD_CELL_PAPER_value : Field := ⟨Reg.HOLD_CELL_PAPER, 15, 0⟩
def HOLD_COV_miss : Field := ⟨Reg.HOLD_COV, 31, 16⟩
def HOLD_COV_pages : Field := ⟨Reg.HOLD_COV, 15, 0⟩
def MEMC_STATUS_state (i : Nat) : Field := ⟨Reg.MEMC_STATUS i, 31, 29⟩
def MEMC_STATUS_retrying (i : Nat) : Field := ⟨Reg.MEMC_STATUS i, 9, 9⟩
def MEMC_STATUS_hot (i : Nat) : Field := ⟨Reg.MEMC_STATUS i, 8, 8⟩
def MEMC_STATUS_no_postpone (i : Nat) : Field := ⟨Reg.MEMC_STATUS i, 7, 7⟩
def MEMC_STATUS_k (i : Nat) : Field := ⟨Reg.MEMC_STATUS i, 2, 0⟩
def MEMC_QUEUE_max (i : Nat) : Field := ⟨Reg.MEMC_QUEUE i, 22, 16⟩
def MEMC_QUEUE_level (i : Nat) : Field := ⟨Reg.MEMC_QUEUE i, 6, 0⟩
def MEMC_REF_bursts (i : Nat) : Field := ⟨Reg.MEMC_REF i, 31, 16⟩
def MEMC_REF_postponed (i : Nat) : Field := ⟨Reg.MEMC_REF i, 15, 8⟩
def MEMC_REF_owed (i : Nat) : Field := ⟨Reg.MEMC_REF i, 2, 0⟩
def MEMC_TEMP_mpr (i : Nat) : Field := ⟨Reg.MEMC_TEMP i, 19, 18⟩
def MEMC_TEMP_source (i : Nat) : Field := ⟨Reg.MEMC_TEMP i, 17, 16⟩
def MEMC_TEMP_model (i : Nat) : Field := ⟨Reg.MEMC_TEMP i, 15, 0⟩
def MEMC_CE_CNT_value (i : Nat) : Field := ⟨Reg.MEMC_CE_CNT i, 31, 0⟩
def MEMC_UE_CNT_value (i : Nat) : Field := ⟨Reg.MEMC_UE_CNT i, 31, 0⟩
def MEMC_ERR_ADDR_LO_value (i : Nat) : Field := ⟨Reg.MEMC_ERR_ADDR_LO i, 31, 0⟩
def MEMC_ERR_ADDR_HI_ue (i : Nat) : Field := ⟨Reg.MEMC_ERR_ADDR_HI i, 8, 8⟩
def MEMC_ERR_ADDR_HI_addr (i : Nat) : Field := ⟨Reg.MEMC_ERR_ADDR_HI i, 4, 0⟩
def MEMC_CA_CNT_value (i : Nat) : Field := ⟨Reg.MEMC_CA_CNT i, 31, 0⟩
def MEMC_SCAN_LAT_value (i : Nat) : Field := ⟨Reg.MEMC_SCAN_LAT i, 15, 0⟩
def MEMC_TRAIN_seeded (i : Nat) : Field := ⟨Reg.MEMC_TRAIN i, 31, 31⟩
def MEMC_TRAIN_ms (i : Nat) : Field := ⟨Reg.MEMC_TRAIN i, 15, 0⟩
def MEMC_GEOM_ch_en : Field := ⟨Reg.MEMC_GEOM, 23, 16⟩
def MEMC_GEOM_density : Field := ⟨Reg.MEMC_GEOM, 9, 8⟩
def MEMC_GEOM_two_ranks : Field := ⟨Reg.MEMC_GEOM, 0, 0⟩
def MEMC_CTRL_sr_en : Field := ⟨Reg.MEMC_CTRL, 2, 2⟩
def MEMC_CTRL_postpone_en : Field := ⟨Reg.MEMC_CTRL, 1, 1⟩
def MEMC_CTRL_temp_src : Field := ⟨Reg.MEMC_CTRL, 0, 0⟩
def MEMC_GSTATUS_in_sr : Field := ⟨Reg.MEMC_GSTATUS, 17, 17⟩
def MEMC_GSTATUS_trained : Field := ⟨Reg.MEMC_GSTATUS, 16, 16⟩
def MEMC_GSTATUS_n : Field := ⟨Reg.MEMC_GSTATUS, 11, 8⟩
def MEMC_GSTATUS_ch_ok : Field := ⟨Reg.MEMC_GSTATUS, 7, 0⟩
def MEMC_SR_IDLE_sr_idle : Field := ⟨Reg.MEMC_SR_IDLE, 15, 0⟩
def MEMC_URGENT_urgent_ns : Field := ⟨Reg.MEMC_URGENT, 15, 0⟩
def MEMC_CE_LIMIT_value : Field := ⟨Reg.MEMC_CE_LIMIT, 15, 0⟩
def MEMC_SCRUB_scrub_h : Field := ⟨Reg.MEMC_SCRUB, 31, 16⟩
def MEMC_SCRUB_scrub_tokens : Field := ⟨Reg.MEMC_SCRUB, 9, 0⟩
def MEMC_WIPE_complete : Field := ⟨Reg.MEMC_WIPE, 31, 31⟩
def MEMC_WIPE_pages : Field := ⟨Reg.MEMC_WIPE, 16, 0⟩
def PAD_TOTAL_value : Field := ⟨Reg.PAD_TOTAL, 16, 0⟩
def PAD_FREE_value : Field := ⟨Reg.PAD_FREE, 16, 0⟩
def PAD_DIRTY_value : Field := ⟨Reg.PAD_DIRTY, 16, 0⟩
def PAD_REGIONS_value : Field := ⟨Reg.PAD_REGIONS, 12, 0⟩
def PAD_RETIRE_value : Field := ⟨Reg.PAD_RETIRE, 16, 0⟩
def PAD_RETIRED_N_value : Field := ⟨Reg.PAD_RETIRED_N, 6, 0⟩
def PAD_Q_LIMIT_zero (i : Nat) : Field := ⟨Reg.PAD_Q_LIMIT i, 31, 31⟩
def PAD_Q_LIMIT_limit (i : Nat) : Field := ⟨Reg.PAD_Q_LIMIT i, 16, 0⟩
def PAD_Q_RESERVE_reserve (i : Nat) : Field := ⟨Reg.PAD_Q_RESERVE i, 16, 0⟩
def PAD_Q_HELD_waiting (i : Nat) : Field := ⟨Reg.PAD_Q_HELD i, 31, 24⟩
def PAD_Q_HELD_held (i : Nat) : Field := ⟨Reg.PAD_Q_HELD i, 16, 0⟩
def PAD_Q_PEAK_value (i : Nat) : Field := ⟨Reg.PAD_Q_PEAK i, 16, 0⟩
def PAD_RETIRED_LIST_valid (i : Nat) : Field := ⟨Reg.PAD_RETIRED_LIST i, 31, 31⟩
def PAD_RETIRED_LIST_awaiting (i : Nat) : Field := ⟨Reg.PAD_RETIRED_LIST i, 30, 30⟩
def PAD_RETIRED_LIST_page (i : Nat) : Field := ⟨Reg.PAD_RETIRED_LIST i, 16, 0⟩
def DFL_CTRL_dfl_tokens : Field := ⟨Reg.DFL_CTRL, 9, 0⟩
def DFL_STATUS_opn : Field := ⟨Reg.DFL_STATUS, 23, 16⟩
def DFL_STATUS_resident : Field := ⟨Reg.DFL_STATUS, 12, 8⟩
def DFL_STATUS_save_ok : Field := ⟨Reg.DFL_STATUS, 1, 1⟩
def DFL_STATUS_busy : Field := ⟨Reg.DFL_STATUS, 0, 0⟩
def DFL_DEMAND_value : Field := ⟨Reg.DFL_DEMAND, 31, 0⟩
def DFL_PACE_inflate : Field := ⟨Reg.DFL_PACE, 31, 16⟩
def DFL_PACE_deflate : Field := ⟨Reg.DFL_PACE, 15, 0⟩
def DFL_ERR_cause : Field := ⟨Reg.DFL_ERR, 31, 28⟩
def DFL_ERR_ctx : Field := ⟨Reg.DFL_ERR, 22, 16⟩
def DFL_ERR_CNT_value : Field := ⟨Reg.DFL_ERR_CNT, 31, 0⟩
def DFL_EVICT_CNT_value : Field := ⟨Reg.DFL_EVICT_CNT, 31, 0⟩
def DFL_CTX_SEL_value : Field := ⟨Reg.DFL_CTX_SEL, 6, 0⟩
def DFL_CTX_STAT_state : Field := ⟨Reg.DFL_CTX_STAT, 31, 29⟩
def DFL_CTX_STAT_wrap : Field := ⟨Reg.DFL_CTX_STAT, 28, 27⟩
def DFL_CTX_STAT_level : Field := ⟨Reg.DFL_CTX_STAT, 26, 23⟩
def DFL_CTX_STAT_dir : Field := ⟨Reg.DFL_CTX_STAT, 22, 22⟩
def DFL_CTX_STAT_dict_used : Field := ⟨Reg.DFL_CTX_STAT, 21, 21⟩
def DFL_CTX_STAT_dict : Field := ⟨Reg.DFL_CTX_STAT, 20, 17⟩
def DFL_CTX_STAT_tokens : Field := ⟨Reg.DFL_CTX_STAT, 16, 16⟩
def DFL_CTX_STAT_pending : Field := ⟨Reg.DFL_CTX_STAT, 5, 0⟩
def DFL_CTX_IN_value : Field := ⟨Reg.DFL_CTX_IN, 31, 0⟩
def DFL_CTX_OUT_value : Field := ⟨Reg.DFL_CTX_OUT, 31, 0⟩
def DFL_ERR_TIME_value : Field := ⟨Reg.DFL_ERR_TIME, 31, 0⟩
def DFL_PROD_dict_en (i : Nat) : Field := ⟨Reg.DFL_PROD i, 4, 4⟩
def DFL_PROD_dict (i : Nat) : Field := ⟨Reg.DFL_PROD i, 3, 0⟩
def DFL_DICT_ID_value (i : Nat) : Field := ⟨Reg.DFL_DICT_ID i, 31, 0⟩
def DFL_DICT_LEN_value (i : Nat) : Field := ⟨Reg.DFL_DICT_LEN i, 16, 0⟩
def NET_CTRL_restart : Field := ⟨Reg.NET_CTRL, 0, 0⟩
def NET_STATUS_snap_armed : Field := ⟨Reg.NET_STATUS, 5, 5⟩
def NET_STATUS_acquired : Field := ⟨Reg.NET_STATUS, 4, 4⟩
def NET_STATUS_stepped : Field := ⟨Reg.NET_STATUS, 3, 3⟩
def NET_STATUS_state : Field := ⟨Reg.NET_STATUS, 2, 0⟩
def NET_TIME_LO_value : Field := ⟨Reg.NET_TIME_LO, 31, 0⟩
def NET_TIME_HI_value : Field := ⟨Reg.NET_TIME_HI, 31, 0⟩
def NET_SERVO_CFG_ki : Field := ⟨Reg.NET_SERVO_CFG, 31, 16⟩
def NET_SERVO_CFG_kp : Field := ⟨Reg.NET_SERVO_CFG, 15, 0⟩
def NET_STEP_MAX_step_max : Field := ⟨Reg.NET_STEP_MAX, 23, 0⟩
def NET_LOCK_hold_ms : Field := ⟨Reg.NET_LOCK, 31, 16⟩
def NET_LOCK_lock_ns : Field := ⟨Reg.NET_LOCK, 15, 0⟩
def NET_FREQ_MAX_freq_max : Field := ⟨Reg.NET_FREQ_MAX, 17, 0⟩
def NET_FREQ_value : Field := ⟨Reg.NET_FREQ, 31, 0⟩
def NET_OFFSET_LAST_value : Field := ⟨Reg.NET_OFFSET_LAST, 31, 0⟩
def NET_REFUSE_CNT_value : Field := ⟨Reg.NET_REFUSE_CNT, 31, 0⟩
def NET_SERVO_OFF_LO_value : Field := ⟨Reg.NET_SERVO_OFF_LO, 31, 0⟩
def NET_SERVO_OFF_HI_value : Field := ⟨Reg.NET_SERVO_OFF_HI, 31, 0⟩
def NET_SNAP_CTRL_f_unlocked : Field := ⟨Reg.NET_SNAP_CTRL, 7, 7⟩
def NET_SNAP_CTRL_f_stepped : Field := ⟨Reg.NET_SNAP_CTRL, 6, 6⟩
def NET_SNAP_CTRL_f_sched : Field := ⟨Reg.NET_SNAP_CTRL, 5, 5⟩
def NET_SNAP_CTRL_f_now : Field := ⟨Reg.NET_SNAP_CTRL, 4, 4⟩
def NET_SNAP_CTRL_arm : Field := ⟨Reg.NET_SNAP_CTRL, 1, 1⟩
def NET_SNAP_CTRL_snap_now : Field := ⟨Reg.NET_SNAP_CTRL, 0, 0⟩
def NET_SNAP_AT_LO_value : Field := ⟨Reg.NET_SNAP_AT_LO, 31, 0⟩
def NET_SNAP_AT_HI_value : Field := ⟨Reg.NET_SNAP_AT_HI, 31, 0⟩
def NET_SNAP_LAST_LO_value : Field := ⟨Reg.NET_SNAP_LAST_LO, 31, 0⟩
def NET_SNAP_LAST_HI_value : Field := ⟨Reg.NET_SNAP_LAST_HI, 31, 0⟩
def NET_CEIL_CFG_ceil_ports : Field := ⟨Reg.NET_CEIL_CFG, 31, 30⟩
def NET_CEIL_CFG_vlan_en : Field := ⟨Reg.NET_CEIL_CFG, 29, 29⟩
def NET_CEIL_CFG_ceil_period : Field := ⟨Reg.NET_CEIL_CFG, 15, 0⟩
def NET_CEIL_DST_LO_value : Field := ⟨Reg.NET_CEIL_DST_LO, 31, 0⟩
def NET_CEIL_DST_HI_value : Field := ⟨Reg.NET_CEIL_DST_HI, 15, 0⟩
def NET_CEIL_NODE_ceil_node : Field := ⟨Reg.NET_CEIL_NODE, 31, 0⟩
def NET_CEIL_SEQ_value : Field := ⟨Reg.NET_CEIL_SEQ, 31, 0⟩
def NET_CEIL_VLAN_pcp : Field := ⟨Reg.NET_CEIL_VLAN, 15, 13⟩
def NET_CEIL_VLAN_dei : Field := ⟨Reg.NET_CEIL_VLAN, 12, 12⟩
def NET_CEIL_VLAN_vid : Field := ⟨Reg.NET_CEIL_VLAN, 11, 0⟩
def NET_PORT_CFG_enable (i : Nat) : Field := ⟨Reg.NET_PORT_CFG i, 31, 31⟩
def NET_PORT_CFG_an_en (i : Nat) : Field := ⟨Reg.NET_PORT_CFG i, 1, 1⟩
def NET_PORT_CFG_mode (i : Nat) : Field := ⟨Reg.NET_PORT_CFG i, 0, 0⟩
def NET_PORT_STAT_an_done (i : Nat) : Field := ⟨Reg.NET_PORT_STAT i, 2, 2⟩
def NET_PORT_STAT_block_lock (i : Nat) : Field := ⟨Reg.NET_PORT_STAT i, 1, 1⟩
def NET_PORT_STAT_link (i : Nat) : Field := ⟨Reg.NET_PORT_STAT i, 0, 0⟩
def NET_PORT_MAC_LO_value (i : Nat) : Field := ⟨Reg.NET_PORT_MAC_LO i, 31, 0⟩
def NET_PORT_MAC_HI_value (i : Nat) : Field := ⟨Reg.NET_PORT_MAC_HI i, 15, 0⟩
def NET_PORT_LAT_egress (i : Nat) : Field := ⟨Reg.NET_PORT_LAT i, 31, 16⟩
def NET_PORT_LAT_ingress (i : Nat) : Field := ⟨Reg.NET_PORT_LAT i, 15, 0⟩
def NET_PORT_RX_CNT_value (i : Nat) : Field := ⟨Reg.NET_PORT_RX_CNT i, 31, 0⟩
def NET_PORT_DROP_CNT_value (i : Nat) : Field := ⟨Reg.NET_PORT_DROP_CNT i, 31, 0⟩
def NET_PORT_TS_LOST_value (i : Nat) : Field := ⟨Reg.NET_PORT_TS_LOST i, 31, 0⟩
def SYS_PD_CTRL_value (i : Nat) : Field := ⟨Reg.SYS_PD_CTRL i, 1, 0⟩
def SYS_PD_STAT_value : Field := ⟨Reg.SYS_PD_STAT, 19, 0⟩
def SYS_PD_REFUSE_cause : Field := ⟨Reg.SYS_PD_REFUSE, 31, 28⟩
def SYS_PD_REFUSE_domain : Field := ⟨Reg.SYS_PD_REFUSE, 3, 0⟩
def SYS_SHELF_key : Field := ⟨Reg.SYS_SHELF, 15, 0⟩
def SYS_SHELF_STAT_value : Field := ⟨Reg.SYS_SHELF_STAT, 1, 0⟩
def THERM_CTRL_shut_release : Field := ⟨Reg.THERM_CTRL, 3, 3⟩
def THERM_CTRL_check_en : Field := ⟨Reg.THERM_CTRL, 2, 2⟩
def THERM_CTRL_throttle_en : Field := ⟨Reg.THERM_CTRL, 1, 1⟩
def THERM_CTRL_ref_src : Field := ⟨Reg.THERM_CTRL, 0, 0⟩
def THERM_STATUS_rel_refused : Field := ⟨Reg.THERM_STATUS, 8, 8⟩
def THERM_STATUS_hs_default : Field := ⟨Reg.THERM_STATUS, 7, 7⟩
def THERM_STATUS_params_default : Field := ⟨Reg.THERM_STATUS, 6, 6⟩
def THERM_STATUS_ref_stale : Field := ⟨Reg.THERM_STATUS, 5, 5⟩
def THERM_STATUS_fast : Field := ⟨Reg.THERM_STATUS, 4, 4⟩
def THERM_STATUS_shutdown : Field := ⟨Reg.THERM_STATUS, 3, 3⟩
def THERM_STATUS_warn : Field := ⟨Reg.THERM_STATUS, 2, 2⟩
def THERM_STATUS_throttle : Field := ⟨Reg.THERM_STATUS, 1, 0⟩
def THERM_TJ_node : Field := ⟨Reg.THERM_TJ, 19, 16⟩
def THERM_TJ_tj : Field := ⟨Reg.THERM_TJ, 15, 0⟩
def THERM_TJ_MAX_value : Field := ⟨Reg.THERM_TJ_MAX, 15, 0⟩
def THERM_REF_reference : Field := ⟨Reg.THERM_REF, 15, 0⟩
def THERM_REF_HOST_value : Field := ⟨Reg.THERM_REF_HOST, 15, 0⟩
def THERM_REF_CFG_ref_addr : Field := ⟨Reg.THERM_REF_CFG, 30, 24⟩
def THERM_REF_CFG_ref_reg : Field := ⟨Reg.THERM_REF_CFG, 23, 16⟩
def THERM_REF_CFG_ref_timeout : Field := ⟨Reg.THERM_REF_CFG, 15, 0⟩
def THERM_REF_DEFAULT_stale_guard : Field := ⟨Reg.THERM_REF_DEFAULT, 31, 16⟩
def THERM_REF_DEFAULT_ref_default : Field := ⟨Reg.THERM_REF_DEFAULT, 15, 0⟩
def THERM_HS_hs_mkw : Field := ⟨Reg.THERM_HS, 15, 0⟩
def THERM_BOARD_MW_board_mw : Field := ⟨Reg.THERM_BOARD_MW, 23, 0⟩
def THERM_CHECK_value : Field := ⟨Reg.THERM_CHECK, 15, 0⟩
def THERM_DIV_LIMIT_div_limit : Field := ⟨Reg.THERM_DIV_LIMIT, 15, 0⟩
def THERM_NODE_SEL_node : Field := ⟨Reg.THERM_NODE_SEL, 3, 0⟩
def THERM_NODE_value : Field := ⟨Reg.THERM_NODE, 15, 0⟩
def THERM_VCORE_CFG_settle_us : Field := ⟨Reg.THERM_VCORE_CFG, 31, 26⟩
def THERM_VCORE_CFG_vset : Field := ⟨Reg.THERM_VCORE_CFG, 25, 16⟩
def THERM_VCORE_CFG_vmin : Field := ⟨Reg.THERM_VCORE_CFG, 9, 0⟩
def THERM_VCORE_read : Field := ⟨Reg.THERM_VCORE, 25, 16⟩
def THERM_VCORE_commanded : Field := ⟨Reg.THERM_VCORE, 9, 0⟩
def THERM_PMBUS_CFG_pmb_en : Field := ⟨Reg.THERM_PMBUS_CFG, 31, 31⟩
def THERM_PMBUS_CFG_pec : Field := ⟨Reg.THERM_PMBUS_CFG, 30, 30⟩
def THERM_PMBUS_CFG_speed : Field := ⟨Reg.THERM_PMBUS_CFG, 29, 28⟩
def THERM_PMBUS_CFG_pm_addr : Field := ⟨Reg.THERM_PMBUS_CFG, 27, 21⟩
def THERM_PMBUS_CFG_fmt : Field := ⟨Reg.THERM_PMBUS_CFG, 20, 20⟩
def THERM_PMBUS_CFG_vid_step : Field := ⟨Reg.THERM_PMBUS_CFG, 19, 19⟩
def THERM_PMBUS_CFG_vid_base : Field := ⟨Reg.THERM_PMBUS_CFG, 17, 10⟩
def THERM_PMBUS_CFG_vid_v0 : Field := ⟨Reg.THERM_PMBUS_CFG, 9, 0⟩
def THERM_PWR_value (i : Nat) : Field := ⟨Reg.THERM_PWR i, 23, 0⟩
def THERM_PWR_TOTAL_value : Field := ⟨Reg.THERM_PWR_TOTAL, 23, 0⟩
def DROVER_BUDGET_print_res : Field := ⟨Reg.DROVER_BUDGET, 25, 16⟩
def DROVER_BUDGET_budget : Field := ⟨Reg.DROVER_BUDGET, 9, 0⟩
def DROVER_CTRL_throttle_gate : Field := ⟨Reg.DROVER_CTRL, 1, 1⟩
def DROVER_CTRL_meas_guard : Field := ⟨Reg.DROVER_CTRL, 0, 0⟩
def DROVER_STATUS_waiting : Field := ⟨Reg.DROVER_STATUS, 31, 31⟩
def DROVER_STATUS_free : Field := ⟨Reg.DROVER_STATUS, 25, 16⟩
def DROVER_STATUS_granted : Field := ⟨Reg.DROVER_STATUS, 9, 0⟩
def DROVER_WAIT_WARN_wait_warn : Field := ⟨Reg.DROVER_WAIT_WARN, 23, 0⟩
def DROVER_WAIT_MAX_value : Field := ⟨Reg.DROVER_WAIT_MAX, 31, 0⟩
def DROVER_HOLD_MAX_hold_max : Field := ⟨Reg.DROVER_HOLD_MAX, 15, 0⟩
def DROVER_GRANTS_value : Field := ⟨Reg.DROVER_GRANTS, 31, 0⟩
def DROVER_FW_REQ_request : Field := ⟨Reg.DROVER_FW_REQ, 31, 31⟩
def DROVER_FW_REQ_withdraw : Field := ⟨Reg.DROVER_FW_REQ, 30, 30⟩
def DROVER_FW_REQ_granted : Field := ⟨Reg.DROVER_FW_REQ, 29, 29⟩
def DROVER_FW_REQ_waiting : Field := ⟨Reg.DROVER_FW_REQ, 28, 28⟩
def DROVER_FW_REQ_tokens : Field := ⟨Reg.DROVER_FW_REQ, 9, 0⟩
def DROVER_CLASS_prio (i : Nat) : Field := ⟨Reg.DROVER_CLASS i, 18, 16⟩
def DROVER_CLASS_throttle_ok (i : Nat) : Field := ⟨Reg.DROVER_CLASS i, 15, 15⟩
def DROVER_CLASS_tokens (i : Nat) : Field := ⟨Reg.DROVER_CLASS i, 9, 0⟩
def DROVER_HELD_waiting (i : Nat) : Field := ⟨Reg.DROVER_HELD i, 31, 24⟩
def DROVER_HELD_held (i : Nat) : Field := ⟨Reg.DROVER_HELD i, 9, 0⟩
def FOLD_STICKY_value (i : Nat) : Field := ⟨Reg.FOLD_STICKY i, 31, 0⟩
def FOLD_LASTING_value (i : Nat) : Field := ⟨Reg.FOLD_LASTING i, 31, 0⟩
def FOLD_ENABLE_enables (i : Nat) : Field := ⟨Reg.FOLD_ENABLE i, 31, 0⟩
def FOLD_FORCE_value (i : Nat) : Field := ⟨Reg.FOLD_FORCE i, 31, 0⟩
def FOLD_INJECT_go : Field := ⟨Reg.FOLD_INJECT, 31, 31⟩
def FOLD_INJECT_source : Field := ⟨Reg.FOLD_INJECT, 6, 0⟩
def FOLD_OPEN_value : Field := ⟨Reg.FOLD_OPEN, 15, 0⟩
def FOLD_HELD_value : Field := ⟨Reg.FOLD_HELD, 7, 0⟩
def FOLD_CTRL_hold_reject : Field := ⟨Reg.FOLD_CTRL, 31, 31⟩
def FOLD_CTRL_sram_ce_limit : Field := ⟨Reg.FOLD_CTRL, 15, 0⟩
def FOLD_LAST_sev : Field := ⟨Reg.FOLD_LAST, 31, 29⟩
def FOLD_LAST_escalated : Field := ⟨Reg.FOLD_LAST, 28, 28⟩
def FOLD_LAST_merged : Field := ⟨Reg.FOLD_LAST, 27, 27⟩
def FOLD_LAST_lasting : Field := ⟨Reg.FOLD_LAST, 26, 26⟩
def FOLD_LAST_forced : Field := ⟨Reg.FOLD_LAST, 25, 25⟩
def FOLD_LAST_injected : Field := ⟨Reg.FOLD_LAST, 24, 24⟩
def FOLD_LAST_bars : Field := ⟨Reg.FOLD_LAST, 23, 16⟩
def FOLD_LAST_source : Field := ⟨Reg.FOLD_LAST, 6, 0⟩
def FOLD_MERGE_CNT_value : Field := ⟨Reg.FOLD_MERGE_CNT, 31, 0⟩
def FOLD_ST_result : Field := ⟨Reg.FOLD_ST, 31, 30⟩
def FOLD_ST_pending : Field := ⟨Reg.FOLD_ST, 23, 16⟩
def FOLD_ST_source : Field := ⟨Reg.FOLD_ST, 6, 0⟩
def FOLD_SRAM_CE_value : Field := ⟨Reg.FOLD_SRAM_CE, 31, 0⟩
def FOLD_SEV_sev7 (i : Nat) : Field := ⟨Reg.FOLD_SEV i, 23, 21⟩
def FOLD_SEV_sev6 (i : Nat) : Field := ⟨Reg.FOLD_SEV i, 20, 18⟩
def FOLD_SEV_sev5 (i : Nat) : Field := ⟨Reg.FOLD_SEV i, 17, 15⟩
def FOLD_SEV_sev4 (i : Nat) : Field := ⟨Reg.FOLD_SEV i, 14, 12⟩
def FOLD_SEV_sev3 (i : Nat) : Field := ⟨Reg.FOLD_SEV i, 11, 9⟩
def FOLD_SEV_sev2 (i : Nat) : Field := ⟨Reg.FOLD_SEV i, 8, 6⟩
def FOLD_SEV_sev1 (i : Nat) : Field := ⟨Reg.FOLD_SEV i, 5, 3⟩
def FOLD_SEV_sev0 (i : Nat) : Field := ⟨Reg.FOLD_SEV i, 2, 0⟩
def FOLD_CLASS_escalate (i : Nat) : Field := ⟨Reg.FOLD_CLASS i, 8, 8⟩
def FOLD_CLASS_lasting_sev (i : Nat) : Field := ⟨Reg.FOLD_CLASS i, 2, 0⟩
def FOLD_COUNT_value (i : Nat) : Field := ⟨Reg.FOLD_COUNT i, 15, 0⟩
def CROOK_STATUS_state : Field := ⟨Reg.CROOK_STATUS, 31, 30⟩
def CROOK_STATUS_press_stop : Field := ⟨Reg.CROOK_STATUS, 29, 29⟩
def CROOK_STATUS_release_refused : Field := ⟨Reg.CROOK_STATUS, 28, 28⟩
def CROOK_STATUS_cause : Field := ⟨Reg.CROOK_STATUS, 7, 0⟩
def CROOK_CTRL_key : Field := ⟨Reg.CROOK_CTRL, 31, 16⟩
def CROOK_CTRL_enter : Field := ⟨Reg.CROOK_CTRL, 1, 1⟩
def CROOK_CTRL_release : Field := ⟨Reg.CROOK_CTRL, 0, 0⟩
def CROOK_ENTRIES_value : Field := ⟨Reg.CROOK_ENTRIES, 31, 0⟩
def CROOK_PADS_press_stop : Field := ⟨Reg.CROOK_PADS, 24, 24⟩
def CROOK_PADS_hv_en : Field := ⟨Reg.CROOK_PADS, 23, 16⟩
def CROOK_PADS_fire_b : Field := ⟨Reg.CROOK_PADS, 15, 8⟩
def CROOK_PADS_fire_a : Field := ⟨Reg.CROOK_PADS, 7, 0⟩
def MBX_STAGE_PTR_LO_value : Field := ⟨Reg.MBX_STAGE_PTR_LO, 31, 0⟩
def MBX_STAGE_PTR_HI_value : Field := ⟨Reg.MBX_STAGE_PTR_HI, 31, 0⟩
def MBX_STAGE_TAG_tag : Field := ⟨Reg.MBX_STAGE_TAG, 31, 0⟩
def MBX_POST_value : Field := ⟨Reg.MBX_POST, 3, 0⟩
def MBX_POST_STAT_result : Field := ⟨Reg.MBX_POST_STAT, 31, 30⟩
def MBX_POST_STAT_mailbox : Field := ⟨Reg.MBX_POST_STAT, 3, 0⟩
def MBX_CORE_STAT_cause3 : Field := ⟨Reg.MBX_CORE_STAT, 15, 12⟩
def MBX_CORE_STAT_cause2 : Field := ⟨Reg.MBX_CORE_STAT, 11, 8⟩
def MBX_CORE_STAT_cause1 : Field := ⟨Reg.MBX_CORE_STAT, 7, 4⟩
def MBX_CORE_STAT_run : Field := ⟨Reg.MBX_CORE_STAT, 3, 0⟩
def MBX_CORE_CTRL_key : Field := ⟨Reg.MBX_CORE_CTRL, 31, 16⟩
def MBX_CORE_CTRL_reset_c3 : Field := ⟨Reg.MBX_CORE_CTRL, 3, 3⟩
def MBX_CORE_CTRL_reset_c2 : Field := ⟨Reg.MBX_CORE_CTRL, 2, 2⟩
def MBX_CORE_CTRL_reset_c1 : Field := ⟨Reg.MBX_CORE_CTRL, 1, 1⟩
def MBX_LIMITS_stile_max : Field := ⟨Reg.MBX_LIMITS, 31, 16⟩
def MBX_LIMITS_wake_limit : Field := ⟨Reg.MBX_LIMITS, 15, 0⟩
def MBX_PTR_LO_value (i : Nat) : Field := ⟨Reg.MBX_PTR_LO i, 31, 0⟩
def MBX_PTR_HI_value (i : Nat) : Field := ⟨Reg.MBX_PTR_HI i, 31, 0⟩
def MBX_TAG_tag (i : Nat) : Field := ⟨Reg.MBX_TAG i, 31, 0⟩
def MBX_STATE_state (i : Nat) : Field := ⟨Reg.MBX_STATE i, 31, 30⟩
def MBX_STATE_orphan (i : Nat) : Field := ⟨Reg.MBX_STATE i, 29, 29⟩
def MBX_STATE_receiver (i : Nat) : Field := ⟨Reg.MBX_STATE i, 7, 4⟩
def MBX_STATE_sender (i : Nat) : Field := ⟨Reg.MBX_STATE i, 3, 0⟩
def MBX_ACK_value (i : Nat) : Field := ⟨Reg.MBX_ACK i, 15, 0⟩
def MBX_RESULT_aborted (i : Nat) : Field := ⟨Reg.MBX_RESULT i, 16, 16⟩
def MBX_RESULT_code (i : Nat) : Field := ⟨Reg.MBX_RESULT i, 15, 0⟩
def MBX_CLEAR_value (i : Nat) : Field := ⟨Reg.MBX_CLEAR i, 0, 0⟩
def MBX_STILE_value (i : Nat) : Field := ⟨Reg.MBX_STILE i, 3, 0⟩
def MBX_STILE_OWNER_held_us (i : Nat) : Field := ⟨Reg.MBX_STILE_OWNER i, 27, 4⟩
def MBX_STILE_OWNER_owner (i : Nat) : Field := ⟨Reg.MBX_STILE_OWNER i, 3, 0⟩
def SEC_LC_tamper : Field := ⟨Reg.SEC_LC, 7, 7⟩
def SEC_LC_pending : Field := ⟨Reg.SEC_LC, 6, 6⟩
def SEC_LC_target : Field := ⟨Reg.SEC_LC, 5, 3⟩
def SEC_LC_state : Field := ⟨Reg.SEC_LC, 2, 0⟩
def SEC_BOOT_cause : Field := ⟨Reg.SEC_BOOT, 31, 28⟩
def SEC_BOOT_comp : Field := ⟨Reg.SEC_BOOT, 27, 26⟩
def SEC_BOOT_recovery : Field := ⟨Reg.SEC_BOOT, 25, 25⟩
def SEC_BOOT_slot_b : Field := ⟨Reg.SEC_BOOT, 7, 4⟩
def SEC_BOOT_ok : Field := ⟨Reg.SEC_BOOT, 3, 0⟩
def SEC_DEVICE_ID_LO_value : Field := ⟨Reg.SEC_DEVICE_ID_LO, 31, 0⟩
def SEC_DEVICE_ID_HI_value : Field := ⟨Reg.SEC_DEVICE_ID_HI, 31, 0⟩
def SEC_SVN_value (i : Nat) : Field := ⟨Reg.SEC_SVN i, 7, 0⟩
def SEC_NONCE_value (i : Nat) : Field := ⟨Reg.SEC_NONCE i, 31, 0⟩
def SEC_TOKEN_ADDR_LO_value : Field := ⟨Reg.SEC_TOKEN_ADDR_LO, 31, 0⟩
def SEC_TOKEN_ADDR_HI_value : Field := ⟨Reg.SEC_TOKEN_ADDR_HI, 31, 0⟩
def SEC_TOKEN_CTRL_go : Field := ⟨Reg.SEC_TOKEN_CTRL, 0, 0⟩
def SEC_TOKEN_STAT_busy : Field := ⟨Reg.SEC_TOKEN_STAT, 31, 31⟩
def SEC_TOKEN_STAT_step : Field := ⟨Reg.SEC_TOKEN_STAT, 10, 8⟩
def SEC_TOKEN_STAT_status : Field := ⟨Reg.SEC_TOKEN_STAT, 7, 0⟩
def SEC_DBG_CTRL_value : Field := ⟨Reg.SEC_DBG_CTRL, 2, 0⟩
def SEC_DBG_STAT_scope : Field := ⟨Reg.SEC_DBG_STAT, 18, 16⟩
def SEC_DBG_STAT_seconds : Field := ⟨Reg.SEC_DBG_STAT, 15, 0⟩
def SEC_LOAD_ADDR_LO_value : Field := ⟨Reg.SEC_LOAD_ADDR_LO, 31, 0⟩
def SEC_LOAD_ADDR_HI_value : Field := ⟨Reg.SEC_LOAD_ADDR_HI, 31, 0⟩
def SEC_LYP_STAT_value : Field := ⟨Reg.SEC_LYP_STAT, 22, 16⟩
def CAL_CTRL_cal_auto : Field := ⟨Reg.CAL_CTRL, 31, 31⟩
def CAL_CTRL_splice : Field := ⟨Reg.CAL_CTRL, 30, 30⟩
def CAL_CTRL_splice_ms : Field := ⟨Reg.CAL_CTRL, 15, 0⟩
def CAL_STATUS_busy : Field := ⟨Reg.CAL_STATUS, 31, 31⟩
def CAL_STATUS_deferred : Field := ⟨Reg.CAL_STATUS, 30, 30⟩
def CAL_STATUS_part_bad : Field := ⟨Reg.CAL_STATUS, 3, 0⟩
def CAL_DT_cal_dt : Field := ⟨Reg.CAL_DT, 15, 0⟩
def CAL_GAP_cal_lines : Field := ⟨Reg.CAL_GAP, 31, 16⟩
def CAL_GAP_gap_min_cal : Field := ⟨Reg.CAL_GAP, 15, 0⟩
def CAL_TOL_cal_tol : Field := ⟨Reg.CAL_TOL, 15, 0⟩
def CAL_WEAR_wear_warn : Field := ⟨Reg.CAL_WEAR, 15, 0⟩
def CAL_WRITES_value : Field := ⟨Reg.CAL_WRITES, 31, 0⟩
def CAL_ECC_uncorrectable : Field := ⟨Reg.CAL_ECC, 31, 16⟩
def CAL_REC_SEL_selector : Field := ⟨Reg.CAL_REC_SEL, 23, 16⟩
def CAL_REC_SEL_type : Field := ⟨Reg.CAL_REC_SEL, 15, 0⟩
def CAL_REC_STAT_state : Field := ⟨Reg.CAL_REC_STAT, 31, 30⟩
def CAL_REC_STAT_slot_a : Field := ⟨Reg.CAL_REC_STAT, 29, 28⟩
def CAL_REC_STAT_slot_b : Field := ⟨Reg.CAL_REC_STAT, 27, 26⟩
def CAL_REC_STAT_in_use : Field := ⟨Reg.CAL_REC_STAT, 25, 25⟩
def CAL_REC_GEN_value : Field := ⟨Reg.CAL_REC_GEN, 31, 0⟩
def CAL_PORT_STRIP_strip_c1 (i : Nat) : Field := ⟨Reg.CAL_PORT_STRIP i, 29, 16⟩
def CAL_PORT_STRIP_strip_c0 (i : Nat) : Field := ⟨Reg.CAL_PORT_STRIP i, 13, 0⟩
def CAL_PORT_STAT_state (i : Nat) : Field := ⟨Reg.CAL_PORT_STAT i, 31, 29⟩
def CAL_PORT_STAT_traced (i : Nat) : Field := ⟨Reg.CAL_PORT_STAT i, 28, 28⟩
def CAL_PORT_STAT_kind (i : Nat) : Field := ⟨Reg.CAL_PORT_STAT i, 27, 27⟩
def CAL_PORT_STAT_tries (i : Nat) : Field := ⟨Reg.CAL_PORT_STAT i, 23, 20⟩
def CAL_PORT_KC_RG_kc_g (i : Nat) : Field := ⟨Reg.CAL_PORT_KC_RG i, 31, 16⟩
def CAL_PORT_KC_RG_kc_r (i : Nat) : Field := ⟨Reg.CAL_PORT_KC_RG i, 15, 0⟩
def CAL_PORT_KC_B_value (i : Nat) : Field := ⟨Reg.CAL_PORT_KC_B i, 15, 0⟩
def CAL_PORT_REF_value (i : Nat) : Field := ⟨Reg.CAL_PORT_REF i, 15, 0⟩
def TALLY_CTRL_replay_stop : Field := ⟨Reg.TALLY_CTRL, 31, 31⟩
def TALLY_CTRL_rec_level : Field := ⟨Reg.TALLY_CTRL, 3, 0⟩
def TALLY_STATUS_state : Field := ⟨Reg.TALLY_STATUS, 31, 29⟩
def TALLY_STATUS_cam_full : Field := ⟨Reg.TALLY_STATUS, 28, 28⟩
def TALLY_STATUS_wrapped : Field := ⟨Reg.TALLY_STATUS, 27, 27⟩
def TALLY_STATUS_gap : Field := ⟨Reg.TALLY_STATUS, 26, 26⟩
def TALLY_STATUS_session : Field := ⟨Reg.TALLY_STATUS, 25, 25⟩
def TALLY_STATUS_pages : Field := ⟨Reg.TALLY_STATUS, 16, 0⟩
def TALLY_CHUNK_CFG_chunk_ms : Field := ⟨Reg.TALLY_CHUNK_CFG, 31, 16⟩
def TALLY_CHUNK_CFG_chunk_kib : Field := ⟨Reg.TALLY_CHUNK_CFG, 15, 0⟩
def TALLY_CHUNKS_value : Field := ⟨Reg.TALLY_CHUNKS, 31, 0⟩
def TALLY_EXPORTED_value : Field := ⟨Reg.TALLY_EXPORTED, 31, 0⟩
def TALLY_OVERWRITE_value : Field := ⟨Reg.TALLY_OVERWRITE, 31, 0⟩
def TALLY_LOST_value : Field := ⟨Reg.TALLY_LOST, 31, 0⟩
def TALLY_SETUP_value : Field := ⟨Reg.TALLY_SETUP, 31, 0⟩
def TALLY_TABLE_SIG_value : Field := ⟨Reg.TALLY_TABLE_SIG, 31, 0⟩
def TALLY_STATUS_SIG_value : Field := ⟨Reg.TALLY_STATUS_SIG, 31, 0⟩
def TALLY_REPLAY_TIME_value : Field := ⟨Reg.TALLY_REPLAY_TIME, 31, 0⟩
def TALLY_REPLAY_WAIT_replay_wait : Field := ⟨Reg.TALLY_REPLAY_WAIT, 15, 0⟩
def TALLY_DIV_CAUSE_cause : Field := ⟨Reg.TALLY_DIV_CAUSE, 31, 28⟩
def TALLY_DIV_CAUSE_ink : Field := ⟨Reg.TALLY_DIV_CAUSE, 10, 8⟩
def TALLY_DIV_CAUSE_unit : Field := ⟨Reg.TALLY_DIV_CAUSE, 7, 0⟩
def TALLY_DIV_IMAGE_value : Field := ⟨Reg.TALLY_DIV_IMAGE, 31, 0⟩
def TALLY_DIV_LINE_value : Field := ⟨Reg.TALLY_DIV_LINE, 23, 0⟩
def TALLY_DIV_REC_value : Field := ⟨Reg.TALLY_DIV_REC, 31, 0⟩
def TALLY_DIV_NOW_value : Field := ⟨Reg.TALLY_DIV_NOW, 31, 0⟩
def TALLY_DIV_CNT_value : Field := ⟨Reg.TALLY_DIV_CNT, 31, 0⟩
def TALLY_SNAP_CTRL_newest : Field := ⟨Reg.TALLY_SNAP_CTRL, 1, 1⟩
def TALLY_SNAP_CTRL_hold : Field := ⟨Reg.TALLY_SNAP_CTRL, 0, 0⟩
def TALLY_SNAP_SEL_offset : Field := ⟨Reg.TALLY_SNAP_SEL, 25, 2⟩
def TALLY_SNAP_VAL_value : Field := ⟨Reg.TALLY_SNAP_VAL, 31, 0⟩
def TALLY_SNAP_N_value : Field := ⟨Reg.TALLY_SNAP_N, 15, 0⟩
def SYS_ID_part : Field := ⟨Reg.SYS_ID, 31, 16⟩
def SYS_ID_revision : Field := ⟨Reg.SYS_ID, 7, 0⟩
def SYS_STRAP_test : Field := ⟨Reg.SYS_STRAP, 9, 9⟩
def SYS_STRAP_therm : Field := ⟨Reg.SYS_STRAP, 8, 8⟩
def SYS_STRAP_web : Field := ⟨Reg.SYS_STRAP, 7, 7⟩
def SYS_STRAP_lane : Field := ⟨Reg.SYS_STRAP, 5, 4⟩
def SYS_STRAP_pcie : Field := ⟨Reg.SYS_STRAP, 3, 2⟩
def SYS_STRAP_boot : Field := ⟨Reg.SYS_STRAP, 1, 0⟩
def SYS_STATUS_phase : Field := ⟨Reg.SYS_STATUS, 31, 28⟩
def SYS_STATUS_ready : Field := ⟨Reg.SYS_STATUS, 8, 8⟩
def SYS_STATUS_records : Field := ⟨Reg.SYS_STATUS, 4, 4⟩
def SYS_STATUS_dram_wiped : Field := ⟨Reg.SYS_STATUS, 3, 3⟩
def SYS_STATUS_trained : Field := ⟨Reg.SYS_STATUS, 2, 2⟩
def SYS_STATUS_hif_ready : Field := ⟨Reg.SYS_STATUS, 1, 1⟩
def SYS_STATUS_sram_wiped : Field := ⟨Reg.SYS_STATUS, 0, 0⟩
def SYS_RST_CAUSE_hif_reset : Field := ⟨Reg.SYS_RST_CAUSE, 8, 8⟩
def SYS_RST_CAUSE_cause : Field := ⟨Reg.SYS_RST_CAUSE, 3, 0⟩
def SYS_RST_key : Field := ⟨Reg.SYS_RST, 31, 16⟩
def SYS_RST_go : Field := ⟨Reg.SYS_RST, 0, 0⟩
def SYS_LOCK_lock : Field := ⟨Reg.SYS_LOCK, 0, 0⟩
def SYS_BOOT_MS_value : Field := ⟨Reg.SYS_BOOT_MS, 15, 0⟩
def SYS_LC_VIEW_value : Field := ⟨Reg.SYS_LC_VIEW, 2, 0⟩

end Fld

/-- Register table, part 1. -/
def regSpecs1 : List RegSpec := [
  ⟨.HIF_CTRL, 0x00100000, 0x4, 1, (fun _ => 0), [⟨1, 1, .rw⟩, ⟨0, 0, .rw⟩]⟩,
  ⟨.HIF_STATUS, 0x00100004, 0x4, 1, (fun _ => 0), [⟨2, 2, .ro⟩, ⟨1, 1, .ro⟩, ⟨0, 0, .ro⟩]⟩,
  ⟨.HIF_LINK_STAT, 0x00100008, 0x4, 1, (fun _ => 0), [⟨8, 8, .ro⟩, ⟨7, 4, .ro⟩, ⟨3, 0, .ro⟩]⟩,
  ⟨.HIF_DB_ADDR_LO, 0x00100010, 0x4, 1, (fun _ => 0), [⟨31, 12, .rw⟩]⟩,
  ⟨.HIF_DB_ADDR_HI, 0x00100014, 0x4, 1, (fun _ => 0), [⟨31, 0, .rw⟩]⟩,
  ⟨.HIF_DB_CFG, 0x00100018, 0x4, 1, (fun _ => 2147485648), [⟨31, 31, .rw⟩, ⟨19, 0, .rw⟩]⟩,
  ⟨.HIF_DB_KICK, 0x0010001C, 0x4, 1, (fun _ => 0), [⟨31, 0, .wo⟩]⟩,
  ⟨.HIF_STAGE_WAIT, 0x00100020, 0x4, 1, (fun _ => 100), [⟨15, 0, .rw⟩]⟩,
  ⟨.HIF_RTT, 0x00100024, 0x4, 1, (fun _ => 0), [⟨15, 0, .ro⟩, ⟨31, 16, .rc⟩]⟩,
  ⟨.HIF_RING_BASE_LO, 0x00101000, 0x20, 64, (fun _ => 0), [⟨31, 12, .rw⟩]⟩,
  ⟨.HIF_RING_BASE_HI, 0x00101004, 0x20, 64, (fun _ => 0), [⟨31, 0, .rw⟩]⟩,
  ⟨.HIF_RING_CFG, 0x00101008, 0x20, 64, (fun _ => 0), [⟨31, 31, .rw⟩, ⟨30, 30, .ro⟩, ⟨24, 24, .rw⟩, ⟨20, 16, .rw⟩, ⟨13, 8, .rw⟩, ⟨6, 6, .rw⟩, ⟨5, 5, .rw⟩, ⟨3, 0, .rw⟩]⟩,
  ⟨.HIF_RING_MOD, 0x0010100C, 0x20, 64, (fun _ => 1), [⟨31, 16, .rw⟩, ⟨15, 0, .rw⟩]⟩,
  ⟨.HIF_RING_STAT, 0x00101010, 0x20, 64, (fun _ => 0), [⟨31, 28, .ro⟩, ⟨16, 16, .ro⟩, ⟨15, 0, .ro⟩]⟩,
  ⟨.HIF_EV_MAP, 0x00102000, 0x4, 256, (fun i => i), [⟨7, 0, .rw⟩]⟩,
  ⟨.HIF_EV_STATUS, 0x00102400, 0x4, 8, (fun _ => 0), [⟨31, 0, .w1c⟩]⟩,
  ⟨.HIF_EV_ENABLE, 0x00102420, 0x4, 8, (fun _ => 0), [⟨31, 0, .rw⟩]⟩,
  ⟨.MSIX_ADDR_LO, 0x00180000, 0x10, 256, (fun _ => 0), [⟨31, 0, .rw⟩]⟩,
  ⟨.MSIX_ADDR_HI, 0x00180004, 0x10, 256, (fun _ => 0), [⟨31, 0, .rw⟩]⟩,
  ⟨.MSIX_DATA, 0x00180008, 0x10, 256, (fun _ => 0), [⟨31, 0, .rw⟩]⟩,
  ⟨.MSIX_VCTRL, 0x0018000C, 0x10, 256, (fun _ => 1), [⟨0, 0, .rw⟩]⟩,
  ⟨.MSIX_PBA, 0x00181000, 0x4, 8, (fun _ => 0), [⟨31, 0, .ro⟩]⟩,
  ⟨.LAYER_CTRL, 0x00800000, 0x4, 1, (fun _ => 64), [⟨17, 17, .rw⟩, ⟨16, 16, .rw⟩, ⟨12, 0, .rw⟩]⟩,
  ⟨.LAYER_LEAD_MIN, 0x00800004, 0x4, 1, (fun _ => 512), [⟨23, 0, .rw⟩]⟩,
  ⟨.LAYER_LEAD_MAX, 0x00800008, 0x4, 1, (fun _ => 0), [⟨23, 0, .rw⟩]⟩,
  ⟨.LAYER_REJECT_DIST, 0x0080000C, 0x4, 1, (fun _ => 0), [⟨31, 0, .rw⟩]⟩,
  ⟨.LAYER_REJECT_WIDTH, 0x00800010, 0x4, 1, (fun _ => 1000), [⟨15, 0, .rw⟩]⟩,
  ⟨.LAYER_STATUS, 0x00800014, 0x4, 1, (fun _ => 0), [⟨15, 9, .ro⟩, ⟨3, 3, .ro⟩, ⟨2, 2, .ro⟩, ⟨1, 1, .ro⟩, ⟨0, 0, .ro⟩]⟩,
  ⟨.LAYER_IMAGE, 0x00800018, 0x4, 1, (fun _ => 0), [⟨31, 0, .ro⟩]⟩,
  ⟨.LAYER_NEXT, 0x0080001C, 0x4, 1, (fun _ => 0), [⟨31, 0, .ro⟩]⟩]

/-- Register table, part 2. -/
def regSpecs2 : List RegSpec := [
  ⟨.LAYER_POS, 0x00800020, 0x4, 1, (fun _ => 0), [⟨23, 0, .ro⟩]⟩,
  ⟨.LAYER_LEAD_NOW, 0x00800024, 0x4, 1, (fun _ => 0), [⟨23, 0, .ro⟩]⟩,
  ⟨.LAYER_FETCH, 0x00800028, 0x4, 1, (fun _ => 0), [⟨31, 0, .ro⟩]⟩,
  ⟨.LAYER_REJECT_CNT, 0x0080002C, 0x4, 1, (fun _ => 0), [⟨31, 0, .rc⟩]⟩,
  ⟨.LAYER_FREEZE_STAT, 0x00800030, 0x4, 1, (fun _ => 0), [⟨7, 0, .w1c⟩]⟩,
  ⟨.LAYER_NR_STAT, 0x00800034, 0x4, 1, (fun _ => 0), [⟨8, 8, .w1c⟩, ⟨7, 0, .w1c⟩]⟩,
  ⟨.LAYER_SIG, 0x00800040, 0x4, 8, (fun _ => 0), [⟨31, 0, .ro⟩]⟩,
  ⟨.LAYER_NR_CNT, 0x00800060, 0x4, 9, (fun _ => 0), [⟨31, 0, .rc⟩]⟩,
  ⟨.INK_CTRL, 0x00900000, 0x4, 1, (fun _ => 3), [⟨1, 1, .rw⟩, ⟨0, 0, .rw⟩]⟩,
  ⟨.INK_STATUS, 0x00900004, 0x4, 1, (fun _ => 0), [⟨7, 7, .ro⟩, ⟨6, 6, .ro⟩, ⟨5, 5, .ro⟩, ⟨3, 0, .ro⟩]⟩,
  ⟨.INK_TSEL, 0x00900008, 0x4, 1, (fun _ => 1), [⟨23, 16, .rw⟩, ⟨15, 8, .rw⟩, ⟨7, 0, .rw⟩]⟩,
  ⟨.INK_TSTATE, 0x0090000C, 0x4, 1, (fun _ => 0), [⟨2, 2, .ro⟩, ⟨1, 1, .ro⟩, ⟨0, 0, .ro⟩]⟩,
  ⟨.INK_TCRC_ACT, 0x00900010, 0x4, 1, (fun _ => 0), [⟨31, 0, .ro⟩]⟩,
  ⟨.INK_TCRC_SHD, 0x00900014, 0x4, 1, (fun _ => 0), [⟨31, 0, .ro⟩]⟩,
  ⟨.INK_VERIFY, 0x00900018, 0x4, 1, (fun _ => 100), [⟨15, 0, .rw⟩]⟩,
  ⟨.INK_PACE_FLOOR, 0x0090001C, 0x4, 1, (fun _ => 0), [⟨15, 0, .rw⟩]⟩,
  ⟨.INK_CLAMP_LIMIT, 0x00900020, 0x4, 1, (fun _ => 0), [⟨23, 0, .rw⟩]⟩,
  ⟨.INK_CLAMP_CNT, 0x00900024, 0x4, 1, (fun _ => 0), [⟨31, 0, .rc⟩]⟩,
  ⟨.INK_COMP_LOST, 0x00900028, 0x4, 1, (fun _ => 0), [⟨31, 0, .rc⟩]⟩,
  ⟨.INK_PENNED_CNT, 0x0090002C, 0x4, 1, (fun _ => 0), [⟨23, 0, .ro⟩]⟩,
  ⟨.INK_PACE, 0x00900100, 0x4, 32, (fun _ => 0), [⟨31, 16, .ro⟩, ⟨15, 0, .ro⟩]⟩,
  ⟨.BELL_CTRL, 0x00B00000, 0x4, 1, (fun _ => 512), [⟨15, 15, .rwl⟩, ⟨14, 12, .rw⟩, ⟨9, 8, .rw⟩, ⟨4, 4, .rw⟩, ⟨3, 3, .rw⟩, ⟨2, 2, .rwl⟩, ⟨1, 0, .rwl⟩]⟩,
  ⟨.BELL_STATUS, 0x00B00004, 0x4, 1, (fun _ => 16), [⟨10, 10, .ro⟩, ⟨9, 9, .ro⟩, ⟨8, 8, .ro⟩, ⟨7, 7, .ro⟩, ⟨6, 6, .ro⟩, ⟨5, 5, .ro⟩, ⟨4, 4, .ro⟩, ⟨3, 3, .ro⟩, ⟨2, 0, .ro⟩]⟩,
  ⟨.BELL_SPEED, 0x00B00008, 0x4, 1, (fun _ => 0), [⟨31, 0, .ro⟩]⟩,
  ⟨.BELL_LRATE, 0x00B0000C, 0x4, 1, (fun _ => 0), [⟨23, 0, .ro⟩]⟩,
  ⟨.BELL_POS_LO, 0x00B00010, 0x4, 1, (fun _ => 0), [⟨31, 0, .ro⟩]⟩,
  ⟨.BELL_POS_HI, 0x00B00014, 0x4, 1, (fun _ => 0), [⟨15, 0, .ro⟩]⟩,
  ⟨.BELL_FPOS_LO, 0x00B00018, 0x4, 1, (fun _ => 0), [⟨31, 0, .ro⟩]⟩,
  ⟨.BELL_FPOS_HI, 0x00B0001C, 0x4, 1, (fun _ => 0), [⟨15, 0, .ro⟩]⟩,
  ⟨.BELL_HWM_LO, 0x00B00020, 0x4, 1, (fun _ => 0), [⟨31, 0, .ro⟩]⟩]

/-- Register table, part 3. -/
def regSpecs3 : List RegSpec := [
  ⟨.BELL_HWM_HI, 0x00B00024, 0x4, 1, (fun _ => 0), [⟨15, 0, .ro⟩]⟩,
  ⟨.BELL_CEILING, 0x00B00028, 0x4, 1, (fun _ => 1342177280), [⟨31, 28, .ro⟩, ⟨27, 0, .ro⟩]⟩,
  ⟨.BELL_CEIL_LINES, 0x00B0002C, 0x4, 1, (fun _ => 118110), [⟨28, 24, .ro⟩, ⟨23, 0, .ro⟩]⟩,
  ⟨.BELL_CEIL_DELTA, 0x00B00030, 0x4, 1, (fun _ => 500), [⟨23, 0, .rw⟩]⟩,
  ⟨.BELL_STILL, 0x00B00034, 0x4, 1, (fun _ => 50), [⟨9, 0, .rw⟩]⟩,
  ⟨.BELL_COAST, 0x00B00038, 0x4, 1, (fun _ => 8), [⟨7, 0, .rw⟩]⟩,
  ⟨.BELL_BACK_LIMIT, 0x00B0003C, 0x4, 1, (fun _ => 16), [⟨15, 0, .rw⟩]⟩,
  ⟨.BELL_ENC_CFG, 0x00B00040, 0x4, 1, (fun _ => 500), [⟨31, 31, .rw⟩, ⟨18, 18, .rw⟩, ⟨17, 16, .rw⟩, ⟨15, 0, .rw⟩]⟩,
  ⟨.BELL_ENC_RATIO, 0x00B00044, 0x4, 1, (fun _ => 65537), [⟨31, 16, .rw⟩, ⟨15, 0, .rw⟩]⟩,
  ⟨.BELL_DIFF_LIMIT, 0x00B00048, 0x4, 1, (fun _ => 8), [⟨15, 0, .rw⟩]⟩,
  ⟨.BELL_BACK_CNT, 0x00B00060, 0x4, 1, (fun _ => 0), [⟨31, 0, .rc⟩]⟩,
  ⟨.BELL_SLIP_CNT, 0x00B00064, 0x4, 1, (fun _ => 0), [⟨31, 0, .rc⟩]⟩,
  ⟨.BELL_GLITCH_CNT, 0x00B00068, 0x4, 1, (fun _ => 0), [⟨31, 0, .rc⟩]⟩,
  ⟨.BELL_BURST_CNT, 0x00B0006C, 0x4, 1, (fun _ => 0), [⟨31, 0, .rc⟩]⟩,
  ⟨.BELL_ENC_LOST, 0x00B00070, 0x4, 1, (fun _ => 0), [⟨31, 0, .rc⟩]⟩,
  ⟨.BELL_OVER_STAT, 0x00B00074, 0x4, 1, (fun _ => 0), [⟨15, 8, .w1c⟩, ⟨7, 0, .w1c⟩]⟩,
  ⟨.BELL_PHASE_ERR, 0x00B00078, 0x4, 1, (fun _ => 0), [⟨31, 0, .ro⟩]⟩,
  ⟨.BELL_W_CFG, 0x00B00100, 0x40, 2, (fun _ => 0), [⟨31, 31, .rwl⟩, ⟨21, 21, .rwl⟩, ⟨20, 20, .rwl⟩, ⟨19, 19, .rwl⟩, ⟨17, 16, .rwl⟩, ⟨15, 0, .rwl⟩]⟩,
  ⟨.BELL_W_PITCH_INT, 0x00B00104, 0x40, 2, (fun _ => 0), [⟨31, 0, .rwl⟩]⟩,
  ⟨.BELL_W_PITCH_FRAC, 0x00B00108, 0x40, 2, (fun _ => 0), [⟨15, 0, .rwl⟩]⟩,
  ⟨.BELL_W_FILTER, 0x00B0010C, 0x40, 2, (fun _ => 40), [⟨9, 0, .rw⟩]⟩,
  ⟨.BELL_W_STAT, 0x00B00110, 0x40, 2, (fun _ => 0), [⟨5, 5, .ro⟩, ⟨4, 4, .ro⟩, ⟨3, 3, .ro⟩, ⟨2, 0, .ro⟩]⟩,
  ⟨.BELL_W_IDXCNT, 0x00B00114, 0x40, 2, (fun _ => 0), [⟨31, 0, .ro⟩]⟩,
  ⟨.BELL_W_POS_LO, 0x00B00118, 0x40, 2, (fun _ => 0), [⟨31, 0, .ro⟩]⟩,
  ⟨.BELL_W_POS_HI, 0x00B0011C, 0x40, 2, (fun _ => 0), [⟨15, 0, .ro⟩]⟩,
  ⟨.BELL_W_INTERVAL, 0x00B00120, 0x40, 2, (fun _ => 0), [⟨31, 0, .ro⟩]⟩,
  ⟨.BELL_FMAX, 0x00B00200, 0x10, 8, (fun _ => 0), [⟨17, 0, .rw⟩]⟩,
  ⟨.BELL_OFF_LO, 0x00B00204, 0x10, 8, (fun _ => 0), [⟨31, 0, .rwl⟩]⟩,
  ⟨.BELL_OFF_HI, 0x00B00208, 0x10, 8, (fun _ => 0), [⟨15, 0, .rwl⟩]⟩,
  ⟨.BELL_SKIP_CNT, 0x00B0020C, 0x10, 8, (fun _ => 0), [⟨31, 0, .rc⟩]⟩]

/-- Register table, part 4. -/
def regSpecs4 : List RegSpec := [
  ⟨.JET_CTRL, 0x00C00000, 0x4, 1, (fun _ => 624), [⟨11, 8, .rw⟩, ⟨6, 4, .rw⟩, ⟨2, 2, .rw⟩, ⟨1, 1, .rw⟩, ⟨0, 0, .rw⟩]⟩,
  ⟨.JET_STATUS, 0x00C00004, 0x4, 1, (fun _ => 0), [⟨15, 8, .ro⟩, ⟨7, 0, .ro⟩]⟩,
  ⟨.JET_LEAD_CAP, 0x00C00008, 0x4, 1, (fun _ => 4096), [⟨16, 0, .rwl⟩]⟩,
  ⟨.JET_FIRE_WIDTH, 0x00C0000C, 0x4, 1, (fun _ => 500), [⟨12, 0, .rw⟩]⟩,
  ⟨.JET_ECHO, 0x00C00010, 0x4, 1, (fun _ => 3000), [⟨11, 0, .rw⟩]⟩,
  ⟨.JET_DRILL_MIN, 0x00C00014, 0x4, 1, (fun _ => 64), [⟨15, 0, .rw⟩]⟩,
  ⟨.JET_IMAGE, 0x00C00018, 0x4, 1, (fun _ => 0), [⟨31, 0, .ro⟩]⟩,
  ⟨.JET_FLIP_IMAGE, 0x00C0001C, 0x4, 1, (fun _ => 0), [⟨31, 0, .ro⟩]⟩,
  ⟨.JET_FLIP_TIME, 0x00C00020, 0x4, 1, (fun _ => 0), [⟨31, 0, .ro⟩]⟩,
  ⟨.JET_MATCH, 0x00C00024, 0x4, 1, (fun _ => 0), [⟨23, 0, .rw⟩]⟩,
  ⟨.JET_BAR_CTRL, 0x00C00100, 0x40, 8, (fun _ => 0), [⟨31, 31, .rw⟩, ⟨30, 30, .rw⟩, ⟨29, 29, .w1s⟩, ⟨28, 28, .rw⟩, ⟨27, 27, .wo⟩, ⟨26, 26, .wo⟩, ⟨24, 24, .rw⟩, ⟨19, 16, .rw⟩]⟩,
  ⟨.JET_BAR_CFG, 0x00C00104, 0x40, 8, (fun _ => 0), [⟨31, 31, .rw⟩, ⟨30, 30, .rw⟩, ⟨25, 24, .rw⟩]⟩,
  ⟨.JET_BAR_STAT, 0x00C00108, 0x40, 8, (fun _ => 0), [⟨29, 29, .ro⟩, ⟨28, 28, .ro⟩, ⟨27, 24, .ro⟩, ⟨23, 23, .ro⟩, ⟨22, 22, .ro⟩, ⟨21, 21, .ro⟩]⟩,
  ⟨.JET_BAR_IMAGE, 0x00C0010C, 0x40, 8, (fun _ => 0), [⟨31, 0, .ro⟩]⟩,
  ⟨.JET_BAR_LINE, 0x00C00110, 0x40, 8, (fun _ => 0), [⟨31, 31, .ro⟩, ⟨23, 0, .ro⟩]⟩,
  ⟨.JET_BAR_MATCH, 0x00C00114, 0x40, 8, (fun _ => 0), [⟨23, 0, .rw⟩]⟩,
  ⟨.JET_BAR_EVSTAT, 0x00C00118, 0x40, 8, (fun _ => 0), [⟨3, 3, .w1c⟩, ⟨2, 2, .w1c⟩, ⟨1, 1, .w1c⟩, ⟨0, 0, .w1c⟩]⟩,
  ⟨.JET_BAR_UNDERRUN, 0x00C0011C, 0x40, 8, (fun _ => 0), [⟨31, 0, .rc⟩]⟩,
  ⟨.JET_BAR_FIRE_LOST, 0x00C00120, 0x40, 8, (fun _ => 0), [⟨31, 0, .rc⟩]⟩,
  ⟨.JET_BAR_SWAPS, 0x00C00124, 0x40, 8, (fun _ => 0), [⟨15, 0, .ro⟩]⟩,
  ⟨.JET_BAR_PULSE_CUT, 0x00C00128, 0x40, 8, (fun _ => 0), [⟨31, 0, .rc⟩]⟩,
  ⟨.JET_BAR_RING, 0x00C0012C, 0x40, 8, (fun _ => 0), [⟨23, 0, .ro⟩]⟩,
  ⟨.JET_BAR_IL, 0x00C00130, 0x40, 8, (fun _ => 16842752), [⟨30, 24, .ro⟩, ⟨22, 16, .ro⟩, ⟨13, 8, .ro⟩, ⟨5, 0, .ro⟩]⟩,
  ⟨.JET_BAR_RUNS, 0x00C00134, 0x40, 8, (fun _ => 0), [⟨29, 16, .ro⟩, ⟨13, 0, .ro⟩]⟩,
  ⟨.JET_BAR_DOT_LATE, 0x00C00138, 0x40, 8, (fun _ => 0), [⟨31, 0, .rc⟩]⟩,
  ⟨.JET_BAR_PAGES, 0x00C0013C, 0x40, 8, (fun _ => 0), [⟨15, 0, .ro⟩]⟩,
  ⟨.LINK_CTRL, 0x00D00000, 0x4000, 32, (fun _ => 1946157056), [⟨31, 31, .wo⟩, ⟨30, 30, .rw⟩, ⟨29, 29, .rw⟩, ⟨28, 28, .rw⟩, ⟨27, 27, .rw⟩, ⟨26, 26, .rw⟩, ⟨25, 25, .rw⟩, ⟨17, 16, .rw⟩]⟩,
  ⟨.LINK_STATUS, 0x00D00004, 0x4000, 32, (fun _ => 0), [⟨31, 28, .ro⟩, ⟨27, 26, .ro⟩, ⟨25, 25, .ro⟩, ⟨24, 24, .ro⟩, ⟨23, 23, .ro⟩, ⟨22, 22, .ro⟩, ⟨21, 20, .ro⟩, ⟨19, 18, .ro⟩, ⟨11, 8, .ro⟩, ⟨7, 0, .ro⟩]⟩,
  ⟨.LINK_ROLE, 0x00D00008, 0x4000, 32, (fun i => ((i / 2) % 2) * 2 + i % 2), [⟨1, 1, .rwl⟩, ⟨0, 0, .rwl⟩]⟩,
  ⟨.LINK_FEC_CORR, 0x00D0000C, 0x4000, 32, (fun _ => 0), [⟨31, 0, .rc⟩]⟩]

/-- Register table, part 5. -/
def regSpecs5 : List RegSpec := [
  ⟨.LINK_FEC_UNCORR, 0x00D00010, 0x4000, 32, (fun _ => 0), [⟨31, 0, .rc⟩]⟩,
  ⟨.LINK_HUB_FEC, 0x00D00014, 0x4000, 32, (fun _ => 0), [⟨31, 16, .ro⟩, ⟨7, 0, .ro⟩]⟩,
  ⟨.LINK_SEQ, 0x00D00018, 0x4000, 32, (fun _ => 0), [⟨31, 0, .ro⟩]⟩,
  ⟨.LINK_HUB_ACC, 0x00D0001C, 0x4000, 32, (fun _ => 0), [⟨31, 0, .ro⟩]⟩,
  ⟨.LINK_SKEW, 0x00D00020, 0x4000, 32, (fun _ => 0), [⟨13, 0, .ro⟩]⟩,
  ⟨.LINK_EQ, 0x00D00024, 0x4000, 32, (fun _ => 0), [⟨31, 24, .ro⟩, ⟨23, 16, .ro⟩, ⟨15, 8, .ro⟩, ⟨7, 0, .ro⟩]⟩,
  ⟨.LINK_TRAIN_TIME, 0x00D00028, 0x4000, 32, (fun _ => 0), [⟨15, 0, .ro⟩]⟩,
  ⟨.LINK_LATE_DROP, 0x00D0002C, 0x4000, 32, (fun _ => 0), [⟨31, 0, .rc⟩]⟩,
  ⟨.LINK_LEAVE_CNT, 0x00D00030, 0x4000, 32, (fun _ => 0), [⟨31, 0, .rc⟩]⟩,
  ⟨.LINK_BAR_CTRL, 0x00D00100, 0x10000, 8, (fun _ => 64), [⟨31, 31, .rw⟩, ⟨30, 30, .rw⟩, ⟨15, 0, .rw⟩]⟩,
  ⟨.LINK_BAR_AFTER, 0x00D00104, 0x10000, 8, (fun _ => 1000), [⟨15, 0, .rw⟩]⟩,
  ⟨.LINK_BAR_STAT, 0x00D00108, 0x10000, 8, (fun _ => 0), [⟨15, 14, .ro⟩, ⟨13, 12, .ro⟩, ⟨9, 9, .ro⟩, ⟨8, 8, .ro⟩, ⟨3, 0, .ro⟩]⟩,
  ⟨.LINK_GLOBAL, 0x00D00200, 0x4, 1, (fun _ => 1310724), [⟨31, 16, .rw⟩, ⟨7, 0, .rw⟩]⟩,
  ⟨.LINK_FEC_WARN, 0x00D00204, 0x4, 1, (fun _ => 20000), [⟨23, 0, .rw⟩]⟩,
  ⟨.JET_NH_CTRL, 0x00C01000, 0x4, 1, (fun _ => 798), [⟨10, 8, .rw⟩, ⟨5, 5, .rw⟩, ⟨4, 4, .rw⟩, ⟨3, 3, .rw⟩, ⟨2, 2, .rw⟩, ⟨1, 1, .rw⟩, ⟨0, 0, .rw⟩]⟩,
  ⟨.JET_NH_DD_CFG, 0x00C01004, 0x4, 1, (fun _ => 537002240), [⟨31, 20, .rw⟩, ⟨19, 16, .rw⟩, ⟨15, 0, .rw⟩]⟩,
  ⟨.JET_NH_WINDOW, 0x00C01008, 0x4, 1, (fun _ => 26214440), [⟨27, 16, .rw⟩, ⟨11, 0, .rw⟩]⟩,
  ⟨.JET_NH_IMP_LIM, 0x00C0100C, 0x4, 1, (fun _ => 4294836225), [⟨31, 16, .rw⟩, ⟨15, 0, .rw⟩]⟩,
  ⟨.JET_NH_IMP_MARGIN, 0x00C01010, 0x4, 1, (fun _ => 0), [⟨15, 0, .rw⟩]⟩,
  ⟨.JET_NH_LIMITS, 0x00C01014, 0x4, 1, (fun _ => 3), [⟨31, 16, .rw⟩, ⟨3, 0, .rw⟩]⟩,
  ⟨.JET_NH_AGE, 0x00C01018, 0x4, 1, (fun _ => 0), [⟨15, 0, .rw⟩]⟩,
  ⟨.JET_NH_LAST, 0x00C0101C, 0x4, 1, (fun _ => 0), [⟨31, 29, .ro⟩, ⟨28, 28, .ro⟩, ⟨27, 26, .ro⟩, ⟨25, 24, .ro⟩, ⟨17, 0, .ro⟩]⟩,
  ⟨.JET_NH_TRANSIENT, 0x00C01020, 0x4, 1, (fun _ => 0), [⟨31, 0, .rc⟩]⟩,
  ⟨.JET_NH_UNTESTED, 0x00C01024, 0x4, 1, (fun _ => 0), [⟨31, 0, .rc⟩]⟩,
  ⟨.JET_NH_BAR_STAT, 0x00C01100, 0x10, 8, (fun _ => 0), [⟨31, 16, .ro⟩, ⟨15, 0, .ro⟩]⟩,
  ⟨.JET_NH_BAR_SPARES, 0x00C01104, 0x10, 8, (fun _ => 0), [⟨17, 0, .ro⟩]⟩,
  ⟨.JET_NH_BAR_SWEEP, 0x00C01108, 0x10, 8, (fun _ => 0), [⟨31, 0, .ro⟩]⟩,
  ⟨.JET_NH_BAR_PROG, 0x00C0110C, 0x10, 8, (fun _ => 0), [⟨29, 28, .ro⟩, ⟨27, 16, .ro⟩, ⟨5, 0, .ro⟩]⟩,
  ⟨.SEE_CTRL, 0x00E00000, 0x4, 1, (fun _ => 5), [⟨3, 2, .rw⟩, ⟨1, 0, .rw⟩]⟩,
  ⟨.SEE_STATUS, 0x00E00004, 0x4, 1, (fun _ => 0), [⟨13, 8, .ro⟩, ⟨5, 0, .ro⟩]⟩]

/-- Register table, part 6. -/
def regSpecs6 : List RegSpec := [
  ⟨.SEE_PORT_CFG, 0x00E01000, 0x100, 6, (fun i => 0x2B * 65536 + (if i < 4 then 4 else 2) * 4096), [⟨31, 31, .rw⟩, ⟨27, 24, .rw⟩, ⟨21, 16, .rw⟩, ⟨14, 12, .rw⟩, ⟨11, 11, .rw⟩, ⟨10, 4, .rw⟩]⟩,
  ⟨.SEE_PORT_GEOM, 0x00E01004, 0x100, 6, (fun _ => 0), [⟨31, 16, .rw⟩, ⟨15, 0, .rw⟩]⟩,
  ⟨.SEE_PORT_STAT, 0x00E01008, 0x100, 6, (fun _ => 0), [⟨19, 19, .ro⟩, ⟨18, 18, .ro⟩, ⟨17, 17, .ro⟩, ⟨16, 16, .ro⟩, ⟨15, 0, .ro⟩]⟩,
  ⟨.SEE_PORT_FSEQ, 0x00E0100C, 0x100, 6, (fun _ => 0), [⟨31, 0, .ro⟩]⟩,
  ⟨.SEE_PORT_FIFO, 0x00E01010, 0x100, 6, (fun _ => 0), [⟨26, 16, .rc⟩, ⟨10, 0, .ro⟩]⟩,
  ⟨.SEE_PORT_ERR, 0x00E01014, 0x100, 6, (fun _ => 0), [⟨31, 24, .rc⟩, ⟨23, 16, .rc⟩, ⟨15, 8, .rc⟩, ⟨7, 0, .rc⟩]⟩,
  ⟨.SEE_PORT_TIMEOUT, 0x00E01018, 0x100, 6, (fun _ => 500), [⟨15, 0, .rw⟩]⟩,
  ⟨.SEE_PORT_TEMPCFG, 0x00E0101C, 0x100, 6, (fun _ => 0), [⟨31, 31, .rw⟩, ⟨15, 0, .rw⟩]⟩,
  ⟨.SEE_PORT_TEMP, 0x00E01020, 0x100, 6, (fun _ => 0), [⟨15, 0, .ro⟩]⟩,
  ⟨.SEE_PORT_UPL, 0x00E01024, 0x100, 6, (fun _ => 0), [⟨31, 0, .ro⟩]⟩,
  ⟨.SEE_PORT_UPL_SKIP, 0x00E01028, 0x100, 6, (fun _ => 0), [⟨31, 0, .rc⟩]⟩,
  ⟨.SEE_VP_STAT, 0x00E02000, 0x100, 4, (fun _ => 0), [⟨31, 24, .rc⟩, ⟨16, 16, .ro⟩, ⟨15, 0, .ro⟩]⟩,
  ⟨.HOLD_CTRL, 0x00A00000, 0x4, 1, (fun _ => 4278190084), [⟨31, 24, .rw⟩, ⟨4, 4, .wo⟩, ⟨3, 3, .rw⟩, ⟨2, 2, .rw⟩, ⟨1, 1, .rw⟩, ⟨0, 0, .rw⟩]⟩,
  ⟨.HOLD_STATUS, 0x00A00004, 0x4, 1, (fun _ => 0), [⟨6, 5, .ro⟩, ⟨4, 4, .ro⟩, ⟨3, 3, .ro⟩, ⟨2, 2, .ro⟩, ⟨1, 1, .ro⟩, ⟨0, 0, .ro⟩]⟩,
  ⟨.HOLD_GAIN, 0x00A00008, 0x4, 1, (fun _ => 5374362), [⟨27, 16, .rw⟩, ⟨11, 0, .rw⟩]⟩,
  ⟨.HOLD_STEP, 0x00A0000C, 0x4, 1, (fun _ => 164), [⟨31, 16, .rw⟩, ⟨15, 0, .rw⟩]⟩,
  ⟨.HOLD_LIMITS, 0x00A00010, 0x4, 1, (fun _ => 1342189568), [⟨31, 16, .rw⟩, ⟨15, 0, .rw⟩]⟩,
  ⟨.HOLD_WINDOW, 0x00A00014, 0x4, 1, (fun _ => 0), [⟨23, 0, .rw⟩]⟩,
  ⟨.HOLD_PAPER_CFG, 0x00A00018, 0x4, 1, (fun _ => 538550288), [⟨31, 24, .rw⟩, ⟨23, 12, .rw⟩, ⟨11, 0, .rw⟩]⟩,
  ⟨.HOLD_PAPER_RG, 0x00A0001C, 0x4, 1, (fun _ => 0), [⟨31, 16, .rw⟩, ⟨15, 0, .rw⟩]⟩,
  ⟨.HOLD_PAPER_B, 0x00A00020, 0x4, 1, (fun _ => 0), [⟨15, 0, .rw⟩]⟩,
  ⟨.HOLD_ALARM, 0x00A00024, 0x4, 1, (fun _ => 17173709), [⟨31, 20, .rw⟩, ⟨19, 16, .rw⟩, ⟨15, 0, .rw⟩]⟩,
  ⟨.HOLD_DELAY, 0x00A00028, 0x4, 1, (fun _ => 4026531840), [⟨31, 28, .ro⟩, ⟨27, 24, .ro⟩, ⟨11, 0, .ro⟩]⟩,
  ⟨.HOLD_CTX, 0x00A0002C, 0x4, 1, (fun _ => 0), [⟨5, 0, .rw⟩]⟩,
  ⟨.HOLD_LAST_IMAGE, 0x00A00030, 0x4, 1, (fun _ => 0), [⟨31, 0, .ro⟩]⟩,
  ⟨.HOLD_SWAP_IMAGE, 0x00A00034, 0x4, 1, (fun _ => 0), [⟨31, 0, .ro⟩]⟩,
  ⟨.HOLD_DISCARD_CNT, 0x00A00038, 0x4, 1, (fun _ => 0), [⟨31, 0, .rc⟩]⟩,
  ⟨.HOLD_GRAZE, 0x00A0003C, 0x4, 1, (fun _ => 176), [⟨9, 0, .rw⟩]⟩,
  ⟨.HOLD_GRAZE_STAT, 0x00A00040, 0x4, 1, (fun _ => 0), [⟨31, 30, .ro⟩, ⟨23, 0, .ro⟩]⟩,
  ⟨.HOLD_SNAP, 0x00A00044, 0x4, 1, (fun _ => 60), [⟨15, 0, .rw⟩]⟩]

/-- Register table, part 7. -/
def regSpecs7 : List RegSpec := [
  ⟨.HOLD_CELL_SEL, 0x00A00048, 0x4, 1, (fun _ => 0), [⟨29, 28, .rw⟩, ⟨26, 24, .rw⟩, ⟨10, 0, .rw⟩]⟩,
  ⟨.HOLD_CELL_VAL, 0x00A0004C, 0x4, 1, (fun _ => 0), [⟨31, 16, .ro⟩, ⟨15, 0, .ro⟩]⟩,
  ⟨.HOLD_CELL_PAPER, 0x00A00050, 0x4, 1, (fun _ => 0), [⟨15, 0, .ro⟩]⟩,
  ⟨.HOLD_COV, 0x00A00054, 0x4, 1, (fun _ => 0), [⟨31, 16, .rc⟩, ⟨15, 0, .ro⟩]⟩,
  ⟨.MEMC_STATUS, 0x00500000, 0x10000, 8, (fun _ => 0), [⟨31, 29, .ro⟩, ⟨9, 9, .ro⟩, ⟨8, 8, .ro⟩, ⟨7, 7, .ro⟩, ⟨2, 0, .ro⟩]⟩,
  ⟨.MEMC_QUEUE, 0x00500004, 0x10000, 8, (fun _ => 0), [⟨22, 16, .rc⟩, ⟨6, 0, .ro⟩]⟩,
  ⟨.MEMC_REF, 0x00500008, 0x10000, 8, (fun _ => 0), [⟨31, 16, .rc⟩, ⟨15, 8, .rc⟩, ⟨2, 0, .ro⟩]⟩,
  ⟨.MEMC_TEMP, 0x0050000C, 0x10000, 8, (fun _ => 0), [⟨19, 18, .ro⟩, ⟨17, 16, .ro⟩, ⟨15, 0, .ro⟩]⟩,
  ⟨.MEMC_CE_CNT, 0x00500010, 0x10000, 8, (fun _ => 0), [⟨31, 0, .rc⟩]⟩,
  ⟨.MEMC_UE_CNT, 0x00500014, 0x10000, 8, (fun _ => 0), [⟨31, 0, .rc⟩]⟩,
  ⟨.MEMC_ERR_ADDR_LO, 0x00500018, 0x10000, 8, (fun _ => 0), [⟨31, 0, .ro⟩]⟩,
  ⟨.MEMC_ERR_ADDR_HI, 0x0050001C, 0x10000, 8, (fun _ => 0), [⟨8, 8, .ro⟩, ⟨4, 0, .ro⟩]⟩,
  ⟨.MEMC_CA_CNT, 0x00500020, 0x10000, 8, (fun _ => 0), [⟨31, 0, .rc⟩]⟩,
  ⟨.MEMC_SCAN_LAT, 0x00500024, 0x10000, 8, (fun _ => 0), [⟨15, 0, .rc⟩]⟩,
  ⟨.MEMC_TRAIN, 0x00500028, 0x10000, 8, (fun _ => 0), [⟨31, 31, .ro⟩, ⟨15, 0, .ro⟩]⟩,
  ⟨.MEMC_GEOM, 0x00508000, 0x4, 1, (fun _ => 16712192), [⟨23, 16, .rwl⟩, ⟨9, 8, .rwl⟩, ⟨0, 0, .rwl⟩]⟩,
  ⟨.MEMC_CTRL, 0x00508004, 0x4, 1, (fun _ => 7), [⟨2, 2, .rw⟩, ⟨1, 1, .rw⟩, ⟨0, 0, .rw⟩]⟩,
  ⟨.MEMC_GSTATUS, 0x00508008, 0x4, 1, (fun _ => 0), [⟨17, 17, .ro⟩, ⟨16, 16, .ro⟩, ⟨11, 8, .ro⟩, ⟨7, 0, .ro⟩]⟩,
  ⟨.MEMC_SR_IDLE, 0x0050800C, 0x4, 1, (fun _ => 500), [⟨15, 0, .rw⟩]⟩,
  ⟨.MEMC_URGENT, 0x00508010, 0x4, 1, (fun _ => 6000), [⟨15, 0, .rw⟩]⟩,
  ⟨.MEMC_CE_LIMIT, 0x00508014, 0x4, 1, (fun _ => 100), [⟨15, 0, .rw⟩]⟩,
  ⟨.MEMC_SCRUB, 0x00508018, 0x4, 1, (fun _ => 1572868), [⟨31, 16, .rw⟩, ⟨9, 0, .rw⟩]⟩,
  ⟨.MEMC_WIPE, 0x0050801C, 0x4, 1, (fun _ => 0), [⟨31, 31, .ro⟩, ⟨16, 0, .ro⟩]⟩,
  ⟨.PAD_TOTAL, 0x00600000, 0x4, 1, (fun _ => 0), [⟨16, 0, .ro⟩]⟩,
  ⟨.PAD_FREE, 0x00600004, 0x4, 1, (fun _ => 0), [⟨16, 0, .ro⟩]⟩,
  ⟨.PAD_DIRTY, 0x00600008, 0x4, 1, (fun _ => 0), [⟨16, 0, .ro⟩]⟩,
  ⟨.PAD_REGIONS, 0x0060000C, 0x4, 1, (fun _ => 0), [⟨12, 0, .ro⟩]⟩,
  ⟨.PAD_RETIRE, 0x00600010, 0x4, 1, (fun _ => 0), [⟨16, 0, .wo⟩]⟩,
  ⟨.PAD_RETIRED_N, 0x00600014, 0x4, 1, (fun _ => 0), [⟨6, 0, .ro⟩]⟩,
  ⟨.PAD_Q_LIMIT, 0x00600100, 0x10, 9, (fun _ => 2147549184), [⟨31, 31, .rwl⟩, ⟨16, 0, .rw⟩]⟩]

/-- Register table, part 8. -/
def regSpecs8 : List RegSpec := [
  ⟨.PAD_Q_RESERVE, 0x00600104, 0x10, 9, (fun _ => 0), [⟨16, 0, .rwl⟩]⟩,
  ⟨.PAD_Q_HELD, 0x00600108, 0x10, 9, (fun _ => 0), [⟨31, 24, .ro⟩, ⟨16, 0, .ro⟩]⟩,
  ⟨.PAD_Q_PEAK, 0x0060010C, 0x10, 9, (fun _ => 0), [⟨16, 0, .rc⟩]⟩,
  ⟨.PAD_RETIRED_LIST, 0x00601000, 0x4, 64, (fun _ => 0), [⟨31, 31, .ro⟩, ⟨30, 30, .ro⟩, ⟨16, 0, .ro⟩]⟩,
  ⟨.DFL_CTRL, 0x00700000, 0x4, 1, (fun _ => 8), [⟨9, 0, .rw⟩]⟩,
  ⟨.DFL_STATUS, 0x00700004, 0x4, 1, (fun _ => 0), [⟨23, 16, .ro⟩, ⟨12, 8, .ro⟩, ⟨1, 1, .ro⟩, ⟨0, 0, .ro⟩]⟩,
  ⟨.DFL_DEMAND, 0x00700008, 0x4, 1, (fun _ => 0), [⟨31, 0, .ro⟩]⟩,
  ⟨.DFL_PACE, 0x0070000C, 0x4, 1, (fun _ => 0), [⟨31, 16, .ro⟩, ⟨15, 0, .ro⟩]⟩,
  ⟨.DFL_ERR, 0x00700010, 0x4, 1, (fun _ => 0), [⟨31, 28, .ro⟩, ⟨22, 16, .ro⟩]⟩,
  ⟨.DFL_ERR_CNT, 0x00700014, 0x4, 1, (fun _ => 0), [⟨31, 0, .rc⟩]⟩,
  ⟨.DFL_EVICT_CNT, 0x00700018, 0x4, 1, (fun _ => 0), [⟨31, 0, .rc⟩]⟩,
  ⟨.DFL_CTX_SEL, 0x0070001C, 0x4, 1, (fun _ => 0), [⟨6, 0, .rw⟩]⟩,
  ⟨.DFL_CTX_STAT, 0x00700020, 0x4, 1, (fun _ => 0), [⟨31, 29, .ro⟩, ⟨28, 27, .ro⟩, ⟨26, 23, .ro⟩, ⟨22, 22, .ro⟩, ⟨21, 21, .ro⟩, ⟨20, 17, .ro⟩, ⟨16, 16, .ro⟩, ⟨5, 0, .ro⟩]⟩,
  ⟨.DFL_CTX_IN, 0x00700024, 0x4, 1, (fun _ => 0), [⟨31, 0, .ro⟩]⟩,
  ⟨.DFL_CTX_OUT, 0x00700028, 0x4, 1, (fun _ => 0), [⟨31, 0, .ro⟩]⟩,
  ⟨.DFL_ERR_TIME, 0x0070002C, 0x4, 1, (fun _ => 0), [⟨31, 0, .ro⟩]⟩,
  ⟨.DFL_PROD, 0x00700100, 0x4, 7, (fun _ => 0), [⟨4, 4, .rw⟩, ⟨3, 0, .rw⟩]⟩,
  ⟨.DFL_DICT_ID, 0x00700200, 0x8, 16, (fun _ => 0), [⟨31, 0, .ro⟩]⟩,
  ⟨.DFL_DICT_LEN, 0x00700204, 0x8, 16, (fun _ => 0), [⟨16, 0, .ro⟩]⟩,
  ⟨.NET_CTRL, 0x00F00000, 0x4, 1, (fun _ => 0), [⟨0, 0, .wo⟩]⟩,
  ⟨.NET_STATUS, 0x00F00004, 0x4, 1, (fun _ => 0), [⟨5, 5, .ro⟩, ⟨4, 4, .ro⟩, ⟨3, 3, .ro⟩, ⟨2, 0, .ro⟩]⟩,
  ⟨.NET_TIME_LO, 0x00F00010, 0x4, 1, (fun _ => 0), [⟨31, 0, .ro⟩]⟩,
  ⟨.NET_TIME_HI, 0x00F00014, 0x4, 1, (fun _ => 0), [⟨31, 0, .ro⟩]⟩,
  ⟨.NET_SERVO_CFG, 0x00F00018, 0x4, 1, (fun _ => 5046451), [⟨31, 16, .rw⟩, ⟨15, 0, .rw⟩]⟩,
  ⟨.NET_STEP_MAX, 0x00F0001C, 0x4, 1, (fun _ => 1000), [⟨23, 0, .rw⟩]⟩,
  ⟨.NET_LOCK, 0x00F00020, 0x4, 1, (fun _ => 196608100), [⟨31, 16, .rw⟩, ⟨15, 0, .rw⟩]⟩,
  ⟨.NET_FREQ_MAX, 0x00F00024, 0x4, 1, (fun _ => 100000), [⟨17, 0, .rw⟩]⟩,
  ⟨.NET_FREQ, 0x00F00028, 0x4, 1, (fun _ => 0), [⟨31, 0, .ro⟩]⟩,
  ⟨.NET_OFFSET_LAST, 0x00F0002C, 0x4, 1, (fun _ => 0), [⟨31, 0, .ro⟩]⟩,
  ⟨.NET_REFUSE_CNT, 0x00F00030, 0x4, 1, (fun _ => 0), [⟨31, 0, .rc⟩]⟩]

/-- Register table, part 9. -/
def regSpecs9 : List RegSpec := [
  ⟨.NET_SERVO_OFF_LO, 0x00F00034, 0x4, 1, (fun _ => 0), [⟨31, 0, .ro⟩]⟩,
  ⟨.NET_SERVO_OFF_HI, 0x00F00038, 0x4, 1, (fun _ => 0), [⟨31, 0, .ro⟩]⟩,
  ⟨.NET_SNAP_CTRL, 0x00F00040, 0x4, 1, (fun _ => 0), [⟨7, 7, .ro⟩, ⟨6, 6, .ro⟩, ⟨5, 5, .ro⟩, ⟨4, 4, .ro⟩, ⟨1, 1, .rw⟩, ⟨0, 0, .wo⟩]⟩,
  ⟨.NET_SNAP_AT_LO, 0x00F00044, 0x4, 1, (fun _ => 0), [⟨31, 0, .rw⟩]⟩,
  ⟨.NET_SNAP_AT_HI, 0x00F00048, 0x4, 1, (fun _ => 0), [⟨31, 0, .rw⟩]⟩,
  ⟨.NET_SNAP_LAST_LO, 0x00F0004C, 0x4, 1, (fun _ => 0), [⟨31, 0, .ro⟩]⟩,
  ⟨.NET_SNAP_LAST_HI, 0x00F00050, 0x4, 1, (fun _ => 0), [⟨31, 0, .ro⟩]⟩,
  ⟨.NET_CEIL_CFG, 0x00F00060, 0x4, 1, (fun _ => 10), [⟨31, 30, .rw⟩, ⟨29, 29, .rw⟩, ⟨15, 0, .rw⟩]⟩,
  ⟨.NET_CEIL_DST_LO, 0x00F00064, 0x4, 1, (fun _ => 9024), [⟨31, 0, .rw⟩]⟩,
  ⟨.NET_CEIL_DST_HI, 0x00F00068, 0x4, 1, (fun _ => 768), [⟨15, 0, .rw⟩]⟩,
  ⟨.NET_CEIL_NODE, 0x00F0006C, 0x4, 1, (fun _ => 0), [⟨31, 0, .rw⟩]⟩,
  ⟨.NET_CEIL_SEQ, 0x00F00070, 0x4, 1, (fun _ => 0), [⟨31, 0, .ro⟩]⟩,
  ⟨.NET_CEIL_VLAN, 0x00F00074, 0x4, 1, (fun _ => 0), [⟨15, 13, .rw⟩, ⟨12, 12, .rw⟩, ⟨11, 0, .rw⟩]⟩,
  ⟨.NET_PORT_CFG, 0x00F00100, 0x40, 2, (fun _ => 2), [⟨31, 31, .rwl⟩, ⟨1, 1, .rwl⟩, ⟨0, 0, .rwl⟩]⟩,
  ⟨.NET_PORT_STAT, 0x00F00104, 0x40, 2, (fun _ => 0), [⟨2, 2, .ro⟩, ⟨1, 1, .ro⟩, ⟨0, 0, .ro⟩]⟩,
  ⟨.NET_PORT_MAC_LO, 0x00F00108, 0x40, 2, (fun _ => 0), [⟨31, 0, .rwl⟩]⟩,
  ⟨.NET_PORT_MAC_HI, 0x00F0010C, 0x40, 2, (fun _ => 0), [⟨15, 0, .rwl⟩]⟩,
  ⟨.NET_PORT_LAT, 0x00F00110, 0x40, 2, (fun _ => 0), [⟨31, 16, .rw⟩, ⟨15, 0, .rw⟩]⟩,
  ⟨.NET_PORT_RX_CNT, 0x00F00114, 0x40, 2, (fun _ => 0), [⟨31, 0, .rc⟩]⟩,
  ⟨.NET_PORT_DROP_CNT, 0x00F00118, 0x40, 2, (fun _ => 0), [⟨31, 0, .rc⟩]⟩,
  ⟨.NET_PORT_TS_LOST, 0x00F0011C, 0x40, 2, (fun _ => 0), [⟨31, 0, .rc⟩]⟩,
  ⟨.SYS_PD_CTRL, 0x00001000, 0x4, 10, (fun _ => 0), [⟨1, 0, .rw⟩]⟩,
  ⟨.SYS_PD_STAT, 0x00001040, 0x4, 1, (fun _ => 0), [⟨19, 0, .ro⟩]⟩,
  ⟨.SYS_PD_REFUSE, 0x00001044, 0x4, 1, (fun _ => 0), [⟨31, 28, .ro⟩, ⟨3, 0, .ro⟩]⟩,
  ⟨.SYS_SHELF, 0x00001050, 0x4, 1, (fun _ => 0), [⟨15, 0, .wo⟩]⟩,
  ⟨.SYS_SHELF_STAT, 0x00001054, 0x4, 1, (fun _ => 0), [⟨1, 0, .ro⟩]⟩,
  ⟨.THERM_CTRL, 0x00400000, 0x4, 1, (fun _ => 6), [⟨3, 3, .wo⟩, ⟨2, 2, .rw⟩, ⟨1, 1, .rw⟩, ⟨0, 0, .rw⟩]⟩,
  ⟨.THERM_STATUS, 0x00400004, 0x4, 1, (fun _ => 16), [⟨8, 8, .ro⟩, ⟨7, 7, .ro⟩, ⟨6, 6, .ro⟩, ⟨5, 5, .ro⟩, ⟨4, 4, .ro⟩, ⟨3, 3, .ro⟩, ⟨2, 2, .ro⟩, ⟨1, 0, .ro⟩]⟩,
  ⟨.THERM_TJ, 0x00400008, 0x4, 1, (fun _ => 0), [⟨19, 16, .ro⟩, ⟨15, 0, .ro⟩]⟩,
  ⟨.THERM_TJ_MAX, 0x0040000C, 0x4, 1, (fun _ => 0), [⟨15, 0, .rc⟩]⟩]

/-- Register table, part 10. -/
def regSpecs10 : List RegSpec := [
  ⟨.THERM_REF, 0x00400010, 0x4, 1, (fun _ => 0), [⟨15, 0, .ro⟩]⟩,
  ⟨.THERM_REF_HOST, 0x00400014, 0x4, 1, (fun _ => 0), [⟨15, 0, .rw⟩]⟩,
  ⟨.THERM_REF_CFG, 0x00400018, 0x4, 1, (fun _ => 1207960552), [⟨30, 24, .rw⟩, ⟨23, 16, .rw⟩, ⟨15, 0, .rw⟩]⟩,
  ⟨.THERM_REF_DEFAULT, 0x0040001C, 0x4, 1, (fun _ => 41946240), [⟨31, 16, .rw⟩, ⟨15, 0, .rw⟩]⟩,
  ⟨.THERM_HS, 0x00400020, 0x4, 1, (fun _ => 0), [⟨15, 0, .rwl⟩]⟩,
  ⟨.THERM_BOARD_MW, 0x00400024, 0x4, 1, (fun _ => 0), [⟨23, 0, .rw⟩]⟩,
  ⟨.THERM_CHECK, 0x00400028, 0x4, 1, (fun _ => 0), [⟨15, 0, .ro⟩]⟩,
  ⟨.THERM_DIV_LIMIT, 0x0040002C, 0x4, 1, (fun _ => 640), [⟨15, 0, .rw⟩]⟩,
  ⟨.THERM_NODE_SEL, 0x00400030, 0x4, 1, (fun _ => 0), [⟨3, 0, .rw⟩]⟩,
  ⟨.THERM_NODE, 0x00400034, 0x4, 1, (fun _ => 0), [⟨15, 0, .ro⟩]⟩,
  ⟨.THERM_VCORE_CFG, 0x00400040, 0x4, 1, (fun _ => 3404595800), [⟨31, 26, .rw⟩, ⟨25, 16, .rw⟩, ⟨9, 0, .rw⟩]⟩,
  ⟨.THERM_VCORE, 0x00400044, 0x4, 1, (fun _ => 0), [⟨25, 16, .ro⟩, ⟨9, 0, .ro⟩]⟩,
  ⟨.THERM_PMBUS_CFG, 0x00400048, 0x4, 1, (fun _ => 1476920820), [⟨31, 31, .rwl⟩, ⟨30, 30, .rwl⟩, ⟨29, 28, .rwl⟩, ⟨27, 21, .rwl⟩, ⟨20, 20, .rwl⟩, ⟨19, 19, .rwl⟩, ⟨17, 10, .rwl⟩, ⟨9, 0, .rwl⟩]⟩,
  ⟨.THERM_PWR, 0x00400100, 0x4, 10, (fun _ => 0), [⟨23, 0, .ro⟩]⟩,
  ⟨.THERM_PWR_TOTAL, 0x00400140, 0x4, 1, (fun _ => 0), [⟨23, 0, .ro⟩]⟩,
  ⟨.DROVER_BUDGET, 0x00480000, 0x4, 1, (fun _ => 30409344), [⟨25, 16, .rwl⟩, ⟨9, 0, .rw⟩]⟩,
  ⟨.DROVER_CTRL, 0x00480004, 0x4, 1, (fun _ => 3), [⟨1, 1, .rw⟩, ⟨0, 0, .rw⟩]⟩,
  ⟨.DROVER_STATUS, 0x00480008, 0x4, 1, (fun _ => 0), [⟨31, 31, .ro⟩, ⟨25, 16, .ro⟩, ⟨9, 0, .ro⟩]⟩,
  ⟨.DROVER_WAIT_WARN, 0x0048000C, 0x4, 1, (fun _ => 500000), [⟨23, 0, .rw⟩]⟩,
  ⟨.DROVER_WAIT_MAX, 0x00480010, 0x4, 1, (fun _ => 0), [⟨31, 0, .rc⟩]⟩,
  ⟨.DROVER_HOLD_MAX, 0x00480014, 0x4, 1, (fun _ => 10), [⟨15, 0, .rw⟩]⟩,
  ⟨.DROVER_GRANTS, 0x00480018, 0x4, 1, (fun _ => 0), [⟨31, 0, .rc⟩]⟩,
  ⟨.DROVER_FW_REQ, 0x00480020, 0x4, 1, (fun _ => 0), [⟨31, 31, .wo⟩, ⟨30, 30, .wo⟩, ⟨29, 29, .ro⟩, ⟨28, 28, .ro⟩, ⟨9, 0, .wo⟩]⟩,
  ⟨.DROVER_CLASS, 0x00480100, 0x4, 8, (fun i => ([32772, 98308, 131072, 196624, 262144, 327680, 393216, 458752] : List Nat).getD i 0), [⟨18, 16, .rw⟩, ⟨15, 15, .rw⟩, ⟨9, 0, .rw⟩]⟩,
  ⟨.DROVER_HELD, 0x00480140, 0x4, 8, (fun _ => 0), [⟨31, 24, .ro⟩, ⟨9, 0, .ro⟩]⟩,
  ⟨.FOLD_STICKY, 0x00300000, 0x4, 4, (fun _ => 0), [⟨31, 0, .w1c⟩]⟩,
  ⟨.FOLD_LASTING, 0x00300010, 0x4, 4, (fun _ => 0), [⟨31, 0, .w1c⟩]⟩,
  ⟨.FOLD_ENABLE, 0x00300020, 0x4, 4, (fun _ => 4294967295), [⟨31, 0, .rwl⟩]⟩,
  ⟨.FOLD_FORCE, 0x00300030, 0x4, 4, (fun _ => 0), [⟨31, 0, .wo⟩]⟩,
  ⟨.FOLD_INJECT, 0x00300040, 0x4, 1, (fun _ => 0), [⟨31, 31, .wo⟩, ⟨6, 0, .wo⟩]⟩]

/-- Register table, part 11. -/
def regSpecs11 : List RegSpec := [
  ⟨.FOLD_OPEN, 0x00300044, 0x4, 1, (fun _ => 0), [⟨15, 0, .w1c⟩]⟩,
  ⟨.FOLD_HELD, 0x00300048, 0x4, 1, (fun _ => 0), [⟨7, 0, .ro⟩]⟩,
  ⟨.FOLD_CTRL, 0x0030004C, 0x4, 1, (fun _ => 100), [⟨31, 31, .rw⟩, ⟨15, 0, .rw⟩]⟩,
  ⟨.FOLD_LAST, 0x00300050, 0x4, 1, (fun _ => 0), [⟨31, 29, .ro⟩, ⟨28, 28, .ro⟩, ⟨27, 27, .ro⟩, ⟨26, 26, .ro⟩, ⟨25, 25, .ro⟩, ⟨24, 24, .ro⟩, ⟨23, 16, .ro⟩, ⟨6, 0, .ro⟩]⟩,
  ⟨.FOLD_MERGE_CNT, 0x00300054, 0x4, 1, (fun _ => 0), [⟨31, 0, .rc⟩]⟩,
  ⟨.FOLD_ST, 0x00300058, 0x4, 1, (fun _ => 0), [⟨31, 30, .ro⟩, ⟨23, 16, .ro⟩, ⟨6, 0, .ro⟩]⟩,
  ⟨.FOLD_SRAM_CE, 0x0030005C, 0x4, 1, (fun _ => 0), [⟨31, 0, .rc⟩]⟩,
  ⟨.FOLD_SEV, 0x00300100, 0x4, 16, (fun i => ([17, 589961, 799808, 0, 65553, 8192, 0, 0, 8256, 4, 128, 6389760, 0, 0, 0, 2884752] : List Nat).getD i 0), [⟨23, 21, .rwl⟩, ⟨20, 18, .rwl⟩, ⟨17, 15, .rwl⟩, ⟨14, 12, .rwl⟩, ⟨11, 9, .rwl⟩, ⟨8, 6, .rwl⟩, ⟨5, 3, .rwl⟩, ⟨2, 0, .rwl⟩]⟩,
  ⟨.FOLD_CLASS, 0x00300200, 0x4, 16, (fun i => ([1, 1, 0, 1, 0, 2, 0, 0, 0, 0, 2, 256, 0, 0, 0, 258] : List Nat).getD i 0), [⟨8, 8, .rwl⟩, ⟨2, 0, .rwl⟩]⟩,
  ⟨.FOLD_COUNT, 0x00300400, 0x4, 128, (fun _ => 0), [⟨15, 0, .rc⟩]⟩,
  ⟨.CROOK_STATUS, 0x00380000, 0x4, 1, (fun _ => 1610612864), [⟨31, 30, .ro⟩, ⟨29, 29, .ro⟩, ⟨28, 28, .ro⟩, ⟨7, 0, .ro⟩]⟩,
  ⟨.CROOK_CTRL, 0x00380004, 0x4, 1, (fun _ => 0), [⟨31, 16, .wo⟩, ⟨1, 1, .wo⟩, ⟨0, 0, .wo⟩]⟩,
  ⟨.CROOK_ENTRIES, 0x00380008, 0x4, 1, (fun _ => 0), [⟨31, 0, .rc⟩]⟩,
  ⟨.CROOK_PADS, 0x0038000C, 0x4, 1, (fun _ => 0), [⟨24, 24, .ro⟩, ⟨23, 16, .ro⟩, ⟨15, 8, .ro⟩, ⟨7, 0, .ro⟩]⟩,
  ⟨.MBX_STAGE_PTR_LO, 0x00200000, 0x4, 1, (fun _ => 0), [⟨31, 0, .rw⟩]⟩,
  ⟨.MBX_STAGE_PTR_HI, 0x00200004, 0x4, 1, (fun _ => 0), [⟨31, 0, .rw⟩]⟩,
  ⟨.MBX_STAGE_TAG, 0x00200008, 0x4, 1, (fun _ => 0), [⟨31, 0, .rw⟩]⟩,
  ⟨.MBX_POST, 0x0020000C, 0x4, 1, (fun _ => 0), [⟨3, 0, .wo⟩]⟩,
  ⟨.MBX_POST_STAT, 0x00200010, 0x4, 1, (fun _ => 0), [⟨31, 30, .ro⟩, ⟨3, 0, .ro⟩]⟩,
  ⟨.MBX_CORE_STAT, 0x00200014, 0x4, 1, (fun _ => 0), [⟨15, 12, .ro⟩, ⟨11, 8, .ro⟩, ⟨7, 4, .ro⟩, ⟨3, 0, .ro⟩]⟩,
  ⟨.MBX_CORE_CTRL, 0x00200018, 0x4, 1, (fun _ => 0), [⟨31, 16, .wo⟩, ⟨3, 3, .wo⟩, ⟨2, 2, .wo⟩, ⟨1, 1, .wo⟩]⟩,
  ⟨.MBX_LIMITS, 0x0020001C, 0x4, 1, (fun _ => 655360100), [⟨31, 16, .rw⟩, ⟨15, 0, .rw⟩]⟩,
  ⟨.MBX_PTR_LO, 0x00200100, 0x20, 16, (fun _ => 0), [⟨31, 0, .ro⟩]⟩,
  ⟨.MBX_PTR_HI, 0x00200104, 0x20, 16, (fun _ => 0), [⟨31, 0, .ro⟩]⟩,
  ⟨.MBX_TAG, 0x00200108, 0x20, 16, (fun _ => 0), [⟨31, 0, .ro⟩]⟩,
  ⟨.MBX_STATE, 0x0020010C, 0x20, 16, (fun _ => 0), [⟨31, 30, .ro⟩, ⟨29, 29, .ro⟩, ⟨7, 4, .ro⟩, ⟨3, 0, .ro⟩]⟩,
  ⟨.MBX_ACK, 0x00200110, 0x20, 16, (fun _ => 0), [⟨15, 0, .wo⟩]⟩,
  ⟨.MBX_RESULT, 0x00200114, 0x20, 16, (fun _ => 0), [⟨16, 16, .ro⟩, ⟨15, 0, .ro⟩]⟩,
  ⟨.MBX_CLEAR, 0x00200118, 0x20, 16, (fun _ => 0), [⟨0, 0, .wo⟩]⟩,
  ⟨.MBX_STILE, 0x00200400, 0x4, 8, (fun _ => 0), [⟨3, 0, .rw⟩]⟩]

/-- Register table, part 12. -/
def regSpecs12 : List RegSpec := [
  ⟨.MBX_STILE_OWNER, 0x00200420, 0x4, 8, (fun _ => 0), [⟨27, 4, .ro⟩, ⟨3, 0, .ro⟩]⟩,
  ⟨.SEC_LC, 0x01200000, 0x4, 1, (fun _ => 0), [⟨7, 7, .ro⟩, ⟨6, 6, .ro⟩, ⟨5, 3, .ro⟩, ⟨2, 0, .ro⟩]⟩,
  ⟨.SEC_BOOT, 0x01200004, 0x4, 1, (fun _ => 0), [⟨31, 28, .ro⟩, ⟨27, 26, .ro⟩, ⟨25, 25, .ro⟩, ⟨7, 4, .ro⟩, ⟨3, 0, .ro⟩]⟩,
  ⟨.SEC_DEVICE_ID_LO, 0x01200008, 0x4, 1, (fun _ => 0), [⟨31, 0, .ro⟩]⟩,
  ⟨.SEC_DEVICE_ID_HI, 0x0120000C, 0x4, 1, (fun _ => 0), [⟨31, 0, .ro⟩]⟩,
  ⟨.SEC_SVN, 0x01200010, 0x4, 4, (fun _ => 0), [⟨7, 0, .ro⟩]⟩,
  ⟨.SEC_NONCE, 0x01200020, 0x4, 8, (fun _ => 0), [⟨31, 0, .ro⟩]⟩,
  ⟨.SEC_TOKEN_ADDR_LO, 0x01200040, 0x4, 1, (fun _ => 0), [⟨31, 0, .rw⟩]⟩,
  ⟨.SEC_TOKEN_ADDR_HI, 0x01200044, 0x4, 1, (fun _ => 0), [⟨31, 0, .rw⟩]⟩,
  ⟨.SEC_TOKEN_CTRL, 0x01200048, 0x4, 1, (fun _ => 0), [⟨0, 0, .wo⟩]⟩,
  ⟨.SEC_TOKEN_STAT, 0x0120004C, 0x4, 1, (fun _ => 0), [⟨31, 31, .ro⟩, ⟨10, 8, .ro⟩, ⟨7, 0, .ro⟩]⟩,
  ⟨.SEC_DBG_CTRL, 0x01200050, 0x4, 1, (fun _ => 0), [⟨2, 0, .rw⟩]⟩,
  ⟨.SEC_DBG_STAT, 0x01200054, 0x4, 1, (fun _ => 0), [⟨18, 16, .ro⟩, ⟨15, 0, .ro⟩]⟩,
  ⟨.SEC_LOAD_ADDR_LO, 0x01200058, 0x4, 1, (fun _ => 0), [⟨31, 0, .rw⟩]⟩,
  ⟨.SEC_LOAD_ADDR_HI, 0x0120005C, 0x4, 1, (fun _ => 0), [⟨31, 0, .rw⟩]⟩,
  ⟨.SEC_LYP_STAT, 0x01200060, 0x4, 1, (fun _ => 0), [⟨22, 16, .ro⟩]⟩,
  ⟨.CAL_CTRL, 0x01100000, 0x4, 1, (fun _ => 2147484148), [⟨31, 31, .rw⟩, ⟨30, 30, .w1s⟩, ⟨15, 0, .rw⟩]⟩,
  ⟨.CAL_STATUS, 0x01100004, 0x4, 1, (fun _ => 0), [⟨31, 31, .ro⟩, ⟨30, 30, .ro⟩, ⟨3, 0, .ro⟩]⟩,
  ⟨.CAL_DT, 0x01100008, 0x4, 1, (fun _ => 256), [⟨15, 0, .rw⟩]⟩,
  ⟨.CAL_GAP, 0x0110000C, 0x4, 1, (fun _ => 8389120), [⟨31, 16, .rw⟩, ⟨15, 0, .rw⟩]⟩,
  ⟨.CAL_TOL, 0x01100010, 0x4, 1, (fun _ => 50), [⟨15, 0, .rw⟩]⟩,
  ⟨.CAL_WEAR, 0x01100014, 0x4, 1, (fun _ => 900), [⟨15, 0, .rw⟩]⟩,
  ⟨.CAL_WRITES, 0x01100018, 0x4, 1, (fun _ => 0), [⟨31, 0, .rc⟩]⟩,
  ⟨.CAL_ECC, 0x0110001C, 0x4, 1, (fun _ => 0), [⟨31, 16, .rc⟩, ⟨15, 0, .rc⟩]⟩,
  ⟨.CAL_REC_SEL, 0x01100020, 0x4, 1, (fun _ => 0), [⟨23, 16, .rw⟩, ⟨15, 0, .rw⟩]⟩,
  ⟨.CAL_REC_STAT, 0x01100024, 0x4, 1, (fun _ => 0), [⟨31, 30, .ro⟩, ⟨29, 28, .ro⟩, ⟨27, 26, .ro⟩, ⟨25, 25, .ro⟩]⟩,
  ⟨.CAL_REC_GEN, 0x01100028, 0x4, 1, (fun _ => 0), [⟨31, 0, .ro⟩]⟩,
  ⟨.CAL_PORT_STRIP, 0x01100100, 0x20, 6, (fun _ => 0), [⟨29, 16, .rw⟩, ⟨13, 0, .rw⟩]⟩,
  ⟨.CAL_PORT_STAT, 0x01100104, 0x20, 6, (fun _ => 0), [⟨31, 29, .ro⟩, ⟨28, 28, .ro⟩, ⟨27, 27, .ro⟩, ⟨23, 20, .ro⟩]⟩,
  ⟨.CAL_PORT_KC_RG, 0x01100108, 0x20, 6, (fun _ => 0), [⟨31, 16, .ro⟩, ⟨15, 0, .ro⟩]⟩]

/-- Register table, part 13. -/
def regSpecs13 : List RegSpec := [
  ⟨.CAL_PORT_KC_B, 0x0110010C, 0x20, 6, (fun _ => 0), [⟨15, 0, .ro⟩]⟩,
  ⟨.CAL_PORT_REF, 0x01100110, 0x20, 6, (fun _ => 0), [⟨15, 0, .ro⟩]⟩,
  ⟨.TALLY_CTRL, 0x01000000, 0x4, 1, (fun _ => 1), [⟨31, 31, .wo⟩, ⟨3, 0, .rw⟩]⟩,
  ⟨.TALLY_STATUS, 0x01000004, 0x4, 1, (fun _ => 0), [⟨31, 29, .ro⟩, ⟨28, 28, .ro⟩, ⟨27, 27, .ro⟩, ⟨26, 26, .ro⟩, ⟨25, 25, .ro⟩, ⟨16, 0, .ro⟩]⟩,
  ⟨.TALLY_CHUNK_CFG, 0x01000008, 0x4, 1, (fun _ => 65536256), [⟨31, 16, .rw⟩, ⟨15, 0, .rw⟩]⟩,
  ⟨.TALLY_CHUNKS, 0x0100000C, 0x4, 1, (fun _ => 0), [⟨31, 0, .ro⟩]⟩,
  ⟨.TALLY_EXPORTED, 0x01000010, 0x4, 1, (fun _ => 0), [⟨31, 0, .ro⟩]⟩,
  ⟨.TALLY_OVERWRITE, 0x01000014, 0x4, 1, (fun _ => 0), [⟨31, 0, .rc⟩]⟩,
  ⟨.TALLY_LOST, 0x01000018, 0x4, 1, (fun _ => 0), [⟨31, 0, .rc⟩]⟩,
  ⟨.TALLY_SETUP, 0x0100001C, 0x4, 1, (fun _ => 0), [⟨31, 0, .ro⟩]⟩,
  ⟨.TALLY_TABLE_SIG, 0x01000020, 0x4, 1, (fun _ => 0), [⟨31, 0, .ro⟩]⟩,
  ⟨.TALLY_STATUS_SIG, 0x01000024, 0x4, 1, (fun _ => 0), [⟨31, 0, .ro⟩]⟩,
  ⟨.TALLY_REPLAY_TIME, 0x01000028, 0x4, 1, (fun _ => 0), [⟨31, 0, .ro⟩]⟩,
  ⟨.TALLY_REPLAY_WAIT, 0x0100002C, 0x4, 1, (fun _ => 1000), [⟨15, 0, .rw⟩]⟩,
  ⟨.TALLY_DIV_CAUSE, 0x01000030, 0x4, 1, (fun _ => 0), [⟨31, 28, .ro⟩, ⟨10, 8, .ro⟩, ⟨7, 0, .ro⟩]⟩,
  ⟨.TALLY_DIV_IMAGE, 0x01000034, 0x4, 1, (fun _ => 0), [⟨31, 0, .ro⟩]⟩,
  ⟨.TALLY_DIV_LINE, 0x01000038, 0x4, 1, (fun _ => 0), [⟨23, 0, .ro⟩]⟩,
  ⟨.TALLY_DIV_REC, 0x0100003C, 0x4, 1, (fun _ => 0), [⟨31, 0, .ro⟩]⟩,
  ⟨.TALLY_DIV_NOW, 0x01000040, 0x4, 1, (fun _ => 0), [⟨31, 0, .ro⟩]⟩,
  ⟨.TALLY_DIV_CNT, 0x01000044, 0x4, 1, (fun _ => 0), [⟨31, 0, .rc⟩]⟩,
  ⟨.TALLY_SNAP_CTRL, 0x01000050, 0x4, 1, (fun _ => 0), [⟨1, 1, .ro⟩, ⟨0, 0, .rw⟩]⟩,
  ⟨.TALLY_SNAP_SEL, 0x01000054, 0x4, 1, (fun _ => 0), [⟨25, 2, .rw⟩]⟩,
  ⟨.TALLY_SNAP_VAL, 0x01000058, 0x4, 1, (fun _ => 0), [⟨31, 0, .ro⟩]⟩,
  ⟨.TALLY_SNAP_N, 0x0100005C, 0x4, 1, (fun _ => 0), [⟨15, 0, .ro⟩]⟩,
  ⟨.SYS_ID, 0x00000000, 0x4, 1, (fun _ => 591397040), [⟨31, 16, .ro⟩, ⟨7, 0, .ro⟩]⟩,
  ⟨.SYS_STRAP, 0x00000004, 0x4, 1, (fun _ => 0), [⟨9, 9, .ro⟩, ⟨8, 8, .ro⟩, ⟨7, 7, .ro⟩, ⟨5, 4, .ro⟩, ⟨3, 2, .ro⟩, ⟨1, 0, .ro⟩]⟩,
  ⟨.SYS_STATUS, 0x00000008, 0x4, 1, (fun _ => 0), [⟨31, 28, .ro⟩, ⟨8, 8, .ro⟩, ⟨4, 4, .ro⟩, ⟨3, 3, .ro⟩, ⟨2, 2, .ro⟩, ⟨1, 1, .ro⟩, ⟨0, 0, .ro⟩]⟩,
  ⟨.SYS_RST_CAUSE, 0x0000000C, 0x4, 1, (fun _ => 0), [⟨8, 8, .rc⟩, ⟨3, 0, .ro⟩]⟩,
  ⟨.SYS_RST, 0x00000010, 0x4, 1, (fun _ => 0), [⟨31, 16, .wo⟩, ⟨0, 0, .wo⟩]⟩,
  ⟨.SYS_LOCK, 0x00000014, 0x4, 1, (fun _ => 0), [⟨0, 0, .w1s⟩]⟩]

/-- Register table, part 14. -/
def regSpecs14 : List RegSpec := [
  ⟨.SYS_BOOT_MS, 0x00000018, 0x4, 1, (fun _ => 0), [⟨15, 0, .ro⟩]⟩,
  ⟨.SYS_LC_VIEW, 0x0000001C, 0x4, 1, (fun _ => 0), [⟨2, 0, .ro⟩]⟩]

/-- The whole register map. -/
def regSpecs : List RegSpec :=
  regSpecs1 ++ regSpecs2 ++ regSpecs3 ++ regSpecs4 ++ regSpecs5 ++ regSpecs6 ++ regSpecs7 ++ regSpecs8 ++ regSpecs9 ++ regSpecs10 ++ regSpecs11 ++ regSpecs12 ++ regSpecs13 ++ regSpecs14

/-- The register that a row puts at an offset, as its index in the row. -/
def RegSpec.indexOf (r : RegSpec) (off : Nat) : Option Nat :=
  if r.base ≤ off ∧ off < r.base + r.stride * r.count ∧ (off - r.base) % r.stride = 0
  then some ((off - r.base) / r.stride) else none

/-- The row and index of the register at a BAR0 offset; none is the hole of R5. -/
def findReg : List RegSpec → Nat → Option (RegSpec × Nat)
  | [], _ => none
  | r :: rs, off =>
    match r.indexOf off with
    | some i => some (r, i)
    | none => findReg rs off

/-- The register at a BAR0 offset. -/
def regAt (off : Nat) : Option (RegSpec × Nat) := findReg regSpecs off

/-- The register of a row at an index. -/
def RegSpec.regOf (x : RegSpec) (i : Nat) : Reg := ⟨x.base + x.stride * i, x.rst i⟩

/-- The mask of a field's bits in its word. -/
def FieldSpec.mask (f : FieldSpec) : Nat := (2 ^ (f.hi - f.lo + 1) - 1) * 2 ^ f.lo

end Sys2Proof.Machine
end

