-- ==== Sys2Proof/Machine/StateBell.lean ====
section
/-! DEFINITION. State of the Bellwether: wheels, positions, line clock, ENC_OUT and the ceiling (R150 to R175, R559,
R560). Positions are kept as integers and compared by their difference modulo 2^48 as a signed value (R153, ahead in Time.lean);
wheel positions carry 16 fraction bits below the subline (R152), the fire position 32 (R163). -/

set_option Elab.async false

namespace Sys2Proof.Machine

/-- Tracking state of a wheel (R156, R160). -/
inductive Track
  | still | first | run | reversing | coast
  deriving DecidableEq, Repr, Inhabited

/-- One input of a wheel: its raw level, its filtered level, and the instant at which an unaccepted change began
(R151). -/
structure WInput where
  raw : Bool
  lvl : Bool
  change : Option Nat
  deriving DecidableEq, Repr, Inhabited

/-- One wheel. Lengths are in 1/65,536 subline. -/
structure Wheel where
  a : WInput
  b : WInput
  /-- The level of B before its last accepted transition, and the time of that transition (R554). -/
  bPrev : Bool
  bAt : Option Nat
  state : Track
  /-- Position, 1/65,536 subline. -/
  pos : Int
  /-- Instant and direction of the last reference edge. -/
  edgeAt : Nat
  fwd : Bool
  /-- Last same-direction interval in ns and the pitches it covered (BELL_W_INTERVAL). -/
  interval : Nat
  covered : Nat
  /-- Previous forward interval and the pitches it covered, for the ratio of R157; 0 when there is none. -/
  fwdInterval : Nat
  fwdCovered : Nat
  /-- The gap is known (R157). -/
  gapKnown : Bool
  /-- The miss check is armed; the next index is compared (R159). -/
  armed : Bool
  /-- Position of the reference index (R560), and whether there is one. -/
  hasRef : Bool
  refPos : Int
  /-- Net count of pitches since the reference (R560). -/
  net : Int
  /-- BELL_W_IDXCNT. -/
  idxCnt : Int
  /-- Kind 3: the extra tooth lies behind, in the direction of motion (R559). -/
  extra : Bool
  /-- An edge has been taken since reset (R166). -/
  seen : Bool
  /-- Lengths and times of the last intervals of RUN, newest first, at most 16 (R154). -/
  hist : List (Int × Nat)
  speedValid : Bool
  /-- The last edge was marked as the extra tooth of kind 3: the next forward edge in RUN is the index (R157). -/
  idxNext : Bool
  /-- COAST (R160): where and when it began, and the last valid speed as length over ns. -/
  coastPos : Int
  coastLen : Int
  coastTime : Nat
  coastAt : Nat
  deriving DecidableEq, Repr, Inhabited

/-- A backward run (R161). -/
structure BackRun where
  start : Int
  said : Bool
  deriving DecidableEq, Repr, Inhabited

/-- The Bellwether. -/
structure Bell where
  wheels : List Wheel
  /-- Source in use: 0 W0, 1 W1; a change of src that waits for the new source's next edge (R167). -/
  src : Nat
  srcWait : Option Nat
  /-- Counted position less the source wheel's position, 1/65,536 subline (after a COAST, R160). -/
  offset : Int
  /-- Fire position and rate per ns, 2^−32 subline; the position at which it waits, and whether it moves
  forward there (R163). -/
  fire : Int
  rate : Int
  fireStop : Option (Int × Bool)
  /-- Where and when the present straight piece of the fire position began. -/
  segPos : Int
  segAt : Nat
  /-- High-water mark, 2^−32 subline. -/
  hwm : Int
  /-- e of R163 at the last edge, sublines; the last e exceeded the correction limit. -/
  phaseErr : Int
  slewing : Bool
  backRun : Option BackRun
  /-- Tick at which the source wheel last left STILL. -/
  moveAt : Nat
  /-- BELL_SPEED and BELL_LRATE. -/
  speed : Int
  lrate : Nat
  pllLock : Bool
  /-- ENC_OUT: accumulator, end of the active pulse, start of the next waiting pulse, end of the last pulse, pulses
  waiting, largest positions of W0 and W1 seen by it (R168, R554). -/
  encAcc : Nat
  encEnd : Option Nat
  encNext : Option Nat
  encLast : Option Nat
  encWait : Nat
  encMax : List Int
  /-- Last line boundary counted by ENC_OUT in line-clock mode, in lines. -/
  encLine : Int
  /-- The published ceiling (R171): term, speed, lines, unit; values at the last EV064; ceil_low. -/
  term : Nat
  ceilSpeed : Nat
  ceilLines : Nat
  ceilUnit : Nat
  saidLines : Nat
  saidTerm : Nat
  ceilLow : Bool
  deriving DecidableEq, Repr

/-- An input after reset: low, no change waiting. -/
def WInput.reset : WInput := ⟨false, false, none⟩

/-- A wheel after reset: STILL (R156), position 0 (R153). -/
def Wheel.reset : Wheel :=
  { a := WInput.reset, b := WInput.reset, bPrev := false, bAt := none, state := .still, pos := 0, edgeAt := 0, fwd := true,
    interval := 0, covered := 1, fwdInterval := 0, fwdCovered := 1, gapKnown := false, armed := false, hasRef := false,
    refPos := 0, net := 0, idxCnt := 0, extra := false, seen := false, hist := [], speedValid := false,
    idxNext := false, coastPos := 0, coastLen := 0, coastTime := 1, coastAt := 0 }

/-- The Bellwether after reset; the ceiling registers read term 5 and 118,110 lines/s, speed 0. -/
def Bell.reset : Bell :=
  { wheels := [Wheel.reset, Wheel.reset], src := 0, srcWait := none, offset := 0, fire := 0, rate := 0, fireStop := none, segPos := 0, segAt := 0, hwm := 0, phaseErr := 0, slewing := false,
    backRun := none, moveAt := 0, speed := 0, lrate := 0, pllLock := false, encAcc := 0, encEnd := none, encNext := none, encLast := none, encWait := 0,
    encMax := [0, 0], encLine := 0, term := 5, ceilSpeed := 0, ceilLines := 118110, ceilUnit := 0, saidLines := 118110,
    saidTerm := 5, ceilLow := false }

end Sys2Proof.Machine
end

