-- ==== Sys2Proof/Machine/StateCal.lean ====
section
/-! DEFINITION. State of the MRAM records and of camera calibration (R488 to R508). -/

set_option Elab.async false

namespace Sys2Proof.Machine

/-- State of a slot of a record (R491). -/
inductive SlotState
  | empty | valid | bad
  deriving DecidableEq, Repr, Inhabited

/-- One slot of a record. -/
structure RecSlot where
  state : SlotState
  gen : Nat
  time : Nat
  payload : List Byte
  deriving DecidableEq, Repr, Inhabited

/-- One record: type, selector, slots A and B, tick of the last write, FS104 and FS107 raised this start. -/
structure MRec where
  typ : Nat
  sel : Nat
  a : RecSlot
  b : RecSlot
  wrote : Option Nat
  badSaid : Bool
  wearSaid : Bool
  deriving DecidableEq, Repr, Inhabited

/-- A record write that waits: the contents asked for, oldest first, each with the descriptor that it serves (CAL_RUN WRITE), the newest
replacing the others; deferred until its tick (R493). -/
structure MWrite where
  typ : Nat
  sel : Nat
  parts : List (Option Nat × List Byte)
  deferred : Option Nat
  deriving DecidableEq, Repr, Inhabited

/-- The content that is written: the newest. -/
def MWrite.payload (w : MWrite) : List Byte := (w.parts.getLast?.map (fun p => p.2)).getD []

/-- The descriptors that a write serves, one whose content was replaced among them. -/
def MWrite.descs (w : MWrite) : List Nat := w.parts.filterMap (fun p => p.1)

/-- State of a calibration run (CAL_PORT_STAT). -/
inductive RunState
  | idle | pending | awaiting | measuring
  deriving DecidableEq, Repr, Inhabited

/-- One measurement: lines taken, generation of the first, sums per channel of the strip and of each patch, pixels. -/
structure Meas where
  lines : Nat
  gen : Nat
  strip : List Nat
  stripN : Nat
  patch : List (List Nat)
  patchN : List Nat
  deriving DecidableEq, Repr, Inhabited

/-- Calibration of one port. -/
structure CalPort where
  kc : List Nat
  t : List Nat
  refTemp : Int
  cert : List Byte
  tileTime : Nat
  runTime : Nat
  kind : Nat
  traced : Bool
  /-- Gains held, in effect from the next FS (R496). -/
  kcNext : Option (List Nat)
  run : RunState
  tile : Bool
  tries : Nat
  attempts : Nat
  /-- Descriptors that the run serves; the run is also one that the temperature asked for (R502). -/
  descs : List Nat
  auto : Bool
  meas : Meas
  /-- kc and T of the first measurement of the attempt. -/
  first : Option (List Nat × List Nat)
  started : Bool
  /-- Camera lines registered over the present gap. -/
  gapLines : Nat
  gapOf : Nat
  deriving DecidableEq, Repr, Inhabited

/-- Records and calibration. -/
structure Cal where
  recs : List MRec
  writes : List MWrite
  ports : List CalPort
  spliceAt : Nat
  /-- A BAD record was found at start in KEY, BOOT, CAL, USER. -/
  partBad : List Bool
  deriving DecidableEq, Repr

/-- An empty slot. -/
def RecSlot.none : RecSlot := ⟨.empty, 0, 0, []⟩

/-- A measurement not begun. -/
def Meas.none : Meas := ⟨0, 0, [0, 0, 0], 0, [], []⟩

/-- Calibration of a port before its record is read: unity, untraced (R503). -/
def CalPort.reset : CalPort :=
  { kc := [0x4000, 0x4000, 0x4000], t := [0, 0, 0], refTemp := 0, cert := List.replicate 8 0, tileTime := 0,
    runTime := 0, kind := 0, traced := false, kcNext := Option.none, run := .idle, tile := false, tries := 0,
    attempts := 0, descs := [], auto := false, meas := Meas.none, first := Option.none, started := false, gapLines := 0, gapOf := 0 }

/-- Calibration after a device reset; the records are kept (R532). -/
def Cal.reset (recs : List MRec) : Cal :=
  { recs := recs.map (fun r => { r with wrote := Option.none, badSaid := false, wearSaid := false }), writes := [],
    ports := List.replicate 6 CalPort.reset, spliceAt := 0, partBad := [false, false, false, false] }

end Sys2Proof.Machine
end

