-- ==== Sys2Proof/Machine/StateJet.lean ====
section
/-! DEFINITION. State of scan-out and firing: for each bar its fire lines, delay ring, remap and interlace tables
(R176 to R212). -/

set_option Elab.async false

namespace Sys2Proof.Machine

/-- The fire-line state of a bar (R200). -/
inductive FireState
  | disarmed | activeStandby | activeFailed | drill | bothFailed
  deriving DecidableEq, Repr, Inhabited

/-- What a table or content that waits is bound to (R78): the next IMAGE_COMMIT, the image a commit reaches, or nothing
(R72: it takes effect as soon as it is on the device). -/
inductive Bind
  | next
  | free
  | image (n : Nat)
  deriving DecidableEq, Repr, Inhabited

/-- One entry of an interlace table (R186). -/
structure IlEntry where
  split : Nat
  two : Bool
  subB : Nat
  subA : Nat
  deriving DecidableEq, Repr, Inhabited

/-- An interlace table: its period is the number of its entries (R186). -/
structure Interlace where
  entries : List IlEntry
  /-- CRC-32C of the table as it was loaded; 0 for the reset table (R512). -/
  crc : Nat
  deriving DecidableEq, Repr, Inhabited

/-- One entry of a remap table (R182). -/
structure RemapEntry where
  pos : Nat
  sub : Nat
  off : Nat
  rev : Bool
  disabled : Bool
  spare : Bool
  deriving DecidableEq, Repr, Inhabited

/-- A remap table of one half-bar, with the Paddock region that holds its copy (R183). -/
structure Remap where
  entries : List RemapEntry
  region : Nat
  runs : Nat
  /-- Its descriptor's place in the order of reading (R72). -/
  order : Nat
  deriving DecidableEq, Repr, Inhabited

/-- One half-bar of a bar. -/
structure Half where
  remap : Option Remap
  /-- Tables that wait, the oldest first. -/
  remapWait : List (Bind × Remap)
  deriving DecidableEq, Repr, Inhabited

/-- A band in a bar's delay ring (R181): image, first job line, interlace table under which it was screened, complete
flag, underrun mark at this bar, and the codes of its lines, strike 0 and strike 1. -/
structure RingBand where
  image : Nat
  line : Nat
  /-- Tick number of its first line at the bar. -/
  m : Int
  il : Interlace
  complete : Bool
  underrun : Bool
  code0 : List (List Nat)
  code1 : List (List Nat)
  /-- Status of each entry of the left and the right half-bar when it was screened (R185). -/
  nzL : List Nat
  nzR : List Nat
  /-- The bar has begun to send it (R197). -/
  begun : Bool
  deriving DecidableEq, Repr, Inhabited

/-- A delay ring: L_b, the value of o_max by which it was sized, its pages and region, and its bands, oldest first. -/
structure DelayRing where
  lines : Nat
  oMax : Nat
  pages : Nat
  region : Nat
  codeBits : Nat
  /-- The last image of its job, once decided (R179). -/
  last : Option Nat
  bands : List RingBand
  /-- Ticks at which a band begins that the bar needed before composition had begun it (R196). -/
  late : List Int
  deriving DecidableEq, Repr, Inhabited

/-- A pulse sent and not yet reported by the hub (R201). -/
structure Awaiting where
  tick : Int
  lineB : Bool
  at_ : Nat
  /-- Its line counts as lost unless the report arrives (R202). -/
  judge : Bool
  deriving DecidableEq, Repr, Inhabited

/-- A drill under way (R205): reports matched, the original line, the tick of line 0 of the next image. -/
structure Drill where
  matched : Nat
  passed : Bool
  origB : Bool
  deriving DecidableEq, Repr, Inhabited

/-- A self-test under way (R204): the line, the instant of its first pulse, pulses sent, the instants of those whose report is still to
come, those that have passed, and the reports that each lane of the bar has brought. -/
structure LineTest where
  lineB : Bool
  start : Nat
  sent : Nat
  out : List Nat
  passed : Nat
  seen : List Nat
  deriving DecidableEq, Repr, Inhabited

/-- One bar. -/
structure Bar where
  fire : FireState
  /-- FIRE_B is the active line. -/
  activeB : Bool
  /-- Level of HV_EN[b]. -/
  hv : Bool
  /-- A fire line in a pulse: line B, end tick. -/
  pulse : Option (Bool × Nat)
  /-- Pulses of the active line that the hub has not yet reported (R201). -/
  awaiting : List Awaiting
  /-- A self-test of a failed line waits for a gap: line B. -/
  selfTest : Option Bool
  testing : Option LineTest
  drill : Option Drill
  drillPass : Bool
  /-- The image-start marking passes to the next tick issued (R170, R198). -/
  markPending : Bool
  /-- Number of the last line whose tick was issued to the bar, or that lay below the high-water mark when counting
  began (R165). -/
  lastTick : Int
  /-- Instant of the last firing of each sub-row, if it has fired (R170). -/
  lastFired : List (Option Nat)
  /-- Overspeed state of R169: over, and warning since when. -/
  above : Bool
  warn : Bool
  /-- Image whose line-0 tick the bar last issued (JET_BAR_IMAGE). -/
  image : Nat
  /-- JET_BAR_LINE. -/
  inGap : Bool
  line : Nat
  swaps : Nat
  /-- Bar in use in the job, its sub-row count and second strike (R178). -/
  inUse : Bool
  subRows : Nat
  msCapable : Bool
  ring : Option DelayRing
  /-- Rings of jobs whose composition has ended and whose last image is still under way to the bar (R179). -/
  oldRings : List DelayRing
  left : Half
  right : Half
  /-- Regions of superseded remap tables that are returned once both half-bars have changed over (R184). -/
  oldCopies : List Nat
  il : Interlace
  ilWait : Option (Bind × Interlace)
  /-- Line events that the scan-out engines have not yet taken from their FIFO (R12, R195). -/
  events : List Int
  /-- Next tick whose packets are to be sent (R192). -/
  nextSend : Option Int
  /-- Lines that the last step of the fire position left to be issued as a burst, and the earliest instant of the tick
  after a tick of a burst (R164). -/
  burst : Nat
  burstNext : Option Nat
  /-- The gap at the reference line: its first tick, and the tick of the next image's line 0; a drill, a self-test is due
  in it (R204, R205). -/
  gapAt : Option (Int × Int)
  drillDue : Bool
  testDue : Bool
  /-- Sub-rows that fire on each tick whose packets have been sent and which is not yet issued. -/
  sentRows : List (Int × List Nat)
  /-- What each tick has added to the scan signature: tick, row, code bytes (R509). -/
  scan : List (Int × Nat × List Byte)
  /-- The tick that the last report matched, and its line (R201, R249). -/
  lastEcho : Option (Int × Bool)
  deriving DecidableEq, Repr, Inhabited

/-- Scan-out as a whole. -/
structure Jet where
  bars : List Bar
  /-- m_job (R177), set when the first commit of a job is accepted. -/
  mJob : Option Int
  /-- The tick at which the start gap of the job begins at every bar (R177, R205). -/
  startAt : Int
  /-- JET_IMAGE, JET_FLIP_IMAGE, JET_FLIP_TIME. -/
  image : Nat
  flipImage : Nat
  flipTime : Nat
  deriving DecidableEq, Repr

/-- The interlace table of every bar at reset: T = 1 and entry 0 naming SR0 alone (R186). -/
def Interlace.reset : Interlace := ⟨[⟨0, false, 0, 0⟩], 0⟩

/-- A half-bar after reset. -/
def Half.reset : Half := ⟨none, []⟩

/-- A bar after reset: DISARMED, both lines and HV_EN low (R435). -/
def Bar.reset : Bar :=
  { fire := .disarmed, activeB := false, hv := false, pulse := none, awaiting := [], selfTest := none, testing := none,
    drill := none, drillPass := false, markPending := false, lastTick := 0,
    lastFired := [none, none, none, none], above := false, warn := false, image := 0, inGap := false, line := 0, swaps := 0,
    inUse := false, subRows := 1, msCapable := false, ring := none, oldRings := [], left := Half.reset, right := Half.reset, oldCopies := [],
    il := Interlace.reset, ilWait := none, events := [], nextSend := none, burst := 0, burstNext := none,
    gapAt := none, drillDue := false, testDue := false, sentRows := [], scan := [], lastEcho := none }

/-- Scan-out after reset. -/
def Jet.reset : Jet :=
  { bars := List.replicate 8 Bar.reset, mJob := none, startAt := 0, image := 0, flipImage := 0, flipTime := 0 }

end Sys2Proof.Machine
end

