-- ==== Sys2Proof/Machine/StateDfl.lean ====
section
/-! DEFINITION. State of the compression engine: stream contexts, slots, dictionaries (R363 to R380). A context is kept
as its input so far and the count of output bytes already given out: its output is a function of these (R367), so the
window and the pending bits of R366 and R374 are computed from them. -/

set_option Elab.async false

namespace Sys2Proof.Machine

/-- DFL_CTX_STAT.state; a context that is to open is CLOSED until it has its slot. -/
inductive CtxState
  | closed | working | waitIn | waitOut | evicted | error
  deriving DecidableEq, Repr, Inhabited

/-- A flush that the producer sets (R370): after how many input bytes, and whether FINAL. -/
structure Flush where
  at_ : Nat
  final : Bool
  deriving DecidableEq, Repr, Inhabited

/-- A dictionary slot: content and DICTID (R377). -/
structure DictSlot where
  data : List Byte
  id : Nat
  deriving DecidableEq, Repr, Inhabited

/-- One stream context. -/
structure Ctx where
  state : CtxState
  /-- 0 DEFLATE, 1 zlib, 2 gzip. -/
  wrap : Nat
  level : Nat
  deflate : Bool
  /-- The dictionary slot used, and its content. -/
  dictSlot : Option Nat
  dict : List Byte
  tokens : Bool
  input : List Byte
  flushes : List Flush
  /-- Output bytes given out so far. -/
  given : Nat
  /-- Room left in the present output buffer. -/
  room : Nat
  /-- No input remains to be fetched (R368); bytes the stream must yield. -/
  ended : Bool
  expect : Option Nat
  /-- The dictionaries in force when an inflate stream opened (R378). -/
  dicts : List (Nat × DictSlot)
  slot : Option Nat
  /-- Waits for a slot, to open or to resume (R365), or for DFL to be ON (R398). -/
  wants : Bool
  /-- Something has come since the context last worked: input, a flush, the end of what is to be fetched. -/
  fresh : Bool
  /-- The stream has ended, with nothing behind it so far (R376). -/
  done : Bool
  /-- A stream of composition, of camera upload or of Tally, which feed it themselves. -/
  own : Bool
  lastUse : Nat
  deriving DecidableEq, Repr, Inhabited

/-- The compression engine. -/
structure Dfl where
  ctxs : List (Nat × Ctx)
  dicts : List (Nat × DictSlot)
  dictWait : List (Bind × Nat × DictSlot)
  /-- Save area held; asked since; EV177 raised. -/
  save : Bool
  saveSince : Option Nat
  saveSaid : Bool
  /-- DFL_ERR: cause, context, time. -/
  errCause : Nat
  errCtx : Nat
  errTime : Nat
  demand : Nat
  /-- Rates at which inflate contexts gave output in the last 1,024 µs, MB/s, and when (R380). -/
  inPaces : List (Nat × Nat)
  /-- Rates at which deflate contexts took input in the last 1,024 µs, MB/s, and when (R380). -/
  outPaces : List (Nat × Nat)
  /-- Demand times line rate exceeds 8 × 10^9 (R373). -/
  above : Bool
  deriving DecidableEq, Repr

/-- The compression engine after reset: no context open, no dictionary. -/
def Dfl.reset : Dfl :=
  { ctxs := [], dicts := [], dictWait := [], save := false, saveSince := none, saveSaid := false, errCause := 0,
    errCtx := 0, errTime := 0, demand := 0, inPaces := [], outPaces := [], above := false }

end Sys2Proof.Machine
end

