-- ==== Sys2Proof/Machine/StateFold.lean ====
section
/-! DEFINITION. State of Fold and Crook (R425 to R449). FOLD_STICKY, FOLD_LASTING, FOLD_ENABLE, FOLD_OPEN, the
severities, policies and counts stand in the register file. -/

set_option Elab.async false

namespace Sys2Proof.Machine

/-- The state of Crook (CROOK_STATUS.state). -/
inductive CrookState
  | clear | safe | safeOff
  deriving DecidableEq, Repr, Inhabited

/-- Where an occurrence comes from (R425, R441). -/
inductive Origin
  | detector | forced | injected | lasting
  deriving DecidableEq, Repr, Inhabited

/-- What FOLD_LAST shows. -/
structure FoldLast where
  sev : Nat
  escalated : Bool
  merged : Bool
  lasting : Bool
  forced : Bool
  injected : Bool
  bars : Nat
  source : Nat
  deriving DecidableEq, Repr, Inhabited

/-- A targeted self-test that is pending (R440): its source, its bar scope, and the unit it tests (a lane, a bar, a
domain, a table number, an SRAM word …). -/
structure SelfTest where
  source : Nat
  bars : Nat
  target : Nat
  /-- The occurrence came from injection: the test runs against a sound unit (R445). -/
  injected : Bool
  deriving DecidableEq, Repr, Inhabited

/-- Fold. -/
structure Fold where
  last : FoldLast
  /-- FOLD_HELD. -/
  held : List Bool
  /-- For each bar the sources whose occurrences held it (R430). -/
  heldBy : List (List Nat)
  /-- Sources whose last occurrence had effective severity HALT or OFF (R439). -/
  stopSources : List Nat
  /-- Tick at which such an occurrence was last judged (R439). -/
  stopAt : Option Nat
  tests : List SelfTest
  /-- FOLD_ST.result and FOLD_ST.source. -/
  stResult : Nat
  stSource : Nat
  /-- Ticks of the correctable SRAM errors of the last second, newest first (R443). -/
  sramCe : List Nat
  /-- FS120 has been raised since the count was last within its limit. -/
  sramCeSaid : Bool
  deriving DecidableEq, Repr

/-- Crook. -/
structure Crook where
  state : CrookState
  /-- PRESS_STOP asserted (low) at the pad (R436). -/
  pressStop : Bool
  releaseRefused : Bool
  /-- First cause: 0–127 a source, 0x80 RESET, 0x81 SOFTWARE. -/
  cause : Nat
  deriving DecidableEq, Repr

/-- Fold after reset. -/
def Fold.reset : Fold :=
  { last := ⟨0, false, false, false, false, false, 0, 0⟩, held := List.replicate 8 false,
    heldBy := List.replicate 8 [], stopSources := [], stopAt := none, tests := [], stResult := 0, stSource := 0, sramCe := [],
    sramCeSaid := false }

/-- Crook after reset: SAFE with cause RESET, PRESS_STOP asserted (R435). -/
def Crook.reset : Crook := { state := .safe, pressStop := true, releaseRefused := false, cause := 0x80 }

end Sys2Proof.Machine
end

