-- ==== Sys2Proof/Machine/StateLayer.lean ====
section
/-! DEFINITION. State of layers, jobs, commits and composition (R69 to R105). -/

set_option Elab.async false

namespace Sys2Proof.Machine

/-- What has become of the read of a page of a STREAMED layer (R62, R63): it is under way, its bytes are here, or it failed. -/
inductive PageState
  | asked | here (data : List Byte) | failed
  deriving DecidableEq, Repr, Inhabited

/-- The read of a page of a STREAMED layer (R61 to R63): its index, the image and the band for which it is read. -/
structure SPage where
  index : Nat
  image : Nat
  band : Nat
  state : PageState
  deriving DecidableEq, Repr, Inhabited

/-- The content of a layer as LAYER_SET gives it (R76), and the data behind it. -/
structure Content where
  ring : Nat
  slot : Nat
  /-- The place of its descriptor in the order of reading. -/
  order : Nat
  format : Nat
  colour : Nat
  spot : Nat
  policy : Nat
  varying : Bool
  freezeSev : Nat
  alphaMode : Nat
  wrap : Nat
  filter : Nat
  alpha : Nat
  x0 : Nat
  srcW : Nat
  srcH : Nat
  y0 : Nat
  scaleX : Nat
  scaleY : Nat
  streamed : Bool
  tags : Bool
  /-- List address, page count, page size code, length of the host buffer (R58). -/
  list : Nat
  pages : Nat
  pageSize : Nat
  length : Nat
  /-- The entries of the page list. -/
  ents : List PageEnt
  /-- The STAGED completion has been decided; the data copied (R59). -/
  staged : Bool
  data : List Byte
  /-- The reads of the pages of a STREAMED layer, oldest first. -/
  reads : List SPage
  /-- The lease has ended by a function-level reset: no further page is read (R32). -/
  dead : Bool
  deriving DecidableEq, Repr, Inhabited

/-- A waiting binding of a layer: the place of its descriptor in the order of reading, what it is bound to, its content (none: LAYER_FREE). -/
structure Binding where
  order : Nat
  bind : Bind
  content : Option Content
  deriving DecidableEq, Repr, Inhabited

/-- A waiting commit, or the geometry and flags in force (R88). -/
structure Commit where
  image : Nat
  length : Nat
  gap : Nat
  rpt : Bool
  lypReq : Bool
  /-- It binds content or changes geometry: it ends a repeat (R99). -/
  binds : Bool
  /-- F and the inflate demand of the image that it reaches, from its layers at admission (R101, R373). -/
  fetch : Nat
  demand : Nat
  deriving DecidableEq, Repr, Inhabited

/-- The open job (R70). -/
structure Job where
  num : Nat
  ring : Nat
  first : Nat
  width : Nat
  startGap : Nat
  codeBits : Nat
  latchLines : Nat
  leadMin : Nat
  leadMax : Nat
  closed : Bool
  last : Nat
  /-- A commit has been accepted (R177). -/
  accepted : Bool
  deriving DecidableEq, Repr, Inhabited

/-- What a JOB_OPEN takes for one bar (R178, R179): in use, sub-rows, a second strike; lines of its ring, the largest offset by
which it is sized, pages. -/
structure OpenBar where
  inUse : Bool
  subRows : Nat
  ms : Bool
  lines : Nat
  oMax : Nat
  pages : Nat
  deriving DecidableEq, Repr, Inhabited

/-- A JOB_OPEN whose rings are not yet all granted (R179): its place in the order of reading, the job it opens, its bars, the
lines of its coverage ring (R312). -/
structure Opening where
  order : Nat
  job : Job
  bars : List OpenBar
  covLines : Nat
  deriving DecidableEq, Repr, Inhabited

/-- The image in composition. -/
structure Comp where
  image : Nat
  /-- Lines of the image that every strip has finished, its gap included. -/
  pos : Nat
  length : Nat
  gap : Nat
  /-- Job line of its line 0. -/
  line0 : Nat
  latched : Bool
  /-- A band is started and not yet complete: its first line in the image and its number of lines. -/
  band : Option (Nat × Nat)
  blank : Bool
  lypReq : Bool
  /-- Layers left out of the image; layers left out or not ready in some band (no signature). -/
  leftOut : List Nat
  noSig : List Nat
  /-- The image comes from the repeat store. -/
  fromStore : Bool
  /-- Layers whose inflate error has been recorded in this image (R376). -/
  errSaid : List Nat
  deriving DecidableEq, Repr, Inhabited

/-- A composed image on its way under the bars: its place in job lines (R177). -/
structure Span where
  image : Nat
  line0 : Nat
  /-- Tick number of its line 0 at every bar (R177). -/
  m0 : Int
  length : Nat
  gap : Nat
  /-- A commit reached it (R208). -/
  flip : Bool
  /-- Marked for REJECT (R97). -/
  marked : Bool
  /-- Bars that have raised IMAGE_DONE for it (R207). -/
  done : List Nat
  /-- The number of the store copy that it is taken from, and the lines of it that were damaged at some bar (R318): first and
  last tick number. -/
  copy : Option Nat
  hurt : List (Int × Int)
  deriving DecidableEq, Repr, Inhabited

/-- The repeat store: for each bar the codes of the image's lines, strike 0 and strike 1. -/
structure Store where
  length : Nat
  code0 : List (List (List Nat))
  code1 : List (List (List Nat))
  /-- For each bar and each band, the statuses of the left and the right half-bar's nozzles with which it was screened (R140, R185). -/
  nz : List (List (List Nat × List Nat))
  /-- The interlace table of each bar under which it was screened. -/
  ils : List Interlace
  /-- Job line of the first line of the image that was stored (R138). -/
  line0 : Nat
  /-- The first image has been stored whole. -/
  full : Bool
  deriving DecidableEq, Repr, Inhabited

/-- What the latch point has judged for the next image (R93 to R96): for each layer the place in the order of reading of
the binding that takes effect with it, layers left out, layers not ready for it, whether it is blank as a whole, whether LYP is
required. -/
structure Judged where
  image : Nat
  take : List (Option Nat)
  leftOut : List Nat
  unready : List Nat
  blank : Bool
  lypReq : Bool
  deriving DecidableEq, Repr, Inhabited

/-- Layers and composition. -/
structure Lay where
  job : Option Job
  ask : Option Opening
  comp : Option Comp
  /-- Composition is stopped because the lead reached its limit (R73). -/
  stopped : Bool
  inForce : List (Option Content)
  waiting : List (List Binding)
  commits : List Commit
  geom : Commit
  spans : List Span
  store : Option Store
  /-- LAYER_STATUS.repeat; the repeat ends at the next image: its quota cannot hold the copy that Graze needs (R99). -/
  repeating : Bool
  leaving : Bool
  /-- Images marked whose pulse is not yet due: image and due web line. -/
  rejects : List (Nat × Int)
  /-- REJECT active until this tick. -/
  rejectEnd : Option Nat
  /-- LAYER_SIG and the signature of the previous image, if it yielded one. -/
  sigs : List Nat
  prevSig : List (Option Nat)
  fetch : Nat
  leadLow : Bool
  /-- Loads that have started and are not yet held, by their place in the order of reading, and what they are bound
  to (R126, R184). -/
  loads : List (Nat × Bind)
  judged : Option Judged
  /-- STAGED contents superseded before their staging is complete. -/
  gone : List Content
  deriving DecidableEq, Repr

/-- Layers after reset: no job, every layer empty. -/
def Lay.reset : Lay :=
  { job := none, ask := none, comp := none, stopped := false, inForce := List.replicate 8 none,
    waiting := List.replicate 8 [], commits := [], geom := ⟨0, 0, 0, false, false, false, 0, 0⟩, spans := [], store := none,
    repeating := false, leaving := false, rejects := [], rejectEnd := none, sigs := List.replicate 8 0,
    prevSig := List.replicate 8 none, fetch := 0, leadLow := false, loads := [], judged := none, gone := [] }

end Sys2Proof.Machine
end

