-- ==== Sys2Proof/Machine/StateHold.lean ====
section
/-! DEFINITION. State of the colour hold loop: cells, hold tables, coverage, estimate, history and Graze (R308 to R333).
A cell list is sparse: what it does not list is at its default. -/

set_option Elab.async false

namespace Sys2Proof.Machine

/-- One coverage block row of eight job lines (R311): its first job line, image (none: mixed or a gap), and for each
block of 16 positions the eight entries (mean, spread code). -/
structure CovRow where
  line : Nat
  image : Option Nat
  imageLine : Nat
  blocks : List (List (Nat × Nat))
  deriving DecidableEq, Repr, Inhabited

/-- The values of one composed line that wait for their block row (R311): job line, image (none: a gap line), image
line, v″ of each ink. -/
structure CovLine where
  line : Nat
  image : Option Nat
  imageLine : Nat
  vals : List (List Nat)
  deriving DecidableEq, Repr, Inhabited

/-- Accumulators of one cell and ink (R316). -/
structure WitSum where
  cell : Nat
  ink : Nat
  a : Int
  b : Int
  w : Nat
  n : Nat
  deriving DecidableEq, Repr, Inhabited

/-- Paper sum and count of one cell and channel (R316). -/
structure PaperSum where
  cell : Nat
  ch : Nat
  sum : Nat
  n : Nat
  deriving DecidableEq, Repr, Inhabited

/-- What one fill takes (R309, R310): gains and HOLD_BASE tables, by ink number. -/
structure HoldFill where
  cells : List (Nat × Nat)
  base : List (Nat × List Byte)
  /-- Cells in use (J of R308). -/
  used : Nat
  deriving DecidableEq, Repr, Inhabited

/-- One estimate (R316 to R318): its image, the accumulators, the paper sums, and that it is to be discarded. -/
structure Est where
  image : Nat
  discard : Bool
  sums : List WitSum
  papers : List PaperSum
  deriving DecidableEq, Repr, Inhabited

/-- The coverage of one copy of the repeat store (R313): its number, the job line at which its image was first stored, its
block rows. -/
structure CovCopy where
  num : Nat
  line0 : Nat
  rows : List CovRow
  deriving DecidableEq, Repr, Inhabited

/-- How far a context has registered (R317): port, image, line. -/
structure Reach where
  port : Nat
  image : Nat
  line : Nat
  deriving DecidableEq, Repr, Inhabited

/-- HOLD_GRAZE_STAT. -/
inductive GrazeState
  | idle | awaitGrant | running | awaitSwap
  deriving DecidableEq, Repr, Inhabited

/-- A measurement table (FWD_DENSITY, FWD_SLOPE, HOLD_INK): type, ink, channel, content (R329). -/
structure MeasTable where
  typ : Nat
  index : Nat
  sub : Nat
  data : List Byte
  deriving DecidableEq, Repr, Inhabited

/-- The hold loop. -/
structure Hold where
  /-- c of cell j and ink i at key 1,728 i + j, where it is not 0x4000. -/
  cells : List (Nat × Nat)
  /-- Paper density of cell j and channel ch at key 1,728 ch + j, where it is not paper0. -/
  paper : List (Nat × Nat)
  paper0 : List Nat
  /-- Last e at key 1,728 i + j, where it is not 0. -/
  lastE : List (Nat × Int)
  /-- Sign of the last s and number of consecutive changes, at key 1,728 i + j (R323). -/
  osc : List (Nat × Int × Nat)
  /-- Cells and inks at a limit that has been reported. -/
  limited : List Nat
  /-- HOLD_BASE tables in force: ink and bytes; absent: 0x4000 throughout (R330). -/
  base : List (Nat × List Byte)
  active : HoldFill
  shadow : Option HoldFill
  /-- The image for which the shadow is filled; the fill is in progress. -/
  shadowImage : Nat
  filling : Bool
  /-- Composition waits for the fill at line 0 (R310). -/
  waitFill : Bool
  /-- A cell or HOLD_BASE in force has changed since the last fill. -/
  dirty : Bool
  swapImage : Nat
  covOk : Bool
  covPages : Nat
  covLines : Nat
  cov : List CovRow
  covTail : List CovLine
  /-- Coverage kept with the copies of the repeat store, newest first, and the number of the copy in force (R313). -/
  covStore : List CovCopy
  covNum : Nat
  covStoreOk : Bool
  /-- Measurement tables used for images registered so far, and those bound to a later image (R331). -/
  meas : List MeasTable
  measWait : List (Bind × MeasTable)
  /-- The open estimates, oldest first; paper sums of gaps that wait for the next one. -/
  ests : List Est
  papers : List PaperSum
  seenTo : List Reach
  /-- The image whose estimate closed last in the job. -/
  closed : Option Nat
  lastImage : Nat
  /-- Delays of the last eight updates, newest first (R322), and the images whose updates await their first print. -/
  delays : List Nat
  updates : List Nat
  /-- Those whose gains stand in the filled shadow, and those whose gains await a store swap (R322). -/
  filled : List Nat
  grazed : List Nat
  history : Bool
  start : Nat
  /-- restart has been written since the last load: gains and paper stay until the next (R327). -/
  kept : Bool
  graze : GrazeState
  /-- Lines re-screened; the trigger arrived before the store was complete, or during Graze. -/
  grazeLines : Nat
  grazeWant : Bool
  /-- The gains a running Graze uses, and its store copy. -/
  grazeStore : Option Store
  grazeFill : Option HoldFill
  grazeCov : List CovRow
  /-- c has changed since the last snapshot, and the tick of the last snapshot. -/
  changed : Bool
  snapAt : Nat
  deriving DecidableEq, Repr

/-- A fill of unit gains. -/
def HoldFill.unity : HoldFill := ⟨[], [], 1728⟩

/-- The hold loop after reset. -/
def Hold.reset : Hold :=
  { cells := [], paper := [], paper0 := [0, 0, 0], lastE := [], osc := [], limited := [], base := [],
    active := HoldFill.unity, shadow := none, shadowImage := 0, filling := false, waitFill := false, dirty := false,
    swapImage := 0, covOk := false, covPages := 0, covLines := 0, cov := [], covTail := [], covStore := [], covNum := 0, covStoreOk := false,
    meas := [], measWait := [], ests := [], papers := [], seenTo := [], closed := none, lastImage := 0,
    delays := [], updates := [], filled := [], grazed := [], history := false, start := 0, kept := false, graze := .idle, grazeLines := 0, grazeWant := false,
    grazeStore := none, grazeFill := none, grazeCov := [], changed := false, snapAt := 0 }

end Sys2Proof.Machine
end

