-- ==== Sys2Proof/Machine/StateHost.lean ====
section
/-! DEFINITION. State of the host interface: the endpoint, the 64 rings, descriptors in flight, completions held on
the chip, the last retired descriptors (R29 to R68), and what the device drives out of itself, as an output log. -/

set_option Elab.async false

namespace Sys2Proof.Machine

/-- The capabilities of the endpoint (R29). What the table does not support is neither advertised nor implemented. -/
structure Caps where
  functions : Nat
  /-- Data rates in tenths of GT/s, highest first; the last two for training only. -/
  rates : List Nat
  width : Nat
  /-- Size of BAR0 in bytes; its width in bits; prefetchable. -/
  bar0 : Nat
  barBits : Nat
  prefetch : Bool
  payloads : List Nat
  readRequest : Nat
  tagBits : Nat
  nonPosted : Nat
  addrBits : Nat
  vectors : Nat
  aer : Bool
  flr : Bool
  aspmL1 : Bool
  aspmL0s : Bool
  deriving DecidableEq, Repr, Inhabited

/-- The capabilities of R29 with the widest width that STRAP_PCIE lets the endpoint advertise. -/
def Caps.ofWidth (width : Nat) : Caps :=
  { functions := 1, rates := [320, 160, 80, 50, 25], width := width, bar0 := 2 ^ 26, barBits := 64, prefetch := false,
    payloads := [128, 256, 512], readRequest := 4096, tagBits := 10, nonPosted := 512, addrBits := 64, vectors := 256,
    aer := true, flr := true, aspmL1 := true, aspmL0s := false }

/-- What a lane's transmitter puts on the line (R241, R242, R245): electrical idle, PRBS31 at a rate, training codewords that carry a
training set, data codewords, each with markers. -/
inductive TxLine
  | idle
  | prbs (rate : Nat)
  | training (rate : Nat) (precoded : Bool) (set : List Byte)
  | service (rate : Nat) (precoded : Bool)
  deriving DecidableEq, Repr

/-- What the device puts out: posted and non-posted host requests, MSI-X messages, packets on the lanes, pulses,
serial-bus writes and Ethernet frames. Each entry of the log is one such output, in the order in which they leave. -/
inductive Out
  /-- A host read (R41, R43, R59), and its Relaxed Ordering attribute (R29); No Snoop is never set. -/
  | hostRead (addr len : Nat) (relaxed : Bool)
  /-- A host write (R38, R48). -/
  | hostWrite (addr : Nat) (data : List Byte)
  /-- The MSI-X message of a vector (R65). -/
  | msi (vector : Nat)
  /-- The answer to a configuration request (R30): none with retry status, else completed, by an endpoint of these capabilities. -/
  | configReply (caps : Option Caps)
  /-- A fire pulse starts: bar, line B, width in ns (R198). -/
  | pulse (bar : Nat) (lineB : Bool) (width : Nat)
  /-- A pulse of a fire line ends: bar, line B (R198). -/
  | pulseEnd (bar : Nat) (lineB : Bool)
  /-- A control packet is inserted in a codeword of a lane (R225). -/
  | insert (lane : Nat) (pkt : List Byte)
  /-- The last byte of a DOT packet leaves a lane's transmit FIFO (R232). -/
  | dot (lane : Nat) (pkt : List Byte)
  /-- A codeword that carries something is sent on a lane (R216 to R222): its place in the marker period, 0 the marker and then the data
  codewords in turn, whether its symbols are precoded, and the 642 bytes of its message. `lineSymbols` gives its symbols. -/
  | codeword (lane place : Nat) (precoded : Bool) (msg : List Byte)
  /-- A lane's transmitter changes what it puts on the line (R241, R245). -/
  | lineTx (lane : Nat) (what : TxLine)
  /-- An ENC_OUT pulse starts: its active level, its width in ns (R168, R175). -/
  | encPulse (high : Bool) (width : Nat)
  /-- REJECT takes its active level, for a width in µs (R97, R105). -/
  | reject (high : Bool) (width : Nat)
  /-- REJECT returns to its inactive level (R97, R105). -/
  | rejectEnd (high : Bool)
  /-- An I²C write transaction: bus, address, bytes (R286). -/
  | i2cWrite (bus addr : Nat) (data : List Byte)
  /-- An I²C read transaction (R285). -/
  | i2cRead (bus addr reg len : Nat)
  /-- Bytes that a stream context puts into its output buffer (R374, R375). -/
  | dfl (ctx : Nat) (data : List Byte)
  /-- A PMBus write: address, command, data bytes (R414). -/
  | pmbusWrite (addr cmd : Nat) (data : List Byte)
  /-- A PMBus read of two bytes: address, command or register (R405, R413, R414). -/
  | pmbusRead (addr cmd : Nat)
  /-- An Ethernet frame: port, octets (R391). -/
  | frame (port : Nat) (data : List Byte)
  /-- DRAM command of a channel: a refresh burst, a calibration, a retry (R342 to R345). -/
  | dram (channel : Nat) (what : String) (n : Nat)
  deriving DecidableEq, Repr

/-- The state of one ring. base, cfg and mod stand in the register file (R34, R35). -/
structure Ring where
  /-- HIF_RING_CFG.halted. -/
  halted : Bool
  /-- HIF_RING_STAT.cause. -/
  cause : Nat
  /-- The last doorbell value seen: posted count of a submission ring, consumed count of a completion ring (R37). -/
  door : Nat
  /-- Descriptors asked for by read requests, free-running. -/
  fetched : Nat
  /-- The read requests under way, oldest first: the descriptors that each asked for, and those of them still to come. -/
  reads : List (Nat × Nat)
  /-- Requests under way whose descriptors are no longer wanted: the ring has been disabled, or has halted on a failed read. -/
  lost : List Nat
  /-- The device's own count: descriptors read, or completions written (R36). -/
  count : Nat
  /-- Counts of posted, unread descriptors that an ABORT withdrew: skipped when reached (R55). -/
  skips : List Nat
  /-- Completions written since the ring's event was last raised (R50). -/
  unsig : Nat
  /-- The tick at which the first of them was written. -/
  unsigSince : Nat
  /-- EV016 has been raised for the present filling (R51). -/
  filled : Bool
  deriving DecidableEq, Repr, Inhabited

/-- One descriptor in flight (R43): read and its final completion not yet written. -/
structure Desc where
  ring : Nat
  slot : Nat
  bytes : List Byte
  /-- Its place in the order in which the device read descriptors. -/
  order : Nat
  /-- The completion ring of its ring when it was read (R35). -/
  cring : Nat
  started : Bool
  /-- Its primary status is decided: the retire point is passed. -/
  retired : Bool
  /-- Its primary completion has been written to host memory. -/
  primaryOut : Bool
  deriving DecidableEq, Repr, Inhabited

/-- A read under way of a page of a STREAMED layer (R61): its layer's descriptor, and the page. -/
structure PageRead where
  order : Nat
  ring : Nat
  slot : Nat
  index : Nat
  deriving DecidableEq, Repr, Inhabited

/-- The reads of a descriptor that has completed with DMA_ERROR which may still fail (R556). -/
structure DataReads where
  ring : Nat
  slot : Nat
  left : Nat
  deriving DecidableEq, Repr, Inhabited

/-- One completion (R47) and the completion ring that receives it. -/
structure Completion where
  cring : Nat
  tag : Nat
  ring : Nat
  status : Nat
  result : Nat
  time : Nat
  slot : Nat
  opcode : Nat
  final : Bool
  /-- The descriptor's notify flag (R50). -/
  notify : Bool
  /-- The place of the descriptor in the order of reading. -/
  order : Nat
  /-- Of an ABORT's completion: the place of its target, whose completion is written first (R55). -/
  after : Option Nat
  /-- It is of a descriptor that was aborted unread (R55); the order of reading at which its slot was reached (R54). -/
  unread : Bool
  place : Option Nat
  deriving DecidableEq, Repr, Inhabited

/-- The identity of a retired descriptor, kept for ABORT (R55). -/
structure Retired where
  ring : Nat
  slot : Nat
  tag : Nat
  opcode : Nat
  deriving DecidableEq, Repr, Inhabited

/-- The host interface. -/
structure Hif where
  /-- HIF_STATUS.ready (R30). -/
  ready : Bool
  /-- A reset of the host interface is in progress: it ends with HIF_READY. -/
  resetting : Bool
  linkUp : Bool
  /-- Rate code of HIF_LINK_STAT. -/
  rate : Nat
  width : Nat
  /-- HIF_STATUS.slow. -/
  slow : Bool
  /-- The doorbell reads under way: the tick at which each was issued, oldest first; the tick of the latest. -/
  polls : List Nat
  pollAt : Option Nat
  /-- A reset of the host interface has ended every lease, and no ring has been enabled since: no host memory is read (R32). -/
  mute : Bool
  /-- The reads under way of pages of STREAMED layers, oldest first. -/
  pageReads : List PageRead
  /-- Reads that may still fail of descriptors which completed with DMA_ERROR. -/
  dataReads : List DataReads
  /-- Failures of the doorbell read in succession (R42). -/
  failRun : Nat
  /-- Tick of the last change of an enabled ring's doorbell, or of the last return to db_poll (R40). -/
  lastChange : Nat
  rttLast : Nat
  rings : List Ring
  inflight : List Desc
  /-- Completions held on the chip, oldest first (R51). -/
  held : List Completion
  /-- The last 1,024 retired, newest first (R55). -/
  retired : List Retired
  /-- Number of descriptors read so far: the order of the next. -/
  nextOrder : Nat
  /-- The ring served last, for service in turn (R43). -/
  lastServed : Nat
  /-- MSI-X pending bits (R65): the vectors that wait, in the order of their requests. -/
  pba : List Nat
  /-- The host read last returned by a register read (BAR0 read completion). -/
  readData : Nat
  /-- Capture of R6: for each two-word quantity read, the offset of its upper word and the captured value. -/
  captures : List (Nat × Nat)
  deriving DecidableEq, Repr

/-- A ring after reset. -/
def Ring.reset : Ring :=
  { halted := false, cause := 0, door := 0, fetched := 0, reads := [], lost := [], count := 0, skips := [], unsig := 0, unsigSince := 0,
    filled := false }

/-- The host interface after a device reset: not ready, no ring in use (R30, R36). -/
def Hif.reset : Hif :=
  { ready := false, resetting := true, linkUp := false, rate := 0, width := 0, slow := false, polls := [], pollAt := none, mute := false,
    pageReads := [], dataReads := [], failRun := 0, lastChange := 0, rttLast := 0, rings := List.replicate 64 Ring.reset, inflight := [], held := [],
    retired := [], nextOrder := 0, lastServed := 63, pba := [], readData := 0, captures := [] }

end Sys2Proof.Machine
end

