-- ==== Sys2Proof/Machine/StateInk.lean ====
section
/-! DEFINITION. State of colour conversion and screening: table slots, the protected set, accumulators of the engines,
pace meters (R106 to R149). A table is kept as the bytes that were loaded; a slot with no loaded table holds the reset
contents of R127. -/

set_option Elab.async false

namespace Sys2Proof.Machine

/-- A table held in a shadow copy until its image (R125, R126): its bytes, CRC-32C, binding and slot order. -/
structure Shadow where
  data : List Byte
  crc : Nat
  bind : Bind
  order : Nat
  deriving DecidableEq, Repr, Inhabited

/-- One table slot: a type and one value of index and sub (R125). -/
structure TSlot where
  typ : Nat
  index : Nat
  sub : Nat
  active : Option (List Byte)
  /-- CRC-32C computed when the active table was held; 0 for reset contents. -/
  crc : Nat
  shadow : Option Shadow
  deriving DecidableEq, Repr, Inhabited

/-- The accumulators of one engine, ink and strike over the engine's span, in sixteenths of an ink value (R134). -/
structure EngAcc where
  engine : Nat
  ink : Nat
  strike : Nat
  cur : List Int
  nxt : List Int
  deriving DecidableEq, Repr, Inhabited

/-- Pace meter of one engine (R13): counts of busy microseconds of the last 1,024 µs with their ticks, newest first;
the last busy count; the lowest of the window, kept while no busy microsecond is in it (R23). -/
structure Pace where
  samples : List (Nat × Nat)
  last : Nat
  low : Option Nat
  /-- The pace term's input is below pace_floor (R144). -/
  fell : Bool
  deriving DecidableEq, Repr, Inhabited

/-- The protected set CSP (R117): header, pre-curves, separation, palette. -/
structure CspSet where
  header : List Byte
  precurve : List Byte
  separation : List Byte
  palette : List Byte
  /-- CRC-32C of each of the four, computed when the set was held (R145). -/
  crcs : List Nat
  deriving DecidableEq, Repr, Inhabited

/-- Colour and screening. -/
structure Ink where
  slots : List TSlot
  csp : Option CspSet
  /-- CSP waiting for its commit (R479). -/
  cspWait : Option (Bind × CspSet)
  acc : List EngAcc
  pace : List Pace
  /-- Clamp occurrences of each engine in the present band (R146). -/
  bandClamps : List Nat
  deriving DecidableEq, Repr

/-- A pace meter after reset. -/
def Pace.reset : Pace := ⟨[], 0, none, false⟩

/-- Colour and screening after reset: reset contents everywhere (R127). -/
def Ink.reset : Ink :=
  { slots := [], csp := none, cspWait := none, acc := [], pace := List.replicate 32 Pace.reset,
    bandClamps := List.replicate 32 0 }

end Sys2Proof.Machine
end

