-- ==== Sys2Proof/Machine/StateLink.lean ====
section
/-! DEFINITION. State of the bar link: 32 lanes, 16 half-bars and the sleep and request state of 8 bars
(R213 to R256). -/

set_option Elab.async false

namespace Sys2Proof.Machine

/-- LINK_STATUS.tstate (R241). -/
inductive TState
  | off | quiet | eq | lock | negotiate | align | active | failed
  deriving DecidableEq, Repr, Inhabited

/-- Sleep state of a direction of a bar (R245). -/
inductive Sleep
  | awake | asleep | waking
  deriving DecidableEq, Repr, Inhabited

/-- A DOT packet in a lane's transmit FIFO (R232). -/
structure DotPkt where
  half : Nat
  seq : Nat
  tick : Int
  bytes : List Byte
  /-- Bytes still to leave this lane. -/
  left : Nat
  deriving DecidableEq, Repr, Inhabited

/-- A control packet waiting for insertion: its group (0 HOLD, 1 SEQ, 2 SLEEP and WAKE, 3 CFG and STAT) and bytes
(R225). -/
structure InsPkt where
  group : Nat
  bytes : List Byte
  deriving DecidableEq, Repr, Inhabited

/-- One lane. -/
structure Lane where
  tstate : TState
  /-- Rate: 1 4 GBd, 2 8 GBd, 3 16 GBd, 0 none. -/
  rate : Nat
  /-- Second pass of training (the agreed rate). -/
  secondPass : Bool
  /-- Highest rate asked of this training (R241, R243). -/
  wanted : Nat
  preTx : Bool
  preRx : Bool
  inPair : Bool
  preferred : Bool
  /-- LINK_STATUS.cause. -/
  cause : Nat
  /-- Training tries since the last ACTIVE. -/
  tries : Nat
  /-- Ticks at which the present training state was entered and the training began. -/
  since : Nat
  began : Nat
  /-- A training is requested and awaits its Drover grant. -/
  awaiting : Bool
  /-- The lane left its pair and is to rejoin (R236). -/
  rejoining : Bool
  /-- Rates that the far end has shown in its training set (R242). -/
  farRates : Nat
  /-- Consecutive good markers in LOCK; far training set shows locked. -/
  goodMarkers : Nat
  farLocked : Bool
  /-- What the far end's last training set says of precoding: it asks this transmitter to precode; its own transmitter will (R242). -/
  farAsk : Bool
  farWill : Bool
  /-- In ALIGN: a marker has been received, and the hub's Q (R241). -/
  aligned : Bool
  qKnown : Bool
  /-- Valid seed for its rate (R244). -/
  seeded : Bool
  /-- Equaliser settings: CTLE, pre, main, post. -/
  eqSet : Nat
  /-- Receive descrambler state S and previous precoded index (R217, R220). -/
  rxS : Nat
  rxPrev : Nat
  /-- Marker counter last received, markers missing in succession (R222, R235). -/
  rxMarker : Nat
  rxMarkerKnown : Bool
  missing : Nat
  /-- A codeword slot that carries a marker, and the counter of that marker (R222): slot k of a rate begins k codeword times after the
  start of ticks. -/
  txMarker : Nat
  epoch : Nat
  /-- The slot of the marker with which the lane took up service (R241). -/
  base : Nat
  /-- Ticks of the uncorrectable codewords of the last 1 ms, upstream and as the hub reports them for downstream; corrected
  symbols of the last 1 ms; fec_warn exceeded and reported (R235, R254). -/
  uncorrAt : List Nat
  hubUncorrAt : List Nat
  corrAt : List (Nat × Nat)
  fecWarned : Bool
  /-- corr and uncorr of the last upstream marker (LINK_HUB_FEC). -/
  hubCorr : Nat
  hubUncorr : Nat
  /-- Q from the last upstream marker; from the far end's training set in ALIGN. -/
  hubQ : Nat
  trainQ : Nat
  skew : Nat
  trainTime : Nat
  fifo : List DotPkt
  /-- A packet was queued on the partner while this FIFO had no room for it (R237). -/
  missed : Bool
  /-- Sequence number of the last DOT packet that left on the lane (LINK_SEQ). -/
  lastSeq : Nat
  ins : List InsPkt
  /-- Upstream stream bytes not yet forming a whole packet; resynchronising to `first` (R223). -/
  rxBuf : List Byte
  rxResync : Bool
  deriving DecidableEq, Repr, Inhabited

/-- An outstanding CFG or STAT (R252). order names the BAR_CFG descriptor; dev is true for the device's own writes
(nozzle tests). -/
structure HubReq where
  ctag : Nat
  isStat : Bool
  bars : Nat
  acked : Nat
  naked : Nat
  tries : Nat
  since : Nat
  order : Nat
  dev : Bool
  dest : Nat
  pkt : List Byte
  /-- A reset of the host interface has come since: its reply writes nothing to the host (R32). -/
  mute : Bool
  deriving DecidableEq, Repr, Inhabited

/-- Bar side of the link. -/
structure LinkBar where
  ds : Sleep
  us : Sleep
  /-- Tick since which the bar has been DISARMED; since which its source wheel has stood still far from an image (R246, R247). -/
  offSince : Nat
  farSince : Option Nat
  /-- A BAR_CFG WAKE overrides the automatic sleep of a direction until its condition begins anew (R252). -/
  dsOver : Bool
  usOver : Bool
  /-- SLEEP naming downstream is queued or in flight; a cause to wake has arisen since; end of the last codeword that carries it
  (R245, R248). -/
  dsPending : Bool
  dsRewake : Bool
  dsEnd : Option Nat
  /-- Tick at which the downstream last fell asleep. -/
  sleptAt : Nat
  /-- Ticks at which the wakes of downstream and upstream were decided. -/
  wakeSince : Nat
  usWakeAt : Nat
  /-- A SLEEP naming upstream has been sent and the hub has not yet slept it. -/
  usPending : Bool
  /-- SYNC waits for the upstream to wake (R247). -/
  syncWait : Bool
  /-- DOT sequence numbers, left and right (R232): number of the next packet. -/
  seqLeft : Nat
  seqRight : Nat
  /-- DOT packets for which no transmit FIFO of their half-bar has room yet, the oldest first (R12). -/
  dots : List DotPkt
  /-- Last ctags used with the bar, newest first: each is answered once per lane (R249). -/
  ctags : List Nat
  /-- The left, the right half-bar has lost its last lane in service and regained none (R235, R236). -/
  down : List Bool
  deriving DecidableEq, Repr, Inhabited

/-- A BAR_CFG TRAIN under way. -/
structure TrainReq where
  order : Nat
  bars : Nat
  deriving DecidableEq, Repr, Inhabited

/-- A BAR_CFG SLEEP or WAKE that is not yet done: its bars, the directions named, and whether it wakes. -/
structure SleepReq where
  order : Nat
  bars : Nat
  dirs : Nat
  wake : Bool
  deriving DecidableEq, Repr, Inhabited

/-- The link. -/
structure Link where
  lanes : List Lane
  bars : List LinkBar
  reqs : List HubReq
  trains : List TrainReq
  sleeps : List SleepReq
  /-- The last ctag given out (R229). -/
  ctag : Nat
  deriving DecidableEq, Repr

/-- Lane n after reset. -/
def Lane.reset (n : Nat) : Lane :=
  { tstate := .off, rate := 0, secondPass := false, wanted := 0, preTx := false, preRx := false, inPair := false,
    preferred := false, cause := 0, tries := 0, since := 0, began := 0, awaiting := false, rejoining := false,
    farRates := 0, goodMarkers := 0, farLocked := false, farAsk := false, farWill := false, aligned := false, qKnown := false,
    seeded := false,
    eqSet := 0, rxS := 0x2A5A5A00 + n, rxPrev := 0, rxMarker := 0, rxMarkerKnown := false, missing := 0, txMarker := 0,
    epoch := 0, base := 0, uncorrAt := [], hubUncorrAt := [], corrAt := [], fecWarned := false, hubCorr := 0, hubUncorr := 0,
    hubQ := 0, trainQ := 0, skew := 0, trainTime := 0, fifo := [], missed := false, lastSeq := 0, ins := [], rxBuf := [], rxResync := true }

/-- Bar side of the link after reset. -/
def LinkBar.reset : LinkBar :=
  { ds := .awake, us := .awake, offSince := 0, farSince := none, dsOver := false, usOver := false, dsPending := false,
    dsRewake := false, dsEnd := none, sleptAt := 0, wakeSince := 0, usWakeAt := 0, usPending := false,
    syncWait := false, seqLeft := 0, seqRight := 0, dots := [], ctags := [], down := [false, false] }

/-- The link after reset: every lane OFF. -/
def Link.reset : Link :=
  { lanes := (List.range 32).map Lane.reset, bars := List.replicate 8 LinkBar.reset, reqs := [], trains := [],
    sleeps := [], ctag := 0 }

end Sys2Proof.Machine
end

