-- ==== Sys2Proof/Machine/StateMbx.lean ====
section
/-! DEFINITION. State of the control cores, mailboxes and stiles (R450 to R467). -/

set_option Elab.async false

namespace Sys2Proof.Machine

/-- State of a mailbox (R455). -/
inductive MbxState
  | empty | posted | done
  deriving DecidableEq, Repr, Inhabited

/-- One mailbox. -/
structure Mailbox where
  state : MbxState
  orphan : Bool
  aborted : Bool
  ptr : Nat
  tag : Nat
  sender : Nat
  result : Nat
  /-- Tick of the post; the receiver has read MBX_STATE since; FS098 raised for the notice (R457). -/
  postedAt : Nat
  seen : Bool
  late : Bool
  deriving DecidableEq, Repr, Inhabited

/-- One stile: its owner (0 none), since when, and FS099 raised for the holding (R463). -/
structure Stile where
  owner : Nat
  since : Nat
  said : Bool
  deriving DecidableEq, Repr, Inhabited

/-- Staging registers and last post of one agent (R453). -/
structure Stage where
  ptrLo : Nat
  ptrHi : Nat
  tag : Nat
  result : Nat
  mailbox : Nat
  deriving DecidableEq, Repr, Inhabited

/-- One core. -/
structure Core where
  run : Bool
  /-- MBX_CORE_STAT cause of the last reset. -/
  cause : Nat
  /-- Watchdog period in ms, 0 off. -/
  watchdog : Nat
  /-- Wake line. -/
  wake : Bool
  deriving DecidableEq, Repr, Inhabited

/-- Mailboxes, stiles and cores. -/
structure Mbx where
  boxes : List Mailbox
  stiles : List Stile
  /-- Banks of agents 0 to 6. -/
  stages : List Stage
  cores : List Core
  deriving DecidableEq, Repr

/-- A mailbox after reset: EMPTY. -/
def Mailbox.reset : Mailbox := ⟨.empty, false, false, 0, 0, 0, 0, 0, false, false⟩

/-- Mailboxes, stiles and cores after a device reset. -/
def Mbx.reset : Mbx :=
  { boxes := List.replicate 16 Mailbox.reset, stiles := List.replicate 8 ⟨0, 0, false⟩,
    stages := List.replicate 7 ⟨0, 0, 0, 0, 0⟩, cores := List.replicate 4 ⟨false, 0, 0, false⟩ }

end Sys2Proof.Machine
end

