-- ==== Sys2Proof/Machine/StateMem.lean ====
section
/-! DEFINITION. State of the DRAM controllers and the Paddock allocator (R335 to R362). Sets of pages are lists of
runs (first page, number of pages), rising and not touching. -/

set_option Elab.async false

namespace Sys2Proof.Machine

/-- MEMC_STATUS.state. -/
inductive ChState
  | off | training | active | selfRefresh | failed
  deriving DecidableEq, Repr, Inhabited

/-- Class of a DRAM request (R337). -/
inductive ReqClass
  | scan | ring | fetch | stage | aux | core | maint
  deriving DecidableEq, Repr, Inhabited

/-- What a requester still asks of DRAM: the 64-byte columns from one device address to another, read or written; for scan-out the
half-bar, 2 b + h, whose packets need them. -/
structure DramRun where
  cls : ReqClass
  write : Bool
  next : Nat
  stop : Nat
  half : Option Nat
  deriving DecidableEq, Repr, Inhabited

/-- A request in a channel queue: one column, and the tick at which it entered. -/
structure DramReq where
  cls : ReqClass
  write : Bool
  addr : Nat
  at_ : Nat
  half : Option Nat
  /-- How long refresh has stalled the channel since it entered, and will (R338). -/
  stalled : Nat
  deriving DecidableEq, Repr, Inhabited

/-- A command that a channel has issued, as its retry buffer keeps it (R345). -/
inductive DramCmd
  | activate (bank row : Nat) | precharge (bank : Nat) | prechargeAll | column (write : Bool) (addr : Nat) | refresh | zqcs | mprRead
  deriving DecidableEq, Repr, Inhabited

/-- An open row of a bank and the tick of its last access (R339). -/
structure OpenRow where
  bank : Nat
  row : Nat
  at_ : Nat
  deriving DecidableEq, Repr, Inhabited

/-- One DRAM channel. -/
structure Channel where
  state : ChState
  /-- Position in the interleave of R336. -/
  k : Nat
  owed : Nat
  /-- tREFI is 3.9 µs. -/
  hot : Bool
  /-- Tick until which postponement is disabled (R343). -/
  noPostUntil : Nat
  /-- Tick at which the next REF falls due. -/
  refAt : Nat
  /-- Tick of the last retry (R345). -/
  retryAt : Option Nat
  /-- Ticks of the parity errors of the last 1 ms, newest first (R345). -/
  parityAt : List Nat
  /-- Ticks of the correctable errors of the last second, newest first; FS024 raised since their number was last within ce_limit
  (R346). -/
  ceAt : List Nat
  ceSaid : Bool
  errAddr : Nat
  errUe : Bool
  trainMs : Nat
  seeded : Bool
  /-- Last MPR range read (0, 1, 2), and that the last readout failed (R341). -/
  mpr : Nat
  mprFailed : Bool
  mprAt : Nat
  zqAt : Nat
  /-- The last command but for calibration and readout was a single REF issued when due (R344). -/
  single : Bool
  /-- Tick until which refresh stalls the channel (R340). -/
  stallTo : Nat
  /-- The channel queue, in order of entry, and the rows that are open (R338, R339). -/
  queue : List DramReq
  rows : List OpenRow
  /-- The last sixteen commands issued, newest first: the retry buffer (R345). -/
  issued : List DramCmd
  /-- Columns of the corrected words that wait to be written back, sixteen at most (R346). -/
  fixes : List Nat
  /-- Column accesses since the last sample of the thermal model (R403). -/
  accesses : Nat
  deriving DecidableEq, Repr, Inhabited

/-- The DRAM controllers. -/
structure Memc where
  channels : List Channel
  /-- Training has ended on every enabled channel; tick at which it began; MEMC_GEOM as training takes it (R536). -/
  trained : Bool
  trainAt : Nat
  geom : Nat
  /-- Channels in the interleave. -/
  n : Nat
  inSr : Bool
  /-- The commit point of an entry under way; the tick at which a request has begun the exit (R351). -/
  srAt : Option Nat
  srWake : Option Nat
  /-- Tick since which no request was queued or in flight. -/
  idleSince : Nat
  /-- Tick at which the wipe began; pages wiped so far; wipe complete (R354). -/
  wipeAt : Option Nat
  wiped : Nat
  wipeDone : Bool
  /-- Addresses of words that stay poisoned until written (R348). -/
  poisoned : List Nat
  /-- Words whose test is due (R348). -/
  wordTests : List Nat
  /-- Patrol scrub: next page, tick at which the pass began, FS025 raised in the pass. -/
  scrubPage : Nat
  scrubSince : Nat
  scrubLate : Bool
  /-- The board node stands above 95 °C (R341). -/
  over95 : Bool
  /-- The requesters whose columns have not all entered a queue, in the order of their requests (R338). -/
  runs : List DramRun
  deriving DecidableEq, Repr

/-- Who asks Paddock for a region. -/
inductive PHolder
  | ringOf (bar : Nat) | repeatStore | grazeCopy | stage (order : Nat) | remap (order : Nat) | stats (ctx : Nat) | coverage
  | covStore | grazeCov
  /-- The landing buffer of a STREAMED layer. -/
  | landing (order : Nat)
  /-- The coverage ring of a JOB_OPEN under way. -/
  | covOpen | tally | dflSave | core (n : Nat) | sec
  /-- A slot of the LYP store (R479). -/
  | lyp (slot : Nat)
  deriving DecidableEq, Repr, Inhabited

/-- A region held. -/
structure Region where
  id : Nat
  quota : Nat
  holder : PHolder
  runs : List (Nat × Nat)
  deriving DecidableEq, Repr, Inhabited

/-- A request that waits (R357). -/
structure PReq where
  quota : Nat
  pages : Nat
  holder : PHolder
  at_ : Nat
  deriving DecidableEq, Repr, Inhabited

/-- Paddock. -/
structure Paddock where
  free : List (Nat × Nat)
  /-- Freed pages awaiting zeroing. -/
  dirty : List (Nat × Nat)
  regions : List Region
  nextId : Nat
  waiting : List PReq
  /-- Retired pages: page, and whether the free of its region is awaited. -/
  retired : List (Nat × Bool)
  deriving DecidableEq, Repr

/-- A channel after reset. -/
def Channel.reset : Channel :=
  { state := .off, k := 0, owed := 0, hot := false, noPostUntil := 0, refAt := 0, retryAt := none,
    parityAt := [], ceAt := [], ceSaid := false, errAddr := 0, errUe := false,
    trainMs := 0, seeded := false, mpr := 0, mprFailed := false, mprAt := 0, zqAt := 0, single := false, stallTo := 0, queue := [], rows := [], issued := [], fixes := [], accesses := 0 }

/-- The DRAM controllers after reset: not trained. -/
def Memc.reset : Memc :=
  { channels := List.replicate 8 Channel.reset, trained := false, trainAt := 0, geom := 16712192, n := 0, inSr := false, srAt := none, srWake := none,
    idleSince := 0, wipeAt := none, wiped := 0, wipeDone := false, poisoned := [], wordTests := [], scrubPage := 0, scrubSince := 0, scrubLate := false,
    over95 := false, runs := [] }

/-- Paddock after reset: no page wiped, no region held. -/
def Paddock.reset : Paddock :=
  { free := [], dirty := [], regions := [], nextId := 0, waiting := [], retired := [] }

end Sys2Proof.Machine
end

