-- ==== Sys2Proof/Machine/StateNet.lean ====
section
/-! DEFINITION. State of device time, the servo, snapshots' schedule and the network ports (R381 to R394). -/

set_option Elab.async false

namespace Sys2Proof.Machine

/-- Servo state (R388). -/
inductive Servo
  | free | acquire | locked | holdover
  deriving DecidableEq, Repr, Inhabited

/-- A timestamp held for C3 (R384). -/
structure Stamp where
  time : Nat
  msgType : Nat
  domain : Nat
  seqId : Nat
  deriving DecidableEq, Repr, Inhabited

/-- One port. -/
structure Port where
  link : Bool
  blockLock : Bool
  anDone : Bool
  rx : List Stamp
  tx : List Stamp
  /-- Frames kept and delivered to C3, newest last: octets after the tag is removed. -/
  inbox : List (List Byte)
  deriving DecidableEq, Repr, Inhabited

/-- Time and network. -/
structure Net where
  /-- Extended time (R385): wrap count × 2^32 + device time. -/
  ext : Nat
  servo : Servo
  i : Int
  f : Int
  acquired : Bool
  stepped : Bool
  /-- Consecutive accepted offsets within lock_ns, and beyond it. -/
  good : Nat
  bad : Nat
  lastOffset : Int
  /-- Tick of the last offset written (R388: no offset for hold_ms). -/
  offsetAt : Nat
  offLo : Nat
  offHi : Nat
  /-- The armed snapshot target (R390), as extended time. -/
  target : Option Nat
  /-- NET_SNAP_LAST and the flags of the last strobe. -/
  lastStrobe : Nat
  fUnlocked : Bool
  fStepped : Bool
  fSched : Bool
  fNow : Bool
  /-- Ceiling message: number of the next frame, tick of the last frame sent for a cause, tick of the last frame, a
  cause waiting and its tick (R391). -/
  ceilSeq : Nat
  ceilSent : Bool
  ceilCauseAt : Option Nat
  ceilLastAt : Nat
  ceilWait : Option Nat
  ports : List Port
  deriving DecidableEq, Repr

/-- A port after reset. -/
def Port.reset : Port := ⟨false, false, false, [], [], []⟩

/-- Time and network after reset: both counts start from 0 (R385), the servo is FREE (R388). -/
def Net.reset : Net :=
  { ext := 0, servo := .free, i := 0, f := 0, acquired := false, stepped := false, good := 0, bad := 0, lastOffset := 0,
    offsetAt := 0, offLo := 0, offHi := 0, target := none, lastStrobe := 0, fUnlocked := false,
    fStepped := false, fSched := false, fNow := false, ceilSeq := 0, ceilSent := false, ceilCauseAt := none,
    ceilLastAt := 0, ceilWait := none, ports := [Port.reset, Port.reset] }

end Sys2Proof.Machine
end

