-- ==== Sys2Proof/Machine/StateNozzle.lean ====
section
/-! DEFINITION. State of nozzle health: status maps, sweeps, re-fire queues, element checks (R257 to R278). -/

set_option Elab.async false

namespace Sys2Proof.Machine

/-- Status of a nozzle (R257) and its lasting count. -/
structure NzStat where
  status : Nat
  lasting : Nat
  deriving DecidableEq, Repr, Inhabited

/-- Why an entry is queued for a re-fire: a sweep (R266), a streak group (R269), a RETEST descriptor (R272). -/
inductive Purpose
  | sweep
  | streak (id : Nat)
  | retest (order : Nat)
  deriving DecidableEq, Repr, Inhabited

/-- A queued re-fire. -/
structure Refire where
  half : Nat
  entry : Nat
  zeros : Nat
  why : Purpose
  deriving DecidableEq, Repr, Inhabited

/-- A gate batch sent to the hub: its number, whether it is a list, the entries of a list, the row, first subset and
count of a sweep, its first and last test tick, and the entries of a list that have been reported. -/
structure Batch where
  num : Nat
  isList : Bool
  entries : List Refire
  row : Nat
  first : Nat
  n : Nat
  tick0 : Int
  lastTick : Int
  /-- Ticks between its firings; subsets of a row, as they stood when it was sent. -/
  space : Nat
  stride : Nat
  /-- Its last test tick has been issued. -/
  fired : Bool
  seen : List Nat
  deriving DecidableEq, Repr, Inhabited

/-- An element check under way (R267, R268): batch number, list batch; the entries (half and entry) that the list batch
names, those still to be measured once more, those found outside twice, those within the margin, and all measured. -/
structure ImpBatch where
  num : Nat
  isList : Bool
  listed : List (Nat × Nat)
  todo : List (Nat × Nat)
  bad : List (Nat × Nat)
  margin : List (Nat × Nat)
  measured : List (Nat × Nat)
  /-- ABORT has been sent for it. -/
  aborted : Bool
  /-- It measures again what an aborted check has left. -/
  rest : Bool
  /-- The RETEST for which it was asked (R267), if that is what asked for it. -/
  serves : Option Nat
  deriving DecidableEq, Repr, Inhabited

/-- An entry that a RETEST covers (R272). -/
structure RetestEntry where
  entry : Nat
  /-- The element has been judged, and is within the limits and outside the margin. -/
  judged : Bool
  good : Bool
  /-- Re-fires decided, and all of them TRANSIENT. -/
  fires : Nat
  clean : Bool
  deriving DecidableEq, Repr, Inhabited

/-- A RETEST that is not yet decided (R272). -/
structure Retest where
  order : Nat
  bar : Nat
  half : Nat
  entries : List RetestEntry
  returned : Nat
  deriving DecidableEq, Repr, Inhabited

/-- A streak's group of re-fires (R269). -/
structure Streak where
  id : Nat
  left : Nat
  clean : Bool
  deriving DecidableEq, Repr, Inhabited

/-- Nozzle state of a half-bar. -/
structure NzHalf where
  map : List NzStat
  /-- Status maps that wait, the oldest first, with the place of the descriptor in the order of reading. -/
  wait : List (Bind × Nat × List NzStat)
  /-- The penned count is above pen_limit and has been reported. -/
  penSaid : Bool
  deriving DecidableEq, Repr, Inhabited

/-- Nozzle state of a bar. -/
structure NzBar where
  queue : List Refire
  row : Nat
  subset : Nat
  sweepTime : Nat
  /-- Tick at which the last sweep completed, or the bar was armed. -/
  sweepAt : Nat
  staleSaid : Bool
  /-- The batches of the present gap: running or waiting for reports; the sweep batch to send once the list batch is
  acknowledged. -/
  batches : List Batch
  sweepNext : Option Batch
  nextBatch : Nat
  /-- TEST_STAT at the last read. -/
  gate : Bool
  canMeasure : Bool
  gateSaid : Bool
  /-- The element checks of the bar that are wanted (R267), the oldest first: each for a RETEST, or for something else. -/
  impWant : List (Option Nat)
  imp : Option ImpBatch
  /-- An aborted batch whose report is still to come, and the entries that are to be measured once more at the next idle. -/
  impOld : Option ImpBatch
  impRest : List (Nat × Nat)
  deriving DecidableEq, Repr, Inhabited

/-- A spare in use stands for a nozzle of its bar (R259): half and entry of both. -/
structure StandIn where
  bar : Nat
  half : Nat
  entry : Nat
  ofHalf : Nat
  ofEntry : Nat
  deriving DecidableEq, Repr, Inhabited

/-- Nozzle health. -/
structure Nozzle where
  halves : List NzHalf
  bars : List NzBar
  retests : List Retest
  standIns : List StandIn
  streaks : List Streak
  nextStreak : Nat
  /-- JET_NH_LAST. -/
  last : Nat
  /-- Changes not yet in the MRAM snapshot, and the tick of the last snapshot (R274). -/
  changed : Bool
  snapAt : Nat
  deriving DecidableEq, Repr

/-- Nozzle state of a half-bar after reset. -/
def NzHalf.reset : NzHalf := ⟨[], [], false⟩

/-- Nozzle state of a bar after reset. -/
def NzBar.reset : NzBar :=
  { queue := [], row := 0, subset := 0, sweepTime := 0, sweepAt := 0, staleSaid := false, batches := [],
    sweepNext := none, nextBatch := 1, gate := false, canMeasure := false, gateSaid := false, impWant := [],
    imp := none, impOld := none, impRest := [] }

/-- Nozzle health after reset. -/
def Nozzle.reset : Nozzle :=
  { halves := List.replicate 16 NzHalf.reset, bars := List.replicate 8 NzBar.reset, retests := [], standIns := [], streaks := [],
    nextStreak := 0, last := 0, changed := false, snapAt := 0 }

end Sys2Proof.Machine
end

