-- ==== Sys2Proof/Machine/StatePower.lean ====
section
/-! DEFINITION. State of the power domains, the thermal model, VCORE and the Drover (R395 to R424). -/

set_option Elab.async false

namespace Sys2Proof.Machine

/-- State of a domain (R395); `up` is on its way to ON (SYS_PD_STAT 3, changing). -/
inductive PState
  | on | retain | off | up
  deriving DecidableEq, Repr, Inhabited

/-- A domain: its state, a requested state that waits for the work in flight to end (R397), and the tick at which its
power-up began (R399). -/
structure Domain where
  state : PState
  want : Option PState
  since : Nat
  /-- Work waits for the domain (R398). -/
  waiting : Bool
  /-- The domain has been OFF since it was last ON: its contents are lost (R395). -/
  lost : Bool
  deriving DecidableEq, Repr, Inhabited

/-- Throttle state (R411). -/
inductive Throttle
  | normal | throttle | recover
  deriving DecidableEq, Repr, Inhabited

/-- The thermal model and VCORE. Temperatures are in 1/64 °C. -/
structure Therm where
  nodes : List Int
  tj : Int
  tjNode : Nat
  started : Bool
  /-- Tick of the last sample. -/
  sampleAt : Nat
  /-- Payload of the thermal parameter record in force; none: the built-in parameters (R406). -/
  record : Option (List Byte)
  warn : Bool
  /-- The THROTTLE threshold is set. -/
  hot : Bool
  throttle : Throttle
  shutdown : Bool
  relRefused : Bool
  /-- FS073 has been raised for this entry. -/
  floorSaid : Bool
  ref : Int
  refValid : Bool
  refStale : Bool
  refAt : Nat
  /-- The host has written THERM_REF_HOST since it was last read (R405). -/
  hostRef : Bool
  /-- Tick of the last reading of the reference (R405). -/
  refRead : Option Nat
  /-- The check sensor at the last sample, since when it has differed from its node, and FS074 raised for it (R407). -/
  check : Int
  divergeSince : Option Nat
  divergeSaid : Bool
  /-- Power of each domain in mW (0xFFFFFF: monitor failed), mean of the last 62.5 µs; its sums and their number since the last
  sample of the model (R402, R404). -/
  power : List Nat
  powSum : List Nat
  powN : Nat
  /-- Busy microseconds of the engine quarters since the last sample (R403). -/
  busy : List Nat
  /-- Tick of the last THERM entry (R509). -/
  recAt : Option Nat
  /-- VCORE: commanded, present and last READ_VOUT, mV; PMBus in use; a step under way: target and tick of its
  acknowledgement; failures of the present write; tick of the last step; tick of the last READ_VOUT; exponent of LINEAR16. -/
  commanded : Nat
  present : Nat
  readVout : Nat
  pmbOn : Bool
  step : Option (Nat × Nat)
  tries : Nat
  stepAt : Nat
  voutAt : Nat
  expo : Int
  deriving DecidableEq, Repr

/-- Who asks the Drover, and for what (R416). -/
inductive Holder
  | lane (n : Nat) | selfTest (source target : Nat) | graze | cal (port : Nat) | upload (port : Nat) | dfl (ctx : Nat)
  | scrub | firmware (core : Nat)
  deriving DecidableEq, Repr, Inhabited

/-- A request waiting at the Drover. -/
structure DReq where
  cls : Nat
  tokens : Nat
  holder : Holder
  at_ : Nat
  order : Nat
  warned : Bool
  deriving DecidableEq, Repr, Inhabited

/-- A grant not yet returned. -/
structure DGrant where
  cls : Nat
  tokens : Nat
  holder : Holder
  since : Nat
  longSaid : Bool
  deriving DecidableEq, Repr, Inhabited

/-- Power control. -/
structure Power where
  domains : List Domain
  /-- SYS_PD_REFUSE: cause and domain. -/
  refuseCause : Nat
  refuseDomain : Nat
  inShelf : Bool
  /-- SYS_SHELF_STAT. -/
  shelfEntry : Nat
  /-- A Shelf entry waits for the MRAM writes in CAL (R400). -/
  shelfWait : Bool
  pwrOn : Bool
  queue : List DReq
  grants : List DGrant
  nextOrder : Nat
  /-- Tick since which device power has exceeded the budget; FS081 raised for it. -/
  overSince : Option Nat
  overSaid : Bool
  deriving DecidableEq, Repr

/-- A domain that is ON. -/
def Domain.reset : Domain := ⟨.on, none, 0, false, false⟩

/-- The thermal model after reset: no history (R409), throttle NORMAL (R411). -/
def Therm.reset : Therm :=
  { nodes := List.replicate 16 3200, tj := 3200, tjNode := 0, started := false, sampleAt := 0,
    record := none, warn := false, hot := false, throttle := .normal,
    shutdown := false, relRefused := false, floorSaid := false, ref := 3200, refValid := false, refStale := false,
    refAt := 0, hostRef := false, refRead := none, check := 0, divergeSince := none, divergeSaid := false, power := List.replicate 10 0, powSum := List.replicate 10 0, powN := 0,
    busy := [0, 0, 0, 0], recAt := none, commanded := 0, present := 0, readVout := 0, pmbOn := false, step := none, tries := 0, stepAt := 0, voutAt := 0,
    expo := 0 }

/-- Power control after reset: every domain ON. -/
def Power.reset : Power :=
  { domains := List.replicate 10 Domain.reset, refuseCause := 0, refuseDomain := 0, inShelf := false, shelfEntry := 0,
    shelfWait := false, pwrOn := true, queue := [], grants := [], nextOrder := 0, overSince := none, overSaid := false }

end Sys2Proof.Machine
end

