-- ==== Sys2Proof/Machine/StateSec.lean ====
section
/-! DEFINITION. State of the security functions: life-cycle latch, tokens, secure boot, keys, the store of the
protected layer, debug scopes (R468 to R487). -/

set_option Elab.async false

namespace Sys2Proof.Machine

/-- Life-cycle state (R468). -/
inductive Lc
  | blank | factory | provisioned | field | rma | scrap
  deriving DecidableEq, Repr, Inhabited

/-- A slot of the LYP store (R479, R480). -/
structure LypSlot where
  slot : Nat
  image : Nat
  count : Nat
  x0 : Nat
  y0 : Nat
  w : Nat
  h : Nat
  marginX : Nat
  marginY : Nat
  keep : Nat
  format : Nat
  spot : Nat
  data : List Byte
  /-- It belongs to the job that was open when C0 read it; otherwise to the next job opened. -/
  owned : Bool
  /-- Images done or passed over. -/
  ended : List Nat
  deriving DecidableEq, Repr, Inhabited

/-- Security. -/
structure Sec where
  lc : Lc
  /-- A transition is pending to this state. -/
  pendingLc : Option Lc
  tamper : Bool
  /-- A token is being checked; its 384 bytes come with TOKEN_DONE. -/
  busy : Bool
  /-- Its read waits until a ring is enabled (R32); its read has failed (R556). -/
  readDue : Bool
  readLost : Bool
  step : Nat
  status : Nat
  /-- 32 bytes of SEC_NONCE. -/
  nonce : List Byte
  /-- Scope open (R482) and the tick at which it closes. -/
  scope : Nat
  scopeEnd : Nat
  /-- Tick at which the REPLAY session ends (R519). -/
  session : Option Nat
  lyp : List LypSlot
  /-- Unwrapped mark keys by slot, and KPROV. -/
  markKeys : List (Nat × List Byte)
  kprov : Option (List Byte)
  /-- SEC_BOOT: last rejection, component, recovery mode, slot B bits, accepted bits. -/
  rejCause : Nat
  rejComp : Nat
  recovery : Bool
  slotB : List Bool
  accepted : List Bool
  /-- svn of the running images. -/
  svnRun : List Nat
  /-- TRNG health tests are failing (R477). -/
  trngFail : Bool
  /-- A recovery image is being loaded. -/
  loading : Bool
  deriving DecidableEq, Repr

/-- Security after a device reset; the latch (life-cycle, pending mark, tamper) is kept by a reset (R532). -/
def Sec.reset (lc : Lc) (pend : Option Lc) (tamper : Bool) : Sec :=
  { lc := lc, pendingLc := pend, tamper := tamper, busy := false, readDue := false, readLost := false, step := 0, status := 0,
    nonce := List.replicate 32 0, scope := 0, scopeEnd := 0, session := none, lyp := [], markKeys := [], kprov := none,
    rejCause := 0, rejComp := 0, recovery := false, slotB := List.replicate 4 false,
    accepted := List.replicate 4 false, svnRun := [0, 0, 0, 0], trngFail := false, loading := false }

end Sys2Proof.Machine
end

