-- ==== Sys2Proof/Machine/StateSee.lean ====
section
/-! DEFINITION. State of the camera ports, contexts and pipelines (R279 to R307). -/

set_option Elab.async false

namespace Sys2Proof.Machine

/-- A completed exposure generation not yet in force (R287). -/
structure Gen where
  gen : Nat
  exposure : Nat
  tw : Nat
  deriving DecidableEq, Repr, Inhabited

/-- A camera line in a port FIFO: its number in the frame, its pixels before unpacking, its bytes, the web position w of
R292 (sublines). -/
structure CamLine where
  number : Nat
  pixels : List Nat
  bytes : Nat
  w : Int
  deriving DecidableEq, Repr, Inhabited

/-- A line held in the line history of a context: its values after step 4, and whether it has passed the later steps. -/
structure HistLine where
  number : Nat
  vals : List Nat
  w : Int
  /-- Dynamic replacements on the line (R290). -/
  dpc : Nat
  done : Bool
  deriving DecidableEq, Repr, Inhabited

/-- Sums of one cell and class (R294). -/
structure CellSum where
  cell : Nat
  cls : Nat
  r : Nat
  g : Nat
  b : Nat
  count : Nat
  deriving DecidableEq, Repr, Inhabited

/-- A streak candidate (R296): ink, first and last camera column. -/
structure StreakSpan where
  ink : Nat
  first : Nat
  last : Nat
  deriving DecidableEq, Repr, Inhabited

/-- Sums of the class pixels of one camera column and ink (R296). -/
structure ColSum where
  ink : Nat
  col : Nat
  sum : Nat
  count : Nat
  deriving DecidableEq, Repr, Inhabited

/-- The statistics record being accumulated (R294). -/
structure Rec where
  split : Bool
  image : Option Nat
  lineFirst : Nat
  lineLast : Nat
  lines : Nat
  dpc : Nat
  cells : List CellSum
  /-- Histogram counts: channel × 256 + bin, count. -/
  hist : List (Nat × Nat)
  /-- Dark pixels of the mark detector: camera line, column. -/
  dark : List (Nat × Nat)
  /-- Marks that earlier records of the frame hold (R295). -/
  marksBefore : Nat
  /-- Camera lines of the record, and those of an earlier one that a mark still open spans: number, w, image line. -/
  seen : List (Nat × Int × Nat)
  cols : List ColSum
  deriving DecidableEq, Repr, Inhabited

/-- An upload item that waits for its compression (R298, R398): what its header names, and its bytes before compression. -/
structure UpItem where
  tap : Nat
  wrap : Nat
  level : Nat
  fseq : Nat
  gen : Nat
  fsTime : Nat
  data : List Byte
  deriving DecidableEq, Repr, Inhabited

/-- One port and its context. -/
structure CamPort where
  enabled : Bool
  lanes : Nat
  dtype : Nat
  vc : Nat
  columns : Nat
  frameLines : Nat
  bus : Nat
  addr : Nat
  fseq : Nat
  gen : Nat
  pendingGens : List Gen
  inFrame : Bool
  truncated : Bool
  /-- A line of the frame was discarded, or the frame ended short (R281). -/
  lineErr : Bool
  /-- Tick from which silence is judged, and device time of the last FS. -/
  fsAt : Nat
  fsTime : Nat
  silent : Bool
  /-- Lines accepted since FS. -/
  lineNo : Nat
  fifo : List CamLine
  temp : Int
  tempAt : Nat
  /-- Upload area (R299): its pages, their size code, its length; next item number; offset after the last item. -/
  upPages : List Nat
  upSize : Nat
  upLen : Nat
  upSeq : Nat
  upOff : Nat
  /-- The present frame: whether it is uploaded, once its first line has reached the tap (R298), and its payload. -/
  upTake : Option Bool
  upData : List Byte
  /-- Items that wait for DFL to be ON, oldest first. -/
  upWait : List UpItem
  /-- CONTEXT block, DEFECT and SHADING tables in force, and in the shadow with the tick at which each was held, newest last: a frame that
  starts in the instant of the newest takes the one before it (R301). -/
  block : Option (List Byte)
  blockWait : List (Nat × List Byte)
  defect : List Byte
  defectWait : List (Nat × List Byte)
  shading : List Byte
  shadingWait : List (Nat × List Byte)
  history : List HistLine
  record : Rec
  /-- Streak candidates of the last valid records, newest first (R296). -/
  candidates : List (List StreakSpan)
  /-- The statistics ring: the records that C2 has not released, oldest first (R297). -/
  stats : List (List Byte)
  deriving DecidableEq, Repr, Inhabited

/-- One pipeline. -/
structure Pipe where
  /-- Context of the line in process. -/
  ctx : Nat
  /-- Paces of the busy microseconds of the last 1,024 µs with their ticks, Mpx/s (R282). -/
  samples : List (Nat × Nat)
  deriving DecidableEq, Repr, Inhabited

/-- One I²C bus: EXPOSE_SET descriptors in the order read, the transaction in progress (R286). -/
structure I2c where
  queue : List Nat
  busy : Option Nat
  deriving DecidableEq, Repr, Inhabited

/-- Cameras. -/
structure See where
  ports : List CamPort
  pipes : List Pipe
  buses : List I2c
  deriving DecidableEq, Repr

/-- An empty record. -/
def Rec.empty : Rec :=
  { split := false, image := none, lineFirst := 0, lineLast := 0, lines := 0, dpc := 0,
    cells := [], hist := [], dark := [], marksBefore := 0, seen := [], cols := [] }

/-- A port after reset: not enabled. -/
def CamPort.reset : CamPort :=
  { enabled := false, lanes := 0, dtype := 0, vc := 0, columns := 0, frameLines := 0, bus := 0, addr := 0, fseq := 0,
    gen := 0, pendingGens := [], inFrame := false, truncated := false, lineErr := false, fsAt := 0, fsTime := 0, silent := false,
    lineNo := 0, fifo := [], temp := 0, tempAt := 0, upPages := [], upSize := 0, upLen := 0,
    upSeq := 0, upOff := 0, upTake := none, upData := [], upWait := [], block := none, blockWait := [],
    defect := [], defectWait := [], shading := [], shadingWait := [], history := [], record := Rec.empty,
    candidates := [], stats := [] }

/-- Cameras after reset. -/
def See.reset : See :=
  { ports := List.replicate 6 CamPort.reset, pipes := List.replicate 4 ⟨0, []⟩, buses := List.replicate 2 ⟨[], none⟩ }

end Sys2Proof.Machine
end

