-- ==== Sys2Proof/Machine/StateSys.lean ====
section
/-! DEFINITION. State of start-up: straps, reset cause, phases (R530 to R540). -/

set_option Elab.async false

namespace Sys2Proof.Machine

/-- The straps (R530). -/
structure Straps where
  boot : Nat
  pcie : Nat
  lane : Nat
  web : Bool
  therm : Bool
  test : Bool
  deriving DecidableEq, Repr, Inhabited

/-- Start-up. -/
structure Sys where
  straps : Straps
  /-- PORST_N is low. -/
  porst : Bool
  /-- Tick of the PORST_N edge, or of the device reset. -/
  edgeAt : Nat
  /-- SYS_RST_CAUSE.cause. -/
  cause : Nat
  sramWiped : Bool
  /-- C0 runs; C1 to C3 have been verified and started. -/
  c0 : Bool
  cores : Bool
  /-- KEY and BOOT records have been read. -/
  keysRead : Bool
  records : Bool
  ready : Bool
  /-- No channel trained. -/
  halted : Bool
  bootMs : Nat
  /-- The set-up lock (R538). -/
  lock : Bool
  /-- Tick at which a committed life-cycle transition resets the device at the latest (R470). -/
  lcReset : Option Nat
  /-- The register file as it stood before the present tick: what the hardware has set since then, it has set in the same instant
  as an access of this tick (R8). -/
  before : List (Nat × Nat)
  /-- W1C bits that the hardware has set in the present tick, whether they stood before or not: offset and mask (R8). -/
  raised : List (Nat × Nat)
  deriving DecidableEq, Repr

/-- The straps with nothing tied: the internal pull-downs read 0. -/
def Straps.none : Straps := ⟨0, 0, 0, false, false, false⟩

/-- Start-up after a device reset with the straps it keeps. -/
def Sys.reset (st : Straps) (cause at_ : Nat) : Sys :=
  { straps := st, porst := false, edgeAt := at_, cause := cause, sramWiped := false, c0 := false, cores := false, keysRead := false,
    records := false, ready := false, halted := false, bootMs := 0, lock := false, lcReset := Option.none,
    before := [], raised := [] }

end Sys2Proof.Machine
end

