-- ==== Sys2Proof/Machine/StateTally.lean ====
section
/-! DEFINITION. State of Tally: recording, journal, snapshots, replay (R509 to R529). -/

set_option Elab.async false

namespace Sys2Proof.Machine

/-- TALLY_STATUS.state; a replay is shown as halted while its clock is. -/
inductive TallyState
  | idle | recording | replay
  deriving DecidableEq, Repr, Inhabited

/-- One entry of the record (R509). -/
structure Entry where
  kind : Nat
  sub : Nat
  time : Nat
  payload : List Byte
  deriving DecidableEq, Repr, Inhabited

/-- A sealed chunk: its number, wrap count and flags, its entries, its stored bytes; poisoned in the journal. -/
structure Chunk where
  num : Nat
  wraps : Nat
  flags : Nat
  entries : List Entry
  bytes : List Byte
  /-- Where it begins in the journal's region. -/
  at_ : Nat
  poisoned : Bool
  deriving DecidableEq, Repr, Inhabited

/-- A snapshot bank: extended time of the strobe, and (offset, value) in ascending offset. -/
structure Bank where
  time : Nat
  vals : List (Nat × Nat)
  deriving DecidableEq, Repr, Inhabited

/-- The first divergence (TALLY_DIV registers). -/
structure Diverge where
  cause : Nat
  ink : Nat
  unit : Nat
  image : Nat
  line : Nat
  was : Nat
  now : Nat
  deriving DecidableEq, Repr, Inhabited

/-- Tally. -/
structure Tally where
  state : TallyState
  camFull : Bool
  wrap : Bool
  wrapped : Bool
  gap : Bool
  region : Nat
  pages : Nat
  chunks : List Chunk
  nextChunk : Nat
  exported : Nat
  /-- Entries of the open chunk, oldest first; tick of the first; wrap count at the first. -/
  opened : List Entry
  openedAt : Nat
  openedWraps : Nat
  /-- The dictionary that the open chunk's stream took (R378), and its level. -/
  openedDict : List Byte
  openedLevel : Nat
  /-- Chunks that are sealed and wait for the tokens under which they are compressed (R371), oldest first. -/
  late : List Chunk
  /-- Entries lost whose LOST entry is still to be placed. -/
  lost : Nat
  /-- Replay: entries still to be presented, the replay clock, tick at which it was last moved, tick since which it has
  been halted, EV246 raised, recorded outcomes that wait for their requester, stop_on_div, recorded rings, reach. -/
  play : List Entry
  clock : Nat
  /-- Replay: extended time of the latest entry presented. -/
  playAt : Nat
  haltedAt : Nat
  haltSaid : Bool
  expected : List Entry
  stopOnDiv : Bool
  rings : List Nat
  div : Diverge
  diverged : Bool
  banks : List Bank
  newest : Nat
  /-- The bank that software holds is bank 1 (TALLY_SNAP_CTRL.hold). -/
  held : Bool
  /-- A recorded REGWRITE is being applied in the name of agent 6 (R521). -/
  applying : Bool
  /-- Code of R376 of the chunk behind those that replay presents, 0 none. -/
  playErr : Nat
  deriving DecidableEq, Repr

/-- Tally after a device reset. -/
def Tally.reset : Tally :=
  { state := .idle, camFull := false, wrap := false, wrapped := false, gap := false, region := 0, pages := 0,
    chunks := [], nextChunk := 0, exported := 0, opened := [], openedAt := 0, openedWraps := 0, openedDict := [], openedLevel := 1, late := [], lost := 0, play := [],
    clock := 0, playAt := 0, haltedAt := 0, haltSaid := false, expected := [], stopOnDiv := false, rings := [],
    div := ⟨0, 0, 0, 0, 0, 0, 0⟩, diverged := false, banks := [⟨0, []⟩, ⟨0, []⟩], newest := 0, held := false, applying := false, playErr := 0 }

end Sys2Proof.Machine
end

