-- ==== Sys2Proof/Machine/State.lean ====
section
/-! DEFINITION. The whole state of the device, the two ways in which a command can stop, and the state after reset. -/

set_option Elab.async false

namespace Sys2Proof.Machine

/-- Faults of the model. -/
inductive Fault
  /-- A meaning whose command carries a list operand of a length the command cannot have (a doorbell page of other than
  64 doorbells, a descriptor of other than 64 bytes): safe, since no such command exists. -/
  | illFormed
  deriving DecidableEq, Repr

/-- Refusals of the model. -/
inductive Refusal
  /-- Raised by an arm of exec whose command has no meaning yet: safe, since nothing is claimed of it. -/
  | notModelled (mnemonic : String)
  deriving DecidableEq, Repr

/-- The state of the device, the queue of commands that wait for it, and the log of what it has put out. -/
structure State where
  /-- Ticks of the 1 GHz tick since the last device reset. -/
  now : Nat
  /-- The register file: (BAR0 offset, value), strictly rising, only where the value differs from the reset value. -/
  regs : List (Nat × Nat)
  sys : Sys
  hif : Hif
  fold : Fold
  crook : Crook
  power : Power
  therm : Therm
  memc : Memc
  paddock : Paddock
  dfl : Dfl
  mbx : Mbx
  sec : Sec
  cal : Cal
  tally : Tally
  net : Net
  bell : Bell
  lay : Lay
  ink : Ink
  jet : Jet
  link : Link
  nozzle : Nozzle
  see : See
  hold : Hold
  /-- The model's own field: how many free values have been taken. -/
  freeCount : Nat
  /-- What the device has put out, oldest first. -/
  out : List Out
  /-- The commands that wait, first in, first out. -/
  pending : List Instr
  deriving DecidableEq, Repr

/-- The state after a device reset: the straps, the life-cycle latch and the MRAM records are what a reset keeps
(R532). -/
def State.afterReset (straps : Straps) (cause : Nat) (lc : Lc) (pend : Option Lc) (tamper : Bool)
    (recs : List MRec) : State :=
  { now := 0, regs := [], sys := Sys.reset straps cause 0, hif := Hif.reset, fold := Fold.reset, crook := Crook.reset,
    power := Power.reset, therm := Therm.reset, memc := Memc.reset, paddock := Paddock.reset, dfl := Dfl.reset,
    mbx := Mbx.reset, sec := Sec.reset lc pend tamper, cal := Cal.reset recs, tally := Tally.reset, net := Net.reset,
    bell := Bell.reset, lay := Lay.reset, ink := Ink.reset, jet := Jet.reset, link := Link.reset,
    nozzle := Nozzle.reset, see := See.reset, hold := Hold.reset, freeCount := 0, out := [], pending := [] }

/-- The machine right after reset: PORST_N has risen with no strap tied, the life-cycle latch reads BLANK, and no
record stands in the MRAM. -/
def State.reset : State := State.afterReset Straps.none 0 .blank none false []

end Sys2Proof.Machine
end

