-- ==== Sys2Proof/Machine/Ops.lean ====
section
/-! DEFINITION. The shared operations over the state: the register file, events and MSI-X, completions, free values. -/

set_option Elab.async false

namespace Sys2Proof.Machine

/-- A 32-bit difference of free-running counts and image numbers. -/
def diff32 (a b : Nat) : Nat := (a + 2 ^ 32 - b % 2 ^ 32) % 2 ^ 32

/-! ### One block of the state, changed -/

def State.onSys (f : Sys → Sys) (s : State) : State := { s with sys := f s.sys }
def State.onHif (f : Hif → Hif) (s : State) : State := { s with hif := f s.hif }
def State.onFold (f : Fold → Fold) (s : State) : State := { s with fold := f s.fold }
def State.onCrook (f : Crook → Crook) (s : State) : State := { s with crook := f s.crook }
def State.onPower (f : Power → Power) (s : State) : State := { s with power := f s.power }
def State.onTherm (f : Therm → Therm) (s : State) : State := { s with therm := f s.therm }
def State.onMemc (f : Memc → Memc) (s : State) : State := { s with memc := f s.memc }
def State.onPaddock (f : Paddock → Paddock) (s : State) : State := { s with paddock := f s.paddock }
def State.onDfl (f : Dfl → Dfl) (s : State) : State := { s with dfl := f s.dfl }
def State.onMbx (f : Mbx → Mbx) (s : State) : State := { s with mbx := f s.mbx }
def State.onSec (f : Sec → Sec) (s : State) : State := { s with sec := f s.sec }
def State.onCal (f : Cal → Cal) (s : State) : State := { s with cal := f s.cal }
def State.onTally (f : Tally → Tally) (s : State) : State := { s with tally := f s.tally }
def State.onNet (f : Net → Net) (s : State) : State := { s with net := f s.net }
def State.onBell (f : Bell → Bell) (s : State) : State := { s with bell := f s.bell }
def State.onLay (f : Lay → Lay) (s : State) : State := { s with lay := f s.lay }
def State.onInk (f : Ink → Ink) (s : State) : State := { s with ink := f s.ink }
def State.onJet (f : Jet → Jet) (s : State) : State := { s with jet := f s.jet }
def State.onLink (f : Link → Link) (s : State) : State := { s with link := f s.link }
def State.onNozzle (f : Nozzle → Nozzle) (s : State) : State := { s with nozzle := f s.nozzle }
def State.onSee (f : See → See) (s : State) : State := { s with see := f s.see }
def State.onHold (f : Hold → Hold) (s : State) : State := { s with hold := f s.hold }

/-- One bar of scan-out, changed. -/
def State.onBar (b : Nat) (f : Bar → Bar) (s : State) : State :=
  s.onJet (fun j => { j with bars := j.bars.modify b f })

/-- One lane, changed. -/
def State.onLane (n : Nat) (f : Lane → Lane) (s : State) : State :=
  s.onLink (fun l => { l with lanes := l.lanes.modify n f })

/-- The link side of one bar, changed. -/
def State.onLinkBar (b : Nat) (f : LinkBar → LinkBar) (s : State) : State :=
  s.onLink (fun l => { l with bars := l.bars.modify b f })

/-- One ring, changed. -/
def State.onRing (n : Nat) (f : Ring → Ring) (s : State) : State :=
  s.onHif (fun h => { h with rings := h.rings.modify n f })

/-- One wheel, changed. -/
def State.onWheel (w : Nat) (f : Wheel → Wheel) (s : State) : State :=
  s.onBell (fun b => { b with wheels := b.wheels.modify w f })

/-- One camera port, changed. -/
def State.onPort (p : Nat) (f : CamPort → CamPort) (s : State) : State :=
  s.onSee (fun x => { x with ports := x.ports.modify p f })

/-- One DRAM channel, changed. -/
def State.onChannel (c : Nat) (f : Channel → Channel) (s : State) : State :=
  s.onMemc (fun m => { m with channels := m.channels.modify c f })

/-- One domain, changed. -/
def State.onDomain (d : Nat) (f : Domain → Domain) (s : State) : State :=
  s.onPower (fun p => { p with domains := p.domains.modify d f })

def State.bar (s : State) (b : Nat) : Bar := s.jet.bars.getD b Bar.reset
def State.lane (s : State) (n : Nat) : Lane := s.link.lanes.getD n (Lane.reset n)
def State.linkBar (s : State) (b : Nat) : LinkBar := s.link.bars.getD b LinkBar.reset
def State.ring (s : State) (n : Nat) : Ring := s.hif.rings.getD n Ring.reset
def State.wheel (s : State) (w : Nat) : Wheel := s.bell.wheels.getD w Wheel.reset
def State.port (s : State) (p : Nat) : CamPort := s.see.ports.getD p CamPort.reset
def State.channel (s : State) (c : Nat) : Channel := s.memc.channels.getD c Channel.reset
def State.domain (s : State) (d : Nat) : Domain := s.power.domains.getD d Domain.reset
def State.nzBar (s : State) (b : Nat) : NzBar := s.nozzle.bars.getD b NzBar.reset
def State.nzHalf (s : State) (h : Nat) : NzHalf := s.nozzle.halves.getD h NzHalf.reset
def State.calPort (s : State) (p : Nat) : CalPort := s.cal.ports.getD p CalPort.reset

/-- What a command gives. -/
abbrev Res := Host.Outcome State Fault Refusal

/-- The device puts something out. -/
def State.emit (o : Out) (s : State) : State := { s with out := s.out ++ [o] }

/-- The next free value: no one knows it (R49's and other values that the spec leaves open). -/
def State.free (s : State) : Nat × State := (Config.freeValue s.freeCount, { s with freeCount := s.freeCount + 1 })

/-- The supply and the temperature are those at which the clockless units keep their rated pace (R282, R369). -/
def State.ratedSupply (s : State) : Bool := s.therm.pmbOn && 720 ≤ s.therm.present && s.therm.tj ≤ 105 * 64

/-- Device time (R385): the low 32 bits of the extended time; in replay, of the replay clock (R522). -/
def State.devTime (s : State) : Nat := if s.tally.state = .replay then s.tally.clock % 2 ^ 32 else s.net.ext % 2 ^ 32

/-- Nothing in the device works: PORST_N is low, or the device is in Shelf (R400, R532). -/
def State.down (s : State) : Bool := s.sys.porst || s.power.inShelf

/-! ### The register file -/

/-- The value listed for an offset. -/
def rfGet : List (Nat × Nat) → Nat → Option Nat
  | [], _ => none
  | (o, v) :: rs, off => if o = off then some v else rfGet rs off

/-- The file without an offset. -/
def rfDel : List (Nat × Nat) → Nat → List (Nat × Nat)
  | [], _ => []
  | (o, v) :: rs, off => if o = off then rfDel rs off else (o, v) :: rfDel rs off

/-- The file with an offset at a value, in rising order of offsets. -/
def rfPut : List (Nat × Nat) → Nat → Nat → List (Nat × Nat)
  | [], off, v => [(off, v)]
  | (o, x) :: rs, off, v =>
    if off < o then (off, v) :: (o, x) :: rs else if o = off then (off, v) :: rs else (o, x) :: rfPut rs off v

/-- The file after a write: a register at its reset value is not listed. -/
def rfSet (rs : List (Nat × Nat)) (r : Reg) (v : Nat) : List (Nat × Nat) :=
  if v = r.rst then rfDel rs r.off else rfPut rs r.off v

/-- The canonical form of the register file: offsets strictly rising. -/
def rfSorted : List (Nat × Nat) → Bool
  | [] => true
  | [_] => true
  | a :: b :: rs => a.1 < b.1 && rfSorted (b :: rs)

/-- The value held in a register. -/
def State.reg (s : State) (r : Reg) : Nat := (rfGet s.regs r.off).getD r.rst

/-- A register set. -/
def State.setReg (r : Reg) (v : Nat) (s : State) : State := { s with regs := rfSet s.regs r (v % 2 ^ 32) }

/-- The value that a register held before the present tick, software's accesses of this tick applied (R8). -/
def State.earlier (s : State) (r : Reg) : Nat := (rfGet s.sys.before r.off).getD r.rst

/-- What the register held before the present tick is set. -/
def State.setEarlier (r : Reg) (v : Nat) (s : State) : State := s.onSys (fun y => { y with before := rfSet y.before r (v % 2 ^ 32) })

/-- The W1C bits of a register that the hardware has set in the present tick (R8). -/
def State.raisedBits (s : State) (r : Reg) : Nat := (rfGet s.sys.raised r.off).getD 0

/-- The hardware sets W1C bits of a register. -/
def State.setSticky (r : Reg) (m : Nat) (s : State) : State :=
  (s.setReg r (s.reg r ||| m)).onSys (fun y => { y with raised := rfPut y.raised r.off (s.raisedBits r ||| m) })

/-- W1C bits of a register are cleared by software; a bit that the hardware has set in the same instant is left set (R8). -/
def State.wipe (r : Reg) (m : Nat) (s : State) : State :=
  let was := s.earlier r
  let held := m &&& was
  let gone := held ^^^ (held &&& s.raisedBits r)
  (s.setReg r (s.reg r ^^^ (s.reg r &&& gone))).setEarlier r (was ^^^ gone)

/-- The value held in a field. -/
def State.f (s : State) (x : Field) : Nat := bits (s.reg x.reg) x.hi x.lo

/-- A one-bit field as a Bool. -/
def State.fb (s : State) (x : Field) : Bool := s.f x = 1

/-- A field set. -/
def State.setF (x : Field) (v : Nat) (s : State) : State := s.setReg x.reg (putBits (s.reg x.reg) x.hi x.lo v)

/-- A counter field counts n more, wrapping. -/
def State.bump (x : Field) (n : Nat) (s : State) : State := s.setF x (s.f x + n)

/-- A counter field counts n more and stops at its largest value. -/
def State.bumpSat (x : Field) (n : Nat) (s : State) : State := s.setF x (satAdd (x.hi - x.lo + 1) (s.f x) n)

/-! ### Events and MSI-X (R65) -/

/-- A request for an MSI-X vector: the message goes out, or the pending bit of a masked vector is set (R65). -/
def State.requestVector (v : Nat) (s : State) : State :=
  if bitOf (s.reg (Reg.MSIX_VCTRL v)) 0 then
    if s.hif.pba.contains v then s else s.onHif (fun h => { h with pba := h.pba ++ [v] })
  else s.emit (.msi v)

/-- An occurrence of event EVn (R65). -/
def State.raiseEv (n : Nat) (s : State) : State :=
  let s := s.setSticky (Reg.HIF_EV_STATUS (n / 32)) (2 ^ (n % 32))
  if s.fb ⟨Reg.HIF_EV_ENABLE (n / 32), n % 32, n % 32⟩ then s.requestVector (s.f (Fld.HIF_EV_MAP_vector n)) else s

/-- A request that waits to take a domain down is refused with cause WAKE, since work has come (R397). -/
def State.refuseWaiting (d : Nat) (s : State) : State :=
  if (s.domain d).want.isSome then
    let s := s.onDomain d (fun x => { x with want := none })
    (s.onPower (fun p => { p with refuseCause := 4, refuseDomain := d })).raiseEv 205
  else s

/-- Work is issued to a domain (R397, R398): in RETAIN or OFF it is powered up, and the work waits; of the domains that SHUTDOWN has switched
OFF it waits for the release (R412). -/
def State.wakeDomain (d : Nat) (s : State) : State :=
  let s := s.refuseWaiting d
  match (s.domain d).state with
  | .on => s
  | .up => s.onDomain d (fun x => { x with waiting := true })
  | _ =>
    if s.therm.shutdown && 4 ≤ d then s.onDomain d (fun x => { x with waiting := true })
    else
      let s := s.onDomain d (fun x => { x with state := .up, since := s.now, waiting := true })
      s.raiseEv 206

/-- Work is issued to several domains. -/
def State.wakeAll (ds : List Nat) (s : State) : State := ds.foldl (fun s d => s.wakeDomain d) s

/-- A domain is ON. -/
def State.isOn (s : State) (d : Nat) : Bool := (s.domain d).state = .on

/-- Several domains are ON. -/
def State.allOn (s : State) (ds : List Nat) : Bool := ds.all s.isOn

/-! ### Requests to the Drover -/

/-- A request joins the Drover's queue (R415 to R417); a request over the lendable tokens is charged at those when it is
judged. -/
def State.droverAsk (cls tokens : Nat) (h : Holder) (s : State) : State :=
  if s.power.queue.any (fun q => q.holder = h) || s.power.grants.any (fun g => g.holder = h) then s
  else s.onPower (fun p => { p with
    queue := p.queue ++ [⟨cls, tokens, h, s.now, p.nextOrder, false⟩], nextOrder := p.nextOrder + 1 })

/-- A holder returns its tokens, or withdraws a waiting request (R418). -/
def State.droverDrop (h : Holder) (s : State) : State :=
  s.onPower (fun p => { p with
    queue := p.queue.filter (fun q => q.holder ≠ h), grants := p.grants.filter (fun g => g.holder ≠ h) })

/-- A holder has a grant. -/
def State.droverHas (s : State) (h : Holder) : Bool := s.power.grants.any (fun g => g.holder = h)

/-! ### Descriptors and completions (R43 to R56) -/

/-- Opcode, flags, tag and job of a descriptor (R44), and a little-endian operand at an offset. -/
def Desc.byte (d : Desc) (i : Nat) : Nat := (d.bytes.getD i 0).toNat
def Desc.opcode (d : Desc) : Nat := d.byte 0
def Desc.num (d : Desc) (at_ len : Nat) : Nat := leAt d.bytes at_ len
def Desc.tag (d : Desc) : Nat := d.num 2 2
def Desc.job (d : Desc) : Nat := d.num 4 4
def Desc.notify (d : Desc) : Bool := d.byte 1 % 2 = 1

/-- The descriptor in flight that a row names: ring and slot, not yet retired. -/
def State.live (s : State) (ring slot : Nat) : Option Desc :=
  s.hif.inflight.find? (fun d => d.ring = ring && d.slot = slot && !d.retired)

/-- The descriptor in flight that a row names, of those that the row can concern. -/
def State.liveAs (s : State) (ring slot : Nat) (p : Desc → Bool) : Option Desc :=
  s.hif.inflight.find? (fun d => d.ring = ring && d.slot = slot && !d.retired && p d)

/-- The descriptor in flight by its place in the order of reading. -/
def State.descAt (s : State) (order : Nat) : Option Desc := s.hif.inflight.find? (fun d => d.order = order)

/-- An earlier descriptor of the same ring holds a later one back: it is not started, or is an unretired FENCE (R52,
R54). -/
def State.heldBack (s : State) (d : Desc) : Bool :=
  s.hif.inflight.any (fun e => e.ring = d.ring && e.order < d.order && (!e.started || (e.opcode = 0x7E && !e.retired)))

/-- A descriptor whose host data the device reads (R58): a page list, and the pages too where data come in. -/
def Desc.readsHost (d : Desc) : Bool :=
  match d.opcode with
  | 0x10 => true
  | 0x20 => true
  | 0x21 => d.byte 8 ≤ 2
  | 0x30 => 2 ≤ d.byte 8
  | 0x31 => true
  | 0x40 => d.byte 8 = 2 || d.byte 8 = 4 || (d.byte 8 = 3 && bitOf (d.byte 9) 1)
  | 0x50 => true
  | _ => false

/-- The reads that stand between request and completion, 512 at most (R29): of doorbells, descriptors, pages of STREAMED layers, and one
for each STAGED layer that is being copied. A read above 4,096 bytes goes as several requests, of which one at a time counts here
(DESIGN CHOICE 77). -/
def State.readsOut (s : State) : Nat :=
  s.hif.polls.length + (s.hif.rings.map (fun r => r.reads.length + r.lost.length)).sum + s.hif.pageReads.length
    + s.hif.inflight.countP (fun d => d.opcode = 0x10 && d.started && !d.retired)

/-- The descriptor that an opcode's row starts (R52): the first of its slot that is not started, of the opcode, with nothing before it.
A small ring may have used the slot before for one that still runs. One that reads the host waits while 512 reads are under way (R29). -/
def State.startable (s : State) (ring slot opcode : Nat) : Option Desc :=
  match s.liveAs ring slot (fun d => !d.started) with
  | some d => if d.opcode = opcode && !s.heldBack d && !(d.readsHost && 512 ≤ s.readsOut) then some d else none
  | none => none

/-- A descriptor in flight, changed. -/
def State.onDesc (order : Nat) (f : Desc → Desc) (s : State) : State :=
  s.onHif (fun h => { h with inflight := h.inflight.map (fun d => if d.order = order then f d else d) })

/-- A descriptor is started. -/
def State.start (d : Desc) (s : State) : State := s.onDesc d.order (fun d => { d with started := true })

/-- The completion of a descriptor, decided now. -/
def State.mkCompletion (s : State) (d : Desc) (status result : Nat) (final : Bool) : Completion :=
  { cring := d.cring, tag := d.tag, ring := d.ring, status := status, result := result,
    time := s.devTime, slot := d.slot, opcode := d.opcode, final := final, notify := d.notify, order := d.order,
    after := none, unread := false, place := none }

/-- A descriptor passes its retire point (R55). One that was aborted is among the retired too, so that a second ABORT of it gives ABORT_LATE
(DESIGN CHOICE 77: R55 does not say whether it is). -/
def State.retire (d : Desc) (s : State) : State :=
  if s.hif.inflight.any (fun e => e.order = d.order && !e.retired) then
    let s := s.onDesc d.order (fun d => { d with started := true, retired := true })
    s.onHif (fun h => { h with retired := (⟨d.ring, d.slot, d.tag, d.opcode⟩ :: h.retired).take 1024 })
  else s

/-- A descriptor's primary status is decided: it is retired, and its completion waits to be written (R51, R55). -/
def State.completeAs (d : Desc) (status result : Nat) (final : Bool) (s : State) : State :=
  let c := s.mkCompletion d status result final
  let s := s.retire d
  s.onHif (fun h => { h with held := h.held ++ [c] })

/-- A descriptor completes with its one completion. -/
def State.complete (d : Desc) (status result : Nat) (s : State) : State := s.completeAs d status result true

/-- A descriptor named by its place in the order of reading completes, if it is still in flight. -/
def State.completeAt (order status result : Nat) (s : State) : State :=
  match s.descAt order with
  | some d => s.complete d status result
  | none => s

/-- The final completion of a descriptor that has had its primary one (RELEASED, R61). -/
def State.release (order : Nat) (s : State) : State :=
  match s.descAt order with
  | some d =>
    let c := s.mkCompletion d 0x02 0 true
    s.onHif (fun h => { h with held := h.held ++ [c] })
  | none => s

/-- A token read that a reset of the host interface has held back (R32) is issued. -/
def State.readToken (s : State) : State :=
  if s.sec.readDue then
    (s.onSec (fun x => { x with readDue := false })).emit
      (.hostRead (s.reg Reg.SEC_TOKEN_ADDR_LO + 2 ^ 32 * s.reg Reg.SEC_TOKEN_ADDR_HI) 384 false)
  else s

/-- A host buffer reference at offset 32 (R58). -/
structure BufRef where
  list : Nat
  pages : Nat
  pageSize : Nat
  residency : Nat
  tags : Nat
  reserved : Nat
  length : Nat
  deriving DecidableEq, Repr, Inhabited

/-- The host buffer reference of a descriptor. -/
def Desc.buf (d : Desc) : BufRef :=
  ⟨d.num 32 8, d.num 40 4, d.byte 44, d.byte 45, d.byte 46, d.byte 47, d.num 48 8⟩

/-- Bytes of a page by its size code (R58). -/
def pageBytes (code : Nat) : Nat := if code = 0 then 4096 else if code = 1 then 65536 else 2097152

/-- A host write of a run of bytes over the pages of a buffer, page by page. -/
def pageWrites (size : Nat) : List Nat → List Byte → List Out
  | [], _ => []
  | _, [] => []
  | p :: ps, bs => .hostWrite p (bs.take size) :: pageWrites size ps (bs.drop size)

/-- The page list of a descriptor's buffer is read (R58): 8 bytes an entry, with tags 16. -/
def State.readList (d : Desc) (s : State) : State :=
  let size := if d.buf.tags = 1 then 16 else 8
  s.emit (.hostRead d.buf.list (size * ceilDiv d.buf.length (pageBytes d.buf.pageSize)) false)

/-- The pages of a descriptor's buffer are read: with tags each page whole; Relaxed Ordering on layer, table and map data (R29). -/
def State.readPages (d : Desc) (es : List PageEnt) (s : State) : State :=
  let size := pageBytes d.buf.pageSize
  let ro := d.opcode = 0x10 || d.opcode = 0x20 || d.opcode = 0x21
  { s with out := s.out ++ es.mapIdx (fun i e =>
      .hostRead e.addr (if d.buf.tags = 1 then size else min size (d.buf.length - i * size)) ro) }

/-- Host data come in: list and pages have been read. -/
def State.readHost (d : Desc) (es : List PageEnt) (s : State) : State := (s.readList d).readPages d es

/-- The device writes bytes to a host buffer whose page list it has read. -/
def State.writeHost (d : Desc) (pages : List Nat) (bs : List Byte) (s : State) : State :=
  { s with out := s.out ++ pageWrites (pageBytes d.buf.pageSize) pages bs }

end Sys2Proof.Machine
end

