-- ==== Sys2Proof/Machine/DramOps.lean ====
section
/-! DEFINITION. Page sets, and the requests that the device's units make of DRAM (R337, R338): their classes, the channel queues, and the
requesters that wait for a free entry. Page sets are kept as runs (first page, number), rising, not touching. -/

set_option Elab.async false

namespace Sys2Proof.Machine

/-! ### Page sets -/

/-- Number of pages in a set. -/
def runsCount (rs : List (Nat × Nat)) : Nat := (rs.map (fun r => r.2)).sum

/-- A set with the pages a, …, a + n − 1 added. -/
def runsAdd (a n : Nat) : List (Nat × Nat) → List (Nat × Nat)
  | [] => if n = 0 then [] else [(a, n)]
  | (b, m) :: rs =>
    if n = 0 then (b, m) :: rs
    else if a + n < b then (a, n) :: (b, m) :: rs
    else if a + n = b then (a, n + m) :: rs
    else if b + m = a then runsAdd b (m + n) rs
    else (b, m) :: runsAdd a n rs

/-- A set with one page taken out. -/
def runsDel (p : Nat) : List (Nat × Nat) → List (Nat × Nat)
  | [] => []
  | (b, m) :: rs =>
    if p < b then (b, m) :: rs
    else if p < b + m then
      (if p = b then [] else [(b, p - b)]) ++ (if p + 1 = b + m then [] else [(p + 1, b + m - p - 1)]) ++ rs
    else (b, m) :: runsDel p rs

/-- A page lies in a set. -/
def runsHas (rs : List (Nat × Nat)) (p : Nat) : Bool := rs.any (fun r => r.1 ≤ p && p < r.1 + r.2)

/-- The lowest n pages of a set, and the rest. -/
def runsTake : Nat → List (Nat × Nat) → List (Nat × Nat) × List (Nat × Nat)
  | _, [] => ([], [])
  | n, (b, m) :: rs =>
    if n = 0 then ([], (b, m) :: rs)
    else if n < m then ([(b, n)], (b + n, m - n) :: rs)
    else
      let r := runsTake (n - m) rs
      ((b, m) :: r.1, r.2)

/-- The parts of a set of pages that hold bytes lo to hi − 1 of what stands in its pages in order: device addresses. -/
def runsBytes : Nat → Nat → List (Nat × Nat) → List (Nat × Nat)
  | _, _, [] => []
  | lo, hi, (b, m) :: rs =>
    let n := m * 2097152
    (if lo < min hi n then [(b * 2097152 + lo, b * 2097152 + min hi n)] else []) ++ runsBytes (lo - n) (hi - n) rs

/-- The region of a holder, if it has one. -/
def State.padOf (s : State) (h : PHolder) : Option Region := s.paddock.regions.find? (fun r => r.holder = h)

/-! ### Classes (R337) -/

/-- The page hint of a class is OPEN. -/
def ReqClass.keepsOpen : ReqClass → Bool
  | .core | .maint => false
  | _ => true

/-- The class of what writes a holder's region. -/
def PHolder.writer : PHolder → ReqClass
  | .ringOf _ | .repeatStore | .grazeCopy => .ring
  | .stage _ | .landing _ => .stage
  | .core _ | .sec => .core
  | _ => .aux

/-! ### Queues (R338) -/

/-- The channel that holds a device address (R336). -/
def Memc.channelAt (m : Memc) (addr : Nat) : Nat :=
  m.channels.findIdx (fun c => (c.state = .active || c.state = .selfRefresh) && c.k = addr / 512 % m.n)

/-- A channel queue has a free entry for a class: eight of its 64 take SCAN requests only. -/
def Channel.hasRoom (cls : ReqClass) (c : Channel) : Bool :=
  c.queue.length < 64 && (cls = .scan || c.queue.countP (fun q => q.cls ≠ .scan) < 56)

/-- Columns of a requester enter their queues in order, until one finds no free entry: what is left of the run. -/
def Memc.letInRun (now : Nat) : Nat → DramRun → Memc → DramRun × Memc
  | 0, r, m => (r, m)
  | f + 1, r, m =>
    if r.stop ≤ r.next then (r, m)
    else
      let n := m.channelAt r.next
      match m.channels[n]? with
      | none => ({ r with next := r.stop }, m)
      | some c =>
        if !c.hasRoom r.cls then (r, m)
        else
          let c := { c with queue := c.queue ++ [⟨r.cls, r.write, r.next, now, r.half, c.stallTo - now⟩] }
          Memc.letInRun now f { r with next := r.next + 64 } { m with channels := m.channels.set n c }

/-- The requesters take up the free entries, in the order of their requests; one that finds none waits and holds none. -/
def Memc.letIn (now : Nat) (m : Memc) : Memc :=
  m.runs.foldl (fun m r =>
    let x := Memc.letInRun now 513 r m
    if x.1.stop ≤ x.1.next then x.2 else { x.2 with runs := x.2.runs ++ [x.1] }) { m with runs := [] }

/-- The highest occupancy of each queue since it was read (R361). -/
def State.noteQueue (s : State) (n : Nat) : State :=
  let k := (s.channel n).queue.length
  if s.f (Fld.MEMC_QUEUE_max n) < k then s.setF (Fld.MEMC_QUEUE_max n) k else s

/-- Free entries are taken up at an instant. -/
def State.dramAdmit (at_ : Nat) (s : State) : State :=
  if s.memc.runs.isEmpty then s else (List.range 8).foldl State.noteQueue (s.onMemc (Memc.letIn at_))

/-- A run that carries on the last one that waits is one with it. -/
def joinRun (r : DramRun) (rs : List DramRun) : List DramRun :=
  match rs.getLast? with
  | some x =>
    if x.cls = r.cls && x.write = r.write && x.half = r.half && x.stop = r.next then rs.dropLast ++ [{ x with stop := r.stop }]
    else rs ++ [r]
  | none => rs ++ [r]

/-- A request reaches DRAM that is entering self-refresh, or in it (R351): the entry is cancelled before its commit point; from there on the
exit begins. -/
def Memc.wake (now : Nat) (m : Memc) : Memc :=
  { m with srAt := none, srWake := if m.inSr then some (m.srWake.getD now) else none }

/-- DRAM is to be used: MEM is woken (R398), and self-refresh left (R351). -/
def State.callDram (s : State) : State := (s.wakeDomain 4).onMemc (Memc.wake s.now)

/-- DRAM can be used: MEM is ON and not in self-refresh. -/
def State.dramUp (s : State) : Bool := s.isOn 4 && !s.memc.inSr

/-- A unit asks for the columns of a range of device addresses: work for the MEM domain (R398). -/
def State.dramAsk (cls : ReqClass) (write : Bool) (half : Option Nat) (lo hi : Nat) (s : State) : State :=
  if s.memc.n = 0 || hi ≤ lo then s
  else (s.callDram.onMemc (fun m => { m with runs := joinRun ⟨cls, write, lo / 64 * 64, hi, half⟩ m.runs, idleSince := s.now })).dramAdmit s.now

/-- A unit asks for bytes lo to hi − 1 of a region. -/
def State.dramRegion (cls : ReqClass) (write : Bool) (half : Option Nat) (r : Region) (lo hi : Nat) (s : State) : State :=
  if s.memc.n = 0 then s
  else (runsBytes lo hi r.runs).foldl (fun s x => s.dramAsk cls write half x.1 x.2) s

/-- A unit asks for bytes of the region of a holder, if it has one. -/
def State.dramHolder (cls : ReqClass) (write : Bool) (h : PHolder) (lo hi : Nat) (s : State) : State :=
  match s.padOf h with
  | some r => s.dramRegion cls write none r lo hi
  | none => s

/-! ### What is written (R337, R348) -/

/-- The place of a page in a set taken in ascending order. -/
def runsIndex (p : Nat) : List (Nat × Nat) → Option Nat
  | [] => none
  | (b, m) :: rs => if b ≤ p && p < b + m then some (p - b) else (runsIndex p rs).map (· + m)

/-- The byte of a region that stands at a DRAM address. -/
def Region.offset (r : Region) (addr : Nat) : Option Nat :=
  (runsIndex (addr / 2097152) r.runs).map (fun i => i * 2097152 + addr % 2097152)

/-- The words of bytes lo to hi − 1 of a region, written anew, are poisoned no longer (R348). -/
def State.healRegion (r : Region) (lo hi : Nat) (s : State) : State :=
  if s.memc.poisoned.isEmpty then s
  else s.onMemc (fun m => { m with
    poisoned := m.poisoned.filter (fun a => match r.offset a with | some o => o < lo || hi ≤ o | none => true) })

/-- Bytes lo to hi − 1 of a region are written: its writer asks for them (R337). -/
def State.wroteRegion (r : Region) (lo hi : Nat) (s : State) : State :=
  (s.dramRegion r.holder.writer true none r lo hi).healRegion r lo hi

/-- The region of a holder is written anew as a whole. -/
def State.wroteHolder (h : PHolder) (s : State) : State :=
  match s.padOf h with
  | some r => s.wroteRegion r 0 (runsCount r.runs * 2097152)
  | none => s

/-- Bytes of a region are written, if its holder has one. -/
def State.wroteBytes (h : PHolder) (lo hi : Nat) (s : State) : State :=
  match s.padOf h with
  | some r => s.wroteRegion r lo hi
  | none => s

end Sys2Proof.Machine
end

