-- ==== Sys2Proof/Machine/DflOps.lean ====
section
/-! DEFINITION. Stream contexts of the compression engine and their slots (R364 to R366, R376, R378), as composition, camera upload and Tally
open them for their own streams. -/

set_option Elab.async false

namespace Sys2Proof.Machine

/-- A context as it is kept: one that is being opened, one that is open, one in ERROR, one whose stream has just ended. -/
def State.dctx (s : State) (n : Nat) : Option Ctx := (s.dfl.ctxs.find? (fun c => c.1 = n)).map (fun c => c.2)

/-- A context is open (R364): from its first input byte to its end or its error. -/
def Ctx.isOpen (c : Ctx) : Bool :=
  c.state ≠ .error && c.state ≠ .closed && (c.own || !c.input.isEmpty || !c.flushes.isEmpty || c.ended)

def State.dctxOpen (s : State) (n : Nat) : Bool := (s.dctx n).any Ctx.isOpen

/-- A context, changed. -/
def State.onCtx (n : Nat) (f : Ctx → Ctx) (s : State) : State :=
  s.onDfl (fun d => { d with ctxs := d.ctxs.map (fun c => if c.1 = n then (c.1, f c.2) else c) })

/-- A context put in the place of what was kept of its number. -/
def State.putCtx (n : Nat) (c : Ctx) (s : State) : State :=
  s.onDfl (fun d => { d with ctxs := (n, c) :: d.ctxs.filter (fun x => x.1 ≠ n) })

/-- A context that keeps nothing of its stream (R364, R376). -/
def Ctx.emptied (st : CtxState) (c : Ctx) : Ctx :=
  { c with
    state := st, dictSlot := none, dict := [], tokens := false, input := [], flushes := [], given := 0, room := 0, ended := false
    expect := none, dicts := [], slot := none, wants := false, fresh := false }

/-- A context closes: it holds no state, and its tokens return (R364, R371). Of an inflate stream it is known that what comes behind it is an
error (R376). -/
def State.closeCtx (n : Nat) (s : State) : State :=
  (s.onDfl (fun d => { d with ctxs := d.ctxs.filterMap (fun c =>
    if c.1 ≠ n then some c else if c.2.own || c.2.deflate then none else some (n, { c.2.emptied .closed with done := true })) })).droverDrop
    (.dfl n)

/-- The device's own streams of some contexts end without their end. -/
def Dfl.without (d : Dfl) (p : Nat → Bool) : Dfl := { d with ctxs := d.ctxs.filter (fun c => !(c.2.own && p c.1)) }

/-- An inflate context meets an error (R376): DFL_ERR, DFL_ERR_CNT, EV176. -/
def State.dflError (ctx cause : Nat) (s : State) : State :=
  let s := s.onDfl (fun d => { d with errCause := cause, errCtx := ctx, errTime := s.devTime })
  (s.bump Fld.DFL_ERR_CNT_value 1).raiseEv 176

/-- A context enters ERROR and keeps no further state (R376). -/
def State.spoilCtx (n code : Nat) (s : State) : State :=
  ((s.onCtx n (fun c => c.emptied .error)).droverDrop (.dfl n)).dflError n code

/-! ### Slots (R365, R366) -/

/-- A free slot for a context, if there is one. -/
def State.freeSlot (s : State) (n : Nat) : Option Nat :=
  if n < 8 then some n
  else ((List.range 8).map (8 + ·)).find? (fun k => !s.dfl.ctxs.any (fun c => c.2.slot = some k))

/-- The firmware context in a slot that has been used least recently. -/
def State.lruCtx (s : State) : Option (Nat × Ctx) :=
  (s.dfl.ctxs.filter (fun c => 16 ≤ c.1 && c.2.slot.isSome)).foldl (fun m c =>
    match m with
    | some x => if c.2.lastUse < x.2.lastUse then some c else m
    | none => some c) none

/-- A context is written to the save area, or read back from it (R366, DESIGN CHOICE 50: one place for each firmware context). -/
def State.moveSaved (write : Bool) (n : Nat) (s : State) : State :=
  s.dramHolder .aux write .dflSave ((n - 16) * 36864) ((n - 15) * 36864)

/-- A firmware context is evicted (R366): it is saved, and waits for a slot if it was at work. -/
def State.evict (n : Nat) (s : State) : State :=
  let s := s.onCtx n (fun c => { c with state := .evicted, slot := none, tokens := false, wants := c.state = .working })
  ((s.moveSaved true n).droverDrop (.dfl n)).bump Fld.DFL_EVICT_CNT_value 1

/-- A context that opens or resumes finds a slot: a free one, or, for contexts 8 to 15 and with the save area held, that of the
firmware context it evicts. -/
def State.findSlot (n : Nat) (s : State) : Option (Nat × State) :=
  match s.freeSlot n with
  | some k => some (k, s)
  | none =>
    if n < 16 && s.dfl.save then s.lruCtx.map (fun v => (v.2.slot.getD 0, s.evict v.1)) else none

/-- The dictionary slot that a deflate stream takes from its producer's DFL_PROD (R378), if it holds anything. -/
def State.prodSlot (s : State) (n : Nat) : Option (Nat × List Byte) :=
  if 8 ≤ n && n ≤ 14 && s.fb (Fld.DFL_PROD_dict_en (n - 8)) then
    (s.dfl.dicts.find? (fun d => d.1 = s.f (Fld.DFL_PROD_dict (n - 8)) && !d.2.data.isEmpty)).map (fun d => (d.1, d.2.data))
  else none

/-- A context takes its dictionary as it opens (R378): a deflate stream that of its producer, an inflate stream those among which its header
may name one. -/
def State.takeDict (s : State) (n : Nat) (c : Ctx) : Ctx :=
  let d := if c.deflate then s.prodSlot n else none
  { c with
    dictSlot := d.map (fun x => x.1), dict := (d.map (fun x => x.2)).getD [], dicts := if c.deflate then [] else s.dfl.dicts }

/-- A context is in a slot: one that was waiting to open opens, one that was evicted is restored (R365, R366). -/
def State.enterSlot (n k : Nat) (s : State) : State :=
  match s.dctx n with
  | none => s
  | some c =>
    let s := if c.state = .evicted then s.moveSaved false n else s
    s.onCtx n (fun c => { (if c.state = .closed then s.takeDict n c else c) with
      slot := some k, wants := false, lastUse := s.now
      state := if c.slot.isSome then c.state else .waitIn })

/-- A context that is being opened (R364): it has no slot yet. -/
def newCtx (wrap level : Nat) (deflate : Bool) (expect : Nat) (at_ : Nat) : Ctx :=
  { state := .closed, wrap := wrap, level := if deflate then clampNat 1 9 level else 0, deflate := deflate
    dictSlot := none, dict := [], tokens := false, input := [], flushes := [], given := 0, room := 0, ended := false
    expect := if expect = 0 then none else some expect, dicts := [], slot := none, wants := true, lastUse := at_
    fresh := false, done := false, own := false }

/-- A context that waits to open or resume takes a slot, where it finds one. -/
def State.takeSlot (n : Nat) (s : State) : State :=
  match s.findSlot n with
  | some r => r.2.enterSlot n r.1
  | none => s

/-- A stream of composition, camera upload or Tally opens with its first byte (R364, R368): it takes a slot, or waits for one. -/
def State.openOwn (n wrap level : Nat) (deflate : Bool) (expect : Nat) (s : State) : State :=
  (s.putCtx n { newCtx wrap level deflate expect s.now with own := true }).takeSlot n

/-- The stream of such a context has come so far: its input, and the number of bytes it has given. -/
def State.feedOwn (n : Nat) (input : List Byte) (given : Nat) (s : State) : State :=
  s.onCtx n (fun c => { c with input := input, given := given, lastUse := s.now })

/-- The dictionary that an open stream has taken (R378). -/
def State.ctxDict (s : State) (n : Nat) : List Byte := ((s.dctx n).map (fun c => c.dict)).getD []

end Sys2Proof.Machine
end

