-- ==== Sys2Proof/Machine/TallyOps.lean ====
section
/-! DEFINITION. The record stream of Tally: entries, chunks and their sealing (R509, R514, R515), as every unit uses it. -/

set_option Elab.async false

namespace Sys2Proof.Machine

/-- Wrap count of the extended time (R385). -/
def State.wraps (s : State) : Nat := s.net.ext / 2 ^ 32 % 2 ^ 32

/-- An entry as it stands in the record: header and payload, filled to whole words (R509). -/
def Entry.bytes (e : Entry) : List Byte :=
  let n := ceilDiv e.payload.length 4
  leBytes 1 e.kind ++ leBytes 1 e.sub ++ leBytes 2 n ++ leBytes 4 e.time ++ e.payload
    ++ List.replicate (4 * n - e.payload.length) 0

/-- Raw bytes of a run of entries. -/
def entriesBytes (es : List Entry) : List Byte := es.flatMap Entry.bytes

/-- Replay is in progress. -/
def State.replaying (s : State) : Bool := s.tally.state = .replay

/-- An entry of the record whose outcome replay waits for (R522): a decision, a band, a fill. -/
def Entry.waits (e : Entry) : Bool := e.kind = 0x60 || e.kind = 0x70 || e.kind = 0x61

/-- The replay clock is halted (R522). -/
def State.replayBlocked (s : State) : Bool := s.replaying && s.tally.expected.any Entry.waits

/-- A sealed chunk: its header and its entries deflated as one whole bare stream (R514). -/
def makeChunk (level : Nat) (dict : List Byte) (num wraps : Nat) (es : List Entry) : Chunk :=
  let raw := entriesBytes es
  let comp := deflateWhole 0 level dict raw
  let first := (es.headD ⟨0, 0, 0, []⟩).time
  let flags := b2n (es.any (fun e => e.kind = 0x01)) + 2 * b2n (es.any (fun e => e.kind = 0x7F))
    + 4 * b2n (es.any (fun e => e.kind = 0x7E))
  let hdr := leBytes 4 0x51544C59 ++ leBytes 4 num ++ leBytes 4 comp.length ++ leBytes 4 raw.length ++ leBytes 4 wraps
    ++ leBytes 4 first ++ leBytes 4 flags
  ⟨num, wraps, flags, es, hdr ++ leBytes 4 (crc32c (hdr ++ comp)) ++ comp, 0, false⟩

/-- Bytes that the chunks of the journal take. -/
def journalBytes (cs : List Chunk) : Nat := (cs.map (fun c => c.bytes.length)).sum

/-- Drop the oldest chunks until a new one of n bytes fits: the rest, and how many were dropped. -/
def makeRoom (cap n : Nat) : List Chunk → List Chunk × Nat
  | [] => ([], 0)
  | c :: cs =>
    if journalBytes (c :: cs) + n ≤ cap then (c :: cs, 0)
    else
      let r := makeRoom cap n cs
      (r.1, r.2 + 1)

/-- A sealed chunk is stored in the journal (R514), after what stands there. -/
def State.storeChunk (c : Chunk) (s : State) : State :=
  let size := max 1 (s.tally.pages * 2097152)
  let at_ := match s.tally.chunks.getLast? with
    | some x => (x.at_ + x.bytes.length) % size
    | none => 0
  let n := c.bytes.length
  let s := s.onTally (fun t => { t with chunks := t.chunks ++ [{ c with at_ := at_ }] })
  let s := s.wroteBytes .tally at_ (min size (at_ + n))
  (s.wroteBytes .tally 0 (at_ + n - size)).raiseEv 241

/-- A chunk fits the journal as it stands (R514), with those that are to be stored before it. -/
def State.chunkFits (s : State) (c : Chunk) : Bool :=
  journalBytes s.tally.chunks + journalBytes s.tally.late + c.bytes.length ≤ s.tally.pages * 2097152

/-- A sealed chunk enters the journal, the oldest chunks being overwritten where it does not fit (R514). -/
def State.keepChunk (c : Chunk) (s : State) : State :=
  if journalBytes s.tally.chunks + c.bytes.length ≤ s.tally.pages * 2097152 then s.storeChunk c
  else
    let t := s.tally
    let r := makeRoom (t.pages * 2097152) c.bytes.length t.chunks
    let s := s.onTally (fun t => { t with chunks := r.1, wrapped := true })
    let s := s.bump (⟨Reg.TALLY_OVERWRITE, 31, 0⟩) r.2
    let s := if t.wrapped then s else s.raiseEv 242
    s.storeChunk c

/-- The TIME entry of this instant, with which a chunk begins (R514). -/
def State.timeEntry (s : State) : Entry := ⟨0x02, 0, s.devTime, leBytes 4 s.wraps⟩

/-- The stream of a chunk opens (R364, R371, R378): context 14, which asks for tokens from level 4 on. -/
def State.openTally (s : State) : State :=
  let level := clampNat 1 9 (s.f Fld.TALLY_CTRL_rec_level)
  let s := s.openOwn 14 0 level true 0
  let s := s.onTally (fun t => { t with openedDict := s.ctxDict 14, openedLevel := level })
  if level < 4 then s else s.droverAsk 5 (s.f Fld.DFL_CTRL_dfl_tokens) (.dfl 14)

/-- The open chunk, sealed. -/
def State.openedChunk (s : State) : Chunk :=
  let t := s.tally
  makeChunk t.openedLevel t.openedDict t.nextChunk t.openedWraps t.opened

/-- An entry joins the open chunk as it is sealed (R513): the END of a cause. -/
def State.addEnd (cause : Nat) (s : State) : State :=
  let s := if s.tally.opened.isEmpty then
      s.openTally.onTally (fun t => { t with opened := [s.timeEntry], openedAt := s.now, openedWraps := s.wraps })
    else s
  s.onTally (fun t => { t with opened := t.opened ++ [⟨0x7F, 0, s.devTime, leBytes 4 cause⟩] })

/-- A chunk is sealed: it enters the journal, or waits for the tokens of its compression (R371). -/
def State.passChunk (c : Chunk) (s : State) : State :=
  let s := s.onTally (fun t => { t with opened := [], nextChunk := c.num + 1 })
  if s.tally.late.isEmpty && (s.tally.openedLevel < 4 || s.droverHas (.dfl 14)) then (s.closeCtx 14).keepChunk c
  else s.onTally (fun t => { t with late := t.late ++ [c] })

/-- Recording has ended once its last chunk is sealed and compressed: EV240 (R513). -/
def State.endSaid (s : State) : State := if s.tally.late.isEmpty then s.raiseEv 240 else s

/-- The chunks that wait for tokens are stored (R371); the stream of a chunk that has begun since opens. -/
def State.storeLate (s : State) : State :=
  let cs := s.tally.late
  let s := cs.foldl (fun s c => s.keepChunk c) ((s.closeCtx 14).onTally (fun t => { t with late := [] }))
  if s.tally.state ≠ .recording then s.raiseEv 240
  else if s.tally.opened.isEmpty then s
  else s.openTally

/-- Recording ends with an END entry of a cause, in the chunk that is then sealed (R513). Where the journal cannot hold that chunk and
does not wrap, the cause is 1, and the chunk gives way to one that holds the END alone. -/
def State.endRecording (cause : Nat) (s : State) : State :=
  let s := s.addEnd cause
  let c := s.openedChunk
  let s :=
    if s.tally.wrap || s.chunkFits c then s.passChunk c
    else
      let s := (s.onTally (fun t => { t with opened := [] })).addEnd 1
      s.passChunk s.openedChunk
  let s := s.onTally (fun t => { t with state := .idle })
  let s := s.onMemc (fun m => { m with idleSince := s.now })
  s.endSaid

/-- The open chunk is sealed with a FINAL flush (R514). When the journal cannot hold it and does not wrap, recording ends with END
cause 1, and the chunk gives way to one that holds the END alone. -/
def State.sealChunk (s : State) : State :=
  if s.tally.opened.isEmpty then s
  else
    let c := s.openedChunk
    if s.tally.wrap || s.chunkFits c then s.passChunk c
    else (s.onTally (fun t => { t with opened := [] })).endRecording 1

/-- Entry a stands after entry b in the record (R509): it is later, or of the same time and of a higher kind. -/
def Entry.after (a b : Entry) : Bool :=
  if a.time = b.time then b.kind < a.kind else diff32 a.time b.time < 2 ^ 31

/-- An entry takes its place among those of the open chunk, from the newest back. -/
def placeEntry (e : Entry) : List Entry → List Entry
  | [] => [e]
  | x :: xs => if x.after e && !xs.isEmpty then x :: placeEntry e xs else e :: x :: xs

/-- An entry joins the open chunk in its place; a chunk begins with a TIME entry, and is sealed at chunk_kib (R514). -/
def State.putEntry (e : Entry) (s : State) : State :=
  let time := s.timeEntry
  let s :=
    if s.tally.opened.isEmpty then
      s.openTally.onTally (fun t => { t with
        opened := if e.kind = 0x02 then [e] else [time, e], openedAt := s.now, openedWraps := s.wraps })
    else s.onTally (fun t => { t with opened := (placeEntry e t.opened.reverse).reverse })
  let kib := clampNat 16 1024 (s.f Fld.TALLY_CHUNK_CFG_chunk_kib)
  if (entriesBytes s.tally.opened).length ≥ kib * 1024 then s.sealChunk else s

/-- A recorded happening of a given device time (R509): while recording runs, an entry, behind the LOST entry of any loss
before it (R515). -/
def State.tallyEntryAt (kind sub time : Nat) (payload : List Byte) (s : State) : State :=
  if s.tally.state = .recording then
    let s :=
      if s.tally.lost = 0 then s
      else
        let n := s.tally.lost
        let s := s.onTally (fun t => { t with lost := 0, gap := true })
        s.putEntry ⟨0x7E, 0, s.devTime, leBytes 4 n⟩
    s.putEntry ⟨kind, sub, time, payload⟩
  else s

/-- A recorded happening of this instant. -/
def State.tallyEntry (kind sub : Nat) (payload : List Byte) (s : State) : State :=
  s.tallyEntryAt kind sub s.devTime payload

/-- A journaled decision (R510) may be taken: outside replay always; in replay only as the next recorded GRANT of its
arbiter has it. -/
def State.replayAllows (arb : Nat) (payload : List Byte) (s : State) : Bool :=
  if s.replaying then
    match s.tally.expected.find? (fun e => e.kind = 0x60 && e.sub = arb) with
    | some e => e.payload = payload
    | none => false
  else true

/-- A recorded GRANT of an arbiter that is still to be met in replay, whose payload satisfies p. -/
def State.recorded (arb : Nat) (p : List Byte → Bool) (s : State) : Option Entry :=
  (s.tally.expected ++ s.tally.play).find? (fun e => e.kind = 0x60 && e.sub = arb && p e.payload)

/-- A decision whose outcome replay forces (R510): as recorded while replaying, else as it is found now. -/
def State.forced (arb : Nat) (payload : List Byte) (now : Bool) (s : State) : Bool :=
  if s.replaying then (s.recorded arb (· = payload)).isSome else now

/-- A journaled decision is taken: entered while recording, met while replaying (R510, R522). -/
def State.journal (arb : Nat) (payload : List Byte) (s : State) : State :=
  if s.replaying then
    let mine := fun (e : Entry) => e.kind = 0x60 && e.sub = arb && e.payload = payload
    s.onTally (fun t =>
      if t.expected.any mine then { t with expected := t.expected.eraseP mine } else { t with play := t.play.eraseP mine })
  else s.tallyEntry 0x60 arb payload

end Sys2Proof.Machine
end

