-- ==== Sys2Proof/Machine/MemOps.lean ====
section
/-! DEFINITION. Paddock (R355 to R358) and the Drover's queue (R415 to R418), as every unit uses them. -/

set_option Elab.async false

namespace Sys2Proof.Machine

/-! ### Paddock -/

/-- Usable bytes of one channel (R335). -/
def State.channelBytes (s : State) : Nat :=
  let d := bits s.memc.geom 9 8
  let ranks := bits s.memc.geom 0 0 + 1
  if d = 0 then 4 * 2 ^ 30 * ranks else if d = 1 then 8 * 2 ^ 30 * ranks else 16 * 2 ^ 30

/-- The device's page count (R355): capacity over 2 MiB. -/
def State.pageCount (s : State) : Nat := s.memc.n * s.channelBytes / 2097152

/-- Pages that still count as usable: a page is excluded once its retirement is complete (R362). -/
def State.padTotal (s : State) : Nat :=
  s.pageCount - (s.paddock.retired.countP (fun r => !r.2))

/-- Pages held against a quota. -/
def State.padHeld (s : State) (q : Nat) : Nat :=
  ((s.paddock.regions.filter (fun r => r.quota = q)).map (fun r => runsCount r.runs)).sum

/-- The reserves as they are met: in quota order, as far as pages remain (R362). -/
def meetReserves : Nat → List Nat → List Nat
  | _, [] => []
  | left, r :: rs => min left r :: meetReserves (left - min left r) rs

/-- Reserve of each quota, as met. -/
def State.padReserves (s : State) : List Nat :=
  meetReserves s.padTotal ((List.range 9).map (fun q => s.f (Fld.PAD_Q_RESERVE_reserve q)))

/-- Unmet reserves of every quota other than q (R357). -/
def State.padUnmet (s : State) (q : Nat) : Nat :=
  ((List.range 9).map (fun p => if p = q then 0 else s.padReserves.getD p 0 - s.padHeld p)).sum

/-- A request for n pages of quota q can be granted (R357); before READY no region is granted (R537). -/
def State.padFits (s : State) (q n : Nat) : Bool :=
  s.padHeld q + n ≤ s.f (Fld.PAD_Q_LIMIT_limit q) && n + s.padUnmet q ≤ runsCount s.paddock.free
    && s.paddock.regions.length < 4096 && s.sys.ready

/-- The GRANT payload of Paddock (R510): quota and pages. -/
def padPayload (q n : Nat) : List Byte := leBytes 4 q ++ leBytes 4 n

/-- A grant: the lowest free pages become a region of the holder. -/
def State.padGive (q n : Nat) (h : PHolder) (s : State) : State :=
  let r := runsTake n s.paddock.free
  let s := s.onPaddock (fun p => { p with
    free := r.2, regions := p.regions ++ [⟨p.nextId, q, h, r.1⟩], nextId := p.nextId + 1 })
  let s := s.setF (Fld.PAD_Q_PEAK_value q) (max (s.f (Fld.PAD_Q_PEAK_value q)) (s.padHeld q))
  s.journal 2 (padPayload q n)

/-- A request for n pages of quota q may be granted at this instant (R357). -/
def State.padMay (s : State) (q n : Nat) : Bool := s.padFits q n && s.replayAllows 2 (padPayload q n)

/-- Waiting requests are judged in the order of arrival; behind one that waits, later ones of its quota wait (R357). -/
def padJudge : List PReq → List Nat → State → State
  | [], _, s => s
  | w :: ws, stuck, s =>
    if !stuck.contains w.quota && s.padMay w.quota w.pages then
      padJudge ws stuck ((s.onPaddock (fun p => { p with waiting := p.waiting.erase w })).padGive w.quota w.pages w.holder)
    else padJudge ws (w.quota :: stuck) s

/-- The requests that wait are judged again, as pages or regions that have come free allow (R357). -/
def State.padRejudge (s : State) : State := if s.paddock.waiting.isEmpty then s else padJudge s.paddock.waiting [] s

/-- No request of a quota waits. -/
def State.padFirst (s : State) (q : Nat) : Bool := !(s.paddock.waiting.any (fun w => w.quota = q))

/-- A request of a holder (R357): those that wait are judged before it; it is granted at once, or waits behind earlier requests of its quota. -/
def State.padAsk (q n : Nat) (h : PHolder) (s : State) : State :=
  let s := s.padRejudge
  if s.padMay q n && s.padFirst q then s.padGive q n h
  else s.onPaddock (fun p => { p with waiting := p.waiting ++ [⟨q, n, h, s.now⟩] })

/-- A waiting request of a holder is withdrawn. -/
def State.padWithdraw (h : PHolder) (s : State) : State :=
  s.onPaddock (fun p => { p with waiting := p.waiting.filter (fun w => w.holder ≠ h) })

/-- The pages of a freed region, less those that retire now: a listed page that awaited this is retired (R358). -/
def freePages (retired : List (Nat × Bool)) (rs : List (Nat × Nat)) : List (Nat × Nat) :=
  retired.foldl (fun rs r => if r.2 then runsDel r.1 rs else rs) rs

/-- A region is freed whole (R355, R358): its pages are zeroed, returned, or retired. -/
def State.padFreeId (id : Nat) (s : State) : State :=
  match s.paddock.regions.find? (fun r => r.id = id) with
  | none => s
  | some r =>
    let keep := freePages s.paddock.retired r.runs
    let zero := r.quota = 8 || s.fb (Fld.PAD_Q_LIMIT_zero r.quota)
    s.onPaddock (fun p => { p with
      regions := p.regions.filter (fun x => x.id ≠ id)
      retired := p.retired.map (fun x => if x.2 && runsHas r.runs x.1 then (x.1, false) else x)
      free := if zero then p.free else keep.foldl (fun f x => runsAdd x.1 x.2 f) p.free
      dirty := if zero then keep.foldl (fun f x => runsAdd x.1 x.2 f) p.dirty else p.dirty })

/-- The region of a holder is freed. -/
def State.padFree (h : PHolder) (s : State) : State :=
  match s.padOf h with
  | some r => s.padFreeId r.id
  | none => s

/-- A page is listed for retirement (R358): ignored when its number is at or above the page count or it is listed
already; refused when 64 are listed. The Bool says that FS027 is due. -/
def State.padRetire (page : Nat) (s : State) : Bool × State :=
  if page ≥ s.pageCount || s.paddock.retired.any (fun r => r.1 = page) then (false, s)
  else if s.paddock.retired.length ≥ 64 then (true, s)
  else
    let held := s.paddock.regions.any (fun r => runsHas r.runs page)
    (false, s.onPaddock (fun p => { p with
      retired := p.retired ++ [(page, held)],
      free := runsDel page p.free, dirty := runsDel page p.dirty }))

/-! ### The wipe (R354) -/

/-- Pages are wiped in ascending order; those listed for retirement stay out of the pool (R354, R358). -/
def State.wipeTo (n : Nat) (s : State) : State :=
  if n ≤ s.memc.wiped then s
  else
    let a := s.memc.wiped
    let s := s.onMemc (fun m => { m with
      wiped := n, poisoned := m.poisoned.filter (fun x => x / 2097152 < a || n ≤ x / 2097152) })
    s.onPaddock (fun p => { p with
      free := p.retired.foldl (fun f r => runsDel r.1 f) (runsAdd a (n - a) p.free) })

/-- Pages that the wipe has reached by now (R25): 7 × 8 / n ms for the 512 pages of a GB. -/
def State.wipeNow (s : State) : State :=
  match s.memc.wipeAt with
  | some t => s.wipeTo (min s.pageCount ((s.now - t) * s.memc.n * 512 / 56000000))
  | none => s

/-! ### Poisoned words (R347, R348) -/

/-- The region that holds a DRAM address. -/
def State.regionAt (s : State) (addr : Nat) : Option Region :=
  s.paddock.regions.find? (fun r => runsHas r.runs (addr / 2097152))

/-- Offsets of the poisoned words of a holder's region. -/
def State.poisonIn (s : State) (h : PHolder) : List Nat :=
  match s.padOf h with
  | some r => s.memc.poisoned.filterMap r.offset
  | none => []

/-- The DRAM is in use at this instant (R350). -/
def State.touchDram (s : State) : State := s.onMemc (fun m => { m with idleSince := s.now })

/-! ### The Drover -/

/-- Budget, taken as print_res where it lies below (R424), less print_res (R415). -/
def State.lendable (s : State) : Nat := s.f Fld.DROVER_BUDGET_budget - s.f Fld.DROVER_BUDGET_print_res

/-- Tokens granted and not returned. -/
def State.tokensOut (s : State) : Nat := (s.power.grants.map (fun g => g.tokens)).sum

end Sys2Proof.Machine
end

