-- ==== Sys2Proof/Machine/Access.lean ====
section
/-! DEFINITION. Which registers answer an access (R398, R475), which writes are taken in replay (R521), and the record that a
host write leaves (R509). -/

set_option Elab.async false

namespace Sys2Proof.Machine

/-- A register lies in the TALLY block. -/
def inTally (off : Nat) : Bool := 0x1000000 ≤ off && off < 0x1100000

/-- The power domain of the block at an offset (R395); none: a block that is always on. The registers of R386 stay
readable while NET is off. -/
def regDomain (off : Nat) : Option Nat :=
  if 0x500000 ≤ off && off < 0x700000 then some 4
  else if 0x700000 ≤ off && off < 0x800000 then some 9
  else if 0x800000 ≤ off && off < 0xA00000 then some 5
  else if 0xA00000 ≤ off && off < 0xB00000 then some 7
  else if 0xC00000 ≤ off && off < 0xE00000 then some 6
  else if 0xE00000 ≤ off && off < 0xF00000 then some 7
  else if 0xF00000 ≤ off && off < 0x1000000 then
    if off = 0xF00004 || off = 0xF00010 || off = 0xF00014 || off = 0xF00028 || (0xF00040 ≤ off && off ≤ 0xF00050) then none
    else some 8
  else if 0x1000000 ≤ off && off < 0x1100000 then some 9
  else none

/-- The block at an offset answers: its domain is ON (R398); in recovery mode only the SEC window answers, and SYS_STATUS, which
shows the mode (R475). -/
def State.answers (s : State) (off : Nat) : Bool :=
  (match regDomain off with
    | some d => s.isOn d
    | none => true)
    && (!s.sec.recovery || (0x1200000 ≤ off && off < 0x1300000) || off = 8)

/-- A write of an agent is taken: its block answers and its domain is ON (R398), and it is no host write outside the TALLY block in
replay (R521), where the recorded ones are applied by Tally itself. -/
def State.writeOpen (s : State) (agent off : Nat) : Bool :=
  s.answers off && (!(0xF00000 ≤ off && off < 0x1000000) || s.isOn 8)
    && !(agent = 1 && s.replaying && !s.tally.applying && !inTally off)

/-- A host write outside the TALLY block is recorded (R509: REGWRITE). -/
def State.noteWrite (agent off v : Nat) (s : State) : State :=
  if agent = 1 && !s.tally.applying && !inTally off then s.tallyEntry 0x22 1 (leBytes 4 off ++ leBytes 4 v) else s

end Sys2Proof.Machine
end

