-- ==== Sys2Proof/Machine/Codec.lean ====
section
/-! DEFINITION. Codewords of the bar link: GF(2^10) and RS(544,514) (R218), PAM4 and precoding (R216, R217), the scrambler
(R220), message bits and bytes (R219), and the markers as they are sent (R222). -/

set_option Elab.async false

namespace Sys2Proof.Machine

/-! ### GF(2^10), x^10 + x^3 + 1 -/

/-- One more factor α. -/
def gfStep (a : Nat) : Nat := if a < 512 then 2 * a else (2 * a) ^^^ 0x409

/-- Product, over the low k bits of b. -/
def gfMulBits : Nat → Nat → Nat → Nat
  | 0, _, _ => 0
  | k + 1, a, b => (if b % 2 = 1 then a else 0) ^^^ gfMulBits k (gfStep a) (b / 2)

def gfMul (a b : Nat) : Nat := gfMulBits 10 a b

/-- a^(2^n). -/
def gfSq : Nat → Nat → Nat
  | 0, a => a
  | n + 1, a => gfSq n (gfMul a a)

/-- The inverse: a^1022 = a^2 · a^4 · … · a^512. -/
def gfInv (a : Nat) : Nat := (List.range 9).foldl (fun r i => gfMul r (gfSq (i + 1) a)) 1

/-- α^e. -/
def gfExp (e : Nat) : Nat := (List.range 10).foldl (fun r i => if e / 2 ^ i % 2 = 1 then gfMul r (gfSq i 2) else r) 1

/-! ### RS(544,514) -/

/-- Value of a word, coefficients from the highest power, at x. -/
def rsEval (x : Nat) (cs : List Nat) : Nat := cs.foldl (fun a c => gfMul a x ^^^ c) 0

/-- The thirty syndromes. -/
def syndromes (cs : List Nat) : List Nat := (List.range 30).map (fun i => rsEval (gfExp i) cs)

/-- The generator polynomial, coefficients from the highest power: (x − α^0) … (x − α^29). -/
def rsGen : List Nat :=
  (List.range 30).foldl (fun g i => List.zipWith (· ^^^ ·) (g ++ [0]) (0 :: g.map (gfMul (gfExp i)))) [1]

/-- Parity of a message: the remainder of m(x) x^30 by g(x). -/
def rsParity (msg : List Nat) : List Nat :=
  let g := rsGen.drop 1
  msg.foldl (fun r m =>
    let f := m ^^^ r.headD 0
    List.zipWith (· ^^^ ·) (r.drop 1 ++ [0]) (g.map (gfMul f))) (List.replicate 30 0)

/-- The state of Berlekamp and Massey: locator, previous locator, length, gap, previous discrepancy. -/
structure BmState where
  c : List Nat
  b : List Nat
  len : Nat
  m : Nat
  d : Nat
  deriving DecidableEq, Repr, Inhabited

/-- Sum of two polynomials from the lowest power. -/
def polyAdd : List Nat → List Nat → List Nat
  | [], q => q
  | p, [] => p
  | a :: p, b :: q => (a ^^^ b) :: polyAdd p q

/-- One step of Berlekamp and Massey over syndrome n. -/
def bmStep (syn : List Nat) (st : BmState) (n : Nat) : BmState :=
  let d := (List.range (st.len + 1)).foldl (fun a i =>
    if i ≤ n then a ^^^ gfMul (st.c.getD i 0) (syn.getD (n - i) 0) else a) 0
  if d = 0 then { st with m := st.m + 1 }
  else
    let f := gfMul d (gfInv st.d)
    let c := polyAdd st.c (List.replicate st.m 0 ++ st.b.map (gfMul f))
    if 2 * st.len ≤ n then ⟨c, st.c, n + 1 - st.len, 1, d⟩ else { st with c := c, m := st.m + 1 }

/-- Value of a polynomial from the lowest power. -/
def polyEval (x : Nat) (p : List Nat) : Nat := rsEval x p.reverse

/-- The corrected word and the number of symbols corrected; none where it cannot be corrected (R218). -/
def rsDecode (cs : List Nat) : Option (List Nat × Nat) :=
  let syn := syndromes cs
  if syn.all (· = 0) then some (cs, 0)
  else
    let st := (List.range 30).foldl (bmStep syn) ⟨[1], [1], 0, 1, 1⟩
    let roots := (List.range 544).filter (fun e => polyEval (gfExp ((1023 - e) % 1023)) st.c = 0)
    if 15 < st.len || roots.length ≠ st.len then none
    else
      let omega := (List.range 30).map (fun n => (List.range (n + 1)).foldl (fun a i =>
        a ^^^ gfMul (syn.getD i 0) (st.c.getD (n - i) 0)) 0)
      let deriv := (List.range st.len).map (fun i => if i % 2 = 0 then st.c.getD (i + 1) 0 else 0)
      let fixed := roots.foldl (fun (cs : List Nat) e =>
        let xi := gfExp ((1023 - e) % 1023)
        let y := gfMul (gfExp e) (gfMul (polyEval xi omega) (gfInv (polyEval xi deriv)))
        cs.modify (543 - e) (· ^^^ y)) cs
      if (syndromes fixed).all (· = 0) then some (fixed, st.len) else none

/-! ### PAM4 (R216, R217, R218) -/

/-- The Gray indices from precoded ones. -/
def unPrecode : Nat → List Nat → List Nat
  | _, [] => []
  | prev, p :: ps => (p + prev) % 4 :: unPrecode p ps

/-- The indices that a precoding transmitter sends in place of Gray indices (R217). -/
def precode : Nat → List Nat → List Nat
  | _, [] => []
  | prev, g :: gs => (g + 4 - prev % 4) % 4 :: precode ((g + 4 - prev % 4) % 4) gs

/-- The PAM4 level of an index (R216). -/
def pamLevel (g : Nat) : Int := 2 * g - 3

/-- The last precoded index when Gray indices are precoded from a state. -/
def lastPrecoded (prev : Nat) (gs : List Nat) : Nat := gs.foldl (fun p g => (g + 4 - p % 4) % 4) prev

/-- A bit pair of a Gray index, as a number; and back. -/
def grayBits (g : Nat) : Nat := if g = 2 then 3 else if g = 3 then 2 else g

/-- Five PAM4 indices make a symbol, bits [9:8] first. -/
def symbolsOf : Nat → List Nat → List Nat
  | 0, _ => []
  | n + 1, gs => (gs.take 5).foldl (fun a g => a * 4 + grayBits g) 0 :: symbolsOf n (gs.drop 5)

/-- The Gray indices of a symbol. -/
def grayOf (sym : Nat) : List Nat := (List.range 5).map (fun i => grayBits (sym / 4 ^ (4 - i) % 4))

/-! ### Scrambler and message bits (R219, R220) -/

/-- The next 10 bits of the PRBS31 stream from a state, the first the most significant, and the state after. -/
def prbs10 (st : Nat) : Nat × Nat :=
  (List.range 10).foldl (fun (r : Nat × Nat) _ =>
    let t := (r.2 / 2 ^ 30 + r.2 / 2 ^ 27) % 2
    (r.1 * 2 + t, (r.2 * 2 + t) % 2 ^ 31)) (0, st)

/-- Symbols exclusive-ored with the stream, and the state after. -/
def descramble : Nat → List Nat → List Nat × Nat
  | st, [] => ([], st)
  | st, c :: cs =>
    let r := prbs10 st
    let q := descramble r.2 cs
    ((c ^^^ r.1) :: q.1, q.2)

/-- The scrambler state at the first bit after a marker of a lane. -/
def scrambleSeed (lane : Nat) : Nat := 0x2A5A5A00 + lane

/-- The 5,140 bits of 514 message symbols as one number, bit 0 the most significant. -/
def messageNum (cs : List Nat) : Nat := cs.foldl (fun a c => a * 1024 + c) 0

/-- The kind of a message: bits 0 and 1; and bits 2 and 3. -/
def messageKind (m : Nat) : Nat := m / 2 ^ 5138
/-- Bytes 0 to 641 of a message. -/
def messageBytes (m : Nat) : List Byte := (List.range 642).map (fun j => BitVec.ofNat 8 (m / 2 ^ (8 * (641 - j))))

/-- The message of a kind and 642 bytes, as 514 symbols. -/
def messageSymbols (kind : Nat) (bytes : List Byte) : List Nat :=
  let m := bytes.foldl (fun a b => a * 256 + b.toNat) (kind * 4)
  (List.range 514).map (fun k => m / 2 ^ (10 * (513 - k)) % 1024)

/-- The pattern of a marker (R222). -/
def markerPattern : List Byte := [0x1B, 0xE4, 0x1B, 0xE4, 0x72, 0x8D, 0x72, 0x8D]

/-- Fill bytes of a marker (R222). -/
def markerFill (n : Nat) : List Byte := List.replicate n 0x6C

/-- The message of a downstream marker with an insertion or none (R222). -/
def markerMessage (lane mode counter seq : Nat) (ins : List Byte) : List Byte :=
  markerPattern ++ leBytes 1 lane ++ leBytes 1 mode ++ leBytes 2 counter ++ leBytes 4 seq ++ markerFill 16
    ++ leBytes 1 ins.length ++ markerFill 7 ++ ins ++ markerFill (602 - ins.length)

/-- The message of a data codeword (R221): an insertion or none, and the stream bytes, with PAD bytes after them. -/
def dataMessage (ins : List Byte) (first : Nat) (stream : List Byte) : List Byte :=
  leBytes 1 ins.length ++ leBytes 1 0 ++ leBytes 2 first ++ ins ++ stream
    ++ List.replicate (638 - ins.length - stream.length) 0

/-- The message of a training codeword (R242). -/
def trainingMessage (set : List Byte) : List Byte := set ++ List.replicate (642 - set.length) 0

/-- The symbols of the codewords after a marker, scrambled from a state, each with its parity (R218, R220). -/
def scrambledWords : Nat → List (List Nat) → List Nat
  | _, [] => []
  | st, m :: ms =>
    let r := descramble st m
    r.1 ++ rsParity r.1 ++ scrambledWords r.2 ms

/-- What a lane's transmitter sends as PAM4 indices for a marker and the codewords after it, each a kind and its message (R216 to
R220). -/
def lineSymbols (lane : Nat) (precoded : Bool) (marker : List Byte) (words : List (Nat × List Byte)) : List Nat :=
  let m := messageSymbols 1 marker
  let cs := m ++ rsParity m ++ scrambledWords (scrambleSeed lane) (words.map (fun w => messageSymbols w.1 w.2))
  let gs := cs.flatMap grayOf
  if precoded then precode 0 gs else gs

/-- The precoded index that ends a marker codeword of 642 bytes (R217). -/
def markerTail (bytes : List Byte) : Nat :=
  let msg := messageSymbols 1 bytes
  lastPrecoded 0 ((msg ++ rsParity msg).flatMap grayOf)

/-- A received codeword (R216 to R220): the corrected message bytes with its kind, and the count of corrected symbols; none
where it cannot be corrected. The scrambler state after it and the last index come beside. -/
def decodeCodeword (pre : Bool) (prev st : Nat) (idx : List Nat) : Option (Nat × List Byte × Nat) × Nat :=
  let gs := if pre then unPrecode prev idx else idx
  let cs := symbolsOf 544 gs
  let after := (descramble st (List.replicate 514 0)).2
  match rsDecode cs with
  | none => (none, after)
  | some (w, n) =>
    let m := messageNum (descramble st (w.take 514)).1
    (some (messageKind m, messageBytes m, n), after)

end Sys2Proof.Machine
end

