-- ==== Sys2Proof/Machine/LinkOps.lean ====
section
/-! DEFINITION. Control packets of the bar link and their queue (R224 to R230), which Crook, Fold and the fire lines
use, and the codewords that a lane sends (R214, R219, R221, R222, R225). -/

set_option Elab.async false

namespace Sys2Proof.Machine

/-- A packet closed by its CRC-32C (R224). -/
def closePkt (bs : List Byte) : List Byte := bs ++ leBytes 4 (crc32c bs)

/-- A SEQ packet (R228). -/
def seqPkt (kind value line half : Nat) : List Byte :=
  closePkt (leBytes 1 0x20 ++ leBytes 1 kind ++ leBytes 2 20 ++ leBytes 4 value ++ leBytes 1 line ++ leBytes 1 half
    ++ leBytes 2 0 ++ leBytes 4 0)

/-- A HOLD, SLEEP or WAKE packet (R230). -/
def shortPkt (typ sub : Nat) : List Byte :=
  closePkt (leBytes 1 typ ++ leBytes 1 sub ++ leBytes 2 12 ++ leBytes 4 0)

def holdPkt (reason : Nat) : List Byte := shortPkt 0x70 reason
def sleepPkt (dirs : Nat) : List Byte := shortPkt 0x80 dirs
def wakePkt (dirs : Nat) : List Byte := shortPkt 0x90 dirs

/-- A CFG write of n words (R229). -/
def cfgPkt (ctag address : Nat) (words : List Byte) : List Byte :=
  let n := words.length / 4
  closePkt (leBytes 1 0x30 ++ leBytes 1 n ++ leBytes 2 (16 + 4 * n) ++ leBytes 2 ctag ++ leBytes 2 0 ++ leBytes 4 address
    ++ words)

/-- A STAT read of n words (R229). -/
def statPkt (ctag address n : Nat) : List Byte :=
  closePkt (leBytes 1 0x40 ++ leBytes 1 n ++ leBytes 2 16 ++ leBytes 2 ctag ++ leBytes 2 0 ++ leBytes 4 address)

/-- The half of a lane in its bar: 0 left, 1 right (R213). -/
def State.laneHalf (s : State) (n : Nat) : Nat := s.f (Fld.LINK_ROLE_half n)

/-- The member number of a lane in its half-bar (R213). -/
def State.laneMember (s : State) (n : Nat) : Nat := s.f (Fld.LINK_ROLE_member n)

/-- The lanes of bar b. -/
def barLanes (b : Nat) : List Nat := (List.range 4).map (fun i => 4 * b + i)

/-- The lanes of a half-bar. -/
def State.halfLanes (s : State) (b half : Nat) : List Nat := (barLanes b).filter (fun n => s.laneHalf n = half)

/-- A half-bar has a lane in service. -/
def State.halfUp (s : State) (b half : Nat) : Bool := (s.halfLanes b half).any (fun n => (s.lane n).inPair)

/-- A packet joins a queue in the order of its group, first come first served within it (R225). -/
def insQueue (p : InsPkt) : List InsPkt → List InsPkt
  | [] => [p]
  | q :: qs => if q.group ≤ p.group then q :: insQueue p qs else p :: q :: qs

/-- What a lane's transmitter puts on the line from now on; in replay its outputs are held (R241, R245, R521). -/
def State.putLane (n : Nat) (what : TxLine) (s : State) : State := if s.replaying then s else s.emit (.lineTx n what)

/-- The lanes of a bar that are in ACTIVE. -/
def State.activeLanes (s : State) (b : Nat) : List Nat := (barLanes b).filter (fun n => (s.lane n).tstate = .active)

/-- The wake of a bar's downstream starts at an instant: its lanes send PRBS31 (R245). -/
def State.beginWake (b at_ : Nat) (s : State) : State :=
  (s.activeLanes b).foldl (fun s n => s.putLane n (.prbs (s.lane n).rate))
    (s.onLinkBar b (fun l => { l with ds := .waking, wakeSince := at_ }))

/-- A cause to wake the downstream of a bar (R246): a wake starts at once, or once a SLEEP that is queued has gone (R248). -/
def State.wakeDown (b : Nat) (s : State) : State :=
  match (s.linkBar b).ds with
  | .asleep => s.beginWake b s.now
  | .awake => if (s.linkBar b).dsPending then s.onLinkBar b (fun l => { l with dsRewake := true }) else s
  | .waking => s

/-- A control packet is queued on every lane of a bar that is in ACTIVE (R225); it wakes the downstream (R246). In
replay nothing leaves (R521). -/
def State.sendCtl (b group : Nat) (bytes : List Byte) (s : State) : State :=
  if s.replaying then s
  else
    let s := s.wakeDown b
    (s.activeLanes b).foldl (fun s n => s.onLane n (fun l => { l with ins := insQueue ⟨group, bytes⟩ l.ins })) s

/-! ### Codewords (R214, R219, R221, R222, R225) -/

/-- Codeword time of a rate, ns (R214). -/
def codewordTime (rate : Nat) : Nat := if rate = 3 then 170 else if rate = 2 then 340 else 680

/-- Codeword slots from a marker of a lane to the next: in service and in training (R222). -/
def Lane.period (l : Lane) : Nat := if l.tstate = .active then 1025 else 17

/-- The place of a slot after the last marker, which is the one it took up service with where its period has not come round yet. -/
def Lane.place (l : Lane) (k : Nat) : Nat := min (k - l.base) ((k - l.epoch) % l.period)

/-- The counter of the last marker that a lane has sent up to slot k (R222): before its epoch, that before txMarker. -/
def Lane.counterAt (l : Lane) (k : Nat) : Nat := (l.txMarker + 65535 + (k + l.period - l.epoch) / l.period) % 65536

/-- The mode byte of a lane's markers (R222). -/
def Lane.mode (l : Lane) : Nat :=
  l.rate + 4 * b2n l.preTx + 8 * b2n l.preferred + 16 * b2n (decide (l.tstate ≠ .active))

/-- The marker that a lane sends in slot k. -/
def Lane.marker (l : Lane) (lane k : Nat) (ins : List Byte) : List Byte :=
  markerMessage lane l.mode (l.counterAt k) l.lastSeq ins

/-- What the stream area of a codeword takes from a transmit FIFO: the packets left there, the bytes, and the packets whose last byte has
left. -/
def drainFifo : Nat → List DotPkt → List DotPkt × List Byte × List DotPkt
  | _, [] => ([], [], [])
  | cap, p :: ps =>
    let rest := p.bytes.drop (p.bytes.length - p.left)
    if cap = 0 then (p :: ps, [], [])
    else if p.left ≤ cap then
      let r := drainFifo (cap - p.left) ps
      (r.1, rest ++ r.2.1, p :: r.2.2)
    else ({ p with left := p.left - cap } :: ps, rest.take cap, [])

/-- Offset of the first packet or PAD byte that begins in a stream area of n bytes (R221). -/
def firstOffset (n : Nat) (fifo : List DotPkt) : Nat :=
  match fifo with
  | [] => 0
  | p :: _ => if p.left = p.bytes.length then 0 else if p.left < n then p.left else 0xFFFF

/-- One codeword slot of a lane (R221, R222, R225): the head of the insertion queue, where it may go, and the stream area unless the
codeword is a marker. -/
def laneSlot (lane k : Nat) (go : Bool) (l : Lane) : Lane × List Out :=
  let ins := if go then (l.ins.head?.map (fun p => p.bytes)).getD [] else []
  let place := l.place k
  let r := if place = 0 then (l.fifo, [], []) else drainFifo (638 - ins.length) l.fifo
  let msg := if place = 0 then l.marker lane k ins else dataMessage ins (firstOffset (638 - ins.length) l.fifo) r.2.1
  ({ l with
     ins := if go then l.ins.drop 1 else l.ins, fifo := r.1, lastSeq := (r.2.2.getLast?.map (fun p => p.seq)).getD l.lastSeq },
   .codeword lane place l.preTx msg :: ((if ins = [] then [] else [Out.insert lane ins])
     ++ r.2.2.map (fun p => Out.dot lane p.bytes)))

/-- Successive codeword slots from slot k that carry the stream alone, while there is any. -/
def laneSlots (lane : Nat) : Nat → Nat → Lane → Lane × List Out
  | 0, _, l => (l, [])
  | n + 1, k, l =>
    if l.fifo.isEmpty then (l, [])
    else
      let r := laneSlot lane k false l
      let q := laneSlots lane n (k + 1) r.1
      (q.1, r.2 ++ q.2)

/-- A lane, and what it puts out, taken into the state. -/
def State.putSlots (n : Nat) (r : Lane × List Out) (s : State) : State :=
  let s := s.onLane n (fun _ => r.1)
  { s with out := s.out ++ r.2 }

/-- An event of R254 that concerns a lane, with its LANE entry (R509). -/
def State.laneEv (n ev : Nat) (s : State) : State := (s.raiseEv ev).tallyEntry 0x51 n (leBytes 4 ev)

/-- The downstream of a bar takes up service after its PRBS31 (R245): a marker counted on from the last before it slept (R222); EV103. -/
def State.resumeDown (b : Nat) (s : State) : State :=
  let slept := (s.linkBar b).sleptAt - 1
  let s := (s.activeLanes b).foldl (fun s n =>
    let l := s.lane n
    let k := s.now / codewordTime l.rate + 1
    (s.putLane n (.service l.rate l.preTx)).onLane n (fun l => { l with
      txMarker := (l.counterAt (slept / codewordTime l.rate) + 1) % 65536, epoch := k, base := k - 1 })) s
  (s.onLinkBar b (fun l => { l with ds := .awake })).laneEv (4 * b) 103

/-- The packets of the first groups, up to g, that wait on a bar's lanes go out, one to a codeword, before its lanes stop; a downstream
that sleeps is woken for it (R225, R240, R245). DESIGN CHOICE (log entry 39): the time that this takes is passed over. -/
def State.flushBar (g b : Nat) (s : State) : State :=
  let waits := fun (s : State) (n : Nat) => (s.lane n).ins.countP (fun p => p.group ≤ g)
  let due := (s.activeLanes b).filter (fun n => 0 < waits s n)
  let s := if due.isEmpty || (s.linkBar b).ds = .awake then s else (s.wakeDown b).resumeDown b
  due.foldl (fun s n =>
    let k := s.now / codewordTime (s.lane n).rate + 1
    (List.range (waits s n)).foldl (fun s i => s.putSlots n (laneSlot n (k + i) true (s.lane n))) s) s

/-- The HOLDs that wait go out before JET loses its power (R240, R434). -/
def State.flushHolds (s : State) : State := (List.range 8).foldl (fun s b => s.flushBar 0 b) s

/-- SYNC: the active line and the next tick (R193). -/
def State.sendSync (b : Nat) (lineB : Bool) (tick : Int) (s : State) : State :=
  s.sendCtl b 1 (seqPkt 0 (toTwos 32 tick) (b2n lineB) 0)

/-- HOLD with a reason (R230). -/
def State.sendHold (b reason : Nat) (s : State) : State := s.sendCtl b 0 (holdPkt reason)

/-- A bar is armed: any fire-line state but DISARMED. -/
def State.armed (s : State) (b : Nat) : Bool := (s.bar b).fire ≠ .disarmed

/-- The pulse of a bar's fire line ends now. -/
def State.endPulse (b : Nat) (s : State) : State :=
  match (s.bar b).pulse with
  | some p => (s.onBar b (fun x => { x with pulse := none })).emit (.pulseEnd b p.1)
  | none => s

/-- The test of a bar's fire line will give no result: FS008 and FS009 have none pending for the bar any more (R440). -/
def State.dropLineTest (b : Nat) (s : State) : State :=
  let s := s.onFold (fun f => { f with tests := f.tests.filter (fun t => !((t.source = 8 || t.source = 9) && t.target = b)) })
  (s.droverDrop (.selfTest 8 b)).droverDrop (.selfTest 9 b)

/-- A bar is disarmed: both lines at 0, a drill or self-test under way ends, arm reads 0 (R200), and HOLD with a reason
goes to its hub (R230). -/
def State.barDisarm (b reason : Nat) (s : State) : State :=
  let was := (s.bar b).fire
  let s := (s.endPulse b).dropLineTest b
  let s := s.setF (Fld.JET_BAR_CTRL_arm b) 0
  let s := s.onBar b (fun x => { x with
    fire := .disarmed, awaiting := [], selfTest := none, testing := none, drill := none, burst := 0 })
  let s := if was = .disarmed then s
    else (s.onMemc (fun m => { m with idleSince := s.now })).onLinkBar b (fun l => { l with
      offSince := s.now, dsOver := false, usOver := false })
  let s :=
    if was = .drill then
      ((s.setF (Fld.JET_BAR_CTRL_drill b) 0).onBar b (fun x => { x with drillPass := false })).raiseEv 122
    else s
  if was = .disarmed && reason = 3 then s else s.sendHold b reason

end Sys2Proof.Machine
end

