-- ==== Sys2Proof/Machine/DramServe.lean ====
section
/-! DEFINITION. How a DRAM channel serves its queue (R338, R339, R342): the order of its accesses, its open rows, the refresh that it owes,
and the bound of 2 µs within which every request is issued. -/

set_option Elab.async false

namespace Sys2Proof.Machine

/-- The channel runs: its domain is ON and it is ACTIVE. -/
def State.chActive (s : State) (n : Nat) : Bool := s.isOn 4 && (s.channel n).state = .active

/-- Entries of the row with most entries in a half-bar. -/
def Half.width (h : Half) : Nat :=
  match h.remap with
  | some r => ((List.range 4).map (fun k => r.entries.countP (fun e => e.sub = k))).foldl max 0
  | none => 0

/-- The transmit FIFOs of a half-bar hold less than urgent_ns of drop codes at the present line rate (R342). -/
def State.fifoLow (s : State) (b half : Nat) : Bool :=
  let x := s.bar b
  let bytesPerLine := (if half = 0 then x.left else x.right).width * ((s.lay.job.map (fun j => j.codeBits)).getD 2) / 8
  let held := ((s.halfLanes b half).map (fun n => ((s.lane n).fifo.map (fun p => p.left)).sum)).sum
  x.nextSend.isSome && held * 1000000000 < min 8000 (s.f Fld.MEMC_URGENT_urgent_ns) * s.bell.lrate * bytesPerLine

/-- A SCAN read at deadline is queued on a channel (R342). -/
def State.deadlineQueued (s : State) (n : Nat) : Bool :=
  (s.channel n).queue.any (fun q => q.cls = .scan && q.half.any (fun h => s.fifoLow (h / 2) (h % 2)))

/-- The rows that are open: a row with no access for 2 µs has been closed (R339). -/
def Channel.openRows (now : Nat) (c : Channel) : List OpenRow := c.rows.filter (fun r => now < r.at_ + 2000)

/-- A request hits a row. -/
def DramReq.hits (q : DramReq) (bank row : Nat) : Bool := Config.dramBank q.addr = bank && Config.dramRow q.addr = row

/-- The next column access of a channel (R338): the oldest of those that have waited 1,000 ns, else the oldest that hits an open row, else
the oldest. -/
def Channel.pick (now : Nat) (c : Channel) : Option DramReq :=
  match c.queue.find? (fun q => q.at_ + 1000 ≤ now) with
  | some q => some q
  | none =>
    match c.queue.find? (fun q => (c.openRows now).any (fun r => q.hits r.bank r.row)) with
    | some q => some q
    | none => c.queue.head?

/-- Commands are issued: the retry buffer takes them (R345). -/
def Channel.issue (cs : List DramCmd) (c : Channel) : Channel := { c with issued := (cs.reverse ++ c.issued).take 16 }

/-- What a column access needs before it: another row of its bank closes, its own opens (R339). -/
def Channel.opens (now bank row : Nat) (c : Channel) : List DramCmd :=
  match (c.openRows now).find? (fun r => r.bank = bank) with
  | some r => if r.row = row then [] else [.precharge bank, .activate bank row]
  | none => [.activate bank row]

/-- A column access (R339): another row of its bank closes; its own stays open with hint OPEN, and with hint CLOSE where a queued request
hits it. The retry buffer takes it (R345), and a write-back ends (R346). -/
def Channel.access (now : Nat) (q : DramReq) (c : Channel) : Channel :=
  let bank := Config.dramBank q.addr
  let row := Config.dramRow q.addr
  let rest := c.queue.erase q
  let others := (c.openRows now).filter (fun r => r.bank ≠ bank)
  let stays := q.cls.keepsOpen || rest.any (fun x => x.hits bank row)
  { c with
    queue := rest, rows := if stays then ⟨bank, row, now⟩ :: others else others
    issued := (c.issue (c.opens now bank row ++ [.column q.write q.addr])).issued, single := false
    accesses := c.accesses + 1
    fixes := if q.cls = .maint && q.write then c.fixes.erase q.addr else c.fixes }

/-- Successive accesses, n at most, up to one that is last: what the channel is then, and the requests served. -/
def Channel.serve (now : Nat) (last : DramReq → Bool) : Nat → Channel → Channel × List DramReq
  | 0, c => (c, [])
  | n + 1, c =>
    match c.pick now with
    | none => (c, [])
    | some q =>
      let c := c.access now q
      if last q then (c, [q])
      else
        let r := Channel.serve now last n c
        (r.1, q :: r.2)

/-- The service of a SCAN read took so long (R361). -/
def State.noteScan (n ns : Nat) (s : State) : State :=
  if s.f (Fld.MEMC_SCAN_LAT_value n) < ns then s.setF (Fld.MEMC_SCAN_LAT_value n) (min 65535 ns) else s

/-- The instant by which a request is issued (R338): 2 µs from its entry, refresh stalls not counted. -/
def DramReq.due (q : DramReq) : Nat := q.at_ + 2000 + q.stalled

/-- The requests of a channel that have stood in its queue for 2 µs and its refresh stalls at an instant have been issued by then (R338); how
long each of them took, no longer than that, is free. -/
def State.serveDue (at_ : Nat) (s : State) (n : Nat) : State :=
  let c := s.channel n
  let due := c.queue.countP (fun q => q.due ≤ at_)
  if due = 0 then s
  else
    let r := c.serve at_ (fun _ => false) due
    (r.2.filter (fun q => q.cls = .scan)).foldl (fun s q =>
      let (v, s) := s.free
      s.noteScan n (v % (2001 + q.stalled))) (s.onChannel n (fun _ => r.1))

/-- tRFC of the geometry in force, ns (R335). -/
def State.trfc (s : State) : Nat :=
  let d := bits s.memc.geom 9 8
  if d = 0 then 260 else if d = 1 then 350 else 550

/-- Refresh stalls a channel from an instant on (R340): what is queued waits as long. -/
def Channel.stall (at_ ns : Nat) (c : Channel) : Channel :=
  { c with stallTo := max at_ c.stallTo + ns, queue := c.queue.map (fun q => { q with stalled := q.stalled + ns }) }

/-- k REF are issued back to back (R340, R342, R343): every row closes, and each stalls the channel for tRFC. -/
def State.refresh (n k at_ : Nat) (s : State) : State :=
  let t := s.trfc
  (s.onChannel n (fun c =>
    (Channel.stall at_ (k * t) { c with rows := [] }).issue
      ((if c.rows.isEmpty then [] else [DramCmd.prechargeAll]) ++ List.replicate k DramCmd.refresh))).emit
    (.dram n "REF" k)

/-- Owed REF are issued as soon as no SCAN read at deadline is queued (R342). -/
def State.payRefresh (at_ : Nat) (s : State) (n : Nat) : State :=
  let c := s.channel n
  if c.owed = 0 || !s.chActive n || s.deadlineQueued n then s
  else (s.onChannel n (fun c => { c with owed := 0, single := false })).refresh n c.owed at_

/-- Every channel issues the REF that it owes, if it may (R342). -/
def State.payAll (at_ : Nat) (s : State) : State :=
  if s.memc.channels.all (fun c => c.owed = 0) then s else (List.range 8).foldl (State.payRefresh at_) s

/-- The instant by which the request longest in a queue is issued. -/
def State.dramNext (s : State) : Option Nat :=
  s.memc.channels.foldl (fun m c => match c.queue.head? with
    | some q => some (min (m.getD q.due) q.due)
    | none => m) none

/-- The requests issued up to an instant under the bound of R338, and the requesters that take up the entries they leave. -/
def State.dramSteps : Nat → Nat → State → State
  | 0, _, s => s
  | k + 1, t, s =>
    match s.dramNext with
    | none => s
    | some e =>
      if t < e then s
      else
        let s := ((List.range 8).foldl (State.serveDue e) s).dramAdmit e
        State.dramSteps k t ((s.onMemc (fun m => { m with idleSince := e })).payAll e)

/-- The commit point of an entry into self-refresh (R350, R351): SRE is issued on the last channel; EV165. -/
def State.enterSelfRefresh (s : State) : State :=
  if s.memc.inSr then s
  else
    let s := s.onMemc (fun m => { m with
      inSr := true, srAt := none, srWake := none
      channels := m.channels.map (fun c => if c.state = .active then { c with state := .selfRefresh, owed := 0, rows := [] } else c) })
    s.raiseEv 165

/-- DRAM over dt ticks: an entry into self-refresh passes its commit point (R351); in self-refresh, and with MEM not ON, requests wait. -/
def State.dramElapse (dt : Nat) (s : State) : State :=
  let s := if s.memc.srAt.any (· ≤ s.now + dt) then s.enterSelfRefresh else s
  if s.memc.inSr || !s.isOn 4 then s else State.dramSteps ((dt / 2000 + 1) * 64) (s.now + dt) s

end Sys2Proof.Machine
end

