-- ==== Sys2Proof/Machine/React.lean ====
section
/-! DEFINITION. How the device reacts to a fault: the judgement of Fold (R425 to R433), holds (R429), Crook's safe state (R434
to R437), the power-down of OFF (R412, R429), and the reset of an agent (R461). -/

set_option Elab.async false

namespace Sys2Proof.Machine

/-! ### Reset of an agent -/

/-- The receiver of a mailbox (R454). -/
def boxReceiver (m : Nat) : Nat := if m < 2 then 2 else if m < 6 then 3 else if m < 8 then 4 else if m < 10 then 5 else 1

/-- A core's wake line is raised (R457). -/
def State.wakeCore (agent : Nat) (s : State) : State :=
  if 2 ≤ agent && agent ≤ 5 then
    s.onMbx (fun m => { m with cores := m.cores.modify (agent - 2) (fun c => { c with wake := true }) })
  else s

/-- The sender of a notice learns of DONE (R458). -/
def State.tellSender (sender : Nat) (aborted : Bool) (s : State) : State :=
  if sender = 1 then s.raiseEv (if aborted then 234 else 233) else s.wakeCore sender

/-- A mailbox, changed. -/
def State.onBox (m : Nat) (f : Mailbox → Mailbox) (s : State) : State :=
  s.onMbx (fun x => { x with boxes := x.boxes.modify m f })

def State.box (s : State) (m : Nat) : Mailbox := s.mbx.boxes.getD m Mailbox.reset
def State.stile (s : State) (n : Nat) : Stile := s.mbx.stiles.getD n ⟨0, 0, false⟩

/-- One mailbox at the reset of its receiver (R455). -/
def State.abortBox (raise : Nat → Nat → State → State) (agent m : Nat) (s : State) : State :=
  if boxReceiver m = agent && (s.box m).state = .posted then
    let sender := (s.box m).sender
    let s := s.onBox m (fun b => { b with state := .done, result := 0xF1, aborted := true })
    (raise 97 255 s).tellSender sender true
  else s

/-- One mailbox at the reset of its sender (R455). -/
def State.orphanBox (raise : Nat → Nat → State → State) (agent m : Nat) (s : State) : State :=
  let b := s.box m
  if b.sender = agent && b.state = .posted then
    let s := s.onBox m (fun b => { b with orphan := true })
    let s := raise 96 255 s
    if agent = 1 || boxReceiver m = 1 then s.raiseEv 235 else s
  else if b.sender = agent && b.state = .done then s.onBox m (fun _ => Mailbox.reset)
  else s

/-- One stile at the reset of its holder. -/
def State.freeStile (agent n : Nat) (s : State) : State :=
  if (s.stile n).owner = agent then
    (s.onMbx (fun x => { x with stiles := x.stiles.modify n (fun _ => ⟨0, 0, false⟩) })).raiseEv 236
  else s

/-- The reset of an agent (R461), all in one step: the receiver's effect before the sender's. -/
def State.agentReset (raise : Nat → Nat → State → State) (agent : Nat) (s : State) : State :=
  let s := (List.range 16).foldl (fun s m => s.abortBox raise agent m) s
  let s := (List.range 16).foldl (fun s m => s.orphanBox raise agent m) s
  let s := (List.range 8).foldl (fun s n => s.freeStile agent n) s
  let s := if 3 ≤ agent && agent ≤ 5 then s.droverDrop (.firmware (agent - 2)) else s
  s.onMbx (fun x => { x with stages := x.stages.modify agent (fun _ => ⟨0, 0, 0, 0, 0⟩) })

/-- A core is reset (R452, R461): agent n + 2; its cause is shown, and it runs again when its domain is ON. -/
def State.coreReset (raise : Nat → Nat → State → State) (core cause : Nat) (run : Bool) (s : State) : State :=
  let s := s.agentReset raise (core + 2)
  let s := s.onMbx (fun x => { x with
    cores := x.cores.modify core (fun c => { c with cause := cause, wake := false, watchdog := 0, run := run }) })
  s.raiseEv 237

/-! ### Domains switched OFF -/

/-- The registers from lo to hi return to their reset values. -/
def State.clearRegs (lo hi : Nat) (s : State) : State :=
  { s with regs := s.regs.filter (fun p => !(lo ≤ p.1 && p.1 ≤ hi)) }

/-- A stored image is complete: a repeat re-reads it, and PIX is not needed to print (R99). -/
def Lay.rereads (l : Lay) : Bool := l.repeating && l.store.any (fun x => x.full)

/-- The work of JET ends with its power: the lanes give up their requests and grants (R418), a TRAIN fails with TRAIN_FAIL, and what else waits
for a hub with LINK_DOWN (R253; of a RETEST DESIGN CHOICE 51). -/
def State.failJet (s : State) : State :=
  let s := (List.range 32).foldl (fun s n => s.droverDrop (.lane n)) s
  let s := s.link.trains.foldl (fun s t => s.completeAt t.order 0x43 0) s
  let s := (s.link.reqs.filter (fun r => !r.dev)).foldl (fun s r => s.completeAt r.order 0x42 r.acked) s
  let s := s.link.sleeps.foldl (fun s x => s.completeAt x.order 0x42 0) s
  s.nozzle.retests.foldl (fun s r => s.completeAt r.order 0x42 0) s

/-- The transmitters of JET's lanes are without power (R395). -/
def State.idleLines (s : State) : State :=
  ((List.range 32).filter (fun n => (s.lane n).tstate ≠ .off)).foldl (fun s n => s.putLane n .idle) s

/-- What a domain loses when it enters OFF (R395): registers and on-chip memories return to reset values. The DRAM, and
the page tables that name it, hold through self-refresh (R350, R352). The pace meters stand in the Bellwether (R12), which AO holds,
and a repeat that re-reads its store goes on without PIX. -/
def State.loseDomain (raise : Nat → Nat → State → State) (d : Nat) (s : State) : State :=
  match d with
  | 4 => s.clearRegs 0x500000 0x6FFFFF
  | 5 => { s.clearRegs 0x800000 0x9FFFFF with
      lay := if s.lay.rereads then s.lay else Lay.reset, dfl := s.dfl.without (· < 8), ink := { Ink.reset with pace := s.ink.pace } }
  | 6 => { s.failJet.clearRegs 0xC00000 0xD7FFFF with jet := Jet.reset, link := Link.reset, nozzle := Nozzle.reset }
  | 7 =>
    let s := s.coreReset raise 2 3 false
    let s := s.clearRegs 0xA00000 0xAFFFFF
    let s := s.clearRegs 0xE00000 0xEFFFFF
    { s with see := See.reset, dfl := s.dfl.without (fun n => 8 ≤ n && n < 14), hold := { Hold.reset with active := s.hold.active } }
  | 8 =>
    let s := s.coreReset raise 3 3 false
    let s := s.clearRegs 0xF00000 0xF0003F
    let s := s.clearRegs 0xF00050 0xFFFFFF
    s.onNet (fun n => { n with
      ceilSeq := 0, ceilSent := false, ceilCauseAt := none, ceilLastAt := 0, ceilWait := none,
      ports := [Port.reset, Port.reset] })
  | 9 =>
    let s := if s.tally.state = .recording then s.endRecording 2 else s
    let s := if s.tally.late.isEmpty then s else s.storeLate
    let s := s.clearRegs 0x700000 0x7FFFFF
    let s := s.clearRegs 0x1000000 0x10FFFFF
    let s := s.dfl.ctxs.foldl (fun s c => s.droverDrop (.dfl c.1)) s
    let t := s.tally
    { s with dfl := { Dfl.reset with save := s.dfl.save, saveSince := s.dfl.saveSince, saveSaid := s.dfl.saveSaid },
             tally := { Tally.reset with region := t.region, pages := t.pages, chunks := t.chunks } }
  | _ => s

/-- A domain enters a state (R395, R397): EV206, and OFF loses its contents. -/
def State.setDomain (raise : Nat → Nat → State → State) (d : Nat) (p : PState) (s : State) : State :=
  if (s.domain d).state = p then s
  else
    let s := s.onDomain d (fun x => { x with state := p, want := none, lost := x.lost || p = .off })
    let s := if d = 6 then s.idleLines else s
    let s := if p = .off then s.loseDomain raise d else s
    s.raiseEv 206

/-- The power-down of OFF (R412, R429): PIX, JET, SEE, DFL and NET go OFF, MEM into self-refresh and OFF. -/
def State.powerDown (raise : Nat → Nat → State → State) (s : State) : State :=
  let s := [5, 6, 7, 9, 8].foldl (fun s d => s.setDomain raise d .off) s
  let s := s.enterSelfRefresh
  s.setDomain raise 4 .off

/-! ### Crook -/

/-- Crook stops a bar: HV_EN low, hv_en and arm cleared, disarmed, HOLD with reason 1 (R434). -/
def State.crookBar (b : Nat) (s : State) : State :=
  let s := s.barDisarm b 1
  let s := s.setF (Fld.JET_BAR_CTRL_hv_en b) 0
  s.onBar b (fun x => { x with hv := false })

/-- Crook enters the safe state with a cause; a further entry keeps the first cause (R434, R437). -/
def State.crookEnter (cause : Nat) (s : State) : State :=
  if s.crook.state = .clear then
    let s := (List.range 8).foldl (fun s b => s.crookBar b) s
    let s := s.onCrook (fun c => { c with state := .safe, pressStop := true, cause := cause })
    let s := s.bump ⟨Reg.CROOK_ENTRIES, 31, 0⟩ 1
    s.raiseEv 194
  else s

/-- Crook's safe state with the power-down of an OFF occurrence (R429, R437). -/
def State.crookOff (raise : Nat → Nat → State → State) (cause : Nat) (s : State) : State :=
  let s := s.crookEnter cause
  let s := s.flushHolds
  let s := s.powerDown raise
  s.onCrook (fun c => { c with state := .safeOff })

/-! ### Fold -/

/-- A bar scope as the list of its bars. -/
def scopeBars (bars : Nat) : List Nat := (List.range 8).filter (fun b => bitOf bars b)

/-- The severity of a source (R428, R448): FS072 is fixed at OFF; values above 4 are taken as 4. -/
def State.sevOf (s : State) (src : Nat) : Nat :=
  if src = 72 then 4
  else min 4 (bits (s.reg (Reg.FOLD_SEV (src / 8))) (3 * (src % 8) + 2) (3 * (src % 8)))

/-- A source is enabled (R425, R428). -/
def State.srcEnabled (s : State) (src : Nat) : Bool :=
  src = 72 || s.fb ⟨Reg.FOLD_ENABLE (src / 32), src % 32, src % 32⟩

/-- A bar is held by a source (R429, R430); one that is held already has nothing added by a LASTING re-entry (R441). -/
def State.holdBar (src b : Nat) (origin : Origin) (s : State) : State :=
  let was := s.fold.held.getD b false
  let s := s.onFold (fun f => { f with
    held := f.held.set b true,
    heldBy := f.heldBy.modify b (fun l => if l.contains src then l else l ++ [src]) })
  if was then (if origin = .lasting then s else s.barDisarm b 2) else (s.barDisarm b 2).raiseEv 193

/-- The sources that have a targeted self-test (R440). -/
def hasTest (s : State) (src target : Nat) : Bool :=
  match src with
  | 0 => s.fb (Fld.LINK_CTRL_retrain_auto target)
  | 8 | 9 | 13 | 26 | 44 | 82 => true
  | _ => 121 ≤ src

/-- A targeted self-test is pending (R440), and asks for its tokens in class SELF_TEST; a retraining asks for its own (R442). In replay it runs
without (DESIGN CHOICE 82). -/
def State.startTest (src bars target : Nat) (injected : Bool) (s : State) : State :=
  let s := s.onFold (fun f => { f with tests := f.tests ++ [⟨src, bars, target, injected⟩] })
  if src = 0 || s.replaying then s else s.droverAsk 1 (s.f (Fld.DROVER_CLASS_tokens 1)) (.selfTest src target)

/-- An occurrence is judged (R425 to R433): its sticky bit, count, effective severity and record, then its reaction.
`off` is the reaction OFF adds beyond Crook. -/
def State.judge (off : Nat → State → State) (src bars target sev : Nat) (origin : Origin) (s : State) : State :=
  if !s.srcEnabled src then s
  else
    let cls := src / 8
    let s := s.setSticky (Reg.FOLD_STICKY (src / 32)) (2 ^ (src % 32))
    let s := s.bumpSat (Fld.FOLD_COUNT_value src) 1
    let second := s.fb ⟨Reg.FOLD_OPEN, cls, cls⟩ && origin ≠ .lasting
    let esc := second && s.fb (Fld.FOLD_CLASS_escalate cls)
    let merged := second && !esc
    let eff := if esc then min 4 (sev + 1) else sev
    let s := s.setF ⟨Reg.FOLD_OPEN, cls, cls⟩ 1
    let s := s.onFold (fun f => { f with
      last := ⟨eff, esc, merged, origin = .lasting, origin = .forced, origin = .injected, bars, src⟩,
      stopSources := if eff ≥ 3 then (if f.stopSources.contains src then f.stopSources else f.stopSources ++ [src])
                     else f.stopSources.filter (· ≠ src),
      stopAt := if eff ≥ 3 then some s.now else f.stopAt })
    let s := if merged then s.bump ⟨Reg.FOLD_MERGE_CNT, 31, 0⟩ 1 else s.raiseEv 192
    let s := if esc then s.raiseEv 196 else s
    let s := s.tallyEntry 0x50 src (leBytes 1 eff ++ leBytes 1 bars ++ leBytes 2 0)
    let s :=
      if eff = 2 then (scopeBars bars).foldl (fun s b => s.holdBar src b origin) s
      else if eff = 3 then s.crookEnter src
      else if eff = 4 then (if origin = .lasting && s.crook.state = .safeOff then s else off src s)
      else s
    if (origin = .detector || origin = .injected) && hasTest s src target
        && !(s.fold.tests.any (fun t => t.source = src)) then
      s.startTest src bars target (origin = .injected)
    else s

/-- An occurrence raised by a reaction to an occurrence raised by a reaction: the reaction of OFF stops at Crook, whose
power-down is already under way. -/
def State.fault0 (src bars : Nat) (s : State) : State :=
  s.judge (fun c s => s.crookEnter c) src bars 0 (s.sevOf src) .detector

/-- An occurrence raised by a reaction. -/
def State.fault1 (src bars : Nat) (s : State) : State :=
  s.judge (fun c s => s.crookOff State.fault0 c) src bars 0 (s.sevOf src) .detector

/-- An occurrence with its severity given, its target for a self-test, and its origin. -/
def State.faultAs (src bars target sev : Nat) (origin : Origin) (s : State) : State :=
  s.judge (fun c s => s.crookOff State.fault1 c) src bars target sev origin

/-- An occurrence that a detector reports for some bars, with the unit that a self-test would test. -/
def State.faultAt (src bars target : Nat) (s : State) : State := s.faultAs src bars target (s.sevOf src) .detector

/-- An occurrence that a detector reports with the scope of R427: one bar. -/
def State.faultBar (src b : Nat) (s : State) : State := s.faultAt src (2 ^ b) b

/-- An occurrence that a detector reports with a scope. -/
def State.faultFor (src bars : Nat) (s : State) : State := s.faultAt src bars 0

/-- An occurrence that a detector reports for all bars. -/
def State.fault (src : Nat) (s : State) : State := s.faultAt src 255 0

end Sys2Proof.Machine
end

