-- ==== Sys2Proof/Machine/Time.lean ====
section
/-! DEFINITION. The passing of time: ticks of the 1 GHz tick, device time (R385), the fire position between edges (R163), and
the codewords that the lanes send (R214, R221, R225, R239), with the sleep of a bar's downstream (R245 to R248). -/

set_option Elab.async false

namespace Sys2Proof.Machine

/-! ### Transmit FIFOs -/

/-- Drop codes that a lane transmit FIFO holds, in bytes (R12). -/
def Lane.load (l : Lane) : Nat := (l.fifo.map (fun p => p.left)).sum

/-- The lanes in service of a half-bar. -/
def State.pairLanes (s : State) (b h : Nat) : List Nat := (s.halfLanes b h).filter (fun n => (s.lane n).inPair)

/-- A DOT packet is queued on the lanes in service of its half-bar that have room for it, and one that has none while its partner keeps pace
misses it (R12, R232, R237); where none has room it waits. -/
def State.giveDot (b : Nat) (p : DotPkt) (s : State) : State :=
  let lanes := s.pairLanes b p.half
  let fit := lanes.filter (fun n => (s.lane n).load + p.bytes.length ≤ 32768)
  if fit.isEmpty then s.onLinkBar b (fun l => { l with dots := l.dots ++ [p] })
  else lanes.foldl (fun s n => s.onLane n (fun l => if fit.contains n then { l with fifo := l.fifo ++ [p] } else { l with missed := true })) s

/-- A half-bar has DOT packets that wait for room. -/
def State.dotsWait (s : State) (b h : Nat) : Bool := (s.linkBar b).dots.any (fun p => p.half = h)

/-- The DOT packets of a bar that wait go to the FIFOs that have room by now, in their order; a half-bar without a lane sends nothing
(R235). -/
def State.refillDots (b : Nat) (s : State) : State :=
  let ps := (s.linkBar b).dots
  if ps.isEmpty then s
  else ps.foldl (fun s p =>
    if (s.pairLanes b p.half).isEmpty then s
    else if s.dotsWait b p.half then s.onLinkBar b (fun l => { l with dots := l.dots ++ [p] })
    else s.giveDot b p) (s.onLinkBar b (fun l => { l with dots := [] }))

/-! ### Sleep of the directions (R245 to R248) -/

/-- BAR_CFG SLEEPs and WAKEs whose directions have all reached their state, or been woken again since, complete (R252). -/
def State.settleSleeps (s : State) : State :=
  let reached := fun (x : SleepReq) => (scopeBars x.bars).all (fun b =>
    let l := s.linkBar b
    if x.wake then (!bitOf x.dirs 0 || (l.ds = .awake && !l.dsPending)) && (!bitOf x.dirs 1 || (l.us = .awake && !l.usPending))
    else (!bitOf x.dirs 0 || !l.dsPending) && (!bitOf x.dirs 1 || !l.usPending))
  let done := s.link.sleeps.filter reached
  let s := s.onLink (fun l => { l with sleeps := l.sleeps.filter (fun x => !done.contains x) })
  done.foldl (fun s x => s.completeAt x.order 0 0) s

/-- SLEEP naming downstream (R230). -/
def sleepsDown (p : InsPkt) : Bool := p.bytes.take 2 = [0x80, 1]

/-- The codewords that carry SLEEP naming downstream of a bar have all ended by an instant: the direction sleeps (R245, EV102), and wakes
at once where a cause has arisen meanwhile, or a control packet still waits (R246, R248). -/
def State.sleepGone (b at_ : Nat) (s : State) : State :=
  let x := s.linkBar b
  if !x.dsPending || x.dsEnd.any (at_ < ·) || (barLanes b).any (fun n => (s.lane n).ins.any sleepsDown) then s
  else
    let s := s.onLinkBar b (fun l => { l with ds := .asleep, dsPending := false, dsRewake := false, dsEnd := none, sleptAt := at_ })
    let s := (s.activeLanes b).foldl (fun s n => s.putLane n .idle) s
    let s := (s.laneEv (4 * b) 102).settleSleeps
    if x.dsRewake || (barLanes b).any (fun n => !(s.lane n).ins.isEmpty) then s.beginWake b at_ else s

/-- off_b in sublines (R176). -/
def State.offB (s : State) (b : Nat) : Int := (s.f (Fld.BELL_OFF_LO_value b) + 2 ^ 32 * s.f (Fld.BELL_OFF_HI_value b) : Nat)

/-- Number of the last web line that the fire position has reached over a bar's reference line (R165). -/
def State.barLine (s : State) (b : Nat) : Int := (s.bell.fire / 2 ^ 32 - s.offB b) / 65536

/-- Largest offset of a table (R179). -/
def Remap.oMax (r : Remap) : Nat := (r.entries.map (fun e => e.off)).foldl max 0

/-- o_max of the tables in force at a bar. -/
def Bar.oMax (b : Bar) : Nat :=
  match b.left.remap.toList ++ b.right.remap.toList with
  | [] => 1023
  | ts => (ts.map Remap.oMax).foldl max 0

/-- The reference line of a bar lies outside every image and at least sleep_margin lines short of the next line 0 (R246). -/
def State.farFromImage (s : State) (b : Nat) : Bool :=
  let c := s.barLine b
  let margin := orIfZero (s.f (Fld.LINK_BAR_CTRL_sleep_margin b)) 1
  let later := s.lay.spans.filter (fun p => c < p.m0)
  s.lay.spans.all (fun p =>
    if c < p.m0 then p.m0 - c ≥ margin
    else p.m0 + p.length + (if later.isEmpty then (s.bar b).oMax else 0) ≤ c)

/-- The source wheel is in STILL. -/
def State.sourceStill (s : State) : Bool := (s.wheel s.bell.src).state = .still

/-- Since when the source wheel has stood still with a bar far from an image (R246); that it begins anew ends the override of a BAR_CFG
WAKE (R252). -/
def State.noteFar (b : Nat) (s : State) : State :=
  let h := s.sourceStill && s.farFromImage b
  if h = (s.linkBar b).farSince.isSome then s
  else s.onLinkBar b (fun l => { l with farSince := if h then some s.now else none, dsOver := l.dsOver && !h })

/-! ### Codeword slots (R214, R225, R239) -/

/-- A lane sends codewords of service from an instant on: it is ACTIVE, its bar's downstream is awake, and SLEEP has not gone on it (R245). -/
def State.serves (s : State) (n : Nat) : Bool :=
  let x := s.linkBar (n / 4)
  (s.lane n).tstate = .active && x.ds = .awake && (!x.dsPending || (s.lane n).ins.any sleepsDown)

/-- The lanes on which an insertion goes out in the same codeword slot as on lane n: those of every bar that a CFG names, where it names
several (R239); else the lane alone (R225). -/
def State.holders (s : State) (n : Nat) (p : InsPkt) : List Nat :=
  if s.link.reqs.any (fun r => r.pkt = p.bytes && 1 < (scopeBars r.bars).length) then
    (List.range 32).filter (fun k => (s.lane k).ins.contains p)
  else [n]

/-- The head of a lane's insertion queue can go in some slot to come. -/
def State.canInsert (s : State) (n : Nat) : Bool :=
  match (s.lane n).ins with
  | [] => false
  | p :: _ => s.serves n && (s.holders n p).all s.serves

/-- The head of a lane's insertion queue goes in the slots that begin now on some lanes. -/
def State.inserts (s : State) (begun : List Nat) (n : Nat) : Bool :=
  match (s.lane n).ins with
  | [] => false
  | p :: _ => (s.holders n p).all (fun k => begun.contains k && (s.lane k).ins.head? = some p)

/-- A packet has been inserted on a lane at an instant: the retire point of its BAR_CFG, and the start of cfg_timeout (R252). -/
def State.inserted (at_ n : Nat) (p : List Byte) (s : State) : State :=
  let passed := fun (order : Nat) (s : State) => match s.descAt order with
    | some d => s.retire d
    | none => s
  if 8 ≤ leAt p 0 1 / 16 then
    let s := if p.take 2 = [0x80, 1] then
        s.onLinkBar (n / 4) (fun l => { l with dsEnd := some (max (l.dsEnd.getD 0) (at_ + codewordTime (s.lane n).rate)) })
      else s
    (s.link.sleeps.filter (fun x => bitOf x.bars (n / 4))).foldl (fun s x => passed x.order s) s
  else
    let s := (s.link.reqs.filter (fun r => !r.dev && r.pkt = p)).foldl (fun s r => passed r.order s) s
    s.onLink (fun l => { l with reqs := l.reqs.map (fun r => if r.pkt = p then { r with since := at_ } else r) })

/-- The codeword slots that begin at an instant, a multiple of 170 ns. -/
def State.slotsAt (at_ : Nat) (s : State) : State :=
  let s := (List.range 8).foldl (fun s b => s.sleepGone b at_) s
  let begun := (List.range 32).filter (fun n =>
    let t := codewordTime (s.lane n).rate
    s.serves n && at_ % t = 0 && (s.lane n).base < at_ / t)
  let go := begun.filter (fun n => s.inserts begun n)
  let sent := go.filterMap (fun n => (s.lane n).ins.head?.map (fun p => (n, p.bytes)))
  let s := begun.foldl (fun s n =>
    let l := s.lane n
    if go.contains n || !l.fifo.isEmpty then s.putSlots n (laneSlot n (at_ / codewordTime l.rate) (go.contains n) l) else s) s
  let s := sent.foldl (fun s x => s.inserted at_ x.1 x.2) s
  (List.range 8).foldl (fun s b => s.refillDots b) s

/-- The link is followed codeword by codeword: an insertion can go, the codeword of a SLEEP is to end, or DOT packets wait for room. -/
def State.linkBusy (s : State) : Bool :=
  (List.range 32).any s.canInsert
    || (List.range 8).any (fun b => (s.linkBar b).ds = .awake && ((s.linkBar b).dsEnd.isSome || [0, 1].any (fun h => s.dotsWait b h)))

/-- At most n slots of 170 ns after instant t; the instant reached. -/
def State.linkSteps : Nat → Nat → State → Nat × State
  | 0, t, s => (t, s)
  | n + 1, t, s => if s.linkBusy then State.linkSteps n (t + 170) (s.slotsAt (t + 170)) else (t, s)

/-- A lane's slots after instant t up to instant u, with the stream alone. -/
def State.streamTo (t u n : Nat) (s : State) : State :=
  let l := s.lane n
  if !s.serves n || l.fifo.isEmpty then s
  else
    let k := max (t / codewordTime l.rate) l.base
    s.putSlots n (laneSlots n (u / codewordTime l.rate - k) (k + 1) l)

/-- The link over dt ticks; without power JET sends nothing (R395). -/
def State.linkElapse (dt : Nat) (s : State) : State :=
  if !s.isOn 6 then s else
  let r := State.linkSteps ((s.now + dt) / 170 - s.now / 170) (s.now / 170 * 170) s
  (List.range 32).foldl (fun s n => s.streamTo (max s.now r.1) (s.now + dt) n) r.2

/-- fire_width and echo_ns in their ranges (R212). -/
def State.fireWidth (s : State) : Nat := clampNat 50 4000 (s.f Fld.JET_FIRE_WIDTH_fire_width)
def State.echoNs (s : State) : Nat := clampNat 500 3000 (s.f Fld.JET_ECHO_echo_ns)

/-- The pulses of a self-test: 2 µs apart, each over before the next is due (R204). -/
def State.testPulse (b : Nat) (lineB : Bool) (s : State) : State :=
  { s with out := s.out ++ [Out.pulse b lineB (min 1900 s.fireWidth), Out.pulseEnd b lineB] }

/-- The pulses of a self-test that fall due up to an instant (R204). -/
def State.testElapse (t b : Nat) (s : State) : State :=
  match (s.bar b).testing with
  | none => s
  | some x =>
    let n := min 16 ((t - x.start) / 2000 + 1)
    if n ≤ x.sent then s
    else
      let due := (List.range (n - x.sent)).map (fun i => x.start + 2000 * (x.sent + i))
      let s := s.onBar b (fun y => { y with testing := some { x with sent := n, out := x.out ++ due } })
      due.foldl (fun s _ => s.testPulse b x.lineB) s

/-- The difference of two positions of the same number of fraction bits, modulo 2^48 as a signed value (R153). -/
def posDiff (frac : Nat) (a b : Int) : Int := (a - b + 2 ^ (47 + frac)) % 2 ^ (48 + frac) - 2 ^ (47 + frac)

/-- A position lies beyond another, forward (R153). -/
def ahead (frac : Nat) (a b : Int) : Bool := 0 < posDiff frac a b

/-- The further forward of two positions (R153). -/
def posMax (frac : Nat) (a b : Int) : Int := if ahead frac b a then b else a

/-- The fire position at an instant of its present piece, held at the position where it waits (R163). -/
def Bell.fireAt (b : Bell) (t : Nat) : Int :=
  let f := b.segPos + b.rate * ((t - b.segAt : Nat) : Int)
  match b.fireStop with
  | some (p, fwd) => if fwd then min f (max b.segPos p) else max f (min b.segPos p)
  | none => f

/-- The fire position reaches a value: the high-water mark is the largest it has reached (R165). -/
def Bell.reach (f : Int) (b : Bell) : Bell := { b with fire := f, hwm := posMax 32 b.hwm f }

/-- Instants of the Bellwether that stand still while the replay clock is halted (R522). -/
def Bell.later (dt : Nat) (b : Bell) : Bell :=
  { b with
    segAt := b.segAt + dt, moveAt := b.moveAt + dt
    wheels := b.wheels.map (fun w => { w with edgeAt := w.edgeAt + dt, coastAt := w.coastAt + dt, bAt := w.bAt.map (· + dt) }) }

/-- Instants of a bar that stand still while the replay clock is halted. -/
def Bar.later (dt : Nat) (b : Bar) : Bar :=
  { b with lastFired := b.lastFired.map (Option.map (· + dt)), burstNext := b.burstNext.map (· + dt) }

/-- The replay clock over dt ticks (R522): it runs, or it is halted, and what it drives stands still with it. -/
def State.replayElapse (dt : Nat) (s : State) : State :=
  if s.replayBlocked then
    (s.onBell (Bell.later dt)).onJet (fun j => { j with bars := j.bars.map (Bar.later dt) })
  else if s.replaying then s.onTally (fun t => { t with clock := t.clock + dt })
  else s

/-- Wraps of device time within dt ticks: EV224 and a TIME entry for each (R385, R509). -/
def State.wrapEvents (n : Nat) (s : State) : State :=
  (List.range n).foldl (fun s _ => (s.raiseEv 224).tallyEntry 0x02 0 (leBytes 4 s.wraps)) s

/-- What happens in dt ticks. -/
def State.pass (dt : Nat) (s : State) : State :=
  if dt = 0 then s
  else
    let s := ((s.payAll s.now).linkElapse dt).dramElapse dt
    let s := (List.range 8).foldl (fun s b => s.testElapse (s.now + dt) b) s
    let s := s.replayElapse dt
    let s := s.onBell (fun b => b.reach (b.fireAt (s.now + dt)))
    let w := (s.net.ext + dt) / 2 ^ 32 - s.net.ext / 2 ^ 32
    let s := { s with now := s.now + dt, net := { s.net with ext := s.net.ext + dt } }
    (if s.memc.wipeDone then s else s.wipeNow).wrapEvents w

/-- The register file is kept as it stands before the present tick (R8). -/
def State.turnTick (s : State) : State := s.onSys (fun y => { y with before := s.regs, raised := [] })

/-- dt ticks pass; what happens in the last of them happens in the instant of the access that follows (R8). -/
def State.elapse (dt : Nat) (s : State) : State :=
  if dt = 0 then s
  else
    let s := (List.range 8).foldl (fun s b => s.noteFar b) s
    (s.pass (dt - 1)).turnTick.pass 1

end Sys2Proof.Machine
end

