-- ==== Sys2Proof/Machine/ReplayOps.lean ====
section
/-! DEFINITION. What ends work that is under way: the withdrawal of a descriptor (R56), the closing of a job without
completion and the end of replay (R524), and the comparison that replay makes (R523). -/

set_option Elab.async false

namespace Sys2Proof.Machine

/-- Every delay ring of a bar is freed (R179, R524). -/
def State.freeRings (b : Nat) (s : State) : State :=
  let s := s.padWithdraw (.ringOf b)
  let s := (s.paddock.regions.filter (fun r => r.holder = .ringOf b)).foldl (fun s r => s.padFreeId r.id) s
  s.onBar b (fun x => { x with ring := none, oldRings := [], nextSend := none })

/-- The region that a JOB_OPEN under way holds for a bar (R179): one that no ring of the bar uses. -/
def State.openRegion (s : State) (b : Nat) : Option Region :=
  let used := ((s.bar b).ring.toList ++ (s.bar b).oldRings).map (fun r => r.region)
  s.paddock.regions.find? (fun r => r.holder = .ringOf b && !used.contains r.id)

/-- A JOB_OPEN that is not decided is given up: no ring is taken (R179). -/
def State.unopenJob (s : State) : State :=
  let s := (List.range 8).foldl (fun s b =>
    let s := s.padWithdraw (.ringOf b)
    match s.openRegion b with
    | some r => s.padFreeId r.id
    | none => s) s
  let s := (s.padWithdraw .covOpen).padFree .covOpen
  s.onLay (fun l => { l with ask := none })

/-- A job ends at once, with no completion of its own (R524), and its rings are freed. -/
def State.dropJob (s : State) : State :=
  let s := (List.range 8).foldl (fun s b => (s.freeRings b).onBar b (fun x => { x with inUse := false })) s
  let s := s.padFree .repeatStore
  let s := s.padFree .grazeCopy
  let s := s.padFree .coverage
  let s := (s.padFree .covStore).padFree .grazeCov
  let s := s.onLay (fun l => { l with
    job := none, comp := none, stopped := false, commits := [], spans := [], store := none, repeating := false, leaving := false,
    rejects := [], prevSig := List.replicate 8 none, fetch := 0, judged := none })
  let s := (s.onJet (fun j => { j with mJob := none })).onDfl (fun d => d.without (· < 8))
  s.onHold (fun h => { h with
    covOk := false, cov := [], covPages := 0, covLines := 0, covStore := [], ests := [], papers := [], seenTo := [], closed := none,
    graze := .idle, grazeStore := none, grazeFill := none, grazeCov := [], grazeWant := false, grazed := [] })

/-- A packet that has not been inserted is taken out of the queues of some bars. -/
def State.unqueue (bars : Nat → Bool) (p : List Byte) (s : State) : State :=
  ((List.range 32).filter (fun k => bars (k / 4))).foldl (fun s k =>
    s.onLane k (fun l => { l with ins := l.ins.filter (fun q => q.bytes ≠ p) })) s

/-- The packets of a BAR_CFG SLEEP or WAKE, none inserted yet, are taken out of the queues, and what waited on them with them. -/
def State.unsleep (x : SleepReq) (s : State) : State :=
  let on := fun b => bitOf x.bars b
  let s := if bitOf x.dirs 0 && !x.wake then s.unqueue on (sleepPkt 1) else s
  let s := if bitOf x.dirs 1 then s.unqueue on (if x.wake then wakePkt 2 else sleepPkt 2) else s
  (scopeBars x.bars).foldl (fun s b => s.onLinkBar b (fun l => { l with
    dsPending := l.dsPending && (x.wake || !bitOf x.dirs 0), usPending := l.usPending && (x.wake || !bitOf x.dirs 1),
    us := if x.wake && bitOf x.dirs 1 && l.us = .waking then .asleep else l.us })) s

/-- The calibration of one port, changed. -/
def State.onCalPort (p : Nat) (f : CalPort → CalPort) (s : State) : State :=
  s.onCal (fun c => { c with ports := c.ports.modify p f })

/-- A CAL_RUN leaves the run of its port (R56, R502): of a TILE the strip run that it replaced is pending again, and a run that nothing asks
for any more is none. -/
def State.unrun (d : Desc) (p : Nat) (s : State) : State :=
  let c := s.calPort p
  if !c.descs.contains d.order then s
  else
    let s := s.onCalPort p (fun c => { c with descs := c.descs.filter (· ≠ d.order) })
    let tile := c.tile && d.byte 8 ≠ 0
    let kept := tile || c.auto || c.descs ≠ [d.order]
    if kept && tile = c.tile then s
    else (s.droverDrop (.cal p)).onCalPort p (fun c => { c with
      run := if kept then .pending else .idle, tile := tile, attempts := 0, meas := Meas.none, first := none })

/-- A descriptor whose retire point has not passed is withdrawn and leaves no effect (R32, R56). -/
def State.withdraw (d : Desc) (s : State) : State :=
  let n := d.order
  let s := (s.padWithdraw (.stage n)).padFree (.stage n)
  let s := (s.padWithdraw (.landing n)).padFree (.landing n)
  let s := (s.padWithdraw (.remap n)).padFree (.remap n)
  let s := if d.opcode = 0x40 then s.padWithdraw .tally else s
  let s := s.onLay (fun l => { l with
    waiting := l.waiting.map (fun bs => bs.filter (fun b => b.order ≠ n)),
    gone := l.gone.filter (fun c => c.order ≠ n),
    loads := l.loads.filter (fun x => x.1 ≠ n) })
  let s :=
    match s.lay.ask with
    | some a => if a.order = n then s.unopenJob else s
    | none => s
  let s := s.onSee (fun x => { x with buses := x.buses.map (fun b => { b with queue := b.queue.filter (· ≠ n) }) })
  let s := s.onCal (fun c => { c with
    writes := (c.writes.map (fun w => { w with parts := w.parts.filter (fun p => p.1 ≠ some n) })).filter (fun w => !w.parts.isEmpty) })
  let s := (List.range 6).foldl (fun s p => s.unrun d p) s
  let s := (s.link.trains.filter (fun t => t.order = n)).foldl (fun s t =>
    ((List.range 32).filter (fun k => bitOf t.bars (k / 4) && (s.lane k).awaiting)).foldl (fun s k =>
      (s.droverDrop (.lane k)).onLane k (fun l => { l with awaiting := false })) s) s
  let s := (s.link.reqs.filter (fun r => !r.dev && r.order = n)).foldl (fun s r => s.unqueue (fun b => bitOf r.bars b) r.pkt) s
  let s := (s.link.sleeps.filter (fun x => x.order = n)).foldl (fun s x => s.unsleep x) s
  let s := s.onLink (fun l => { l with
    trains := l.trains.filter (fun t => t.order ≠ n), sleeps := l.sleeps.filter (fun x => x.order ≠ n),
    reqs := l.reqs.filter (fun r => r.dev || r.order ≠ n) })
  s.onNozzle (fun z => { z with
    retests := z.retests.filter (fun r => r.order ≠ n),
    bars := z.bars.map (fun b => { b with
      queue := b.queue.filter (fun q => q.why ≠ .retest n), impWant := b.impWant.filter (· ≠ some n) }) })

/-- The end of replay (R524): bars disarmed, the job closed without completion, the outputs of R521 returned to normal control,
agent 6 reset (R461), EV244. -/
def State.replayEnd (s : State) : State :=
  let s := (List.range 8).foldl (fun s b => s.barDisarm b 3) s
  let s := s.dropJob
  let s := s.onTally (fun t => { t with state := .idle, play := [], expected := [], rings := [], haltSaid := false })
  let s := (List.range 8).foldl (fun s b => s.onBar b (fun x => { x with hv := s.fb (Fld.JET_BAR_CTRL_hv_en b) })) s
  let s := s.onCrook (fun c => { c with pressStop := c.state ≠ .clear })
  let s := s.agentReset State.faultFor 6
  s.raiseEv 244

/-- A divergence (R523): the first is written to the TALLY_DIV registers and raises EV245, later ones are counted; with
stop_on_div replay ends at the first. -/
def State.diverge (v : Diverge) (s : State) : State :=
  if s.tally.diverged then s.bump ⟨Reg.TALLY_DIV_CNT, 31, 0⟩ 1
  else
    let s := (s.onTally (fun t => { t with diverged := true, div := v })).raiseEv 245
    if s.tally.stopOnDiv then s.replayEnd else s

/-- The lowest ink whose CRC differs between two SIG payloads (TALLY_DIV_CAUSE.ink). -/
def sigInk (a b : List Byte) : Nat :=
  ((List.range 8).find? (fun i => leAt a (8 + 4 * i) 4 ≠ leAt b (8 + 4 * i) 4)).getD 0

/-- The divergence between a recorded entry and what replay has produced (R523, TALLY_DIV_CAUSE). -/
def divergeOf (kind sub : Nat) (was now : List Byte) : Diverge :=
  let ink := sigInk was now
  match kind with
  | 0x70 => ⟨1, ink, 0, leAt now 0 4, leAt now 4 4, leAt was (8 + 4 * ink) 4, leAt now (8 + 4 * ink) 4⟩
  | 0x71 => ⟨2, 0, sub, leAt now 0 4, 0, leAt was 4 4, leAt now 4 4⟩
  | 0x21 => ⟨3, 0, sub, 0, 0, leAt was 4 4, leAt now 4 4⟩
  | 0x11 => ⟨4, 0, sub, 0, 0, leAt was 0 4, leAt now 0 4⟩
  | _ => ⟨5, 0, 0, leAt now 0 4, 0, leAt was 4 4, leAt now 4 4⟩

/-- A happening that recording enters and replay compares: SIG, SCAN, INDEX, DESC, GAIN (R523). A recorded entry that has
been presented, or is still to be, is taken in its order. -/
def State.observe (kind sub : Nat) (payload : List Byte) (s : State) : State :=
  if s.replaying then
    let mine := fun (e : Entry) => e.kind = kind && e.sub = sub
    match (s.tally.expected ++ s.tally.play).find? mine with
    | none => s
    | some e =>
      let inExp := s.tally.expected.any mine
      let s := s.onTally (fun t =>
        if inExp then { t with expected := t.expected.eraseP mine } else { t with play := t.play.eraseP mine })
      if e.payload = payload then s else s.diverge (divergeOf kind sub e.payload payload)
  else s.tallyEntry kind sub payload

end Sys2Proof.Machine
end

