-- ==== Sys2Proof/Machine/Operands.lean ====
section
/-! DEFINITION. The operand forms of the descriptors and the checks of R45 on them: reserved fields and operand ranges, as
each owning chapter lays them out. -/

set_option Elab.async false

namespace Sys2Proof.Machine

/-- Bytes a to b of a descriptor are 0. -/
def Desc.zero (d : Desc) (a b : Nat) : Bool := ((d.bytes.drop a).take (b + 1 - a)).all (· = 0)

/-- A host buffer reference in range (R58); streamed says whether residency 1 is allowed. -/
def BufRef.ok (r : BufRef) (streamed : Bool) : Bool :=
  r.list % 64 = 0 && 1 ≤ r.pages && r.pages ≤ 2 ^ 24 && r.pageSize ≤ 2
    && (r.residency = 0 || (streamed && r.residency = 1)) && r.tags ≤ 1 && r.reserved = 0
    && r.length ≤ r.pages * pageBytes r.pageSize

/-- Pages of a buffer that its length reaches. -/
def BufRef.used (r : BufRef) : Nat := ceilDiv r.length (pageBytes r.pageSize)

/-- Bytes that are read for a buffer: with tags its pages are read whole. -/
def BufRef.taken (r : BufRef) : Nat := if r.tags = 1 then r.used * pageBytes r.pageSize else r.length

/-- The page list entries of a buffer pass the check of R557. -/
def BufRef.entsOk (r : BufRef) (es : List PageEnt) : Bool :=
  es.all (fun e => e.addr % pageBytes r.pageSize = 0 && (r.tags = 0 || e.top = 0))

/-- Pages against their tags (R58, R60). -/
def tagsHold (size : Nat) : List PageEnt → List Byte → Bool
  | [], _ => true
  | e :: es, bs => crc32c (bs.take size) = e.tag.toNat && tagsHold size es (bs.drop size)

/-- The host data of a descriptor as they come in (R58, R60, R557): none where list and bytes do not fit the buffer; else
the status that stands in the way, 0 for none, and the data. -/
def Desc.hostIn (d : Desc) (es : List PageEnt) (bs : List Byte) : Option (Nat × List Byte) :=
  let r := d.buf
  if es.length ≠ r.used || bs.length ≠ r.taken then none
  else if !r.entsOk es then some (0x11, [])
  else if r.tags = 1 && !tagsHold (pageBytes r.pageSize) es bs then some (0x17, [])
  else some (0, bs.take r.length)

/-- The page list of a descriptor whose buffer the device writes: none where it does not fit the buffer, else whether it
passes R557. -/
def Desc.hostOut (d : Desc) (es : List PageEnt) : Option Bool :=
  if es.length = d.buf.used then some (d.buf.entsOk es) else none

/-- A source format: channels, bits per sample (R74); none for a code outside the table. -/
def formatOf (code : Nat) : Option (Nat × Nat) :=
  match code with
  | 1 => some (1, 8) | 2 => some (1, 12) | 3 => some (2, 8) | 4 => some (2, 12) | 5 => some (3, 8) | 6 => some (3, 12)
  | 7 => some (4, 8) | 8 => some (4, 12) | 9 => some (8, 8) | 10 => some (8, 12) | 11 => some (1, 8) | 12 => some (1, 1)
  | _ => none

/-- Bytes of a source row, alpha included, and the stride (R75). -/
def rowBytes (format alphaMode w : Nat) : Nat :=
  match formatOf format with
  | some (_, 1) => ceilDiv w 8
  | some (c, n) => w * (c + (if alphaMode ≥ 2 then 1 else 0)) * (if n = 12 then 2 else 1)
  | none => 0

def rowStride (format alphaMode w : Nat) : Nat := ceilDiv (rowBytes format alphaMode w) 64 * 64

/-- Line-buffer need of R84. -/
def lineBufNeed (filter scaleX : Nat) : Nat := ceilDiv (3456 * 4096) scaleX + tapCount filter scaleX

/-- Scale in the range of R76. -/
def scaleOk (x : Nat) : Bool := 0x0D9A ≤ x && x ≤ 0x8000

/-- LAYER_SET operand ranges (R74, R76); the checks of R77 follow. -/
def layerSetOk (d : Desc) : Bool :=
  let g := d.num 16 8
  (formatOf (d.byte 9)).isSome
    && bits (d.byte 10) 3 2 = 0 && !bitOf (d.byte 10) 7
    && d.byte 11 % 4 ≤ 2 && !bitOf (d.byte 11) 3 && bits (d.byte 11) 6 4 ≤ 4 && !bitOf (d.byte 11) 7
    && bits (d.byte 12) 7 6 = 0 && d.zero 14 15
    && 1 ≤ bits g 34 17 && 1 ≤ bits g 58 35 && bits g 63 59 = 0
    && d.byte 27 = 0 && scaleOk (d.num 28 2) && scaleOk (d.num 30 2) && d.buf.ok true

/-- latch_lines in its range (R105). -/
def latchRange (n : Nat) : Nat := clampNat 8 4096 n

/-- The present latch_lines (R70, R88): of the open job, of the job that a JOB_OPEN under way opens, or of the register. -/
def State.latchLines (s : State) : Nat :=
  match s.lay.job, s.lay.ask with
  | some j, _ => j.latchLines
  | none, some a => a.job.latchLines
  | none, none => latchRange (s.f Fld.LAYER_CTRL_latch_lines)

/-- TABLE_LOAD selectors and lengths (R122, R123, R186, R329, R377). -/
def tableLoadOk (d : Desc) : Bool :=
  let t := d.byte 8
  let i := d.byte 9
  let u := d.byte 10
  let len := d.buf.length
  d.zero 11 31 && d.buf.ok false &&
  match t with
  | 0x01 => i ≤ 4 && u = 0 && len = 64
  | 0x02 => i ≤ 4 && u = 0 && len = 32768
  | 0x03 => i ≤ 4 && u = 0 && (len = 1336336 || len = 574992)
  | 0x04 => i ≤ 4 && u = 0 && len = 4096
  | 0x08 => u = 0 && ((i ≤ 7 && len = 8192) || (i = 0xFF && len = 65536))
  | 0x09 => i ≤ 7 && ((1 ≤ u && u ≤ 7 && len = 32768) || (u = 0 && len = 229376))
  | 0x0A => u = 0 && ((i ≤ 7 && len = 64) || (i = 0xFF && len = 512))
  | 0x10 => i ≤ 7 && u ≤ 2 && len = 8192
  | 0x11 => i ≤ 7 && u ≤ 2 && len = 8192
  | 0x12 => u = 0 && ((i ≤ 7 && len = 64) || (i = 0xFF && len = 512))
  | 0x13 => i ≤ 7 && u = 0 && len = 221184
  | 0x14 => i = 0 && u = 0 && len = 27648
  | 0x20 => i ≤ 7 && u = 0 && len = 272
  | 0x30 => i ≤ 15 && u = 0 && 1 ≤ len && len ≤ 32768
  | _ => false

/-- NOZZLE_MAP operands (R271). -/
def nozzleMapOk (d : Desc) : Bool :=
  let op := d.byte 8
  op ≤ 4 && d.byte 9 ≤ 7 && d.byte 10 ≤ 1 && d.zero 16 31
    && (if op = 3 then d.byte 11 ≤ 3 else d.byte 11 = 0)
    && (if op ≤ 2 then d.buf.ok false else d.zero 32 55)

/-- BAR_CFG operands (R251). -/
def barCfgOk (d : Desc) : Bool :=
  let op := d.byte 8
  let bars := d.byte 9
  let arg := d.byte 10
  let n := d.byte 11
  let rw := op = 1 || op = 2
  op ≤ 4 && (op ≠ 2 || (scopeBars bars).length = 1)
    && (if op ≤ 0 then arg ≤ 3 else if op ≥ 3 then arg ≤ 3 else arg = 0)
    && (if rw then 1 ≤ n && n ≤ 8 && d.num 12 4 % 4 = 0 else n = 0 && d.num 12 4 = 0)
    && (if op = 2 then d.num 16 8 % 4 = 0 else d.zero 16 23)
    && (if op = 1 then n = 8 || d.zero (24 + 4 * n) 55 else d.zero 24 55)

/-- CAL_RUN operands (R504). -/
def calRunOk (d : Desc) : Bool :=
  let op := d.byte 8
  op ≤ 3 && d.zero 13 31
    && (if op ≤ 1 then d.byte 9 ≤ 5 && d.num 10 2 = 0 && d.byte 12 = 0 && d.zero 32 55
        else d.byte 9 = 0 && d.buf.ok false)

/-- CAM_CFG operands (R300). -/
def camCfgOk (d : Desc) : Bool := d.byte 8 ≤ 3 && d.byte 9 ≤ 5 && d.zero 10 31 && d.buf.ok false

/-- EXPOSE_SET operands (R285). -/
def exposeOk (d : Desc) : Bool :=
  let n := d.byte 9
  d.byte 8 ≤ 5 && 1 ≤ n && n ≤ 32 && d.num 10 2 ≠ 0 && d.zero 16 23 && (n = 32 || d.zero (24 + n) 55)

/-- TALLY_CTL operands (R526). -/
def tallyCtlOk (d : Desc) : Bool :=
  let op := d.byte 8
  let fl := d.byte 9
  op ≤ 4 && d.zero 10 11 && d.zero 20 31
    && (if op = 0 || op = 3 then fl ≤ 3 else if op = 4 then fl ≤ 1 else fl = 0)
    && (if op = 0 then 1 ≤ d.num 12 4 && d.num 12 4 ≤ 65536 else d.num 12 4 = 0)
    && (op = 2 || d.num 16 4 = 0)
    && (if op = 2 || op = 4 || (op = 3 && bitOf fl 1) then d.buf.ok false else d.zero 32 55)

/-- Reserved fields and operand ranges of a descriptor of a known opcode (R45), judged at arrival by the latch_lines and lead_min of the open job
or else of the registers (DESIGN CHOICE 77: a JOB_OPEN that comes before has perhaps not sampled its own yet). -/
def State.operandsOk (s : State) (d : Desc) : Bool :=
  match d.opcode with
  | 0x01 =>
    let w := d.num 12 4
    1 ≤ w && w ≤ 110592 && s.f Fld.LAYER_LEAD_MIN_lead_min ≤ d.num 16 4 && (d.byte 20 = 2 || d.byte 20 = 3) && d.zero 21 55
  | 0x02 => d.zero 12 55
  | 0x10 => layerSetOk d
  | 0x11 => d.byte 8 ≤ 7 && d.zero 9 55
  | 0x12 =>
    d.byte 12 ≤ 7 && d.zero 13 15 && d.byte 19 = 0 && d.byte 23 = 0 && d.zero 24 55
      && 128 ≤ d.num 16 4 && s.latchLines < d.num 16 4
  | 0x20 => tableLoadOk d
  | 0x21 => nozzleMapOk d
  | 0x22 => barCfgOk d
  | 0x30 => calRunOk d
  | 0x31 => camCfgOk d
  | 0x32 => exposeOk d
  | 0x40 => tallyCtlOk d
  | 0x50 => d.zero 8 31 && d.buf.ok false && d.buf.length ≤ 4194304
  | 0x7E => d.byte 8 ≤ 1 && d.byte 9 ≤ 1 && d.zero 10 55
  | 0x7F => d.byte 8 < 64 && d.byte 9 = 0 && d.zero 14 55
  | _ => true

/-- An opcode of the table of R46. -/
def opcodeKnown (op : Nat) : Bool :=
  [0x01, 0x02, 0x10, 0x11, 0x12, 0x20, 0x21, 0x22, 0x30, 0x31, 0x32, 0x40, 0x50, 0x7E, 0x7F].contains op

/-- The check of R45 on a descriptor of a ring: none when it passes, else the status. -/
def State.checkDesc (s : State) (d : Desc) : Option Nat :=
  if (bitOf (d.byte 1) 1 || s.fb (Fld.HIF_RING_CFG_check d.ring)) && crc32c (d.bytes.take 60) ≠ d.num 60 4 then some 0x12
  else if !opcodeKnown d.opcode then some 0x10
  else if bits (d.byte 1) 7 2 ≠ 0 || !d.zero 56 59 || !s.operandsOk d then some 0x11
  else none

end Sys2Proof.Machine
end

