-- ==== Sys2Proof/Machine/Tables.lean ====
section
/-! DEFINITION. Tables of colour conversion, screening, the hold loop and interlacing: their slots, their reset contents, their
content checks (R108 to R133, R182 to R188, R329 to R331, R377). -/

set_option Elab.async false

namespace Sys2Proof.Machine

/-! ### Slots (R125) -/

/-- The slot of a table, if one has ever been made. -/
def State.tslot (s : State) (typ index sub : Nat) : Option TSlot :=
  s.ink.slots.find? (fun t => t.typ = typ && t.index = index && t.sub = sub)

/-- The active content of a slot; none for the reset contents. -/
def State.tbl (s : State) (typ index sub : Nat) : Option (List Byte) := (s.tslot typ index sub).bind (fun t => t.active)

/-- A slot, changed; it is made where it is missing. -/
def State.onSlot (typ index sub : Nat) (f : TSlot → TSlot) (s : State) : State :=
  s.onInk (fun k =>
    if k.slots.any (fun t => t.typ = typ && t.index = index && t.sub = sub) then
      { k with slots := k.slots.map (fun t => if t.typ = typ && t.index = index && t.sub = sub then f t else t) }
    else { k with slots := k.slots ++ [f ⟨typ, index, sub, none, 0, none⟩] })

/-- The slots that a load covers, with the bytes for each (R122, R125, R329): an all-inks or all-levels load covers
several. -/
def tablePieces (typ index sub : Nat) (data : List Byte) : List (Nat × Nat × Nat × List Byte) :=
  let cut := fun (n size : Nat) => (data.drop (n * size)).take size
  if typ = 0x08 && index = 0xFF then (List.range 8).map (fun i => (typ, i, 0, cut i 8192))
  else if (typ = 0x0A || typ = 0x12) && index = 0xFF then (List.range 8).map (fun i => (typ, i, 0, cut i 64))
  else if typ = 0x09 && sub = 0 then (List.range 7).map (fun k => (typ, index, k + 1, cut k 32768))
  else [(typ, index, sub, data)]

/-- Entry n of a table of 16-bit entries. -/
def entry16 (bs : List Byte) (n : Nat) : Nat := leAt bs (2 * n) 2

/-- The value of entry n of a table of 12-bit values: bits [11:0] of its word. -/
def entry12 (bs : List Byte) (n : Nat) : Nat := entry16 bs n % 4096

/-! ### Colour sets (R108 to R117) -/

/-- A colour set as composition reads it; none for reset contents of a table (R127). -/
structure ColourSet where
  header : Option (List Byte)
  precurve : Option (List Byte)
  separation : Option (List Byte)
  palette : Option (List Byte)
  deriving DecidableEq, Repr, Inhabited

/-- Colour set CSn. -/
def State.colourSet (s : State) (n : Nat) : ColourSet := ⟨s.tbl 1 n 0, s.tbl 2 n 0, s.tbl 3 n 0, s.tbl 4 n 0⟩

/-- CSP (R117): reset contents until C0 installs it. -/
def State.cspSet (s : State) : ColourSet :=
  match s.ink.csp with
  | some c => ⟨some c.header, some c.precurve, some c.separation, some c.palette⟩
  | none => ⟨none, none, none, none⟩

/-- Matrix coefficient m[r][c] (R108, R127). -/
def ColourSet.coef (k : ColourSet) (r c : Nat) : Int :=
  match k.header with
  | some h => ofTwos 16 (leAt h (4 + 2 * (4 * r + c)) 2)
  | none => if r = c then 4096 else 0

def ColourSet.offset (k : ColourSet) (r : Nat) : Int :=
  match k.header with
  | some h => ofTwos 16 (leAt h (36 + 2 * r) 2)
  | none => 0

def ColourSet.direct (k : ColourSet) : Bool :=
  match k.header with
  | some h => leAt h 0 1 = 1
  | none => true

def ColourSet.inkMap (k : ColourSet) (r : Nat) : Nat :=
  match k.header with
  | some h => leAt h (44 + r) 1
  | none => r

/-- Matrix output r (R110). -/
def ColourSet.matrix (k : ColourSet) (xs : List Nat) (r : Nat) : Nat :=
  let sum := ((List.range 4).map (fun c => k.coef r c * (xs.getD c 0 : Int))).sum
  clampTo 4095 (sar (sum + 2048) 12 + k.offset r)

/-- Pre-curve output r (R111). -/
def ColourSet.curve (k : ColourSet) (r y : Nat) : Nat :=
  match k.precurve with
  | some p => entry12 p (4096 * r + y)
  | none => y

/-- The table is 3-D (R112). -/
def ColourSet.threeD (k : ColourSet) : Bool :=
  match k.separation with
  | some d => d.length = 574992
  | none => false

/-- Ink i of the node with the given grid indices (R112). -/
def ColourSet.node (k : ColourSet) (idx : List Nat) (i : Nat) : Nat :=
  match k.separation with
  | some d =>
    let n := if k.threeD then 33 else 17
    entry12 d (8 * idx.foldl (fun a x => a * n + x) 0 + i)
  | none => 0

/-- Axes in descending order of their fractions, equal ones by number (R113). -/
def sortAxes (fs : List Nat) : List Nat :=
  let ins := fun (a : Nat) (l : List Nat) =>
    l.takeWhile (fun b => fs.getD b 0 ≥ fs.getD a 0) ++ a :: l.dropWhile (fun b => fs.getD b 0 ≥ fs.getD a 0)
  (List.range fs.length).foldl (fun l a => ins a l) []

/-- The vertices from the base, one more unit step at each (R113). -/
def vertices : List Nat → List Nat → List (List Nat)
  | v, [] => [v]
  | v, a :: as => v :: vertices (v.modify a (· + 1)) as

/-- Weights from the sorted fractions: one − f_a, f_a − f_b, …, the last fraction (R113, R114). -/
def simplexWeights (one : Nat) : List Nat → List Nat
  | [] => [one]
  | f :: fs => (one - f) :: simplexWeights f fs

/-- Simplex interpolation of ink i on the axes given (R113, R114): shift is 8 for 4-D and 7 for 3-D. -/
def ColourSet.interp (k : ColourSet) (shift : Nat) (ys : List Nat) (i : Nat) : Nat :=
  let one := 2 ^ shift
  let base := ys.map (· / one)
  let fs := ys.map (· % one)
  let ord := sortAxes fs
  let vs := vertices base ord
  let ws := simplexWeights one (ord.map (fun a => fs.getD a 0))
  ((vs.zip ws).map (fun p => p.2 * k.node p.1 i)).sum + one / 2 |> (· / one)

/-- Steps 3 to 5 of R106: source channels to eight inks. -/
def ColourSet.inks (k : ColourSet) (xs : List Nat) : List Nat :=
  let ys := (List.range 4).map (fun r => k.curve r (k.matrix xs r))
  if k.direct then
    (List.range 8).map (fun i =>
      match (List.range 4).find? (fun r => k.inkMap r = i) with
      | some r => ys.getD r 0
      | none => 0)
  else if k.threeD then (List.range 8).map (k.interp 7 (ys.take 3))
  else (List.range 8).map (k.interp 8 ys)

/-- Palette entry n (R116). -/
def ColourSet.paletteInks (k : ColourSet) (n : Nat) : List Nat :=
  match k.palette with
  | some p => (List.range 8).map (fun i => entry12 p (8 * n + i))
  | none => List.replicate 8 0

/-! ### Linearisation, screens and tiles -/

/-- LIN_i[v] (R118). -/
def State.linear (s : State) (i v : Nat) : Nat :=
  match s.tbl 8 i 0 with
  | some d => entry12 d v
  | none => v

/-- T_k(u, v) of an ink (R133). -/
def State.tileAt (s : State) (i k u v : Nat) : Nat :=
  match s.tbl 9 i k with
  | some d => entry12 d (128 * v + u)
  | none => 2048

/-- A SCREEN block (R131). -/
structure Screen where
  wbd : Nat
  wb : Nat
  wfd : Nat
  clamp : Nat
  seed : Nat
  d : List Nat
  q : List Nat
  amp : List Nat
  cw1 : Nat
  cw2 : Nat
  sub : Nat
  comp : Bool
  deriving DecidableEq, Repr, Inhabited

/-- The reset contents of a SCREEN block (R127). -/
def Screen.reset : Screen :=
  ⟨3, 5, 1, 4095, 0, [0, 1365, 2730, 4095, 0, 0, 0, 0], [683, 2048, 3413, 0, 0, 0, 0], [0, 0, 0, 0, 0, 0, 0], 0, 0, 0, true⟩

/-- The SCREEN block of bytes. -/
def screenOf (b : List Byte) : Screen :=
  ⟨leAt b 1 1, leAt b 2 1, leAt b 3 1, leAt b 4 2, leAt b 6 1, (List.range 8).map (fun k => leAt b (8 + 2 * k) 2),
   (List.range 7).map (fun k => leAt b (24 + 2 * k) 2), (List.range 7).map (fun k => leAt b (40 + k) 1), leAt b 48 1,
   leAt b 49 1, leAt b 50 1, bitOf (leAt b 51 1) 0⟩

/-- The SCREEN block of an ink. -/
def State.screen (s : State) (i : Nat) : Screen :=
  match s.tbl 0x0A i 0 with
  | some b => screenOf b
  | none => Screen.reset

/-- Levels of an ink (R132). -/
def Screen.levels (c : Screen) (codeBits : Nat) : Nat := if codeBits = 2 || c.d.getD 4 0 = 0 then 3 else 7

/-- A list of numbers rises strictly. -/
def rising : List Nat → Bool
  | a :: b :: r => a < b && rising (b :: r)
  | _ => true

/-- The check of a SCREEN block (R132). -/
def screenOk (b : List Byte) : Bool :=
  let c := screenOf b
  let d := fun k => c.d.getD k 0
  let q := fun k => c.q.getD (k - 1) 0
  let seven := d 4 ≠ 0
  leAt b 0 1 ≤ 16 && c.wbd ≤ 16 && c.wb ≤ 16 && c.wfd ≤ 16 && leAt b 0 1 + c.wbd + c.wb + c.wfd = 16
    && d 0 = 0 && rising [d 1, d 2, d 3] && d 3 ≤ 4095
    && (!seven || (rising [d 3, d 4, d 5, d 6, d 7] && d 7 ≤ 4095))
    && (List.range 7).all (fun i => (i ≥ 3 && !seven) || (d i ≤ q (i + 1) && q (i + 1) ≤ d (i + 1)))
    && c.clamp ≤ 4095 && 2 * (c.cw1 + c.cw2) ≤ 16 && c.sub ≤ 16
    && leAt b 7 1 = 0 && leAt b 38 2 = 0 && leAt b 47 1 = 0 && leAt b 51 1 ≤ 1 && (b.drop 52).all (· = 0)

/-! ### Other checks of content -/

/-- A colour set header (R124). -/
def headerOk (b : List Byte) : Bool :=
  let map := (List.range 4).map (fun r => leAt b (44 + r) 1)
  let named := map.filter (· ≠ 0xFF)
  leAt b 0 1 ≤ 1 && (b.drop 1 |>.take 3).all (· = 0) && (b.drop 48).all (· = 0)
    && map.all (fun i => i ≤ 7 || i = 0xFF) && (named.eraseDups).length = named.length

/-- Bits [15:12] of every 16-bit entry are 0 (R124). -/
def nibblesOk : List Byte → Bool
  | _ :: h :: r => h.toNat < 16 && nibblesOk r
  | _ => true

/-- The 16-bit entries of a table. -/
def entries16 : List Byte → List Nat
  | l :: h :: r => (l.toNat + 256 * h.toNat) :: entries16 r
  | _ => []

/-- The entries of a table do not decrease. -/
def notFalling : List Nat → Bool
  | a :: b :: r => a ≤ b && notFalling (b :: r)
  | _ => true

/-- A HOLD_INK block (R329). -/
def holdInkOk (b : List Byte) : Bool :=
  leAt b 0 1 ≤ 2 && 129 ≤ leAt b 1 1 && leAt b 2 2 ≤ 4095 && leAt b 4 2 ≤ 4095 && leAt b 2 2 ≤ leAt b 4 2
    && leAt b 6 2 = 0 && leAt b 23 1 = 0 && (b.drop 28).all (· = 0)

/-- The content check of one piece of a table (R124, R330); interlace tables are checked apart. -/
def State.pieceOk (s : State) (typ : Nat) (data : List Byte) : Bool :=
  match typ with
  | 0x01 => headerOk data
  | 0x02 | 0x03 | 0x04 | 0x08 | 0x09 => nibblesOk data
  | 0x0A => screenOk data
  | 0x10 => leAt data 0 2 = 0 && notFalling (entries16 data)
  | 0x12 => holdInkOk data
  | 0x14 => (entries16 data).all (fun c => s.f Fld.HOLD_LIMITS_g_min ≤ c && c ≤ s.f Fld.HOLD_LIMITS_g_max)
  | _ => true

/-! ### Interlace and remap tables (R182 to R188) -/

/-- An interlace entry of a word (R186). -/
def ilEntryOf (w : Nat) : IlEntry := ⟨bits w 15 8, bitOf w 4, bits w 3 2, bits w 1 0⟩

/-- An interlace table of its 272 bytes. -/
def interlaceOf (b : List Byte) : Interlace := ⟨(List.range (leAt b 0 1)).map (fun j => ilEntryOf (leAt b (16 + 4 * j) 4)), crc32c b⟩

/-- The entry of a job line (R186). -/
def Interlace.at (il : Interlace) (y : Nat) : IlEntry := il.entries.getD (y % max 1 il.entries.length) ⟨0, false, 0, 0⟩

/-- Sub-rows that an entry names. -/
def IlEntry.names (e : IlEntry) : List Nat := if e.two then [e.subA, e.subB] else [e.subA]

/-- Content check of an interlace table for a bar of n sub-rows (R187), whose list leaves the reserved bits unchecked; ms says that its ring stores
two strikes. -/
def interlaceOk (n : Nat) (ms : Bool) (b : List Byte) : Bool :=
  let t := leAt b 0 1
  1 ≤ t && t ≤ 64
    && (List.range 64).all (fun j =>
      let w := leAt b (16 + 4 * j) 4
      let e := ilEntryOf w
      if j ≥ t then w = 0
      else e.names.all (· < n)
        && (if e.two then e.subB ≠ e.subA && e.split ≠ 0 && ms else e.subB = 0 && e.split = 0))

/-- The steps between successive lines of a list of lines, and from its last round to its first, in a period. -/
def stepsOf (t : Nat) (ls : List Nat) : List Nat :=
  match ls with
  | [] => []
  | a :: _ => (ls.zip (ls.drop 1 ++ [a + t])).map (fun p => p.2 - p.1)

/-- s_min of a table (R187). -/
def Interlace.sMin (il : Interlace) : Nat :=
  let t := il.entries.length
  let rows := (il.entries.flatMap IlEntry.names).eraseDups
  let all := rows.flatMap (fun r => stepsOf t ((List.range t).filter (fun j => (il.at j).names.contains r)))
  all.foldl min t

/-- Share of multi-strike lines in the period, as (lines, period) (R20). -/
def Interlace.multi (il : Interlace) : Nat × Nat := (il.entries.countP (fun e => e.two), max 1 il.entries.length)

/-- An entry of a remap table of its word (R182). -/
def remapEntryOf (w : Nat) : RemapEntry :=
  ⟨bits w 31 15, bits w 14 13, bits w 12 3, bitOf w 2, bitOf w 1, bitOf w 0⟩

/-- The 32-bit words of a byte list. -/
def words32 : List Byte → List Nat
  | a :: b :: c :: d :: r => leNat [a, b, c, d] :: words32 r
  | _ => []

/-- Two entries follow one another in a run, rising or falling (R183). -/
def RemapEntry.follows (a b : RemapEntry) (up : Bool) : Bool :=
  a.sub = b.sub && a.off = b.off && a.rev = b.rev && a.disabled = b.disabled && a.spare = b.spare
    && (if up then b.pos = a.pos + 1 else a.pos = b.pos + 1)

/-- Runs of a remap table (R183): the longest sequences, taken from the front; the direction of a run is fixed by its second
entry. -/
def countRuns : Option (RemapEntry × Option Bool) → List RemapEntry → Nat
  | none, [] => 0
  | some _, [] => 1
  | none, e :: r => countRuns (some (e, none)) r
  | some (a, none), e :: r =>
    if a.follows e true then countRuns (some (e, some true)) r
    else if a.follows e false then countRuns (some (e, some false)) r
    else 1 + countRuns (some (e, none)) r
  | some (a, some up), e :: r =>
    if a.follows e up then countRuns (some (e, some up)) r else 1 + countRuns (some (e, none)) r

/-- The half-bar of a bar. -/
def Bar.half (b : Bar) (h : Nat) : Half := if h = 0 then b.left else b.right
def Bar.onHalf (h : Nat) (f : Half → Half) (b : Bar) : Bar :=
  if h = 0 then { b with left := f b.left } else { b with right := f b.right }

/-- Remap tables of a half-bar in force or waiting, and interlace tables of a bar likewise (R188). -/
def Half.tables (h : Half) : List Remap := h.remap.toList ++ h.remapWait.map (fun p => p.2)
def Bar.interlaces (b : Bar) : List Interlace := b.il :: (b.ilWait.map (fun p => p.2)).toList

/-- The residue rule between one remap table and one interlace table (R188). -/
def residueOk (r : Remap) (il : Interlace) : Bool :=
  let t := max 1 il.entries.length
  let offs := (r.entries.filter (fun e => !e.disabled)).map (fun e => e.off % t)
  offs.all (· = offs.headD 0)

/-- r_h of a half-bar under the table in force (R188); 0 without a remap table. -/
def Bar.residue (b : Bar) (h : Nat) : Nat :=
  match (b.half h).remap with
  | some r => ((r.entries.filter (fun e => !e.disabled)).map (fun e => e.off % max 1 b.il.entries.length)).headD 0
  | none => 0

/-- o_max of a bar (R179): over its tables in force or waiting, 1,023 if it has none. -/
def Bar.oMaxSize (b : Bar) : Nat :=
  match b.left.tables ++ b.right.tables with
  | [] => 1023
  | ts => (ts.map Remap.oMax).foldl max 0

/-! ### Dictionaries -/

/-- The dictionary in force with a DICTID, the lowest slot first (R378). -/
def State.dictById (s : State) (id : Nat) : Option (List Byte) :=
  let have_ := s.dfl.dicts.filter (fun p => p.2.id = id)
  let lowest := have_.foldl (fun m p => min m p.1) 16
  (have_.find? (fun p => p.1 = lowest)).map (fun p => p.2.data)

end Sys2Proof.Machine
end

