-- ==== Sys2Proof/Machine/Ceiling.lean ====
section
/-! DEFINITION. The speed ceiling (R17 to R23, R171, R172) and the overspeed limits of the bars (R169). -/

set_option Elab.async false

namespace Sys2Proof.Machine

/-- Down-web resolution, dpi (R155). -/
def State.dpi (s : State) : Nat := if s.fb Fld.BELL_CTRL_res_600 then 600 else 1200

/-- Bars in use in the job. -/
def State.barsUsed (s : State) : List Nat := (List.range 8).filter (fun b => (s.bar b).inUse)

/-- The lower of two optional terms with its unit; the earlier one on a tie. -/
def lower (a b : Option (Nat × Nat)) : Option (Nat × Nat) :=
  match a, b with
  | none, x => x
  | x, none => x
  | some p, some q => if q.1 < p.1 then some q else some p

/-- The lowest of a list of terms. -/
def lowest (ts : List (Option (Nat × Nat))) : Option (Nat × Nat) := ts.foldl lower none

/-- Pace term (R20): over the engines that own a position of the open job and have a measured pace. -/
def State.paceTerm (s : State) : Option (Nat × Nat) :=
  match s.lay.job with
  | none => none
  | some j => lowest ((List.range 32).map (fun e =>
      let n := min j.width (3456 * e + 3456) - 3456 * e
      match (s.ink.pace.getD e Pace.reset).low with
      | some p => if n = 0 then none else some (p * 1000000 / n, e)
      | none => none))

/-- DRAM term (R18, R20). -/
def State.dramTerm (s : State) : Option (Nat × Nat) :=
  match s.lay.job with
  | none => none
  | some j =>
    let den := 8 * s.lay.fetch + 2 * s.barsUsed.length * j.width * j.codeBits
    if den = 0 then none else some (8 * (150000000000 * s.memc.n / 8 - 8000000000) / den, 0)

/-- Payload of a lane rate, bit/s (R17). -/
def ratePayload (rate : Nat) : Nat :=
  if rate = 3 then 29500000000 else if rate = 2 then 14750000000 else if rate = 1 then 7375000000 else 0

/-- Link term of one bar (R20): its lowest lane rate in service, its larger half-bar, the multi-strike share of its
table. A bar without a lane in service, or without a remap table, has no payload or no width and gives no term (DESIGN CHOICE, log entry
81: R20 does not say). -/
def State.linkTermOf (s : State) (codeBits b : Nat) : Option (Nat × Nat) :=
  let lanes := (List.range 4).filter (fun i => (s.lane (4 * b + i)).inPair)
  let pays := lanes.map (fun i => ratePayload (s.lane (4 * b + i)).rate)
  let x := s.bar b
  let w := max x.left.width x.right.width
  let m := x.il.multi
  match pays with
  | [] => none
  | p :: ps =>
    let den := w * codeBits * (m.2 + m.1)
    if den = 0 then none else some (ps.foldl min p * m.2 / den, 0)

def State.linkTerm (s : State) : Option (Nat × Nat) :=
  match s.lay.job with
  | none => none
  | some j => lowest (s.barsUsed.map (s.linkTermOf j.codeBits))

/-- limit_b (R169): none for a bar whose fmax_b is 0. -/
def State.limitOf (s : State) (b : Nat) : Option Nat :=
  let f := s.f (Fld.BELL_FMAX_fmax_b b)
  if f = 0 then none else some (f * (s.bar b).il.sMin)

/-- Head term (R20). -/
def State.headTerm (s : State) : Option (Nat × Nat) :=
  lowest ((List.range 8).map (fun b => (s.limitOf b).map (fun l => (l, b))))

/-- The limiting term: code, lines/s, unit (R20, R171); the lowest code on a tie. With no job open the pace, DRAM and link terms are absent,
although bars may still print from their rings: R20 does not say which width and codes would apply then (DESIGN CHOICE, log entry 81). -/
def State.ceilingNow (s : State) : Nat × Nat × Nat :=
  let ts := [(1, s.paceTerm), (2, s.dramTerm), (3, s.linkTerm), (4, s.headTerm), (5, some (118110, 0))]
  ts.foldl (fun (a : Nat × Nat × Nat) t =>
    match t.2 with
    | some v => if v.1 < a.2.1 || (v.1 = a.2.1 && t.1 < a.1) then (t.1, v.1, v.2) else a
    | none => a) (5, 118110, 0)

/-- The ports on which the ceiling message is sent (R391): selected, with their link up; none in replay (R521). -/
def State.ceilPorts (s : State) : List Nat :=
  if s.replaying || !s.isOn 8 then []
  else (List.range 2).filter (fun p => bitOf (s.f Fld.NET_CEIL_CFG_ceil_ports) p && (s.net.ports.getD p Port.reset).link)

/-- A ceiling message for a cause waits to be sent (R391). -/
def State.ceilCause (s : State) : State :=
  if s.ceilPorts.isEmpty then s
  else s.onNet (fun n => if n.ceilWait.isSome then n else { n with ceilWait := some s.now })

/-- EV065 when the ceiling passes BELL_LRATE (R172). -/
def State.judgeCeilLow (s : State) : State :=
  let low := s.bell.ceilLines < s.bell.lrate
  if low = s.bell.ceilLow then s else ((s.onBell (fun b => { b with ceilLow := low })).raiseEv 65).ceilCause

/-- The ceiling is recomputed and published (R21, R22, R171, R172). -/
def State.recomputeCeiling (s : State) : State :=
  let c := s.ceilingNow
  let was := s.bell
  let s := s.onBell (fun b => { b with
    term := c.1, ceilLines := c.2.1, ceilUnit := c.2.2, ceilSpeed := c.2.1 * 254 * 256 / (10 * s.dpi) })
  let diff := if c.2.1 < was.saidLines then was.saidLines - c.2.1 else c.2.1 - was.saidLines
  let delta := s.f Fld.BELL_CEIL_DELTA_ceil_delta
  let said := c.1 ≠ was.saidTerm || (if delta = 0 then c.2.1 ≠ was.ceilLines || diff ≠ 0 else diff ≥ delta)
  let s := if said then
      ((s.onBell (fun b => { b with saidLines := c.2.1, saidTerm := c.1 })).raiseEv 64).ceilCause else s
  s.judgeCeilLow

/-- The overspeed policy in force: code 3 is HALT (R170). -/
def State.overPolicy (s : State) : Nat := min 2 (s.f Fld.BELL_CTRL_overspeed)

/-- One bar's overspeed and warning are judged (R169, R170). -/
def State.judgeOver (s : State) (b : Nat) : State :=
  match s.limitOf b with
  | none => s.onBar b (fun x => { x with above := false, warn := false })
  | some lim =>
    let l := s.bell.lrate
    let x := s.bar b
    let warns := !x.warn && ceilDiv (95 * lim) 100 ≤ l
    let clears := x.warn && l < 93 * lim / 100
    let above := lim < l
    let s := s.onBar b (fun x => { x with above := above, warn := (x.warn || warns) && !clears })
    let s := if warns then (s.setSticky Reg.BELL_OVER_STAT (2 ^ (8 + b))).raiseEv 71 else s
    if above && !x.above then
      let s := (s.setSticky Reg.BELL_OVER_STAT (2 ^ b)).raiseEv 72
      if s.overPolicy = 2 then s.fault 20 else s
    else s

/-- Every bar's overspeed and warning are judged: BELL_LRATE, or a limit, has changed. -/
def State.judgeBars (s : State) : State := (List.range 8).foldl (fun s b => s.judgeOver b) s

/-- Interlace tables take force: the ceiling and the limits of the bars follow (R22, R169). -/
def State.limitsChanged (s : State) : State := s.recomputeCeiling.judgeBars

end Sys2Proof.Machine
end

