-- ==== Sys2Proof/Machine/Compose.lean ====
section
/-! DEFINITION. From source pixels to drop codes: layer data, scaling, compositing, linearisation, hold gain, hiding and strip
diffusion (R74 to R87, R106 to R142), the coverage of a line (R311), and layer signatures (R100). -/

set_option Elab.async false

namespace Sys2Proof.Machine

/-! ### Source data -/

/-- Channels and bits per sample of a content. -/
def Content.chans (c : Content) : Nat := ((formatOf c.format).getD (1, 8)).1
def Content.depth (c : Content) : Nat := ((formatOf c.format).getD (1, 8)).2

/-- Row stride (R75). -/
def Content.stride (c : Content) : Nat := rowStride c.format c.alphaMode c.srcW

/-- Output extent (R81). -/
def Content.outW (c : Content) : Nat := c.srcW * c.scaleX / 4096
def Content.outH (c : Content) : Nat := c.srcH * c.scaleY / 4096

/-- The page of a STREAMED layer that has come for an image: for one band of it, or (none) for any, the latest. -/
def Content.pageAt (c : Content) (image : Nat) (band : Option Nat) (i : Nat) : Option (List Byte) :=
  c.reads.reverse.findSome? (fun p =>
    if p.index = i && p.image = image && band.all (· = p.band) then (match p.state with | .here d => some d | _ => none) else none)

/-- A page of a STREAMED layer has come. -/
def Content.hasPage (c : Content) (image : Nat) (band : Option Nat) (i : Nat) : Bool := (c.pageAt image band i).isSome

/-- The band for which the pages of a run of lines are read: a wrapped layer is one stream, read once for an image (R61, R63). -/
def Content.bandKey (c : Content) (first : Nat) : Option Nat := if c.wrap = 0 then some (first / 64) else none

/-- Pages of the buffer. -/
def Content.pageCount (c : Content) : Nat := ceilDiv c.length (pageBytes c.pageSize)

/-- The bytes of the pages of a STREAMED layer for an image, from page i while they have come. -/
def landedFrom (c : Content) (image : Nat) : Nat → Nat → List Byte
  | 0, _ => []
  | n + 1, i =>
    match c.pageAt image none i with
    | some d => d ++ landedFrom c image n (i + 1)
    | none => []

/-- Every page of the layer has come for an image. -/
def Content.allLanded (c : Content) (image : Nat) : Bool := (List.range c.pageCount).all (c.hasPage image none)

/-- The source bytes of an unwrapped STREAMED layer: a page that has not come leaves zeros in its place, which no band
that is ready reads. -/
def Content.streamBytes (c : Content) (image : Nat) (band : Option Nat) : List Byte :=
  ((List.range c.pageCount).flatMap (fun i => (c.pageAt image band i).getD (List.replicate (pageBytes c.pageSize) 0))).take c.length

/-- The lines of an image that a layer covers, within a run of lines: as lines of the layer (R81). -/
def Content.linesIn (c : Content) (first n : Nat) : List Nat :=
  ((List.range n).filter (fun i => c.y0 ≤ first + i && first + i < c.y0 + c.outH)).map (fun i => first + i - c.y0)

/-- The source rows on which output line i of the layer draws (R82, R100). -/
def Content.rowsOf (c : Content) (i : Nat) : List Nat := (taps c.filter c.scaleY c.srcH i).map (fun t => t.1)

/-- The source rows that a run of lines of the image needs. -/
def Content.needRows (c : Content) (first n : Nat) : List Nat := ((c.linesIn first n).flatMap c.rowsOf).eraseDups

/-- Who holds the DRAM that a layer's source bytes come to: a staging Paddock, or a landing buffer. -/
def Content.holder (c : Content) : PHolder := if c.streamed then .landing c.order else .stage c.order

/-- Pages of the landing buffer of a STREAMED layer: the source rows of five bands, or the whole of a wrapped stream (DESIGN CHOICE 76: the spec
gives it no size). -/
def Content.landPages (c : Content) : Nat :=
  let n := if c.wrap = 0 then min c.length ((c.needRows c.y0 320).length * c.stride) else c.length
  max 1 (ceilDiv n 2097152)

/-- Where a byte of the host buffer lands: pages follow each other, from the end of the landing buffer on at its start. -/
def Content.landAt (c : Content) (o : Nat) : Nat := o % (c.landPages * 2097152)

/-- A page of a STREAMED layer stands poisoned in its landing buffer (R347). -/
def State.landBad (s : State) (c : Content) (i : Nat) : Bool :=
  let at_ := c.landAt (i * pageBytes c.pageSize)
  (s.poisonIn (.landing c.order)).any (fun o => at_ ≤ o && o < at_ + pageBytes c.pageSize)

/-- The first of the 64 bytes of a layer that a poisoned word spoils, if any: of a staged one, or of a wrapped stream (R347). -/
def State.poisonOf (s : State) (c : Content) : Option Nat :=
  if c.streamed && c.wrap = 0 then none
  else (s.poisonIn c.holder).foldl (fun m o => match m with
    | some x => some (min x (o / 64 * 64))
    | none => some (o / 64 * 64)) none

/-- The bytes of a wrapped layer's stream that are there for an image, up to a poisoned one (R61, R347, R368). -/
def State.layerInput (s : State) (c : Content) (image : Nat) : List Byte :=
  let raw := (if c.streamed then landedFrom c image c.pageCount 0 else c.data).take c.length
  match s.poisonOf c with
  | some o => raw.take o
  | none => raw

/-- The source data of a layer for a band of an image, or (none) for the image as a whole: the bytes in the layout of R75, and for a
wrapped layer the error of R376 in its stream, 0 for none so far. -/
def State.layerData (s : State) (c : Content) (image : Nat) (band : Option Nat) : List Byte × Nat :=
  let raw := if c.streamed then c.streamBytes image band else c.data.take c.length
  if c.wrap = 0 then (raw, 0)
  else
    let whole := !c.streamed || c.allLanded image
    let bad := s.poisonOf c
    let r := inflate (c.wrap - 1) [] s.dictById (s.layerInput c image)
    let total := c.stride * c.srcH
    let whole := whole && bad.isNone
    let codes :=
      (if r.status = 2 then [r.code] else [])
        ++ (if r.status = 0 && bad.isSome then [12] else [])
        ++ (if r.status = 1 && !r.trailing.isEmpty then [9] else [])
        ++ (if (r.status = 1 || (r.status = 0 && whole)) && r.out.length < total then [10] else [])
        ++ (if r.status = 0 && whole && r.out.length ≥ total then [10] else [])
        ++ (if r.out.length > total then [11] else [])
    (r.out.take total, codes.foldl (fun m x => if m = 0 then x else min m x) 0)

/-- A sample of a source pixel as 12 bits (R75). -/
def Content.sample (c : Content) (data : List Byte) (row col ch : Nat) : Nat :=
  let n := c.chans + (if c.alphaMode ≥ 2 then 1 else 0)
  if c.depth = 1 then b2n (bitOf (leAt data (row * c.stride + col / 8) 1) (col % 8))
  else if c.depth = 8 then
    let v := leAt data (row * c.stride + col * n + ch) 1
    v * 16 + v / 16
  else leAt data (row * c.stride + 2 * (col * n + ch)) 2 % 4096

/-- The per-pixel alpha of a source pixel, 0 to 255 (R75). -/
def Content.alphaAt (c : Content) (data : List Byte) (row col : Nat) : Nat :=
  let n := c.chans + 1
  if c.depth = 8 then leAt data (row * c.stride + col * n + c.chans) 1
  else bits (leAt data (row * c.stride + 2 * (col * n + c.chans)) 2) 11 4

/-- The pages that hold a source row (R93). -/
def Content.rowPages (c : Content) (r : Nat) : List Nat :=
  let size := pageBytes c.pageSize
  let a := r * c.stride / size
  let b := (r * c.stride + c.stride - 1) / size
  (List.range (b + 1 - a)).map (a + ·)

/-- The pages that a run of lines needs. -/
def Content.needPages (c : Content) (first n : Nat) : List Nat := ((c.needRows first n).flatMap c.rowPages).eraseDups

/-- A layer's data for a run of lines of an image are on hand (R93, R376): its pages have landed; for a wrapped layer its
stream has given the rows without error, and without an error found at its end when the last row is among them. -/
def State.dataReady (s : State) (c : Content) (image first n : Nat) : Bool :=
  let rows := c.needRows first n
  if rows.isEmpty then true
  else if c.wrap = 0 then
    if c.streamed then (c.needPages first n).all (fun i => c.hasPage image (c.bandKey first) i && !s.landBad c i)
    else
      let bad := s.poisonIn (.stage c.order)
      bad.isEmpty || rows.all (fun r => !bad.any (fun o => o / c.stride = r))
  else
    let d := s.layerData c image none
    let top := rows.foldl max 0
    (top + 1) * c.stride ≤ d.1.length && (top + 1 < c.srcH || d.2 = 0)

/-! ### Budgets of an image (R101, R373) -/

/-- A sum of fractions, rounded up. -/
def sumUp (xs : List (Nat × Nat)) : Nat :=
  let t := xs.foldl (fun (a : Nat × Nat) x => (a.1 * x.2 + x.1 * a.2, a.2 * x.2)) (0, 1)
  ceilDiv t.1 t.2

/-- Lines of an image from a on, n of them, that a layer covers (R81). -/
def Content.cover (c : Content) (a n : Nat) : Nat := min (a + n) (c.y0 + c.outH) - max a c.y0

/-- DRAM traffic of a layer in n lines of an image from a on (R101): bytes, as a fraction. -/
def Content.fetch (c : Content) (a n : Nat) : Nat × Nat :=
  let stored := if c.wrap = 0 then c.stride * c.srcH else c.length
  if c.cover a n = 0 then (0, 1) else (c.cover a n * stored * (if c.streamed then 2 else 1), c.outH)

/-- Bytes per output line of the band that starts at line 64 i of an image (R101). -/
def bandFetch (cs : List Content) (length i : Nat) : Nat :=
  let n := min 64 (length - 64 * i)
  if n = 0 then 0 else sumUp (cs.map (fun c => ((c.fetch (64 * i) n).1, (c.fetch (64 * i) n).2 * n)))

/-- F of an image from its layers (R101): between the bands in which a layer begins or ends, and the last, every band needs the
same. -/
def fetchOf (cs : List Content) (length : Nat) : Nat :=
  let edges := cs.flatMap (fun c =>
    [c.y0 / 64, c.y0 / 64 + 1, (c.y0 + c.outH - 1) / 64 - 1, (c.y0 + c.outH - 1) / 64, (c.y0 + c.outH - 1) / 64 + 1])
  ((0 :: (length - 1) / 64 :: edges).map (bandFetch cs length)).foldl max 0

/-- Inflate demand of an image (R373). -/
def demandOf (cs : List Content) : Nat :=
  sumUp ((cs.filter (fun c => c.wrap ≠ 0 && c.outH ≠ 0)).map (fun c => (c.stride * c.srcH, c.outH)))

/-! ### Composition of a pixel -/

/-- A layer as the composition of a run of lines uses it. -/
structure View where
  c : Content
  data : List Byte
  deriving DecidableEq, Repr, Inhabited

/-- A filtered channel at output position j, line i of the layer (R83): down-web first, then cross-web. -/
def View.channel (v : View) (xs ys : List (Nat × Int)) (ch : Nat) : Nat :=
  filterSum 4095 xs (fun col => filterSum 4095 ys (fun row => v.c.sample v.data row col ch))

/-- The filtered per-pixel alpha. -/
def View.alphaCh (v : View) (xs ys : List (Nat × Int)) : Nat :=
  filterSum 255 xs (fun col => filterSum 255 ys (fun row => v.c.alphaAt v.data row col))

/-- Ink i over the value beneath (R85). -/
def blend (a i u : Nat) : Nat := (a * i + (255 - a) * u + 127) / 255

/-- A layer applied at position x, line y of the image (R81 to R86). The bit of a MASK1 layer is that of the NEAREST coordinate of R82, so
that it is scaled though R106 leaves step 2 out for it (DESIGN CHOICE, log entry 79: R77 allows it any scale). -/
def State.applyLayer (s : State) (x y : Nat) (under : List Nat) (v : View) : List Nat :=
  let c := v.c
  if x < c.x0 || c.x0 + c.outW ≤ x || y < c.y0 || c.y0 + c.outH ≤ y then under
  else
    let xs := taps c.filter c.scaleX c.srcW (x - c.x0)
    let ys := taps c.filter c.scaleY c.srcH (y - c.y0)
    let aLayer := if c.alphaMode = 1 || c.alphaMode = 3 then c.alpha else 255
    if c.format = 12 then
      let bit := c.sample v.data ((ys.headD (0, 0)).1) ((xs.headD (0, 0)).1) 0
      if bit = 1 then under.modify c.spot (fun u => blend aLayer 4095 u) else under
    else
      let aPix := if c.alphaMode ≥ 2 then v.alphaCh xs ys else 255
      let a := (aPix * aLayer + 127) / 255
      let inks :=
        if c.format = 11 then
          (s.colourSet c.colour).paletteInks (leAt v.data ((ys.headD (0, 0)).1 * c.stride
            + (xs.headD (0, 0)).1 * (1 + (if c.alphaMode ≥ 2 then 1 else 0))) 1)
        else
          let chs := (List.range c.chans).map (v.channel xs ys)
          if c.format = 9 || c.format = 10 then chs else (s.colourSet c.colour).inks chs
      (inks.zip under).map (fun p => blend a p.1 p.2)

/-- The LYP content that is placed for an image (R479). -/
def State.lypFor (s : State) (image : Nat) : Option LypSlot :=
  s.sec.lyp.find? (fun l => (image + 2 ^ 32 - l.image) % 2 ^ 32 < l.count)

/-- The lines of an image in a run of lines that the raster of a LYP slot reaches from poisoned words (R96, R347). -/
def State.lypFails (s : State) (l : LypSlot) (first n : Nat) : Bool :=
  let stride := rowStride l.format 0 l.w
  (s.poisonIn (.lyp l.slot)).any (fun o =>
    let y := l.y0 + (if stride = 0 then 0 else o / stride)
    first ≤ y && y < first + n && o < stride * l.h)

/-- LYP applied over the layers (R87): the keep-out margin is cleared, then the raster lies over it. -/
def State.applyLyp (s : State) (l : LypSlot) (x y : Nat) (under : List Nat) : List Nat :=
  let inside := l.x0 ≤ x && x < l.x0 + l.w && l.y0 ≤ y && y < l.y0 + l.h
  let near := l.x0 ≤ x + l.marginX && x < l.x0 + l.w + l.marginX && l.y0 ≤ y + l.marginY && y < l.y0 + l.h + l.marginY
  let ground := if near then under.mapIdx (fun i u => if bitOf l.keep i then u else 0) else under
  if !inside then ground
  else
    let chans := ((formatOf l.format).getD (1, 8)).1
    let depth := ((formatOf l.format).getD (1, 8)).2
    let stride := rowStride l.format 0 l.w
    let row := (y - l.y0) * stride
    let col := x - l.x0
    let sample := fun (ch : Nat) =>
      if depth = 8 then
        let v := leAt l.data (row + col * chans + ch) 1
        v * 16 + v / 16
      else leAt l.data (row + 2 * (col * chans + ch)) 2 % 4096
    if l.format = 12 then
      if bitOf (leAt l.data (row + col / 8) 1) (col % 8) then ground.set l.spot 4095 else ground
    else if l.format = 11 then s.cspSet.paletteInks (leAt l.data (row + col) 1)
    else s.cspSet.inks ((List.range chans).map sample)

/-- The composite at a position of a line (R85 to R87). -/
def State.compositePixel (s : State) (vs : List View) (lyp : Option LypSlot) (y x : Nat) : List Nat :=
  let under := vs.foldl (fun u v => s.applyLayer x y u v) (List.replicate 8 0)
  match lyp with
  | some l => s.applyLyp l x y under
  | none => under

/-! ### Gain (R119, R309) -/

/-- c of a cell and ink in a fill. -/
def HoldFill.cell (h : HoldFill) (i j : Nat) : Nat :=
  match h.cells.find? (fun p => p.1 = 1728 * i + j) with
  | some p => p.2
  | none => 0x4000

/-- g of R309. -/
def HoldFill.interp (h : HoldFill) (x i : Nat) : Nat :=
  let j := h.used
  if x < 32 then h.cell i 0
  else if 64 * (j - 1) + 32 ≤ x then h.cell i (j - 1)
  else
    let j0 := (x - 32) / 64
    let f := (x - 32) % 64
    (h.cell i j0 * (64 - f) + h.cell i (j0 + 1) * f + 32) / 64

/-- base of R309. -/
def HoldFill.baseAt (h : HoldFill) (x i : Nat) : Nat :=
  match h.base.find? (fun p => p.1 = i) with
  | some p => entry16 p.2 x
  | none => 0x4000

/-- The hold gain h(x, i) (R309). -/
def HoldFill.gain (h : HoldFill) (x i : Nat) : Nat := min 65535 ((h.baseAt x i * h.interp x i + 8192) / 16384)

/-- Linearisation and gain of one pixel (R118, R119). -/
def State.printValues (s : State) (h : HoldFill) (x : Nat) (inks : List Nat) : List Nat :=
  inks.mapIdx (fun i v => min 4095 ((s.linear i v * h.gain x i + 8192) / 16384))

/-! ### The penned map (R258) -/

/-- Status of entry i in a list of statuses. -/
def statusAt (st : List Nat) (i : Nat) : Nat := st.getD i 0

/-- An entry is firing-capable with a status (R258). -/
def RemapEntry.capable (e : RemapEntry) (status : Nat) : Bool :=
  !e.disabled && (if e.spare then status = 3 else status = 0 || status = 1)

/-- Statuses of the entries of a half-bar. -/
def State.statuses (s : State) (b h : Nat) : List Nat := (s.nzHalf (2 * b + h)).map.map (fun n => n.status)

/-- The entries of one half-bar with the capability of each. -/
def State.capables (s : State) (b h : Nat) : List (RemapEntry × Bool) :=
  match ((s.bar b).half h).remap with
  | some r =>
    let st := s.statuses b h
    r.entries.mapIdx (fun i e => (e, e.capable (statusAt st i)))
  | none => []

/-- The nozzles of a bar, both halves, with their capability. -/
def State.nozzlesOf (s : State) (b : Nat) : List (RemapEntry × Bool) := s.capables b 0 ++ s.capables b 1

/-- Position x of sub-row r is penned (R258). -/
def pennedIn (ns : List (RemapEntry × Bool)) (r x : Nat) : Bool :=
  let here := ns.filter (fun p => p.1.pos = x && p.1.sub = r)
  !here.isEmpty && here.all (fun p => !p.2)

/-- Penned position and sub-row pairs of a bar (INK_PENNED_CNT). -/
def pennedPairs (ns : List (RemapEntry × Bool)) : List (Nat × Nat) :=
  ((ns.map (fun p => (p.1.pos, p.1.sub))).eraseDups).filter (fun q => pennedIn ns q.2 q.1)

/-! ### Hiding (R141, R142) -/

/-- What a position at a distance receives from a penned one. -/
def shareOf (c : Screen) (dist v : Nat) : Nat := if dist = 1 then v * c.cw1 / 16 else v * c.cw2 / 16

/-- The neighbours of index i within n, with their distances. -/
def neighbours (n i : Nat) : List (Nat × Nat) :=
  ((if 1 ≤ i then [(i - 1, 1)] else []) ++ (if i + 1 < n then [(i + 1, 1)] else [])
    ++ (if 2 ≤ i then [(i - 2, 2)] else []) ++ (if i + 2 < n then [(i + 2, 2)] else []))

/-- Hiding over the span of one engine for one strike (R141): for each position its new value, the non-zero shares that
were discarded there, and whether it was limited. extra is what the other strike hands over (R142). -/
def hide (c : Screen) (vals : List Nat) (penned : List Bool) (extra : List Nat) : List (Nat × Nat × Bool) :=
  let n := vals.length
  vals.mapIdx (fun i v =>
    let got := ((neighbours n i).filter (fun q => penned.getD q.1 false)).map (fun q => shareOf c q.2 (vals.getD q.1 0))
    if penned.getD i false then (0, got.countP (· ≠ 0), false)
    else
      let t := v + got.sum + extra.getD i 0
      (min 4095 t, 0, t > 4095))

/-! ### Strip diffusion (R134) -/

/-- The codes and error shares of a line over a span, in the order of travel: c the carried share p_a. Each result is the
code, the shares p_bd, p_b, p_fd, and whether the clamp changed the error. -/
def diffuse (sc : Screen) (k : Nat) : Int → List (Nat × Int × List Int × Bool) → List (Nat × Int × Int × Int × Bool × Int)
  | _, [] => []
  | carry, (v, cur, thr, pen) :: r =>
    let acc := cur + carry
    let c : Int := 16 * v + acc
    let level := if pen then 0 else
      (List.range k).foldl (fun m j => if c ≥ 16 * ((sc.q.getD j 0 : Int) + thr.getD j 0) then j + 1 else m) 0
    let raw := c - 16 * (sc.d.getD level 0 : Int)
    let lim : Int := 16 * sc.clamp
    let err := clampInt (-lim) lim raw
    let bd := err * sc.wbd / 16
    let b := err * sc.wb / 16
    let fd := err * sc.wfd / 16
    (level, bd, b, fd, err ≠ raw && sc.clamp ≠ 0, acc) :: diffuse sc k (err - bd - b - fd) r

/-- A_next of a span from the shares of a line in the order of travel: p_bd one back, p_b here, p_fd one ahead. -/
def nextRow (rs : List (Nat × Int × Int × Int × Bool × Int)) : List Int :=
  rs.mapIdx (fun i r =>
    r.2.2.1 + (match rs[i + 1]? with | some q => q.2.1 | none => 0)
      + (if i = 0 then 0 else match rs[i - 1]? with | some q => q.2.2.2.1 | none => 0))

/-- The span of an engine at a print width: first and number of positions (R129). -/
def spanOf (p e : Nat) : Nat × Nat :=
  let lo := 3456 * e - 32
  (lo, min p (3456 * e + 3488) - lo)

/-- An engine owns position x. -/
def owns (e x : Nat) : Bool := x / 3456 = e

/-- The seed of a strike over a span, from the tile row given (R137, R138). -/
def State.seedRow (s : State) (i strike row lo n : Nat) : List Int :=
  let sc := s.screen i
  (List.range n).map (fun k =>
    let u := (lo + k + 64 * strike) % 128
    16 * sar (((s.tileAt i 1 u row : Int) - 2048) * sc.seed) 8)

/-- Modulations of the levels at a position and line, for a strike (R133, R139). -/
def State.mods (s : State) (sc : Screen) (i strike k y x : Nat) : List Int :=
  (List.range k).map (fun j =>
    sar (((s.tileAt i (j + 1) ((x + 64 * strike) % 128) ((y + 64 * strike) % 128) : Int) - 2048) * (sc.amp.getD j 0)) 8)

/-- The accumulators of an engine, ink and strike. -/
def accOf (acc : List EngAcc) (e i st : Nat) : Option EngAcc :=
  acc.find? (fun a => a.engine = e && a.ink = i && a.strike = st)

def putAcc (a : EngAcc) (acc : List EngAcc) : List EngAcc :=
  a :: acc.filter (fun b => !(b.engine = a.engine && b.ink = a.ink && b.strike = a.strike))

/-- What the screening of a run of lines carries on: accumulators, clamp occurrences of each engine, shares lost, lines on
which a share was discarded, and the codes emitted. -/
structure Screened where
  acc : List EngAcc
  clamps : List Nat
  lost : Nat
  discarded : Bool
  deriving DecidableEq, Repr, Inhabited

/-- One strike of one ink of one engine on one line (R134): its codes over the span. -/
def State.screenStrike (s : State) (codeBits y e i strike lo : Nat) (vals : List Nat) (penned : List Bool) (seed : List Int)
    (k : Screened) : List Nat × Screened :=
  let sc := s.screen i
  let lv := sc.levels codeBits
  let cur := match accOf k.acc e i strike with | some a => a.nxt | none => seed
  let items := vals.mapIdx (fun n v => (v, cur.getD n 0, s.mods sc i strike lv y (lo + n), penned.getD n false))
  let even := y % 2 = 0
  let rs := diffuse sc lv 0 (if even then items else items.reverse)
  let nx := nextRow rs
  let rs' := if even then rs else rs.reverse
  let nx' := if even then nx else nx.reverse
  let clamped := ((List.range rs'.length).filter (fun n => owns e (lo + n) && (rs'.getD n default).2.2.2.2.1)).length
  (rs'.map (fun r => r.1),
   { k with
     acc := putAcc ⟨e, i, strike, rs'.map (fun r => r.2.2.2.2.2), nx'⟩ k.acc
     clamps := k.clamps.modify e (· + clamped) })

/-- Hiding counted at the positions an engine owns (R141). -/
def noteHide (e lo : Nat) (hs : List (Nat × Nat × Bool)) (k : Screened) : Screened :=
  let own := (List.range hs.length).filter (fun n => owns e (lo + n))
  let dropped := (own.map (fun n => (hs.getD n default).2.1)).sum
  let limited := own.countP (fun n => (hs.getD n default).2.2)
  { k with lost := k.lost + dropped + limited, discarded := k.discarded || dropped ≠ 0 }

/-- One ink on one line over one engine's span (R129, R139, R141, R142): the codes of strike 0 and of strike 1 at the
positions it owns, in position order. The seed of strike 1 stays in both its rows until it first screens a line, and that line uses it (DESIGN
CHOICE 79: read to the letter, R134 would put the 0 of A_next over it). -/
def State.screenEngine (s : State) (codeBits p y seedY : Nat) (il : IlEntry) (ns : List (RemapEntry × Bool)) (i : Nat)
    (line : List Nat) (r : (List Nat × List Nat) × Screened) (e : Nat) : (List Nat × List Nat) × Screened :=
  let sp := spanOf p e
  let lo := sp.1
  let n := sp.2
  let sc := s.screen i
  let hideOn := sc.comp && s.fb Fld.INK_CTRL_comp_en
  let vals := (line.drop lo).take n
  let seed0 := s.seedRow i 0 ((seedY + 127) % 128) lo n
  let seed1 := s.seedRow i 1 ((seedY + 63) % 128) lo n
  let pen := fun (row : Nat) => (List.range n).map (fun k => pennedIn ns row (lo + k))
  let own := fun (cs : List Nat) => (cs.zipIdx.filter (fun q => owns e (lo + q.2))).map (fun q => q.1)
  let k := r.2
  if !il.two then
    let pa := pen il.subA
    let hs := if hideOn then hide sc vals pa [] else vals.map (fun v => (v, 0, false))
    let k := noteHide e lo hs k
    let k := if (accOf k.acc e i 1).isNone then { k with acc := putAcc ⟨e, i, 1, seed1, seed1⟩ k.acc } else k
    let t := s.screenStrike codeBits y e i 0 lo (hs.map (fun h => h.1)) pa seed0 k
    ((r.1.1 ++ own t.1, r.1.2 ++ (own t.1).map (fun _ => 0)), t.2)
  else
    let pa := pen il.subA
    let pb := pen il.subB
    let va := vals.map (fun v => (v * il.split + 128) / 256)
    let vb := (vals.zip va).map (fun q => q.1 - q.2)
    let aOnly := fun (j : Nat) => hideOn && pa.getD j false && !pb.getD j false
    let bOnly := fun (j : Nat) => hideOn && pb.getD j false && !pa.getD j false
    let toB := va.mapIdx (fun j v => if aOnly j then v * sc.sub / 16 else 0)
    let toA := vb.mapIdx (fun j v => if bOnly j then v * sc.sub / 16 else 0)
    let va' := va.mapIdx (fun j v => v - toB.getD j 0)
    let vb' := vb.mapIdx (fun j v => v - toA.getD j 0)
    let ha := if hideOn then hide sc va' pa toA else va.map (fun v => (v, 0, false))
    let hb := if hideOn then hide sc vb' pb toB else vb.map (fun v => (v, 0, false))
    let k := noteHide e lo hb (noteHide e lo ha k)
    let t0 := s.screenStrike codeBits y e i 0 lo (ha.map (fun h => h.1)) pa seed0 k
    let t1 := s.screenStrike codeBits y e i 1 lo (hb.map (fun h => h.1)) pb seed1 t0.2
    ((r.1.1 ++ own t0.1, r.1.2 ++ own t1.1), t1.2)

/-- The engines that own a position inside the print width (R129). -/
def activeEngines (p : Nat) : List Nat := (List.range 32).filter (fun e => 3456 * e < p)

/-- One ink on one line over the whole width: codes of strike 0 and of strike 1. -/
def State.screenInk (s : State) (codeBits p y seedY : Nat) (il : IlEntry) (i : Nat) (line : List Nat) (k : Screened) :
    (List Nat × List Nat) × Screened :=
  (activeEngines p).foldl (fun r e => s.screenEngine codeBits p y seedY il (s.nozzlesOf i) i line r e) (([], []), k)

/-- The codes of a bar that a run of lines has given so far: strike 0 and strike 1, line by line. -/
abbrev BarCodes := List (List (List Nat) × List (List Nat))

/-- One composed line screened for every bar in use (R107). A line of which a share was discarded counts once for FS046. -/
def State.screenLine (s : State) (use : List Bool) (ils : List Interlace) (codeBits p y seedY : Nat) (line : List (List Nat))
    (r : BarCodes × Screened × Nat) : BarCodes × Screened × Nat :=
  let start : BarCodes × Screened := (r.1, { r.2.1 with discarded := false })
  let q := (List.range 8).foldl (fun (a : BarCodes × Screened) i =>
    if use.getD i false then
      let t := s.screenInk codeBits p y seedY ((ils.getD i Interlace.reset).at y) i (line.getD i []) a.2
      (a.1.modify i (fun c => (c.1 ++ [t.1.1], c.2 ++ [t.1.2])), t.2)
    else a) start
  (q.1, q.2, r.2.2 + b2n q.2.discarded)

/-- Print values of a line, ink by ink (R85 to R119). -/
def State.composeLine (s : State) (h : HoldFill) (vs : List View) (lyp : Option LypSlot) (p y : Nat) : List (List Nat) :=
  let px := (List.range p).map (fun x => s.printValues h x (s.compositePixel vs lyp y x))
  (List.range 8).map (fun i => px.map (fun l => l.getD i 0))

/-- Zero ink over a line: the composite of a blank image is 0, and its print value is LIN[0] times the gain. -/
def State.blankLine (s : State) (h : HoldFill) (p : Nat) : List (List Nat) :=
  let px := (List.range p).map (fun x => s.printValues h x (List.replicate 8 0))
  (List.range 8).map (fun i => px.map (fun l => l.getD i 0))

/-! ### Coverage (R311) -/

/-- The entry of a block: mean and spread code over the values of its pixels. -/
def covEntry (vals : List Nat) : Nat × Nat :=
  let n := vals.length
  if n = 0 then (0, 15)
  else
    let hi := vals.foldl max 0
    let lo := vals.foldl min 65535
    ((vals.sum + n / 2) / n, min 14 ((hi - lo) / 256))

/-- The block row of composed lines (R311): mixed lines give spread code 15, inks without a bar entries of 0. The values are those of the
first image in it. whole: no further lines belong to it, as where it has eight or the job ends. -/
def covRowOf (use : List Bool) (p line : Nat) (whole : Bool) (ls : List CovLine) : CovRow :=
  let first := (ls.find? (fun l => l.image.isSome)).getD (ls.headD default)
  let one := whole && first.image.isSome && ls.all (fun l => l.image = first.image)
  let blocks := (List.range (ceilDiv p 16)).map (fun u => (List.range 8).map (fun i =>
    if !use.getD i false then (0, 0)
    else
      let vals := (ls.filter (fun l => l.image = first.image && l.image.isSome)).flatMap
        (fun l => ((l.vals.getD i []).drop (16 * u)).take 16)
      let e := covEntry vals
      (e.1, if one then e.2 else 15)))
  ⟨line, if one then first.image else none, first.imageLine, blocks⟩

/-! ### Signatures (R100) -/

/-- The CRC-32 over the source rows that an image reads of a layer (R100). -/
def State.layerSignature (s : State) (c : Content) (image length : Nat) : Nat :=
  let d := (s.layerData c image none).1
  if c.wrap ≠ 0 then crc32 d
  else
    let rows := c.needRows 0 length
    let read := (List.range c.srcH).filter (fun r => rows.contains r)
    crc32 (read.flatMap (fun r => (d.drop (r * c.stride)).take c.stride))

end Sys2Proof.Machine
end

