-- ==== Sys2Proof/Machine/JobOps.lean ====
section
/-! DEFINITION. Shared operations of jobs, images and bindings: where composition and the bars are, the next acceptable image,
readiness, tables taking effect, REJECT, the end of a job (R69 to R101, R120 to R128, R176 to R181, R208). -/

set_option Elab.async false

namespace Sys2Proof.Machine

/-! ### Image numbers and positions -/

/-- Image a comes no later than b, on the 32-bit circle. -/
def imgLe (a b : Nat) : Bool := diff32 b a < 2 ^ 31

/-- The image after k. -/
def imgAdd (k n : Nat) : Nat := (k + n) % 2 ^ 32

/-- lead_cap (R180, R212). -/
def State.leadCap (s : State) : Nat := clampNat 1024 65536 (s.f Fld.JET_LEAD_CAP_lead_cap) / 64 * 64

/-- The present lead in lines (R73): composition position less B0's position. -/
def State.lead (s : State) : Int :=
  match s.jet.mJob with
  | none => 0
  | some m =>
    let done : Int := match s.lay.comp with
      | some c => (c.line0 + c.pos : Nat)
      | none => 0
    done + m - s.barLine 0

/-- The limit of the lead (R73). -/
def State.leadLimit (s : State) : Nat :=
  match s.lay.job with
  | some j => if j.leadMax = 0 || j.leadMax > s.leadCap then s.leadCap else j.leadMax
  | none => s.leadCap

/-- LAYER_STATUS.lead_low falls when the lead is back at lead_min (R73). -/
def State.leadBack (s : State) : State :=
  match s.lay.job with
  | some j => if s.lay.leadLow && s.lead ≥ j.leadMin then s.onLay (fun l => { l with leadLow := false }) else s
  | none => s.onLay (fun l => { l with leadLow := false })

/-- The lead is judged while a bar fires (R73): EV039 once. -/
def State.leadJudge (s : State) : State :=
  match s.lay.job with
  | some j =>
    if !s.lay.leadLow && j.accepted && s.lead < j.leadMin then
      (s.onLay (fun l => { l with leadLow := true })).raiseEv 39
    else s
  | none => s

/-- The next acceptable image (R89). -/
def State.nextImage (s : State) : Nat :=
  match s.lay.comp, s.lay.job with
  | some c, _ => if c.latched then imgAdd c.image 2 else imgAdd c.image 1
  | none, some j => j.first
  | none, none => 0

/-- The image composition starts next: the first of the job, or the next one. -/
def State.imageToStart (s : State) (j : Job) : Nat :=
  match s.lay.comp with
  | some c => imgAdd c.image 1
  | none =>
    if s.lay.geom.length = 0 then
      match s.lay.commits.head? with
      | some c => c.image
      | none => j.first
    else j.first

/-! ### REJECT (R97) -/

/-- The active level of REJECT is high (R105). -/
def State.rejectHigh (s : State) : Bool := !s.fb Fld.LAYER_CTRL_reject_pol

/-- The web has passed a position above the high-water mark (R97, R153). -/
def State.passed (s : State) (p : Int) : Bool := !ahead 32 p s.bell.hwm

/-- A REJECT pulse falls due now: counted, EV035, and sent where reject_en is 1. -/
def State.rejectNow (s : State) : State :=
  let s := s.bump Fld.LAYER_REJECT_CNT_value 1
  let s := s.raiseEv 35
  if s.fb Fld.LAYER_CTRL_reject_en && !s.replaying then
    let w := orIfZero (s.f Fld.LAYER_REJECT_WIDTH_reject_width) 1
    (s.onLay (fun l => { l with rejectEnd := some (s.now + 1000 * w) })).emit (.reject s.rejectHigh w)
  else s

/-- The web position at which the pulse of an image falls due, 2^−32 subline (R97). -/
def State.rejectAt (s : State) (m0 : Int) : Int :=
  (s.offB 0 + 65536 * (m0 + s.f Fld.LAYER_REJECT_DIST_reject_dist)) * 2 ^ 32

/-- An image is marked for REJECT (R94, R96, R197, R431), once: its pulse waits for its position, or falls due at once. -/
def State.markImage (image : Nat) (s : State) : State :=
  match s.lay.spans.find? (fun p => p.image = image && !p.marked) with
  | none => s
  | some p =>
    let s := s.onLay (fun l => { l with
      spans := l.spans.map (fun q => if q.image = image then { q with marked := true } else q) })
    if s.passed (s.rejectAt p.m0) then s.rejectNow
    else s.onLay (fun l => { l with rejects := l.rejects ++ [(image, p.m0)] })

/-! ### Readiness (R93 to R96) -/

/-- What a bind names an image no later than k. -/
def Bind.due (b : Bind) (k : Nat) : Bool :=
  match b with
  | .image n => imgLe n k
  | .next => false
  | .free => true

/-- The dictionaries that are due take effect (R126, R377). -/
def Dfl.bindDicts (image : Nat) (d : Dfl) : Dfl :=
  { d with
    dicts := (d.dictWait.filter (fun w => w.1.due image)).foldl (fun ds w => (w.2.1, w.2.2) :: ds.filter (fun p => p.1 ≠ w.2.1)) d.dicts
    dictWait := d.dictWait.filter (fun w => !w.1.due image) }

/-- A content that waits is ready for an image (R93), with the dictionaries that are then in force (R378). -/
def State.waitReady (s : State) (c : Content) (image : Nat) : Bool :=
  if c.streamed then (s.onDfl (Dfl.bindDicts image)).dataReady c image 0 64 else c.staged

/-- A content in force is ready for a further image (R93). -/
def State.stayReady (s : State) (c : Content) (image : Nat) : Bool :=
  if c.streamed then (s.onDfl (Dfl.bindDicts image)).dataReady c image 0 64 else true

/-- The bindings of a layer that an image may take (R78, R91, R95). -/
def State.candidates (s : State) (layer image : Nat) : List Binding :=
  (s.lay.waiting.getD layer []).filter (fun b => match b.bind with | .image n => imgLe n image | .next => false | .free => false)

/-- The content of a layer in an image, by the bindings known now (R78, R101). -/
def State.contentAt (s : State) (image layer : Nat) : Option Content :=
  match (s.candidates layer image).getLast? with
  | some b => b.content
  | none => s.lay.inForce.getD layer none

/-- The layers of an image, by the bindings known now. -/
def State.contentsAt (s : State) (image : Nat) : List Content := (List.range 8).filterMap (s.contentAt image)

/-- The payload of a readiness GRANT (R510): layer, policy, band, image. -/
def readyPayload (layer policy band image : Nat) : List Byte :=
  leBytes 1 layer ++ leBytes 1 policy ++ leBytes 2 band ++ leBytes 4 image

/-- A not-ready policy is applied to a layer (R94): FS040, EV034, its bit and its count. -/
def State.notReady (layer policy band image : Nat) (s : State) : State :=
  let s := s.journal 4 (readyPayload layer policy band image)
  let s := s.setSticky Reg.LAYER_NR_STAT (2 ^ layer)
  let s := s.bump (Fld.LAYER_NR_CNT_value layer) 1
  (s.fault 40).raiseEv 34

/-- LYP blanks an image (R96). -/
def State.lypNotReady (s : State) : State :=
  let s := s.setSticky Reg.LAYER_NR_STAT 256
  let s := s.bump (Fld.LAYER_NR_CNT_value 8) 1
  s.fault 42

/-- The readiness of one layer for an image is judged (R93 to R95). -/
def State.judgeLayer (image : Nat) (r : State × Judged) (layer : Nat) : State × Judged :=
  let s := r.1
  let cands := s.candidates layer image
  let ready := fun (b : Binding) => match b.content with | some c => s.waitReady c image | none => true
  let inForce := s.lay.inForce.getD layer none
  let last := cands.getLast?
  let pol := match last with
    | some b => (b.content.map (fun c => c.policy)).getD 0
    | none => (inForce.map (fun c => c.policy)).getD 0
  let now := match last with
    | some b => !ready b
    | none => match inForce with | some c => !s.stayReady c image | none => false
  let bad := s.forced 4 (readyPayload layer pol 0 image) now
  let usable := if bad then cands.dropLast.filter ready else if s.replaying then cands else cands.filter ready
  let take := usable.getLast?
  let after := match take with | some b => b.content | none => inForce
  let j := { r.2 with take := r.2.take ++ [take.map (fun b => b.order)] }
  if !bad then (s, j)
  else
    let s := s.notReady layer pol 0 image
    let out := pol = 1 || (pol = 0 && after.isNone)
    (s, { j with unready := j.unready ++ [layer], leftOut := if out then j.leftOut ++ [layer] else j.leftOut, blank := j.blank || pol = 2 })

/-- The flags of the last commit that reaches an image, or of the commit in force (R88, R91). -/
def State.commitFor (s : State) (image : Nat) : Commit :=
  ((s.lay.commits.filter (fun c => imgLe c.image image)).getLast?).getD s.lay.geom

/-- The readiness of an image is judged (R93 to R96). -/
def State.judgeImage (image : Nat) (s : State) : State :=
  let r := (List.range 8).foldl (State.judgeLayer image) (s, ⟨image, [], [], [], false, false⟩)
  let req := (r.1.commitFor image).lypReq
  let noLyp := req && (r.1.lypFor image).isNone
  let s := if noLyp then r.1.lypNotReady else r.1
  s.onLay (fun l => { l with judged := some { r.2 with blank := r.2.blank || noLyp, lypReq := req } })

/-! ### The fetch of STREAMED pages (R61 to R63, R93) -/

/-- A STREAMED content, changed wherever it stands. -/
def State.onContent (order : Nat) (f : Content → Content) (s : State) : State :=
  let g := fun (c : Content) => if c.order = order then f c else c
  s.onLay (fun l => { l with
    inForce := l.inForce.map (Option.map g)
    waiting := l.waiting.map (List.map (fun b => { b with content := b.content.map g })) })

/-- The pages that a content lacks for a run of lines of an image and has not asked for: of a wrapped stream the next one, while
the rows are not all inflated and no page is under way. A page that failed for a band is read again for a later band (R63). -/
def State.lacking (s : State) (c : Content) (image first n : Nat) : List Nat :=
  let band := first / 64
  if !c.streamed || c.dead || (s.padOf (.landing c.order)).isNone then []
  else if c.wrap = 0 then
    (c.needPages first n).filter (fun i => !c.reads.any (fun p => p.index = i && p.image = image && p.band = band))
  else if s.dataReady c image first n || c.reads.any (fun p => p.image = image && (p.state = .asked || (p.state = .failed && p.band = band)))
  then []
  else ((List.range c.pageCount).find? (fun i => !c.hasPage image none i)).toList

/-- A page of a STREAMED layer is asked for: a layer read, with Relaxed Ordering set (R29). -/
def State.askPage (c : Content) (image band : Nat) (s : State) (i : Nat) : State :=
  if 512 ≤ s.readsOut then s
  else
    let s := s.onHif (fun h => { h with pageReads := h.pageReads ++ [⟨c.order, c.ring, c.slot, i⟩] })
    (s.onContent c.order (fun c => { c with reads := c.reads ++ [⟨i, image, band, .asked⟩] })).emit
      (.hostRead ((c.ents.map (fun e => e.addr)).getD i 0) (pageBytes c.pageSize) true)

/-- What a content lacks for a run of lines is asked for. -/
def State.askFor (image first n : Nat) (s : State) (c : Content) : State :=
  (s.lacking c image first n).foldl (State.askPage c image (first / 64)) s

/-- The contents that an image may use of a layer: the one in force, and those that wait for it. -/
def State.usable (s : State) (image layer : Nat) : List Content :=
  (s.lay.inForce.getD layer none).toList ++ (s.candidates layer image).filterMap (fun b => b.content)

/-- First lines of the bands of an image of a length, from one line to another. -/
def bandsFrom (length lo hi : Nat) : List Nat :=
  ((List.range (ceilDiv length 64)).map (fun i => 64 * i)).filter (fun a => lo ≤ a && a ≤ hi)

/-- The pages of the image in composition, up to four bands ahead (R93). -/
def State.fetchNow (s : State) : State :=
  match s.lay.comp with
  | none => s
  | some k =>
    let at_ := (k.band.map (fun b => b.1 + 1)).getD k.pos
    if k.fromStore || k.blank then s
    else (bandsFrom k.length at_ (at_ + 256)).foldl (fun s a =>
      ((List.range 8).filterMap (fun l => if k.leftOut.contains l then none else s.lay.inForce.getD l none)).foldl
        (State.askFor k.image a (min 64 (k.length - a))) s) s

/-- The pages of the image that follows: up to four bands ahead, and those of its first band from four bands before the latch point at
which it is judged (DESIGN CHOICE 76). -/
def State.fetchNext (j : Job) (s : State) : State :=
  let image := s.imageToStart j
  let length := (s.commitFor image).length
  let left : Nat := match s.lay.comp with
    | some k => k.length + k.gap - k.pos
    | none => 0
  let near := s.lay.comp.all (fun k => k.length ≤ k.pos + 256 + j.latchLines)
  if j.closed && s.lay.comp.any (fun k => k.image = j.last) then s
  else
    let bands := (if near then [0] else []) ++ (if left ≤ 256 then bandsFrom length 1 (256 - left) else [])
    bands.foldl (fun s a => ((List.range 8).flatMap (s.usable image)).foldl (State.askFor image a (min 64 (length - a))) s) s

/-- The device fetches STREAMED pages ahead of composition (R93). -/
def State.fetchAhead (s : State) : State :=
  match s.lay.job with
  | some j => if j.accepted then s.fetchNow.fetchNext j else s
  | none => s

/-! ### Bindings taking effect -/

/-- The landing buffer of a STREAMED layer is no longer wanted. -/
def State.freeLanding (order : Nat) (s : State) : State := (s.padWithdraw (.landing order)).padFree (.landing order)

/-- A content is superseded (R61, R78): a STREAMED lease ends, a staging Paddock is freed; one that is not yet staged is kept apart
until its descriptor completes (R59). -/
def State.dropContent (c : Content) (s : State) : State :=
  if c.streamed then (s.freeLanding c.order).release c.order
  else if c.staged then s.padFree (.stage c.order)
  else s.onLay (fun l => { l with gone := l.gone ++ [c] })

/-- A layer takes new content (R78). -/
def State.takeContent (layer : Nat) (c : Option Content) (s : State) : State :=
  let old := s.lay.inForce.getD layer none
  let s := s.onLay (fun l => { l with inForce := l.inForce.set layer c })
  match old with
  | some o => s.dropContent o
  | none => s

/-- The binding of a layer with the given place in the order takes effect with an image: earlier ones are superseded. -/
def State.takeBinding (layer order : Nat) (s : State) : State :=
  let ws := s.lay.waiting.getD layer []
  match ws.find? (fun b => b.order = order) with
  | none => s
  | some b =>
    let gone := ws.filter (fun w => w.order < order)
    let s := s.onLay (fun l => { l with waiting := l.waiting.set layer (ws.filter (fun w => order < w.order)) })
    let s := gone.foldl (fun s w => match w.content with | some c => s.dropContent c | none => s) s
    s.takeContent layer b.content

/-- A colour table becomes active (R125, R126). -/
def activate (t : TSlot) : TSlot :=
  match t.shadow with
  | some h => { t with active := some h.data, crc := h.crc, shadow := none }
  | none => t

/-- All cells take new values; the fill is due where one has changed (R310). -/
def Hold.putCells (cs : List (Nat × Nat)) (h : Hold) : Hold :=
  { h with cells := cs, dirty := h.dirty || !(cs.length = h.cells.length && cs.all h.cells.contains) }

/-- The cells of the HOLD_CELLS layout that do not stand at 0x4000. -/
def cellsOf (p : List Byte) : List (Nat × Nat) :=
  ((List.range (8 * 1728)).map (fun k => (k, entry16 p k))).filter (fun c => c.2 ≠ 0x4000)

/-- The value of a key in a list, or a default. -/
def keyGet {α : Type} (d : α) (k : Nat) (l : List (Nat × α)) : α := ((l.find? (fun p => p.1 = k)).map (fun p => p.2)).getD d

/-- A list with a key set; a value equal to the default is not listed. -/
def keySet {α : Type} [DecidableEq α] (d : α) (k : Nat) (v : α) (l : List (Nat × α)) : List (Nat × α) :=
  let l := l.filter (fun p => p.1 ≠ k)
  if v = d then l else (k, v) :: l

/-- Cell gains in the HOLD_CELLS layout (R329). -/
def cellBytes (cells : List (Nat × Nat)) : List Byte :=
  (List.range (8 * 1728)).flatMap (fun k => leBytes 2 (((cells.find? (fun p => p.1 = k)).map (fun p => p.2)).getD 0x4000))

/-- The updates whose gains first print with an image record their delays (R322). -/
def noteDelays (image : Nat) (ups : List Nat) (h : Hold) : Hold :=
  { h with delays := (ups.foldl (fun ds k => min 15 (diff32 image (imgAdd k 1)) :: ds) h.delays).take 8 }

/-- A measurement table, HOLD_BASE or HOLD_CELLS as the loop takes it (R330, R331). -/
def takeMeas (h : Hold) (m : MeasTable) : Hold :=
  if m.typ = 0x13 then
    { h with base := (m.index, m.data) :: h.base.filter (fun p => p.1 ≠ m.index), dirty := true }
  else if m.typ = 0x14 then
    { h.putCells (cellsOf m.data) with
      limited := h.limited.filter (fun k => keyGet 0x4000 k (h.putCells (cellsOf m.data)).cells = keyGet 0x4000 k h.cells)
      changed := h.changed || cellBytes (h.putCells (cellsOf m.data)).cells ≠ cellBytes h.cells
      ests := h.ests.map (fun e => { e with discard := true }) }
  else { h with
    meas := m :: h.meas.filter (fun x => !(x.typ = m.typ && x.index = m.index && x.sub = m.sub))
    ests := h.ests.map (fun e => { e with discard := true }) }

/-- The slot and image of a table that takes effect later than its commit reached (R510). -/
def slotPayload (typ index sub image : Nat) : List Byte :=
  leBytes 1 typ ++ leBytes 1 index ++ leBytes 1 sub ++ leBytes 1 0x80 ++ leBytes 4 image

/-- Tables bound to an image no later than k take effect as composition starts it (R120, R126, R187, R377): colour and
screening tables, CSP, interlace tables, dictionaries. A table held after the image its commit reached had started enters
its image in the journal. -/
def State.takeTables (k : Nat) (s : State) : State :=
  let late := s.ink.slots.filter (fun t => match t.shadow with
    | some h => h.bind.due k && h.bind ≠ .image k
    | none => false)
  let s := late.foldl (fun s t => s.journal 4 (slotPayload t.typ t.index t.sub k)) s
  let s := s.onInk (fun i => { i with
    slots := i.slots.map (fun t => match t.shadow with
      | some h => if h.bind.due k then activate t else t
      | none => t)
    csp := match i.cspWait with
      | some w => if w.1.due k then some w.2 else i.csp
      | none => i.csp
    cspWait := match i.cspWait with
      | some w => if w.1.due k then none else i.cspWait
      | none => none })
  let s := s.onJet (fun j => { j with bars := j.bars.map (fun b => match b.ilWait with
    | some w => if w.1.due k then { b with il := w.2, ilWait := none } else b
    | none => b) })
  s.onDfl (Dfl.bindDicts k)

/-- A table of the chapter on colour takes effect with image k: the trigger of Graze (R324). -/
def State.tablesDue (s : State) (k : Nat) : Bool :=
  s.ink.slots.any (fun t => match t.shadow with | some h => h.bind.due k | none => false)
    || (match s.ink.cspWait with | some w => w.1.due k | none => false)

/-! ### A fill of the hold tables (R309, R310) -/

/-- Cells in use of the open job (R308). -/
def State.cellsUsed (s : State) : Nat :=
  match s.lay.job with
  | some j => ceilDiv j.width 64
  | none => 1728

/-- The shadow takes gains for an image; the fill is under way (R310). -/
def State.startFill (image : Nat) (cells : List (Nat × Nat)) (s : State) : State :=
  let fill : HoldFill := ⟨cells, s.hold.base, s.cellsUsed⟩
  s.onHold (fun h => { h with
    shadow := some fill, shadowImage := image, filling := true, dirty := false,
    filled := h.filled ++ h.updates, updates := [] })

/-- The shadow is filled for an image at the latch point before it, when anything has changed (R310, R331). A replay whose record
holds the gains fills when and as recorded (R522, R523). -/
def State.fillHold (image : Nat) (s : State) : State :=
  let due := s.hold.measWait.filter (fun w => w.1.due image && (w.2.typ = 0x13 || w.2.typ = 0x14))
  let s := s.onHold (fun h =>
    let h := due.foldl (fun h w => takeMeas h w.2) h
    { h with measWait := h.measWait.filter (fun w => !(w.1.due image && (w.2.typ = 0x13 || w.2.typ = 0x14))) })
  if s.replaying && !s.tally.camFull then
    let mine := fun (e : Entry) => e.kind = 0x61 && leAt e.payload 0 4 = image
    match (s.tally.expected ++ s.tally.play).find? mine with
    | none => s
    | some e =>
      let s := s.onTally (fun t => { t with expected := t.expected.filter (fun x => !mine x), play := t.play.filter (fun x => !mine x) })
      s.startFill image (cellsOf (e.payload.drop 8))
  else if !s.hold.dirty || s.hold.graze = .awaitGrant || s.hold.graze = .running then s
  else
    let bytes := cellBytes s.hold.cells
    let s := s.startFill image s.hold.cells
    s.observe 0x61 0 (leBytes 4 image ++ leBytes 4 (crc32c bytes) ++ (if s.tally.camFull then [] else bytes))

/-! ### LYP store (R480) -/

/-- The slots whose images have all ended are freed, and their pages with them. -/
def State.lypSweep (s : State) : State :=
  let gone := s.sec.lyp.filter (fun l => l.count ≤ l.ended.length)
  let s := s.onSec (fun x => { x with lyp := x.lyp.filter (fun l => l.ended.length < l.count) })
  gone.foldl (fun s l => s.padFree (.lyp l.slot)) s

/-- An image of every LYP slot ends: done or passed over; a slot whose images have all ended is freed. -/
def State.lypEnd (image : Nat) (s : State) : State :=
  (s.onSec (fun x => { x with
    lyp := x.lyp.map (fun l =>
      if (image + 2 ^ 32 - l.image) % 2 ^ 32 < l.count && !l.ended.contains image then { l with ended := image :: l.ended }
      else l) })).lypSweep

/-- At the end of composition of a job the images of its slots that were never composed are passed over. -/
def State.lypPassOver (composed : Nat → Bool) (s : State) : State :=
  (s.onSec (fun x => { x with
    lyp := x.lyp.map (fun l =>
      if l.owned then
        let rest := ((List.range l.count).map (fun i => imgAdd l.image i)).filter (fun k => !composed k && !l.ended.contains k)
        { l with ended := rest ++ l.ended }
      else l) })).lypSweep

/-! ### The coverage map (R311 to R313) -/

/-- The bytes of a block row in the coverage ring: block rows follow each other, 16 bytes a block (DESIGN CHOICE 76). -/
def State.covBytes (s : State) (row : CovRow) : Nat × Nat :=
  let n := 16 * row.blocks.length
  let at_ := row.line / 8 % max 1 (s.hold.covLines / 8) * n
  (at_, at_ + n)

/-- A block row joins the coverage ring, and in a repeat the coverage of the copy that is being stored (R311, R313, R337). -/
def State.putCovRow (row : CovRow) (s : State) : State :=
  let n := 16 * row.blocks.length
  let kept := s.hold.covStoreOk && s.lay.repeating
  let copy := s.hold.covStore.find? (fun c => c.num = s.hold.covNum)
  let s := if s.hold.covOk then s.wroteBytes .coverage (s.covBytes row).1 (s.covBytes row).2 else s
  let s := match (if kept then copy else none) with
    | some c => s.wroteBytes .covStore (c.rows.length * n) (c.rows.length * n + n)
    | none => s
  s.onHold (fun h => { h with
    cov := if h.covOk then (h.cov.filter (fun r => row.line < r.line + h.covLines)) ++ [row] else []
    covStore := if kept then h.covStore.map (fun c => if c.num = h.covNum then { c with rows := c.rows ++ [row] } else c)
      else h.covStore })

/-- The lines that wait for their block row, as the row has them. -/
def State.tailRow (s : State) (whole : Bool) (p : Nat) (ls : List CovLine) : CovRow :=
  covRowOf (s.jet.bars.map (fun b => b.inUse)) p ((ls.headD default).line / 8 * 8) whole ls

/-- The block row that composition has begun is written with the lines that it has (R311): whole at the end of the job, else lines that are
not composed, those of images from the repeat store, belong to it. -/
def State.flushCover (whole : Bool) (p : Nat) (s : State) : State :=
  let old := s.hold.covTail
  if old.isEmpty then s else (s.onHold (fun h => { h with covTail := [] })).putCovRow (s.tailRow whole p old)

/-- A composed line joins the coverage map (R311): its block row of eight job lines is written with the row's last line, or with the lines
that it has where composition goes on elsewhere, after images from the repeat store. -/
def State.coverLine (p : Nat) (l : CovLine) (s : State) : State :=
  let s := if s.hold.covTail.any (fun x => x.line / 8 ≠ l.line / 8) then s.flushCover false p else s
  let s := s.onHold (fun h => { h with covTail := h.covTail ++ [l] })
  if l.line % 8 = 7 then s.flushCover (s.hold.covTail.length = 8) p else s

/-! ### Repeat mode (R98, R99, R324 to R326) -/

/-- Graze is over or given up (R325, R326): its copy is returned; EV140 where it had not finished. -/
def State.dropGraze (image : Nat) (s : State) : State :=
  let abandoned := s.hold.graze = .running || s.hold.graze = .awaitGrant
  let s := ((s.padFree .grazeCopy).padFree .grazeCov).droverDrop .graze
  let s := if abandoned then (s.journal 6 (leBytes 4 image ++ leBytes 4 1)).raiseEv 140 else s
  s.onHold (fun h => { h with graze := .idle, grazeStore := none, grazeFill := none, grazeCov := [], grazeWant := false })

/-- The repeat ends with an image (R99, R326): the store is returned, a Graze under way is abandoned. The updates that Graze was to bring into
the store print with that image, which is composed live (R322). -/
def State.endRepeat (image : Nat) (s : State) : State :=
  if !s.lay.repeating then s
  else
    let s := (s.padFree .repeatStore).dropGraze image
    let s := s.onHold (fun h => { (noteDelays image h.grazed h) with grazed := [] })
    let s := s.onLay (fun l => { l with repeating := false, leaving := false, store := none })
    s.raiseEv 37

/-- A trigger of Graze (R324, R326): it asks for its tokens when the stored image is complete and no Graze runs; else it waits. -/
def State.grazeTrigger (s : State) : State :=
  if !s.lay.repeating || s.lay.leaving then s
  else if s.hold.graze = .idle && s.lay.store.any (fun x => x.full) then
    (s.onHold (fun h => { h with graze := .awaitGrant, grazeWant := false })).droverAsk 2 (s.f Fld.HOLD_GRAZE_graze_tokens) .graze
  else s.onHold (fun h => { h with grazeWant := true })

/-! ### The end of a job -/

/-- The binding of a LAYER_FREE is decided (R79): it completes. -/
def State.decideFree (order : Nat) (s : State) : State :=
  if s.hif.inflight.any (fun d => d.order = order && !d.retired) then s.completeAt order 0 0 else s

/-- Waiting bindings of a layer take effect at once, in order (R72): a STAGED content not yet staged stays, bound to nothing,
and takes effect when it is staged. -/
def State.settleLayer (layer : Nat) (s : State) : State :=
  let ws := s.lay.waiting.getD layer []
  let done := fun (b : Binding) => match b.content with | some c => c.streamed || c.staged | none => true
  let s := (ws.filter (fun b => b.content.isNone)).foldl (fun s b => s.decideFree b.order) s
  let s := match (ws.filter done).getLast? with
    | some b => s.takeBinding layer b.order
    | none => s
  s.onLay (fun l => { l with waiting := l.waiting.modify layer (fun ws => ws.map (fun b => { b with bind := .free })) })

/-- Every table that waits takes effect at once (R72). -/
def State.settleTables (s : State) : State :=
  let s := s.onInk (fun i => { i with
    slots := i.slots.map activate
    csp := match i.cspWait with | some w => some w.2 | none => i.csp
    cspWait := none })
  let s := s.onJet (fun j => { j with bars := j.bars.map (fun b => match b.ilWait with
    | some w => { b with il := w.2, ilWait := none }
    | none => b) })
  let s := s.onDfl (fun d => { d with
    dicts := d.dictWait.foldl (fun ds w => (w.2.1, w.2.2) :: ds.filter (fun p => p.1 ≠ w.2.1)) d.dicts, dictWait := [] })
  s.onHold (fun h => { (h.measWait.foldl (fun h w => takeMeas h w.2) h) with measWait := [] })

end Sys2Proof.Machine
end

