-- ==== Sys2Proof/Machine/MramOps.lean ====
section
/-! DEFINITION. The records of the MRAM (R488 to R495): their state, reading, and the writes that wait. -/

set_option Elab.async false

namespace Sys2Proof.Machine

/-- The record of a type and selector; one never written is empty. -/
def State.mrec (s : State) (typ sel : Nat) : MRec :=
  (s.cal.recs.find? (fun r => r.typ = typ && r.sel = sel)).getD ⟨typ, sel, RecSlot.none, RecSlot.none, none, false, false⟩

/-- A record, changed. -/
def State.onRec (typ sel : Nat) (f : MRec → MRec) (s : State) : State :=
  let r := f (s.mrec typ sel)
  s.onCal (fun c => { c with recs := r :: c.recs.filter (fun x => !(x.typ = typ && x.sel = sel)) })

/-- The slot in use of a record (R491): the valid one of the higher generation, slot A where they are equal. -/
def MRec.inUse (r : MRec) : Option RecSlot :=
  if r.a.state = .valid && (r.b.state ≠ .valid || r.b.gen ≤ r.a.gen) then some r.a
  else if r.b.state = .valid then some r.b
  else none

/-- Words of the MRAM that were read in error are counted (R489). -/
def State.countEcc (corrected lost : Nat) (s : State) : State :=
  (s.bumpSat ⟨Reg.CAL_ECC, 15, 0⟩ corrected).bumpSat Fld.CAL_ECC_uncorrectable lost

/-- A word of a slot cannot be corrected: the slot fails its check word; one that is empty stays so (R489, R491). -/
def RecSlot.lose (x : RecSlot) : RecSlot := if x.state = .empty then x else { x with state := .bad }

/-- The words in error that a read of a record finds: they are counted, and a slot with one that cannot be corrected is bad (R489). -/
def State.readErrs (typ sel : Nat) (errs : List WordErr) (s : State) : State :=
  if errs.isEmpty then s
  else
    let lost := errs.filter (fun e => e.double)
    let s := s.countEcc (errs.length - lost.length) lost.length
    s.onRec typ sel (fun r => { r with
      a := if lost.any (fun e => !e.slotB) then r.a.lose else r.a
      b := if lost.any (fun e => e.slotB) then r.b.lose else r.b })

/-- State of a record (R491): 0 EMPTY, 1 VALID, 2 BAD. -/
def MRec.code (r : MRec) : Nat :=
  if r.inUse.isSome then 1 else if r.a.state = .empty && r.b.state = .empty then 0 else 2

/-- The payload that a read of a record gives (R491). -/
def State.record (s : State) (typ sel : Nat) : Option (List Byte) := ((s.mrec typ sel).inUse).map (fun x => x.payload)

/-- A record is read: a bad slot raises FS104, once per record and start (R491). -/
def State.noteRead (typ sel : Nat) (s : State) : State :=
  let r := s.mrec typ sel
  if (r.a.state = .bad || r.b.state = .bad) && !r.badSaid then
    (s.onRec typ sel (fun r => { r with badSaid := true })).fault 104
  else s

/-- A write of the record is deferred (R493): CAL and USER records but camera photometry, within 1 s of the last write, or while that
write is still to be carried out. -/
def State.defers (s : State) (typ sel : Nat) : Option Nat :=
  if typ < 0x20 || typ = 0x24 then none
  else if s.cal.writes.any (fun w => w.typ = typ && w.sel = sel) then some (s.now + 1000000000)
  else match (s.mrec typ sel).wrote with
    | some t => if s.now < t + 1000000000 then some (t + 1000000000) else none
    | none => none

/-- A record write is asked for (R492, R493): it joins the writes that wait, or replaces the content of a deferred one. -/
def State.writeRecord (typ sel : Nat) (payload : List Byte) (desc : Option Nat) (s : State) : State :=
  if s.cal.writes.any (fun w => w.typ = typ && w.sel = sel && w.deferred.isSome) then
    s.onCal (fun c => { c with writes := c.writes.map (fun w =>
      if w.typ = typ && w.sel = sel && w.deferred.isSome then { w with parts := w.parts ++ [(desc, payload)] } else w) })
  else s.onCal (fun c => { c with writes := c.writes ++ [⟨typ, sel, [(desc, payload)], s.defers typ sel⟩] })

/-- A slot takes a payload with a generation (R492). -/
def RecSlot.write (gen time : Nat) (payload : List Byte) (ok : Bool) (_x : RecSlot) : RecSlot :=
  ⟨if ok then .valid else .bad, gen, time, payload⟩

/-- The new generation of a record: one more than the higher valid one (R492). -/
def MRec.nextGen (r : MRec) : Nat :=
  1 + max (if r.a.state = .valid then r.a.gen else 0) (if r.b.state = .valid then r.b.gen else 0)

/-- A write goes to slot A (R492): an empty or bad slot first, else the lower generation, A where the choice is equal. -/
def MRec.toA (r : MRec) : Bool :=
  if r.a.state ≠ .valid then true else if r.b.state ≠ .valid then false else r.a.gen ≤ r.b.gen

/-- The write of a record is carried out; ok says that the slot read back as written (R492, R494). -/
def State.putRecord (typ sel : Nat) (payload : List Byte) (ok : Bool) (s : State) : State :=
  let r := s.mrec typ sel
  let g := r.nextGen
  let s := s.onRec typ sel (fun r =>
    let r := if r.toA then { r with a := r.a.write g s.devTime payload ok } else { r with b := r.b.write g s.devTime payload ok }
    { r with wrote := some s.now })
  let s := s.bump ⟨Reg.CAL_WRITES, 31, 0⟩ 1
  let s := if ok then s else s.fault 106
  let wear := ceilDiv g 2
  if wear ≥ s.f Fld.CAL_WEAR_wear_warn * 1000000 && !r.wearSaid then
    (s.onRec typ sel (fun r => { r with wearSaid := true })).fault 107
  else s

/-- A deferred write of the record waits until 1 s after the write that has just ended (R493). -/
def State.redefer (typ sel : Nat) (s : State) : State :=
  s.onCal (fun c => { c with writes := c.writes.map (fun w =>
    if w.typ = typ && w.sel = sel then { w with deferred := w.deferred.map (fun _ => s.now + 1000000000) } else w) })

/-- The write under way is cut short (R492, R533): its slot is bad, the other slot keeps its content. -/
def State.cutWrite (s : State) : State :=
  match s.cal.writes.find? (fun w => w.deferred.isNone) with
  | none => s
  | some w => s.onRec w.typ w.sel (fun r =>
      if r.toA then { r with a := { r.a with state := .bad } } else { r with b := { r.b with state := .bad } })

end Sys2Proof.Machine
end

