-- ==== Sys2Proof/Machine/NozzleOps.lean ====
section
/-! DEFINITION. Nozzle status and its changes, and remap tables taking effect (R182 to R185, R257 to R261, R266, R270 to R274). -/

set_option Elab.async false

namespace Sys2Proof.Machine

/-- A half-bar's nozzle state, changed. -/
def State.onNzHalf (b h : Nat) (f : NzHalf → NzHalf) (s : State) : State :=
  s.onNozzle (fun z => { z with halves := z.halves.modify (2 * b + h) f })

/-- A bar's nozzle state, changed. -/
def State.onNzBar (b : Nat) (f : NzBar → NzBar) (s : State) : State :=
  s.onNozzle (fun z => { z with bars := z.bars.modify b f })

/-- Entries of the remap table in force at a half-bar. -/
def State.entriesOf (s : State) (b h : Nat) : List RemapEntry :=
  match ((s.bar b).half h).remap with
  | some r => r.entries
  | none => []

/-- Status of one entry. -/
def State.nzStat (s : State) (b h e : Nat) : NzStat := (s.nzHalf (2 * b + h)).map.getD e ⟨0, 0⟩

/-- Job line of the first band whose screening a change made now reaches (R140). -/
def State.nextBandLine (s : State) : Nat :=
  match s.lay.comp with
  | some c =>
    match c.band with
    | some b => c.line0 + b.1 + b.2
    | none => c.line0 + c.pos
  | none => 0

/-- FS108 and EV155 when the penned entries of a half-bar rise above pen_limit (R270). -/
def State.penJudge (b h : Nat) (s : State) : State :=
  let lim := s.f Fld.JET_NH_LIMITS_pen_limit
  let n := (s.nzHalf (2 * b + h)).map.countP (fun x => x.status = 2)
  let above := lim ≠ 0 && n > lim
  let said := (s.nzHalf (2 * b + h)).penSaid
  let s := s.onNzHalf b h (fun z => { z with penSaid := above })
  if above && !said then (s.fault 108).raiseEv 155 else s

/-- One entry's status and lasting count are written; a change of status raises EV152 (R260). cause as JET_NH_LAST. -/
def State.writeStatus (b h e status lasting cause : Nat) (s : State) : State :=
  let old := s.nzStat b h e
  let s := s.onNzHalf b h (fun z => { z with map := z.map.set e ⟨status, min 15 lasting⟩ })
  let s := s.onNozzle (fun z => { z with changed := z.changed || old ≠ ⟨status, min 15 lasting⟩ })
  if old.status = status then s
  else
    let word := b * 2 ^ 29 + h * 2 ^ 28 + status * 2 ^ 26 + cause * 2 ^ 24 + e
    let s := s.onNozzle (fun z => { z with last := word })
    let s := s.tallyEntry 0x52 b (leBytes 4 (h * 2 ^ 31 + status * 2 ^ 26 + e) ++ leBytes 4 s.nextBandLine)
    (s.raiseEv 152).penJudge b h

/-- The spares of a bar at a position and sub-row with a status, as (entry, half), the lowest entry first. -/
def State.sparesAt (s : State) (b pos sub status : Nat) : List (Nat × Nat) :=
  let of_ := fun (h : Nat) => (s.entriesOf b h).zipIdx.filterMap (fun p =>
    if p.1.spare && p.1.pos = pos && p.1.sub = sub && (s.nzStat b h p.2).status = status then some (p.2, h) else none)
  let ins := fun (x : Nat × Nat) (l : List (Nat × Nat)) =>
    l.takeWhile (fun y => y.1 ≤ x.1) ++ x :: l.dropWhile (fun y => y.1 ≤ x.1)
  (of_ 0 ++ of_ 1).foldl (fun l x => ins x l) []

/-- Penned entries of a bar at a position and sub-row that are no spares. -/
def State.pennedAt (s : State) (b pos sub : Nat) : Nat :=
  ((List.range 2).map (fun h => (s.entriesOf b h).zipIdx.countP (fun p =>
    !p.1.spare && p.1.pos = pos && p.1.sub = sub && (s.nzStat b h p.2).status = 2))).sum

/-- A spare that is in use no longer stands for a nozzle. -/
def State.dropStandIn (b h e : Nat) (s : State) : State :=
  s.onNozzle (fun z => { z with standIns := z.standIns.filter (fun x => !(x.bar = b && x.half = h && x.entry = e)) })

/-- An OK spare at a position and sub-row is put in use (R259), of those that may be taken the one of the lowest entry; it stands for a nozzle. -/
def State.promote (b pos sub : Nat) (may : Nat × Nat → Bool) (nozzle : Option (Nat × Nat)) (s : State) : State :=
  match (s.sparesAt b pos sub 0).filter may with
  | [] => s
  | y :: _ =>
    let s := s.writeStatus b y.2 y.1 3 (s.nzStat b y.2 y.1).lasting 3
    s.onNozzle (fun z => { z with standIns := z.standIns ++ (nozzle.map (fun n => ⟨b, y.2, y.1, n.1, n.2⟩)).toList })

/-- The spare that stands for a nozzle returns to OK (R259); where none is known to, one of those in use at its place beyond the penned nozzles
there. -/
def State.relieve (b h e pos sub : Nat) (may : Nat × Nat → Bool) (s : State) : State :=
  let own : List (Nat × Nat) := (s.nozzle.standIns.filter (fun x => x.bar = b && x.ofHalf = h && x.ofEntry = e)).map (fun x => (x.entry, x.half))
  let spare := if own.isEmpty && s.pennedAt b pos sub < (s.sparesAt b pos sub 3).length then
      (s.sparesAt b pos sub 3).filter (fun y => !s.nozzle.standIns.any (fun x => x.bar = b && x.half = y.2 && x.entry = y.1))
    else own
  match spare.filter may with
  | [] => s
  | y :: _ => (s.writeStatus b y.2 y.1 0 (s.nzStat b y.2 y.1).lasting 3).dropStandIn b y.2 y.1

/-- What R259 makes follow where an entry has gone from a status to another: a spare put in use, or returned to OK. -/
def State.spareFollows (b h e old : Nat) (may : Nat × Nat → Bool) (s : State) : State :=
  match (s.entriesOf b h)[e]? with
  | none => s
  | some x =>
    let now_ := (s.nzStat b h e).status
    let of_ : Option (Nat × Nat) := if x.spare then
        (s.nozzle.standIns.find? (fun y => y.bar = b && y.half = h && y.entry = e)).map (fun y => (y.ofHalf, y.ofEntry))
      else some (h, e)
    let s := if now_ = 3 then s else s.dropStandIn b h e
    if now_ = 2 && old ≠ 2 && (!x.spare || old = 3) && s.fb Fld.JET_NH_CTRL_spare_auto then s.promote b x.pos x.sub may of_
    else if now_ = 0 && old ≠ 0 && !x.spare then s.relieve b h e x.pos x.sub may
    else s

/-- An entry's status changes, with the promotion or return of a spare as part of it (R259, R260). -/
def State.changeStatus (b h e status lasting cause : Nat) (s : State) : State :=
  let old := (s.nzStat b h e).status
  (s.writeStatus b h e status lasting cause).spareFollows b h e old (fun y => y ≠ (e, h))

/-- A lasting fault of an entry is judged (R261): kind 0 no drop, 1 a drop outside the window, 2 an element outside its
limits, 3 an element within the margin of a limit. -/
def State.lastingFault (b h e kind cause : Nat) (s : State) : State :=
  if !s.fb Fld.JET_NH_CTRL_auto_pen then s
  else
    let z := s.nzStat b h e
    let limit := orIfZero (s.f Fld.JET_NH_LIMITS_weak_limit) 1
    match kind with
    | 0 | 2 => if z.status = 2 then s else s.changeStatus b h e 2 z.lasting cause
    | 1 =>
      if z.status = 0 then s.changeStatus b h e 1 1 cause
      else if z.status = 1 then
        s.changeStatus b h e (if z.lasting + 1 ≥ limit then 2 else 1) (z.lasting + 1) cause
      else s
    | _ => if z.status = 0 then s.changeStatus b h e 1 z.lasting cause else s

/-- The status change that a NOZZLE entry records is made (R509, R522). -/
def State.applyNozzle (e : Entry) (s : State) : State :=
  let w := leAt e.payload 0 4
  let h := bits w 31 31
  let n := bits w 17 0
  s.writeStatus e.sub h n (bits w 27 26) (s.nzStat e.sub h n).lasting 0

/-- In replay the recorded status changes whose first band begins no later than a job line are made, in their order (R522). -/
def State.replayNozzles (line : Nat) (s : State) : State :=
  if s.replaying then
    let due := fun (e : Entry) => e.kind = 0x52 && diff32 line (leAt e.payload 4 4) < 2 ^ 31
    let es := (s.tally.expected ++ s.tally.play).filter due
    let s := s.onTally (fun t => { t with
      expected := t.expected.filter (fun e => !due e), play := t.play.filter (fun e => !due e) })
    es.foldl (fun s e => s.applyNozzle e) s
  else s

/-! ### Remap tables and status maps taking effect -/

/-- The words of a remap table, for its CRC (R274). -/
def Remap.bytes (r : Remap) (b h : Nat) : List Byte :=
  leBytes 4 r.entries.length ++ leBytes 1 b ++ leBytes 1 h ++ List.replicate 10 0
    ++ r.entries.flatMap (fun e => leBytes 4
        (e.pos * 2 ^ 15 + e.sub * 2 ^ 13 + e.off * 8 + b2n e.rev * 4 + b2n e.disabled * 2 + b2n e.spare))

/-- The statuses that a snapshot record lists for a half-bar (R274, R495). -/
def snapStatuses (payload : List Byte) (b h n : Nat) : List NzStat :=
  let ws := words32 (payload.drop 68)
  ws.foldl (fun m w =>
    if bits w 31 29 = b && bits w 28 28 = h then m.set (bits w 27 10) ⟨bits w 9 8, bits w 7 4⟩ else m)
    (List.replicate n ⟨0, 0⟩)

/-- The map of a half-bar has an entry for each of n nozzles. -/
def State.sizeMap (b h n : Nat) (s : State) : State :=
  s.onNzHalf b h (fun z => { z with map := z.map.take n ++ List.replicate (n - z.map.length) ⟨0, 0⟩ })

/-- The statuses of a half-bar become those listed, each change being one of R260 that the table has brought. -/
def State.setMap (b h : Nat) (m : List NzStat) (s : State) : State :=
  (List.range m.length).foldl (fun s e =>
    let x := m.getD e ⟨0, 0⟩
    if s.nzStat b h e = x then s else s.writeStatus b h e x.status x.lasting 2) (s.sizeMap b h m.length)

/-- The status map of a half-bar when a remap table takes effect without a STATUS_LOAD (R273, R274). What is restored from the snapshot
stands in it already. -/
def State.mapForRemap (b h : Nat) (r : Remap) (noJob : Bool) (s : State) : State :=
  let n := r.entries.length
  let ok := List.replicate n (⟨0, 0⟩ : NzStat)
  if noJob then
    let s := s.noteRead 0x31 0
    match s.record 0x31 0 with
    | some p =>
      if leAt p (4 * (2 * b + h)) 4 = crc32c (r.bytes b h) then
        let was := s.nozzle.changed
        (s.setMap b h (snapStatuses p b h n)).onNozzle (fun z => { z with changed := was })
      else (s.setMap b h ok).fault 109
    | none => (s.setMap b h ok).fault 109
  else if (s.nzHalf (2 * b + h)).map.length = n then s
  else s.setMap b h ok

/-! ### Re-fires (R266, R269, R272) -/

/-- JET_NH_UNTESTED and JET_NH_TRANSIENT count. -/
def State.untested (s : State) : State := s.bump ⟨Reg.JET_NH_UNTESTED, 31, 0⟩ 1
def State.transientOne (s : State) : State := s.bump ⟨Reg.JET_NH_TRANSIENT, 31, 0⟩ 1

/-- A covered entry of a RETEST is decided. -/
def RetestEntry.decided (e : RetestEntry) : Bool := e.judged && (!e.good || e.fires ≥ 2)

/-- A RETEST whose every entry is decided completes (R272). -/
def State.retestSettle (order : Nat) (s : State) : State :=
  match s.nozzle.retests.find? (fun r => r.order = order) with
  | some r =>
    if r.entries.all (fun e => e.decided) then
      (s.onNozzle (fun z => { z with retests := z.retests.filter (fun r => r.order ≠ order) })).completeAt order 0 r.returned
    else s
  | none => s

/-- A covered entry, changed. -/
def State.onRetest (order entry : Nat) (f : RetestEntry → RetestEntry) (s : State) : State :=
  s.onNozzle (fun z => { z with retests := z.retests.map (fun r =>
    if r.order = order then { r with entries := r.entries.map (fun e => if e.entry = entry then f e else e) } else r) })

/-- An entry joins the queue of re-fires of its bar. -/
def State.pushRefire (b : Nat) (q : Refire) (s : State) : State :=
  s.onNzBar b (fun z => { z with queue := z.queue ++ [q] })

/-- An entry that is never fired: it is disabled (R263). -/
def State.neverFires (s : State) (b h entry : Nat) : Bool := (s.entriesOf b h)[entry]?.any (fun x => x.disabled)

/-- A re-fire of a RETEST is decided (R272): the second follows the first, in a list batch of its own; after two, an entry in every way good
returns to OK. A full queue drops the second; a disabled entry is never fired, so it does not return to OK. -/
def State.retestFired (order b h entry : Nat) (clean : Bool) (s : State) : State :=
  let s := s.onRetest order entry (fun e => { e with fires := e.fires + 1, clean := e.clean && clean })
  let mine : List RetestEntry := match s.nozzle.retests.find? (fun r => r.order = order) with
    | some r => r.entries.filter (fun e => e.entry = entry && e.judged && e.good)
    | none => []
  let st := (s.nzStat b h entry).status
  let s := if mine.any (fun e => e.fires = 1) then
      if s.neverFires b h entry then s.onRetest order entry (fun e => { e with fires := 2, clean := false })
      else if (s.nzBar b).queue.length ≥ 64 then s.untested.onRetest order entry (fun e => { e with fires := 2, clean := false })
      else s.pushRefire b ⟨h, entry, 0, .retest order⟩
    else if mine.any (fun e => e.fires = 2 && e.clean) && (st = 1 || st = 2) then
      let s := s.changeStatus b h entry 0 0 0
      s.onNozzle (fun z => { z with retests := z.retests.map (fun r =>
        if r.order = order then { r with returned := r.returned + 1 } else r) })
    else s
  s.retestSettle order

/-- A re-fire of a streak's group is decided (R269): EV154 when every one came back TRANSIENT. -/
def State.streakFired (id : Nat) (clean : Bool) (s : State) : State :=
  let s := s.onNozzle (fun z => { z with streaks := z.streaks.map (fun g =>
    if g.id = id then { g with left := g.left - 1, clean := g.clean && clean } else g) })
  match s.nozzle.streaks.find? (fun g => g.id = id) with
  | some g =>
    if g.left = 0 then
      let s := s.onNozzle (fun z => { z with streaks := z.streaks.filter (fun g => g.id ≠ id) })
      if g.clean then s.raiseEv 154 else s
    else s
  | none => s

/-- Whoever asked for a re-fire learns of its outcome. -/
def State.refireDone (b h entry : Nat) (why : Purpose) (clean : Bool) (s : State) : State :=
  match why with
  | .sweep => s
  | .streak id => s.streakFired id clean
  | .retest o => s.retestFired o b h entry clean

/-- The entries of a half-bar that a RETEST covers are decided as they stand: their table is gone. -/
def State.endRetests (b h : Nat) (s : State) : State :=
  let mine := s.nozzle.retests.filter (fun r => r.bar = b && r.half = h)
  let s := s.onNozzle (fun z => { z with retests := z.retests.map (fun r =>
    if r.bar = b && r.half = h then { r with entries := r.entries.map (fun e =>
      if e.decided then e else { e with judged := true, good := false }) } else r) })
  mine.foldl (fun s r => s.retestSettle r.order) s

/-- The queue of re-fires of a half-bar is emptied (R266), those under test in a list batch among them. -/
def State.emptyQueue (b h : Nat) (s : State) : State :=
  let gone := (s.nzBar b).queue.filter (fun q => q.half = h)
  let s := s.onNzBar b (fun z => { z with queue := z.queue.filter (fun q => q.half ≠ h) })
  let s := gone.foldl (fun s q => match q.why with
    | .streak id => s.streakFired id false
    | .sweep => s
    | .retest _ => s) s
  s.endRetests b h

/-- A remap table takes effect at a half-bar (R184). loaded says that a status map of its count takes effect with it. -/
def State.putRemap (b h : Nat) (r : Remap) (noJob loaded : Bool) (s : State) : State :=
  let old := (((s.bar b).half h).remap.map (fun o => o.region)).toList
  let s := s.onBar b (fun x => { x.onHalf h (fun y => { y with remap := some r }) with oldCopies := x.oldCopies ++ old })
  let s := s.emptyQueue b h
  let s := s.onNozzle (fun z => { z with standIns := z.standIns.filter (fun x => !(x.bar = b && (x.half = h || x.ofHalf = h))) })
  if loaded then s else s.mapForRemap b h r noJob

/-- The Paddock copies of superseded tables of a bar are returned: both half-bars have changed over (R184). -/
def State.freeCopies (b : Nat) (s : State) : State :=
  let s := (s.bar b).oldCopies.foldl (fun s r => s.padFreeId r) s
  s.onBar b (fun x => { x with oldCopies := [] })

/-- A loaded status map takes effect (R259, R260, R272): every entry that it changes is a status change of software. The statuses that it
gives stand, those of its spares too, so the spares that follow are of the other half-bar, and one is put in use only where more
nozzles of its place are penned than spares in use there (DEDUCED, log entry 35). -/
def State.putMap (b h : Nat) (m : List NzStat) (s : State) : State :=
  let s := s.sizeMap b h m.length
  let was := (s.nzHalf (2 * b + h)).map
  let s := s.setMap b h m
  (List.range m.length).foldl (fun s e =>
    let old := (was.getD e ⟨0, 0⟩).status
    let short := (s.entriesOf b h)[e]?.any (fun x => (s.sparesAt b x.pos x.sub 3).length < s.pennedAt b x.pos x.sub)
    if old = (s.nzStat b h e).status || ((s.nzStat b h e).status = 2 && !short) then s
    else s.spareFollows b h e old (fun y => y.2 ≠ h)) s

/-- A remap table or a status map takes effect at a half-bar. -/
def State.putEither (b h : Nat) (noJob loaded : Bool) (x : Remap ⊕ List NzStat) (s : State) : State :=
  match x with
  | .inl r => s.putRemap b h r noJob loaded
  | .inr m => s.putMap b h m

/-- Remap tables and status maps that a test picks take effect at a half-bar in slot order (R72, R78); what was posted before the last of
its kind to take effect is superseded. -/
def State.takeWaiting (due : Bind → Bool) (noJob : Bool) (b h : Nat) (s : State) : State :=
  let rs := ((s.bar b).half h).remapWait.filter (fun w => due w.1)
  let ms := (s.nzHalf (2 * b + h)).wait.filter (fun w => due w.1)
  let lastR := rs.foldl (fun n w => max n (w.2.order + 1)) 0
  let lastM := ms.foldl (fun n w => max n (w.2.1 + 1)) 0
  let s := s.onBar b (fun x => x.onHalf h (fun y => { y with
    remapWait := y.remapWait.filter (fun w => !due w.1 && lastR ≤ w.2.order) }))
  let s := s.onNzHalf b h (fun z => { z with wait := z.wait.filter (fun w => !due w.1 && lastM ≤ w.2.1) })
  let items : List (Nat × (Remap ⊕ List NzStat)) :=
    rs.map (fun w => (w.2.order, .inl w.2)) ++ ms.map (fun w => (w.2.1, .inr w.2.2))
  (items.mergeSort (fun p q => p.1 ≤ q.1)).foldl (fun s p => s.putEither b h noJob
    (match p.2 with
      | .inl r => ms.any (fun m => m.2.2.length = r.entries.length)
      | .inr _ => false) p.2) s

/-- Remap tables and status maps of a bar that are bound to an image no later than k take effect as its line 0 reaches the reference line
of the bar (R184). -/
def State.takeBar (k b : Nat) (s : State) : State :=
  ((s.takeWaiting (fun x => x.due k) false b 0).takeWaiting (fun x => x.due k) false b 1).freeCopies b

/-- What the half-bars have waiting for an image takes effect at once, in slot order and as if no job were open (R72); what is bound to an
image that has been composed waits on for its line 0 at its bar (R184). -/
def State.settleBars (s : State) : State :=
  let due := fun (x : Bind) => match x with
    | .image n => !s.lay.spans.any (fun p => p.image = n)
    | .next => true
    | .free => true
  let places : List (Nat × Nat) := (List.range 8).flatMap (fun b => [(b, 0), (b, 1)])
  let items : List (Nat × Nat × Nat × (Remap ⊕ List NzStat)) := places.flatMap (fun p =>
    (((s.bar p.1).half p.2).remapWait.filter (fun w => due w.1)).map (fun w => (w.2.order, p.1, p.2, .inl w.2))
      ++ ((s.nzHalf (2 * p.1 + p.2)).wait.filter (fun w => due w.1)).map (fun w => (w.2.1, p.1, p.2, .inr w.2.2)))
  let s := places.foldl (fun s p =>
    (s.onBar p.1 (fun x => x.onHalf p.2 (fun y => { y with remapWait := y.remapWait.filter (fun w => !due w.1) }))).onNzHalf p.1 p.2
      (fun z => { z with wait := z.wait.filter (fun w => !due w.1) })) s
  let s := (items.mergeSort (fun p q => p.1 ≤ q.1)).foldl (fun s p => s.putEither p.2.1 p.2.2.1 true false p.2.2.2) s
  (List.range 8).foldl (fun s b => s.freeCopies b) s

/-- What has arrived with no job open takes effect at once (R184). -/
def State.takeFree (b h : Nat) (s : State) : State := (s.takeWaiting (fun x => x = .free) true b h).freeCopies b

/-! ### The end of composition of a job (R72) -/

/-- A bar has raised IMAGE_DONE for an image. -/
def State.doneAt (s : State) (b image : Nat) : Bool := s.lay.spans.any (fun p => p.image = image && p.done.contains b)

/-- The ring of a job whose last image is done at a bar is returned (R179). -/
def State.freeRingOf (b image : Nat) (s : State) : State :=
  let gone := (s.bar b).oldRings.filter (fun r => r.last = some image)
  let s := gone.foldl (fun s r => s.padFreeId r.region) s
  s.onBar b (fun x => { x with oldRings := x.oldRings.filter (fun r => r.last ≠ some image) })

/-- Composition of a closed job has ended: EV038, waiting bindings take effect, LYP images not composed are passed over
(R480), the rings stay until their last image is done (R179). -/
def State.jobEnd (s : State) : State :=
  match s.lay.job with
  | none => s
  | some j =>
    let composed := s.lay.comp.isSome
    let newIl := s.jet.bars.any (fun b => b.ilWait.isSome)
    let s := (List.range 8).foldl (fun s l => s.settleLayer l) s
    let s := s.settleTables
    let s := s.settleBars
    let s := s.lypPassOver (fun k => s.lay.spans.any (fun p => p.image = k))
    let s := (s.flushCover true j.width).endRepeat j.last
    let s := s.onHold (fun h => { h with grazed := [] })
    let s := s.onLay (fun l => { l with
      job := none, comp := none, stopped := false, commits := [], store := none, repeating := false, leaving := false, loads := [],
      judged := none, prevSig := List.replicate 8 none, leadLow := false })
    let s := s.onJet (fun x => { x with bars := x.bars.map (fun b => match b.ring with
      | some r => { b with ring := none, oldRings := b.oldRings ++ [{ r with last := some j.last }], inUse := false }
      | none => { b with inUse := false }) })
    let s := if newIl then s.limitsChanged else s
    let s := (s.onDfl (fun d => d.without (· < 8))).raiseEv 38
    (List.range 8).foldl (fun s b => if !composed || s.doneAt b j.last then s.freeRingOf b j.last else s) s

end Sys2Proof.Machine
end

