-- ==== Sys2Proof/Machine/FoldOps.lean ====
section
/-! DEFINITION. The result of a targeted self-test (R440, R441, R445). -/

set_option Elab.async false

namespace Sys2Proof.Machine

/-- Severity of a LASTING re-entry of a class (R448). -/
def State.lastingSev (s : State) (cls : Nat) : Nat := min 4 (s.f (Fld.FOLD_CLASS_lasting_sev cls))

/-- A pending self-test gives its result: FOLD_ST, EV197; a LASTING one sets its bit and re-enters Fold (R440, R441). The
test of an injected occurrence runs against a sound unit (R445). -/
def State.testResult (src : Nat) (lasting : Bool) (s : State) : State :=
  match s.fold.tests.find? (fun t => t.source = src) with
  | none => s
  | some t =>
    let lasting := lasting && !t.injected
    let s := s.onFold (fun f => { f with
      tests := f.tests.filter (fun t => t.source ≠ src), stResult := if lasting then 2 else 1, stSource := src })
    let s := (s.droverDrop (.selfTest src t.target)).raiseEv 197
    if lasting then
      let s := s.setSticky (Reg.FOLD_LASTING (src / 32)) (2 ^ (src % 32))
      s.faultAs src t.bars t.target (s.lastingSev (src / 8)) .lasting
    else s

/-- The test of a source is pending for a unit. -/
def State.testPending (s : State) (src target : Nat) : Bool :=
  s.fold.tests.any (fun t => t.source = src && t.target = target)

/-- A test that Fold awaits may run once the Drover has granted its tokens (R416, R442). -/
def State.testMayRun (s : State) (src target : Nat) : Bool :=
  !s.testPending src target || s.replaying || s.droverHas (.selfTest src target)

/-- A word test gives its result; the next word's is then pending (R348, R440). -/
def State.wordTested (lasting : Bool) (s : State) : State :=
  let was := s.testPending 26 0
  let s := s.testResult 26 lasting
  if was && !s.memc.wordTests.isEmpty && !s.testPending 26 0 then s.startTest 26 255 0 false else s

end Sys2Proof.Machine
end

