-- ==== Sys2Proof/Machine/NozzleTest.lean ====
section
/-! DEFINITION. Requests to the hubs (R229, R239, R252) and what nozzle tests do with them: gap windows, sweeps, re-fires,
element checks, streaks (R262 to R269, R272). -/

set_option Elab.async false

namespace Sys2Proof.Machine

/-! ### Requests to the hubs -/

/-- The upstream of a bar is woken: WAKE naming upstream is sent (R247, R248). -/
def State.wakeUp (b : Nat) (s : State) : State :=
  let x := s.linkBar b
  if x.us = .asleep || x.usPending then
    let s := s.sendCtl b 2 (wakePkt 2)
    s.onLinkBar b (fun l => { l with
      us := .waking, usPending := false, usWakeAt := if l.us = .waking then l.usWakeAt else s.now })
  else s

/-- A CFG or STAT goes to every in-service lane of some bars with a new ctag, and awaits its replies (R229, R239). -/
def State.hubAsk (isStat : Bool) (bars : Nat) (pktOf : Nat → List Byte) (order : Nat) (dev : Bool) (dest : Nat)
    (s : State) : State :=
  let c := (s.link.ctag + 1) % 65536
  let s := (scopeBars bars).foldl (fun s b =>
    (s.sendCtl b 3 (pktOf c)).onLinkBar b (fun l => { l with ctags := (c :: l.ctags).take 16 })) s
  s.onLink (fun l => { l with
    ctag := c, reqs := l.reqs ++ [⟨c, isStat, bars, 0, 0, 1, s.now, order, dev, dest, pktOf c, false⟩] })

/-- The device reads TEST_STAT of a bar with a lane in service. -/
def State.readTestStat (b : Nat) (s : State) : State :=
  if (s.halfUp b 0 || s.halfUp b 1) && !s.replaying then
    s.hubAsk true (2 ^ b) (fun c => statPkt c 0x11C 1) 0 true 0
  else s

/-- 32-bit words as bytes. -/
def wordBytes (ws : List Nat) : List Byte := ws.flatMap (leBytes 4)

/-- Code depth of the job whose gaps pass a bar: that of its oldest ring, else of the open job. -/
def State.gapDepth (s : State) (b : Nat) : Nat :=
  match ((s.bar b).oldRings ++ (s.bar b).ring.toList).head? with
  | some r => r.codeBits
  | none => (s.lay.job.map (fun j => j.codeBits)).getD 2

/-- The drop code of a bar's tests (R278). -/
def State.testCode (s : State) (b : Nat) : Nat :=
  let c := s.f Fld.JET_NH_CTRL_test_code
  if 3 < c && s.gapDepth b = 2 then 3 else c

/-- A batch is written to the test registers of a bar's hub (R264): TEST_ROW to TEST_CODE, the TEST_LIST words (not valid where it lists
nothing), TEST_CMD last. The request that carries TEST_CMD is known by its dest, 65,536 + batch. -/
def State.sendBatch (b op num : Nat) (row : Nat) (tick0 : Int) (span subset : Nat) (list : List Nat) (s : State) : State :=
  let w := [row, toTwos 32 tick0, span, subset, s.f Fld.JET_NH_WINDOW_close * 2 ^ 16 + s.f Fld.JET_NH_WINDOW_opn,
    s.testCode b]
  let s := s.hubAsk false (2 ^ b) (fun c => cfgPkt c 0x104 (wordBytes w)) 0 true 0
  let s := s.hubAsk false (2 ^ b) (fun c => cfgPkt c 0x120 (wordBytes (list ++ List.replicate (8 - list.length) 0))) 0 true 0
  s.hubAsk false (2 ^ b) (fun c => cfgPkt c 0x100 (wordBytes [op * 2 ^ 28 + num])) 0 true (65536 + num)

/-- The next batch number of a bar. -/
def State.nextBatch (b : Nat) (s : State) : Nat × State :=
  let n := (s.nzBar b).nextBatch
  (n, s.onNzBar b (fun z => { z with nextBatch := (z.nextBatch + 1) % 65536 }))

/-- A TEST_LIST word (R264). -/
def listWord (half entry : Nat) : Nat := 2 ^ 31 + half * 2 ^ 30 + entry

/-! ### Gaps (R262 to R264) -/

/-- Ticks between test firings, and the number of subsets of a row (R278). -/
def State.testSpace (s : State) : Nat := orIfZero (s.f Fld.JET_NH_DD_CFG_space) 1
def State.testStride (s : State) : Nat := max 8 (s.f Fld.JET_NH_DD_CFG_stride)

/-- A sweep batch goes to the hub. -/
def State.sendSweep (b : Nat) (x : Batch) (s : State) : State :=
  let s := s.sendBatch b 1 x.num x.row x.tick0 (x.space * 2 ^ 24 + 2 ^ 16 + x.n) (x.first * 2 ^ 16 + x.stride) []
  s.onNzBar b (fun z => { z with batches := z.batches ++ [x], sweepNext := none })

/-- A gap of a bar offers a test window (R262). -/
def State.gapUsable (s : State) (b gap : Nat) (drill : Bool) : Bool :=
  s.fb Fld.JET_NH_CTRL_dd_en && (s.bar b).fire = .activeStandby && !drill && (s.nzBar b).gate && !s.replaying
    && (s.bar b).oMax + 16 + max 1 (s.f Fld.JET_NH_DD_CFG_gap_min_dd) ≤ gap

/-- Queued re-fires that the next list batch takes: up to 8, each nozzle once, none that a batch still tests (R266). -/
def NzBar.pick (z : NzBar) : List Refire :=
  let busy := z.batches.flatMap (fun x => x.entries)
  (z.queue.foldl (fun l q =>
    if busy.contains q || l.any (fun p => p.half = q.half && p.entry = q.entry) then l else l ++ [q]) []).take 8

/-- The reference line of a bar reaches the first line of a gap at tick m0 (R262 to R264, R266): the batches of the gap. -/
def State.gapStart (b : Nat) (m0 : Int) (gap : Nat) (drill : Bool) (s : State) : State :=
  let s := if s.gapUsable b gap drill then
      let sp := s.testSpace
      let w := gap - (s.bar b).oMax - 16
      let t0 := m0 + (s.bar b).oMax + 8
      let list := (s.nzBar b).pick
      let used := if list.isEmpty then 0 else 4 * sp
      let z := s.nzBar b
      let sub := if z.subset < s.testStride then z.subset else 0
      let n := if w ≤ used then 0 else min ((w - used - 1) / sp + 1) (s.testStride - sub)
      let (k, s) := if list.isEmpty then (0, s) else s.nextBatch b
      let s := if list.isEmpty then s
        else
          let s := s.sendBatch b 2 k 0 t0 (sp * 2 ^ 24 + 4 * 2 ^ 16) s.testStride (list.map (fun q => listWord q.half q.entry))
          s.onNzBar b (fun z => { z with batches := z.batches ++ [⟨k, true, list, 0, 0, 0, t0, t0 + 3 * sp, sp, s.testStride, false, []⟩] })
      if n = 0 then s
      else
        let (k, s) := s.nextBatch b
        let t1 := t0 + used
        let x : Batch := ⟨k, false, [], z.row, sub, n, t1, t1 + (n - 1) * sp, sp, s.testStride, false, []⟩
        if list.isEmpty then s.sendSweep b x else s.onNzBar b (fun z => { z with sweepNext := some x })
    else s
  if s.fb Fld.JET_NH_CTRL_dd_en then s.readTestStat b else s

/-- drill_min (R212). -/
def State.drillMin (s : State) : Nat := max 32 (s.f Fld.JET_DRILL_MIN_drill_min)

/-- A gap begins at the reference line: tick m, and the tick of the next line 0. -/
def State.gapBegin (b : Nat) (m e : Int) (s : State) : State :=
  let n := (e - m).toNat
  let long := s.drillMin ≤ n
  let drill := long && s.fb (Fld.JET_BAR_CTRL_drill b) && (s.bar b).fire = .activeStandby
  let s := s.onBar b (fun x => { x with
    gapAt := some (m, e), drillDue := drill, testDue := long && x.selfTest.isSome })
  s.gapStart b m n drill

/-- A bar leaves ACTIVE_STANDBY within a gap: the gap is not used for drop detection (R262). Its batches count for nothing: listed entries
stay queued, and the sweep goes on from where it stood. -/
def State.voidGap (b : Nat) (s : State) : State :=
  s.onNzBar b (fun z => { z with batches := z.batches.filter (fun x => x.fired), sweepNext := none })

/-- A subset of a sweep of a stride has fired: the sweep moves on to the next; after the last of the bar's last row it is complete
(R263). -/
def State.sweepFired (b row stride k : Nat) (s : State) : State :=
  if k + 1 < stride then s.onNzBar b (fun z => { z with row := row, subset := k + 1 })
  else if row + 1 < (s.bar b).subRows then s.onNzBar b (fun z => { z with row := row + 1, subset := 0 })
  else
    let s := s.onNzBar b (fun z => { z with
      row := 0, subset := 0, sweepTime := s.devTime, sweepAt := s.now, staleSaid := false })
    s.raiseEv 153

/-- The subset that a sweep batch fires on a tick. -/
def Batch.subsetAt (x : Batch) (m : Int) : Option Nat :=
  let d := (m - x.tick0).toNat
  if x.isList || m < x.tick0 || x.lastTick < m || d % max 1 x.space ≠ 0 then none else some (x.first + d / max 1 x.space)

/-- Tick m of a bar: pulsed says that its line has carried the tick, so that the hub fires what a batch has on it (R263, R265). -/
def State.sweepTick (b : Nat) (m : Int) (pulsed : Bool) (s : State) : State :=
  let z := s.nzBar b
  if (s.bar b).fire ≠ .activeStandby then
    if z.batches.all (fun x => x.fired) && z.sweepNext.isNone then s else s.voidGap b
  else
    let s := match z.batches.findSome? (fun x => (x.subsetAt m).map (fun k => (x.row, x.stride, k))) with
      | some p => if pulsed then s.sweepFired b p.1 p.2.1 p.2.2 else s
      | none => s
    if z.batches.any (fun x => !x.fired && x.lastTick ≤ m) then
      s.onNzBar b (fun z => { z with batches := z.batches.map (fun x => { x with fired := x.fired || decide (x.lastTick ≤ m) }) })
    else s

/-! ### Re-fires (R266, R269, R272) -/

/-- An entry is queued for a re-fire; a full queue drops it (R266), and a disabled one is never fired (R263). -/
def State.queueRefire (b h entry : Nat) (why : Purpose) (s : State) : State :=
  if s.neverFires b h entry then s.refireDone b h entry why false
  else if why = .sweep && (s.nzBar b).queue.any (fun q => q.half = h && q.entry = entry && q.why = .sweep) then s
  else if (s.nzBar b).queue.length ≥ 64 then s.untested.refireDone b h entry why false
  else s.pushRefire b ⟨h, entry, 0, why⟩

/-- Two queued re-fires are the same one, whatever has been counted for it. -/
def Refire.same (p q : Refire) : Bool := p.half = q.half && p.entry = q.entry && p.why = q.why

/-- The result of one listed entry (R266); one that has left the queue meanwhile is passed over. -/
def State.listResult (b : Nat) (q : Refire) (r : Nat) (s : State) : State :=
  if !(s.nzBar b).queue.any q.same then s
  else if r = 0 && q.zeros + 1 < 3 then
    s.onNzBar b (fun z => { z with queue := z.queue.map (fun p => if q.same p then { p with zeros := q.zeros + 1 } else p) })
  else
    let s := s.onNzBar b (fun z => { z with queue := z.queue.filter (fun p => !q.same p) })
    match r with
    | 0 => s.untested.refireDone b q.half q.entry q.why false
    | 1 => s.transientOne.refireDone b q.half q.entry q.why true
    | _ => (s.lastingFault b q.half q.entry (r - 2) 0).refireDone b q.half q.entry q.why false

/-- Result i of a GATE packet (R231). -/
def gateResult (p : List Byte) (i : Nat) : Nat := bits (leAt p (16 + i / 4) 1) (2 * (i % 4) + 1) (2 * (i % 4))

/-- One sweep result (R266): 2 and 3 queue the entry, or are only counted. -/
def State.sweepResult (b h entry r : Nat) (s : State) : State :=
  if r < 2 then s
  else if s.fb Fld.JET_NH_CTRL_retest_en then s.queueRefire b h entry .sweep
  else s.untested

/-- The listed entries that a packet reports. -/
def State.listPacket (b : Nat) (x : Batch) (p : List Byte) (s : State) : State :=
  let h := leAt p 1 1 / 128
  let first := leAt p 8 4
  let n := leAt p 12 2
  x.entries.zipIdx.foldl (fun s q =>
    if q.1.half = h && first ≤ q.1.entry && q.1.entry < first + n && !x.seen.contains q.2 then
      let s := s.onNzBar b (fun z => { z with
        batches := z.batches.map (fun y => if y.num = x.num then { y with seen := y.seen ++ [q.2] } else y) })
      s.listResult b q.1 (gateResult p (q.1.entry - first))
    else s) s

/-- A batch ends: listed entries that no packet reported were not tested (R265). -/
def State.endBatch (b num : Nat) (s : State) : State :=
  match (s.nzBar b).batches.find? (fun x => x.num = num) with
  | none => s
  | some x =>
    let s := s.onNzBar b (fun z => { z with batches := z.batches.filter (fun x => x.num ≠ num) })
    (x.entries.zipIdx.filter (fun q => !x.seen.contains q.2)).reverse.foldl (fun s q => s.listResult b q.1 0) s

/-- A batch that the hub did not start: its entries, which are queued still, are tested in the next usable gap. -/
def State.dropBatch (b num : Nat) (s : State) : State :=
  if (s.nzBar b).batches.any (fun x => x.num = num) then
    s.onNzBar b (fun z => { z with batches := z.batches.filter (fun x => x.num ≠ num), sweepNext := none })
  else s

/-- A GATE packet of a bar (R231, R266): true where it is the last of its batch. -/
def State.gatePacket (b : Nat) (p : List Byte) (s : State) : Bool × State :=
  let num := leAt p 4 2
  let h := leAt p 1 1 / 128
  let first := leAt p 8 4
  let last := bitOf (leAt p 0 1) 0
  match (s.nzBar b).batches.find? (fun x => x.num = num) with
  | none => (last, s)
  | some x =>
    let s := if x.isList then s.listPacket b x p
      else (List.range (leAt p 12 2)).foldl (fun s i => s.sweepResult b h (first + i) (gateResult p i)) s
    (last, if last then s.endBatch b num else s)

/-! ### Element checks (R267, R268) -/

/-- An element value is outside the limits; within the margin of one (R268). -/
def State.impOutside (s : State) (v : Nat) : Bool :=
  v = 0 || v = 0xFFFF || v < s.f Fld.JET_NH_IMP_LIM_imp_lo || s.f Fld.JET_NH_IMP_LIM_imp_hi < v
def State.impNear (s : State) (v : Nat) : Bool :=
  v - s.f Fld.JET_NH_IMP_LIM_imp_lo < s.f Fld.JET_NH_IMP_MARGIN_imp_margin
    || s.f Fld.JET_NH_IMP_LIM_imp_hi - v < s.f Fld.JET_NH_IMP_MARGIN_imp_margin

/-- An element check of a bar is wanted; TEST_STAT is read for it (R267). -/
def State.wantImp (b : Nat) (retest : Option Nat) (s : State) : State :=
  (s.onNzBar b (fun z => { z with impWant := z.impWant ++ [retest] })).readTestStat b

/-- An IMP batch goes to the hub. -/
def State.sendImp (b : Nat) (list : List (Nat × Nat)) (x : ImpBatch) (s : State) : State :=
  let (k, s) := s.nextBatch b
  let s := s.sendBatch b (if list.isEmpty then 3 else 4) k 0 0 (s.testSpace * 2 ^ 24 + 2 ^ 16) s.testStride
    (list.map (fun p => listWord p.1 p.2))
  s.onNzBar b (fun z => { z with imp := some { x with num := k, isList := !list.isEmpty, listed := list } })

/-- An element check ends: the RETEST for which it was made is judged, and good entries are queued for the first of two re-fires (R272). -/
def State.endImp (b : Nat) (x : ImpBatch) (s : State) : State :=
  let s := s.onNzBar b (fun z => { z with imp := none })
  (s.nozzle.retests.filter (fun r => x.serves = some r.order)).foldl (fun s r =>
    let s := (r.entries.filter (fun e => !e.judged)).foldl (fun s e =>
      let k := (r.half, e.entry)
      let good := x.measured.contains k && !x.bad.contains k && !x.margin.contains k
      let s := s.onRetest r.order e.entry (fun e => { e with judged := true, good := good })
      if good then s.queueRefire b r.half e.entry (.retest r.order) else s) s
    s.retestSettle r.order) s

/-- One measured value (R268); an entry that an aborted batch has not measured reads 0xFFFF (R265). -/
def State.impValue (b h entry v : Nat) (r : ImpBatch × State) : ImpBatch × State :=
  let x := r.1
  let s := r.2
  let k := (h, entry)
  if entry ≥ (s.nzHalf (2 * b + h)).map.length || (x.isList && !x.listed.contains k) || (x.aborted && v = 0xFFFF) then (x, s)
  else if s.impOutside v then
    if x.isList then
      ({ x with bad := x.bad ++ [k], todo := x.todo.filter (· ≠ k) }, s.lastingFault b h entry 2 1)
    else ({ x with todo := x.todo ++ [k], measured := x.measured ++ [k] }, s)
  else
    let near := s.impNear v
    let s := if x.isList then s.transientOne else s
    let s := if near then s.lastingFault b h entry 3 1 else s
    ({ x with
        todo := x.todo.filter (· ≠ k), measured := x.measured ++ [k], margin := if near then x.margin ++ [k] else x.margin }, s)

/-- The values of an IMP packet. -/
def State.impValues (b : Nat) (p : List Byte) (x : ImpBatch) (s : State) : ImpBatch × State :=
  (List.range (leAt p 12 2)).foldl (fun r i =>
    State.impValue b (leAt p 1 1 / 128) (leAt p 8 4 + i) (leAt p (16 + 2 * i) 2) r) (x, s)

/-- An IMP packet of a batch that has been aborted (R265, R267): what it measured counts; what is to be measured once more is left for
the bar's next idle. -/
def State.impLate (b : Nat) (last : Bool) (p : List Byte) (x : ImpBatch) (s : State) : State :=
  let r := s.impValues b p x
  if last then r.2.onNzBar b (fun z => { z with impOld := none, impRest := r.1.todo })
  else r.2.onNzBar b (fun z => { z with impOld := some r.1 })

/-- An IMP packet of the batch that runs (R268): after its last, what is outside the limits is measured once more. -/
def State.impNow (b : Nat) (last : Bool) (p : List Byte) (x : ImpBatch) (s : State) : State :=
  let r := s.impValues b p x
  let x := r.1
  let s := r.2.onNzBar b (fun z => { z with imp := some r.1 })
  if !last then s
  else
    let todo := if x.isList then x.todo.filter (fun k => !x.listed.contains k) else x.todo
    if todo.isEmpty then s.endImp b x else s.sendImp b (todo.take 8) { x with todo := todo }

/-- An IMP packet of a bar (R231, R268): true where it is the last of its batch. -/
def State.impPacket (b : Nat) (p : List Byte) (s : State) : Bool × State :=
  let last := bitOf (leAt p 0 1) 0
  let mine := fun (x : ImpBatch) => x.num = leAt p 4 2
  (last, match (s.nzBar b).imp.filter mine with
    | some x => s.impNow b last p x
    | none => match (s.nzBar b).impOld.filter mine with
      | some x => s.impLate b last p x
      | none => s)

/-- A bar is armed during an element check (R267, R272): ABORT, and the RETEST for which it was made completes with NH_IDLE. -/
def State.abortImp (b : Nat) (s : State) : State :=
  let s := s.onNzBar b (fun z => { z with canMeasure := false })
  match (s.nzBar b).imp with
  | none => s
  | some x =>
    let s := s.hubAsk false (2 ^ b) (fun c => cfgPkt c 0x100 (wordBytes [5 * 2 ^ 28 + x.num])) 0 true 0
    let s := s.onNzBar b (fun z => { z with imp := none, impOld := some { x with aborted := true } })
    let gone := s.nozzle.retests.filter (fun r => x.serves = some r.order)
    let s := s.onNozzle (fun z => { z with retests := z.retests.filter (fun r => x.serves ≠ some r.order) })
    gone.foldl (fun s r => s.completeAt r.order 0x51 0) s

/-! ### Replies to the device's own requests -/

/-- TEST_STAT as a bar's hub answers it (R262, R267, R277). -/
def State.takeTestStat (b w : Nat) (s : State) : State :=
  let gate := bitOf w 2
  let s := s.onNzBar b (fun z => { z with gate := gate, canMeasure := bitOf w 1 })
  if s.fb Fld.JET_NH_CTRL_dd_en && !gate then
    if (s.nzBar b).gateSaid then s else (s.onNzBar b (fun z => { z with gateSaid := true })).fault 111
  else s.onNzBar b (fun z => { z with gateSaid := false })

/-- A TEST_CMD is acknowledged: the sweep batch of the gap follows the list batch (R264). -/
def State.cmdAcked (b num : Nat) (s : State) : State :=
  match (s.nzBar b).sweepNext with
  | some x =>
    if (s.bar b).fire = .activeStandby && (s.nzBar b).batches.any (fun y => y.num = num && y.isList) then s.sendSweep b x else s
  | none => s

/-- A TEST_CMD was refused or not answered: its batch does not run (R265); an element check is wanted as before. -/
def State.cmdFailed (b num : Nat) (s : State) : State :=
  let s := s.dropBatch b num
  match (s.nzBar b).imp with
  | some x =>
    if x.num ≠ num then s
    else if x.rest then s.onNzBar b (fun z => { z with imp := none, impRest := x.todo })
    else s.onNzBar b (fun z => { z with imp := none, impWant := x.serves :: z.impWant })
  | none => s

/-! ### Streaks (R269) -/

/-- Insert by a key, after equal keys. -/
def insertBy {α : Type} (key : α → Nat) (x : α) : List α → List α
  | [] => [x]
  | y :: ys => if key y ≤ key x then y :: insertBy key x ys else x :: y :: ys

/-- A streak of a bar over positions lo to hi is queued for re-fire (R269): its firing-capable entries, the 8 nearest the
centre. -/
def State.streakRefire (b lo hi : Nat) (s : State) : State :=
  if !s.fb Fld.JET_NH_CTRL_streak_en then s
  else
    let all := (List.range 2).flatMap (fun h => (s.capables b h).zipIdx.filterMap (fun p =>
      if p.1.2 && lo ≤ p.1.1.pos && p.1.1.pos ≤ hi then some (h, p.2, p.1.1.pos) else none))
    let dist := fun (x : Nat × Nat × Nat) => if 2 * x.2.2 < lo + hi then lo + hi - 2 * x.2.2 else 2 * x.2.2 - (lo + hi)
    let near := (all.foldl (fun l x => insertBy dist x l) []).take 8
    if near.isEmpty then s
    else
      let id := s.nozzle.nextStreak
      let s := s.onNozzle (fun z => { z with nextStreak := z.nextStreak + 1, streaks := z.streaks ++ [⟨id, near.length, true⟩] })
      near.foldl (fun s x => s.queueRefire b x.1 x.2.1 (.streak id)) s

end Sys2Proof.Machine
end

