-- ==== Sys2Proof/Machine/JobCmd.lean ====
section
/-! DEFINITION. Commands of jobs, layers and commits: JOB_OPEN to IMAGE_COMMIT, staging and streaming (R58 to R101, R176 to R180,
R312, R320, R327, R481, R510). -/

set_option Elab.async false

namespace Sys2Proof.Machine

/-! ### Snapshots that JOB_CLOSE writes -/

/-- The payload of the hold snapshot record (R328, R495). -/
def Hold.snapshot (h : Hold) : List Byte :=
  (List.range (8 * 1728)).flatMap (fun k => leBytes 2 (((h.cells.find? (fun p => p.1 = k)).map (fun p => p.2)).getD 0x4000))
    ++ (List.range 1728).flatMap (fun j => (List.range 3).flatMap (fun ch =>
      leBytes 2 (((h.paper.find? (fun p => p.1 = 1728 * ch + j)).map (fun p => p.2)).getD (h.paper0.getD ch 0))))

/-- The hold snapshot is written (R328): EV145. -/
def State.writeHoldSnap (s : State) : State :=
  let s := s.writeRecord 0x30 0 s.hold.snapshot none
  (s.onHold (fun h => { h with changed := false, snapAt := s.now })).raiseEv 145

/-- The payload of the status snapshot record (R274, R495): a half-bar with no remap table has check word 0. -/
def State.statusSnapshot (s : State) : List Byte :=
  let crcs := (List.range 16).flatMap (fun k =>
    leBytes 4 (match ((s.bar (k / 2)).half (k % 2)).remap with
      | some r => crc32c (r.bytes (k / 2) (k % 2))
      | none => 0))
  let es := (List.range 16).flatMap (fun k => (s.nzHalf k).map.zipIdx.filterMap (fun p =>
    if p.1.status = 0 then none
    else some (k / 2 * 2 ^ 29 + k % 2 * 2 ^ 28 + p.2 * 2 ^ 10 + p.1.status * 2 ^ 8 + p.1.lasting * 2 ^ 4)))
  let es := es.take 16384
  crcs ++ leBytes 4 es.length ++ es.flatMap (leBytes 4)

/-- The status snapshot is written (R274). -/
def State.writeStatusSnap (s : State) : State :=
  let s := s.writeRecord 0x31 0 s.statusSnapshot none
  s.onNozzle (fun z => { z with changed := false, snapAt := s.now })

/-! ### Jobs -/

/-- The descriptor belongs to the open job, or to none with no job open (R69, R126): with none open, one with job 0 is taken on
any ring (DESIGN CHOICE 78: no ring carries an open job then). -/
def State.jobFits (s : State) (d : Desc) : Bool :=
  match s.lay.job with
  | some j => j.ring = d.ring && j.num = d.job
  | none => d.job = 0

/-- The descriptor is one of an open job (R69). -/
def State.inJob (s : State) (d : Desc) : Bool := s.lay.job.isSome && s.jobFits d

/-- A JOB_OPEN is not yet decided: descriptors of jobs wait for it. -/
def State.opening (s : State) : Bool := s.lay.ask.isSome

/-- A number of lines rounded up to bands. -/
def ceil64 (n : Nat) : Nat := ceilDiv n 64 * 64

/-- Bytes of one ring line (R179). -/
def ringStride (p codeBits : Nat) (ms : Bool) : Nat := ceilDiv (p * codeBits * (1 + b2n ms)) 512 * 64

/-- L_b (R179). -/
def State.ringLines (s : State) (b : Nat) : Nat :=
  ceil64 (s.leadCap + ceilDiv (s.offB b - s.offB 0).toNat 65536 + (s.bar b).oMaxSize + 128)

/-- cam_off of a context in sublines (R292, R302); 0 without a block. -/
def CamPort.camOff (p : CamPort) : Nat :=
  match p.block with
  | some b => leAt b 112 6
  | none => 0

/-- Lines of the coverage ring (R312). -/
def State.covRingLines (s : State) : Nat :=
  let far := ((List.range 6).filter (fun p => bitOf (s.f Fld.HOLD_CTX_value) p)).foldl (fun m p => max m (s.port p).camOff) 0
  ceil64 (s.leadCap + ceilDiv far 65536 + 128)

/-- Pages of n lines of coverage (R311). -/
def covPagesOf (lines width : Nat) : Nat := ceilDiv (ceilDiv lines 8 * (ceilDiv width 16 * 16)) 2097152

/-- Nanoseconds of stage_wait. -/
def State.stageWait (s : State) : Nat := s.f Fld.HIF_STAGE_WAIT_stage_wait * 1000000

/-- Cells and paper loaded from the hold snapshot record at the first JOB_OPEN with empty history (R327). -/
def State.loadHistory (s : State) : State :=
  if s.hold.history || s.hold.start ≠ 0 then s.onHold (fun h => { h with start := 3 })
  else
    let s := (s.onHold (fun h => { h with kept := false })).noteRead 0x30 0
    let s := match s.record 0x30 0 with
      | some p => s.onHold (fun h => { h.putCells (cellsOf p) with
          paper := (List.range 5184).map (fun k => (1728 * (k % 3) + k / 3, entry16 (p.drop 27648) k)),
          start := 1 })
      | none => (s.onHold (fun h => { h.putCells [] with
          paper := [], start := 2,
          paper0 := [s.f Fld.HOLD_PAPER_RG_R, s.f Fld.HOLD_PAPER_RG_G, s.f Fld.HOLD_PAPER_B_B] })).fault 50
    s.raiseEv 144

/-- Every paper value from the registers at JOB_OPEN, unless paper_keep is 1 (R320). -/
def State.setPaper (s : State) : State :=
  if s.fb Fld.HOLD_CTRL_paper_keep then s
  else s.onHold (fun h => { h with
    paper := [], paper0 := [s.f Fld.HOLD_PAPER_RG_R, s.f Fld.HOLD_PAPER_RG_G, s.f Fld.HOLD_PAPER_B_B] })

/-- Every bar in use of a JOB_OPEN under way has its region. -/
def State.ringsHeld (s : State) (a : Opening) : Bool :=
  a.bars.zipIdx.all (fun p => !p.1.inUse || (s.openRegion p.2).isSome)

/-- Pages of the coverage ring of a JOB_OPEN under way (R312). -/
def Opening.covPages (a : Opening) : Nat := covPagesOf a.covLines a.job.width

/-- The coverage of the job before is returned (R312). -/
def State.dropCoverage (s : State) : State := (s.padFree .coverage).padFree .covStore

/-- The coverage ring of a JOB_OPEN under way is at hand: granted, or it fits once the ring of the job before is returned. -/
def State.covHeld (s : State) (a : Opening) : Bool :=
  (s.padOf .covOpen).isSome
    || ((s.padOf .coverage).isSome && s.dropCoverage.padMay 4 a.covPages)

/-- The new coverage ring takes the place of the old one; false: the quota cannot hold it (R312). -/
def State.takeCoverage (a : Opening) (s : State) : Bool × State :=
  let had := (s.padOf .covOpen).isSome
  let s := s.dropCoverage.padWithdraw .covOpen
  if had then
    (true, s.onPaddock (fun p => { p with
      regions := p.regions.map (fun r => if r.holder = .covOpen then { r with holder := .coverage } else r) }))
  else if s.padMay 4 a.covPages then (true, s.padGive 4 a.covPages .coverage)
  else (false, s)

/-- A bar as the opened job uses it (R178, R179). -/
def State.openBar (codeBits : Nat) (s : State) (p : OpenBar × Nat) : State :=
  let s := s.onBar p.2 (fun x => { x with inUse := p.1.inUse, subRows := p.1.subRows, msCapable := p.1.ms })
  match (if p.1.inUse then s.openRegion p.2 else none) with
  | some r => s.onBar p.2 (fun x => { x with
      ring := some ⟨p.1.lines, p.1.oMax, p.1.pages, r.id, codeBits, none, [], []⟩, nextSend := none })
  | none => s

/-- A JOB_OPEN has its rings: the job is open (R70, R137, R178, R179, R312, R320, R327, R480). -/
def State.openDone (d : Desc) (a : Opening) (s : State) : State :=
  let s := a.bars.zipIdx.foldl (State.openBar a.job.codeBits) s
  let c := s.takeCoverage a
  let s := if c.1 then c.2 else c.2.fault 51
  let s := s.onInk (fun k => { k with acc := [], bandClamps := List.replicate 32 0 })
  let s := s.onJet (fun x => { x with mJob := none })
  let s := s.onLay (fun l => { l with
    job := some a.job, ask := none, comp := none, stopped := false, commits := [], judged := none, leadLow := false,
    prevSig := List.replicate 8 none })
  let s := s.onHold (fun h => { h with
    covOk := c.1, covLines := a.covLines, covPages := if c.1 then a.covPages else 0,
    cov := [], covTail := [], covStore := [], covStoreOk := false, ests := [], papers := [], seenTo := [], closed := none })
  let s := s.onSec (fun x => { x with lyp := x.lyp.map (fun l => { l with owned := true }) })
  (s.loadHistory.setPaper).complete d 0 0

/-- A JOB_OPEN under way opens its job once its regions are granted; late says that it waits for the coverage ring no
longer (R312). -/
def State.openTry (late : Bool) (s : State) : State :=
  match s.lay.ask with
  | some a =>
    match s.descAt a.order with
    | some d => if s.ringsHeld a && (late || s.covHeld a) then s.openDone d a else s
    | none => s
  | none => s

/-- The job of a JOB_OPEN (R70): latch_lines, lead_min and lead_max are sampled. -/
def State.jobOf (s : State) (d : Desc) : Job :=
  { num := d.job, ring := d.ring, first := d.num 8 4, width := d.num 12 4, startGap := d.num 16 4,
    codeBits := d.byte 20, latchLines := latchRange (s.f Fld.LAYER_CTRL_latch_lines),
    leadMin := s.f Fld.LAYER_LEAD_MIN_lead_min, leadMax := s.f Fld.LAYER_LEAD_MAX_lead_max, closed := false, last := 0,
    accepted := false }

/-- What a JOB_OPEN takes for a bar (R178, R179). -/
def State.openBarOf (s : State) (j : Job) (b : Nat) : OpenBar :=
  let ms := s.fb (Fld.JET_BAR_CFG_ms_capable b)
  { inUse := s.fb (Fld.JET_BAR_CFG_en b), subRows := s.f (Fld.JET_BAR_CFG_sr_count b) + 1, ms := ms
    lines := s.ringLines b, oMax := (s.bar b).oMaxSize
    pages := ceilDiv (s.ringLines b * ringStride j.width j.codeBits ms) 2097152 }

/-- What a JOB_OPEN samples and asks for (R70, R178, R179, R312). -/
def State.openingOf (s : State) (d : Desc) : Opening :=
  { order := d.order, job := s.jobOf d, bars := (List.range 8).map (s.openBarOf (s.jobOf d)), covLines := s.covRingLines }

/-- JOB_OPEN asks for its rings and its coverage ring (R178, R179, R312): the bars and the coverage of the job before stay as they are until
it opens (R56). -/
def State.openAsk (d : Desc) (s : State) : State :=
  let a := s.openingOf d
  let s := s.start d
  let s := s.onLay (fun l => { l with ask := some a })
  let s := a.bars.zipIdx.foldl (fun s p => if p.1.inUse then s.padAsk 0 p.1.pages (.ringOf p.2) else s) s
  let s := s.padAsk 4 a.covPages .covOpen
  s.openTry (s.stageWait = 0)

/-- JOB_OPEN (R70, R176, R179). One with job number 0 gives JOB_STATE (DESIGN CHOICE 78: a job of number 0 could not be told from
none). -/
def execJobOpen (dt : Nat) (ring : Fin 64) (slot : Nat) (s : State) : Res :=
  if s.down then .next s else
  let s := s.elapse dt
  match s.startable ring.val slot 0x01 with
  | none => .next s
  | some d =>
    if s.opening then .next s
    else if s.lay.job.isSome || d.job = 0 then .next (s.complete d 0x21 0)
    else
      let s := s.wakeAll [4, 5, 6, 7]
      if !s.allOn [4, 5, 6, 7] then .next s
      else if (List.range 8).any (fun b => s.fb (Fld.JET_BAR_CFG_en b) && s.offB b < s.offB 0) then
        .next (s.complete d 0x38 0)
      else
        let s := s.openAsk d
        .next (if s.opening && s.stageWait = 0 then (s.unopenJob).complete d 0x14 0 else s)

/-- The later of two images on the 32-bit circle. -/
def imgMax (a b : Nat) : Nat := if imgLe a b then b else a

/-- The image that a commit with no target would reach now (R89, R90). -/
def State.reachNow (s : State) : Nat :=
  match s.lay.commits.getLast? with
  | some c => imgMax s.nextImage c.image
  | none => s.nextImage

/-- A job is closed at its last image: its descriptor completes, and what has changed is stored (R71, R274, R328). -/
def State.closeJob (d : Desc) (j : Job) (s : State) : State :=
  let least := imgAdd s.nextImage (2 ^ 32 - 1)
  let asked := d.num 8 4
  let last := if asked = 0 || !imgLe least asked then least else asked
  let s := s.onLay (fun l => { l with job := some { j with closed := true, last := last } })
  let s := s.complete d 0 last
  let s := if s.hold.changed then s.writeHoldSnap else s
  let s := if s.nozzle.changed then s.writeStatusSnap else s
  let none_ := !j.accepted || (s.lay.comp.isNone && !imgLe (s.imageToStart j) last)
  if none_ then s.jobEnd else s

/-- JOB_CLOSE (R71, R274, R328). A job none of whose images is to be composed ends at once. -/
def execJobClose (dt : Nat) (ring : Fin 64) (slot : Nat) (s : State) : Res :=
  if s.down then .next s else
  let s := s.elapse dt
  match s.startable ring.val slot 0x02 with
  | none => .next s
  | some d =>
    if s.opening then .next s
    else match s.lay.job with
    | none => .next (s.complete d 0x21 0)
    | some j =>
      if !s.jobFits d || j.closed then .next (s.complete d 0x21 0)
      else .next (s.closeJob d j)

/-! ### Layers -/

/-- The content that a LAYER_SET names (R58, R76). -/
def Desc.content (d : Desc) (es : List PageEnt) : Content :=
  let g := d.num 16 8
  { ring := d.ring, slot := d.slot, order := d.order, format := d.byte 9, colour := d.byte 10 % 4,
    spot := bits (d.byte 10) 6 4, policy := d.byte 11 % 4, varying := bitOf (d.byte 11) 2,
    freezeSev := bits (d.byte 11) 6 4, alphaMode := d.byte 12 % 4, wrap := bits (d.byte 12) 3 2,
    filter := bits (d.byte 12) 5 4, alpha := d.byte 13, x0 := bits g 16 0, srcW := bits g 34 17, srcH := bits g 58 35,
    y0 := d.num 24 3, scaleX := d.num 28 2, scaleY := d.num 30 2, streamed := d.buf.residency = 1, tags := d.buf.tags = 1,
    list := d.buf.list, pages := d.buf.pages, pageSize := d.buf.pageSize, length := d.buf.length, ents := es,
    staged := false, data := [], reads := [], dead := false }

/-- The checks of R77 and R84: none when the LAYER_SET passes, else the status. -/
def layerCheck (d : Desc) : Option Nat :=
  let c := d.content []
  if d.byte 8 ≥ 8 then some 0x15
  else if c.format = 12 && c.alphaMode ≥ 2 then some 0x11
  else if (c.format = 11 || c.format = 12) && c.filter ≠ 0 then some 0x11
  else if c.format ≠ 12 && c.spot ≠ 0 then some 0x11
  else if c.wrap = 0 && c.length < c.stride * c.srcH then some 0x11
  else if lineBufNeed c.filter c.scaleX > 4096 then some 0x16
  else none

/-- A binding of a layer joins those that wait (R78): with no job open it is bound to no image. -/
def State.addBinding (layer : Nat) (order : Nat) (c : Option Content) (s : State) : State :=
  let b : Binding := ⟨order, if s.lay.job.isSome then .next else .free, c⟩
  s.onLay (fun l => { l with waiting := l.waiting.modify layer (· ++ [b]) })

/-- A staging that finds no room ends (R60): NO_QUOTA, EV021. -/
def State.stageFail (d : Desc) (s : State) : State := ((s.withdraw d).complete d 0x14 0).raiseEv 21

/-- A LAYER_SET that passed its checks is admitted (R59 to R61, R78): STREAMED content completes now, and its pages are read once its landing buffer
is held; STAGED content asks for its Paddock. -/
def State.admitLayer (d : Desc) (c : Content) (s : State) : State :=
  let layer := d.byte 8
  let free := s.lay.job.isNone
  let s := (s.start d).addBinding layer d.order (some c)
  if c.streamed then
    let s := (s.padAsk 2 c.landPages (.landing d.order)).completeAs d 0 0 false
    if free then s.takeBinding layer d.order else s
  else
    let s := s.padAsk 2 (max 1 (ceilDiv c.length 2097152)) (.stage d.order)
    if (s.padOf (.stage d.order)).isNone && s.stageWait = 0 then s.stageFail d else s

/-- LAYER_SET (R76 to R80, R84, R481, R557). -/
def execLayerSet (dt : Nat) (ring : Fin 64) (slot : Nat) (list : List PageEnt) (s : State) : Res :=
  if s.down then .next s else
  let s := s.elapse dt
  match s.startable ring.val slot 0x10 with
  | none => .next s
  | some d =>
    if s.opening || list.length ≠ d.buf.used then .next s
    else match layerCheck d with
    | some st => .next ((if d.byte 8 ≥ 8 then s.fault 91 else s).complete d st 0)
    | none =>
      let s := s.readList d
      if !d.buf.entsOk list then .next (s.complete d 0x11 0)
      else if !s.jobFits d then .next (s.complete d 0x21 0)
      else if (s.lay.waiting.getD (d.byte 8) []).length ≥ 16 then .next (s.complete d 0x22 0)
      else
        let s := s.wakeAll [4]
        .next (if s.allOn [4] then s.admitLayer d (d.content list) else s)

/-- LAYER_FREE (R79, R80). -/
def execLayerFree (dt : Nat) (ring : Fin 64) (slot : Nat) (s : State) : Res :=
  if s.down then .next s else
  let s := s.elapse dt
  match s.startable ring.val slot 0x11 with
  | none => .next s
  | some d =>
    let layer := d.byte 8
    if s.opening then .next s
    else if !s.jobFits d then .next (s.complete d 0x21 0)
    else if (s.lay.waiting.getD layer []).length ≥ 16 then .next (s.complete d 0x22 0)
    else
      let free := s.lay.job.isNone
      let s := (s.start d).addBinding layer d.order none
      .next (if free then (s.takeBinding layer d.order).complete d 0 0 else s)

/-! ### Commits -/

/-- A target no earlier than the job's first image and earlier than the next acceptable one lies behind it; one before the first image
counts as 2^31 or more images ahead (DESIGN CHOICE 78: R91 draws no line between the two). -/
def behind (first next target : Nat) : Bool :=
  let n := diff32 next target
  0 < n && n ≤ diff32 next first

/-- What a bind becomes when a commit reaches an image (R78). -/
def Bind.reach (image : Nat) (b : Bind) : Bind :=
  match b with
  | .next => .image image
  | .image n => .image n
  | .free => .free

/-- Everything that waits for the next commit is bound to the image that it reaches (R78, R126, R184, R272, R331, R377,
R479). -/
def State.bindAll (image : Nat) (s : State) : State :=
  let s := s.onLay (fun l => { l with
    waiting := l.waiting.map (List.map (fun b => { b with bind := b.bind.reach image }))
    loads := l.loads.map (fun x => (x.1, x.2.reach image)) })
  let s := s.onInk (fun k => { k with
    slots := k.slots.map (fun t => { t with shadow := t.shadow.map (fun h => { h with bind := h.bind.reach image }) })
    cspWait := k.cspWait.map (fun w => (w.1.reach image, w.2)) })
  let s := s.onJet (fun x => { x with
    bars := x.bars.map (fun b => { b with
      ilWait := b.ilWait.map (fun w => (w.1.reach image, w.2))
      left := { b.left with remapWait := b.left.remapWait.map (fun w => (w.1.reach image, w.2)) }
      right := { b.right with remapWait := b.right.remapWait.map (fun w => (w.1.reach image, w.2)) } }) })
  let s := s.onNozzle (fun z => { z with
    halves := z.halves.map (fun h => { h with wait := h.wait.map (fun w => (w.1.reach image, w.2)) }) })
  let s := s.onDfl (fun x => { x with dictWait := x.dictWait.map (fun w => (w.1.reach image, w.2)) })
  s.onHold (fun h => { h with measWait := h.measWait.map (fun w => (w.1.reach image, w.2)) })

/-- The start gap of a job begins at a bar that its first tick has passed already (R177, R205, R262). -/
def State.startGapAt (m : Int) (s : State) (b : Nat) : State :=
  let t := (s.bar b).lastTick
  if s.jet.startAt ≤ t && t < m && !s.lay.spans.any (fun p => p.m0 ≤ t && t < p.m0 + p.length) then s.gapBegin b t m else s

/-- The first commit of a job fixes m_job (R177), and composition may start. -/
def State.firstCommit (j : Job) (s : State) : State :=
  if j.accepted then s
  else
    let at_ := s.barLine 0
    let m := at_ + j.startGap
    let s := s.onJet (fun x => { x with mJob := some m, startAt := at_ })
    let s := s.onLay (fun l => { l with job := some { j with accepted := true } })
    let s := s.onLay (fun l => { l with stopped := s.lead ≥ s.leadLimit })
    s.barsUsed.foldl (State.startGapAt m) s

/-- The image that a commit reaches, of the image asked for (R90); in replay, the recorded one (R510). -/
def State.commitReach (d : Desc) (ask : Nat) (s : State) : Nat :=
  let now := imgMax ask s.reachNow
  if s.replaying then
    match s.recorded 3 (fun p => p.take 3 = leBytes 2 d.tag ++ leBytes 1 d.ring) with
    | some e => leAt e.payload 4 4
    | none => now
  else now

/-- A commit is accepted (R88 to R91, R101). -/
def State.acceptCommit (d : Desc) (j : Job) (ask : Nat) (s : State) : State :=
  let reach := s.commitReach d ask
  let content := s.lay.waiting.any (fun bs => bs.any (fun b => b.bind = .next))
  let frees := (s.lay.waiting.flatten.filter (fun b => b.bind = .next && b.content.isNone)).map (fun b => b.order)
  let fl := d.byte 12
  let s := s.bindAll reach
  let cs := s.contentsAt reach
  let c : Commit := ⟨reach, d.num 16 3, d.num 20 3, bitOf fl 1, bitOf fl 2, content, fetchOf cs (d.num 16 3), demandOf cs⟩
  let s := s.onLay (fun l => { l with commits := l.commits ++ [c] })
  let s := s.firstCommit j
  let s := s.journal 3 (leBytes 2 d.tag ++ leBytes 1 d.ring ++ leBytes 1 0 ++ leBytes 4 reach)
  let s := (frees.foldl (fun s o => s.decideFree o) s).fetchAhead
  s.complete d (if reach = ask then 0 else 3) reach

/-- IMAGE_COMMIT (R88 to R92, R177). A length that the latch_lines of the job do not allow is refused here too: the job may have sampled
them since the descriptor was read. -/
def execImageCommit (dt : Nat) (ring : Fin 64) (slot : Nat) (s : State) : Res :=
  if s.down then .next s else
  let s := s.elapse dt
  match s.startable ring.val slot 0x12 with
  | none => .next s
  | some d =>
    if s.opening then .next s
    else match s.lay.job with
    | none => .next (s.complete d 0x21 0)
    | some j =>
      let next := s.nextImage
      let ask := if bitOf (d.byte 12) 0 then d.num 8 4 else next
      if !s.jobFits d || j.closed then .next (s.complete d 0x21 0)
      else if d.num 16 3 ≤ j.latchLines then .next (s.complete d 0x11 0)
      else if diff32 ask next ≥ 2 ^ 31 && !behind j.first next ask then .next (s.complete d 0x11 0)
      else if s.lay.commits.length ≥ 64 then .next (s.complete d 0x20 0)
      else .next (s.acceptCommit d j ask)

/-! ### Staging and streaming -/

/-- A content with a descriptor's place in the order of reading, wherever it waits. -/
def State.waitingOf (s : State) (order : Nat) : Option (Nat × Binding) :=
  (List.range 8).findSome? (fun l => ((s.lay.waiting.getD l []).find? (fun b => b.order = order)).map (fun b => (l, b)))

/-- A waiting content, changed. -/
def State.onWaiting (order : Nat) (f : Content → Content) (s : State) : State :=
  s.onLay (fun l => { l with waiting := l.waiting.map (List.map (fun b =>
    if b.order = order then { b with content := b.content.map f } else b)) })

/-- The page list of a STAGED layer that is being copied. -/
def State.stageEnts (s : State) (order : Nat) : List PageEnt :=
  match s.waitingOf order with
  | some w => (w.2.content.map (fun c => c.ents)).getD []
  | none => ((s.lay.gone.find? (fun c => c.order = order)).map (fun c => c.ents)).getD []

/-- The whole buffer of a STAGED layer is on the device (R59, R60). -/
def State.stageDone (d : Desc) (data : List Byte) (s : State) : State :=
  let s := s.readPages d (s.stageEnts d.order)
  if d.buf.tags = 1 && !tagsHold (pageBytes d.buf.pageSize) (s.stageEnts d.order) data then
    (s.withdraw d).complete d 0x17 0
  else
    let s := s.onWaiting d.order (fun c => { c with staged := true, data := data.take c.length })
    let s := s.wroteHolder (.stage d.order)
    let s := s.complete d 0x01 0
    match s.waitingOf d.order with
    | some w => if w.2.bind = .free then s.takeBinding w.1 d.order else s
    | none => (s.padFree (.stage d.order)).onLay (fun l => { l with gone := l.gone.filter (fun c => c.order ≠ d.order) })

/-- STAGING_COMPLETE (R59, R60, R72): the copy waits for DRAM that is off or in self-refresh (R351, R398). -/
def execStagingComplete (dt : Nat) (ring : Fin 64) (slot : Nat) (data : List Byte) (s : State) : Res :=
  if s.down then .next s else
  let s := s.elapse dt
  match s.liveAs ring.val slot (fun d =>
      d.opcode = 0x10 && d.started && (s.padOf (.stage d.order)).isSome && data.length = d.buf.taken) with
  | some d => .next (if s.dramUp then s.stageDone d data else s.callDram)
  | none => .next s

/-- A request of a descriptor that has waited for stage_wait ends (R60, R179, R183, R312, R511). -/
def State.stageTimeout (d : Desc) (s : State) : State :=
  match d.opcode with
  | 0x01 =>
    let s := s.openTry true
    if s.opening then s.unopenJob.complete d 0x14 0 else s
  | 0x10 => s.stageFail d
  | _ => (s.withdraw d).complete d 0x14 0

/-- A Paddock request belongs to a descriptor. -/
def PReq.ofDesc (w : PReq) (d : Desc) : Bool :=
  match w.holder with
  | .stage o => o = d.order
  | .remap o => o = d.order
  | .ringOf _ => d.opcode = 0x01
  | .covOpen => d.opcode = 0x01
  | .tally => d.opcode = 0x40
  | _ => false

/-- STAGE_WAIT_TIMEOUT (R60, R179). -/
def execStageWaitTimeout (dt : Nat) (ring : Fin 64) (slot : Nat) (s : State) : Res :=
  if s.down then .next s else
  let s := s.elapse dt
  match s.liveAs ring.val slot (fun d => d.started && s.paddock.waiting.any (fun w => w.ofDesc d && s.now - w.at_ ≥ s.stageWait)) with
  | some d => .next (s.stageTimeout d)
  | none => .next s

/-- The layer of a slot of a ring for which reads of some pages are under way; the oldest of several. -/
def State.readerOf (s : State) (ring slot : Nat) (pages : List Nat) : Option Nat :=
  let rs := s.hif.pageReads.filter (fun r => r.ring = ring && r.slot = slot)
  (rs.find? (fun r => pages.all (fun i => rs.any (fun q => q.order = r.order && q.index = i)))).map (fun r => r.order)

/-- The oldest read under way of a page of a layer has ended. -/
def endRead (order i : Nat) : List PageRead → List PageRead
  | [] => []
  | r :: rs => if r.order = order && r.index = i then rs else r :: endRead order i rs

/-- The oldest read under way of a page ends. -/
def settleRead (i : Nat) (r : PageState) : List SPage → List SPage
  | [] => []
  | p :: ps => if p.index = i && p.state = .asked then { p with state := r } :: ps else p :: settleRead i r ps

/-- A read of a page has ended; what it brings goes to its layer, if that is still there. -/
def State.endPage (order : Nat) (r : PageState) (s : State) (i : Nat) : State :=
  (s.onHif (fun h => { h with pageReads := endRead order i h.pageReads })).onContent order (fun c => { c with reads := settleRead i r c.reads })

/-- The STREAMED content of a descriptor, in force or waiting. -/
def State.contentOf (s : State) (order : Nat) : Option Content :=
  (s.lay.inForce.filterMap id ++ s.lay.waiting.flatten.filterMap (fun b => b.content)).find? (fun c => c.order = order)

/-- STREAMED_PAGE_ARRIVE (R62 to R64): with tags a page that fails its check is not ready for the band that needs it, and FS067 and EV019
are raised. The page comes whole; of several reads of it the oldest is answered. A lease that a reset has ended takes none (R32). -/
def execStreamedPageArrive (dt : Nat) (ring : Fin 64) (slot page : Nat) (data : List Byte) (s : State) : Res :=
  if s.down then .next s else
  let s := s.elapse dt
  match s.readerOf ring.val slot [page] with
  | none => .next s
  | some o =>
    match s.contentOf o with
    | none => .next (s.endPage o .failed page).fetchAhead
    | some c =>
      if data.length ≠ pageBytes c.pageSize then .next s
      else if c.tags && crc32c data ≠ ((c.ents.map (fun e => e.tag.toNat)).getD page 0) then
        .next ((((s.endPage o .failed page).fault 67).raiseEv 19).fetchAhead)
      else
        let at_ := c.landAt (page * pageBytes c.pageSize)
        let s := s.wroteBytes (.landing o) at_ (at_ + data.length)
        .next (s.endPage o (.here data) page).fetchAhead

/-- A failed read that is no descriptor's (R556, R473, R475): the read of a token, whose check then fails at its first step, or of a
firmware image, whose load ends (DESIGN CHOICE 59: the spec does not say what follows). -/
def State.ownReadFails (s : State) : State :=
  if s.sec.busy && !s.sec.readDue && !s.sec.readLost then (s.fault 64).onSec (fun x => { x with readLost := true })
  else if s.sec.loading then (s.fault 64).onSec (fun x => { x with loading := false })
  else s

/-- A descriptor's data do not come (R556): it completes with DMA_ERROR; its other requests may still fail. -/
def State.dataFails (d : Desc) (s : State) : State :=
  let s := ((s.fault 64).withdraw d).complete d 0x13 0
  s.onHif (fun h => { h with
    dataReads := h.dataReads.filter (fun r => !(r.ring = d.ring && r.slot = d.slot)) ++ [⟨d.ring, d.slot, d.buf.used⟩] })

/-- HOST_READ_FAIL (R62, R556): FS064, once for each request. pages are those of a STREAMED layer that the request touches, and each has
failed for the band that needs it, if the layer is still there; without pages it is a read for other host data of a descriptor, which completes with DMA_ERROR
or has done so for another of its requests, or a read that C0 makes. -/
def execHostReadFail (dt : Nat) (ring : Fin 64) (slot : Nat) (pages : List Nat) (s : State) : Res :=
  if s.down then .next s else
  let s := s.elapse dt
  if pages.isEmpty then
    match s.liveAs ring.val slot Desc.readsHost with
    | some d => .next (s.dataFails d)
    | none =>
      if s.hif.dataReads.any (fun r => r.ring = ring.val && r.slot = slot && 0 < r.left) then
        .next ((s.fault 64).onHif (fun h => { h with
          dataReads := h.dataReads.map (fun r => if r.ring = ring.val && r.slot = slot then { r with left := r.left - 1 } else r) }))
      else .next s.ownReadFails
  else
    match s.readerOf ring.val slot pages with
    | some o => .next (pages.foldl (State.endPage o .failed) (s.fault 64)).fetchAhead
    | none => .next s

end Sys2Proof.Machine
end

