-- ==== Sys2Proof/Machine/Band.lean ====
section
/-! DEFINITION. Commands of composition: images starting, bands, latch points, the freeze detector, repeat mode, REJECT (R61, R72,
R73, R92 to R101, R106 to R142, R180, R181, R309 to R313, R324, R368, R373, R376). -/

set_option Elab.async false

namespace Sys2Proof.Machine

/-- EV178 when demand × BELL_LRATE rises above 8 × 10^9 (R373). -/
def State.judgeDemand (s : State) : State :=
  let above := s.dfl.demand * s.bell.lrate > 8000000000
  let was := s.dfl.above
  let s := s.onDfl (fun d => { d with above := above })
  if above && !was then s.raiseEv 178 else s

/-! ### Repeat mode -/

/-- Pages of the repeat store (R98). -/
def State.storePages (s : State) (j : Job) (length : Nat) : Nat :=
  ceilDiv (length * s.barsUsed.length * j.width * j.codeBits) (8 * 2097152)

/-- Bytes of the repeat store that hold n lines from one on: line after line, all bars of a line together (DESIGN CHOICE 76: the spec gives the
store a size and no layout). -/
def State.storeBytes (s : State) (j : Job) (first n : Nat) : Nat × Nat :=
  let w := s.barsUsed.length * j.width * j.codeBits
  (first * w / 8, ceilDiv ((first + n) * w) 8)

/-- Lines of the repeat store are written (R99, R337, R348). -/
def State.wroteStore (j : Job) (first n : Nat) (s : State) : State :=
  match s.padOf .repeatStore with
  | some r => s.wroteRegion r (s.storeBytes j first n).1 (s.storeBytes j first n).2
  | none => s

/-- Lines of the repeat store are read (R99, R337). -/
def State.readStore (j : Job) (first n : Nat) (s : State) : State :=
  s.dramHolder .scan false .repeatStore (s.storeBytes j first n).1 (s.storeBytes j first n).2

/-- Repeat mode may be entered at an image (R98). -/
def State.repeatOk (s : State) (j : Job) (c : Commit) : Bool :=
  c.rpt && !c.lypReq
    && s.lay.inForce.all (fun x => x.all (fun x => !x.streamed && !x.varying))
    && s.padMay 1 (s.storePages j c.length) && s.padFirst 1

/-- Repeat mode is entered: the image's bands are also written to the store (R99, R313). -/
def State.enterRepeat (j : Job) (c : Commit) (line0 : Nat) (s : State) : State :=
  let s := s.padGive 1 (s.storePages j c.length) .repeatStore
  let s := s.padFree .covStore
  let n := covPagesOf c.length j.width
  let cov := s.padMay 4 n && s.padFirst 4
  let s := if cov then s.padGive 4 n .covStore else s
  let s := s.onHold (fun h => { h with
    covStore := if cov then ⟨h.covNum + 1, line0, []⟩ :: h.covStore else h.covStore, covNum := h.covNum + 1, covStoreOk := cov })
  let s := s.onLay (fun l => { l with
    repeating := true,
    store := some ⟨c.length, List.replicate 8 [], List.replicate 8 [], List.replicate 8 [], s.jet.bars.map (fun b => b.il), line0, false⟩ })
  s.raiseEv 37

/-- A new store copy takes the place of the old at the start of an image (R326). -/
def State.swapStore (image : Nat) (s : State) : State :=
  let now := s.hold.graze = .awaitSwap
  if s.forced 6 (leBytes 4 image) now && s.hold.grazeStore.isSome then
    let s := s.journal 6 (leBytes 4 image)
    let cov := (s.padOf .grazeCov).isSome
    let s := (s.padFree .repeatStore).padFree .covStore
    let s := s.onPaddock (fun p => { p with
      regions := p.regions.map (fun r =>
        if r.holder = .grazeCopy then { r with holder := .repeatStore }
        else if r.holder = .grazeCov then { r with holder := .covStore }
        else r) })
    let s := s.onLay (fun l => { l with store := s.hold.grazeStore })
    let s := s.onHold (fun h => { (noteDelays image h.grazed h) with
      graze := .idle, grazeStore := none, grazeFill := none, grazeCov := [], grazed := [], swapImage := image, covStoreOk := cov
      covStore := if cov then ⟨h.covNum + 1, (s.lay.store.getD default).line0, h.grazeCov⟩ :: h.covStore else h.covStore
      covNum := h.covNum + 1 })
    s.raiseEv 139
  else s

/-- Repeat mode at the start of an image: what ends it, what enters it (R98, R99). reached says that a commit reached the
image. A binding that waits on from the image at which the repeat began and becomes ready is put in force (R95), while the images still come from
the store (R99) (DESIGN CHOICE, log entry 74). -/
def State.judgeRepeat (j : Job) (image line0 : Nat) (was now : Commit) (reached : Bool) (s : State) : State :=
  let ends := s.lay.leaving || reached && (now.binds || now.length ≠ was.length || now.gap ≠ was.gap || !now.rpt)
  let s := if s.lay.repeating && ends then s.endRepeat image else s
  let s := if reached && !s.lay.repeating && now.rpt then s.padRejudge else s
  if reached && !s.lay.repeating && s.repeatOk j now then s.enterRepeat j now line0 else s.swapStore image

/-! ### The start of an image (R92) -/

/-- The hold tables swap for an image (R310): EV137; in repeat mode the swap starts Graze, and while Graze runs there is none (R324). Updates print
first in that image, or, where it comes from the store, with the next store swap (R322). -/
def State.swapHold (image : Nat) (stored : Bool) (s : State) : State :=
  match (if s.hold.graze = .awaitGrant || s.hold.graze = .running then none else s.hold.shadow) with
  | none => s
  | some f =>
    let s := s.onHold (fun h => { h with active := f, shadow := none, swapImage := image })
    let s := s.raiseEv 137
    let s := s.onHold (fun h =>
      if stored then { h with grazed := h.grazed ++ h.filled, filled := [] }
      else { (noteDelays image h.filled h) with filled := [] })
    if s.lay.repeating then s.grazeTrigger else s

/-- The commits that reach an image together (R91): the fields of the last, and whether any binds content. -/
def mergeCommits (was : Commit) (cs : List Commit) : Commit :=
  match cs.getLast? with
  | some c => { c with binds := cs.any (fun x => x.binds) }
  | none => { was with binds := false }

/-- Pages of earlier images leave the layers (R61: each image reads its pages again); a read under way stays until it returns. -/
def Content.forgetBefore (image : Nat) (c : Content) : Content :=
  { c with reads := c.reads.filter (fun p => imgLe image p.image || p.state = .asked) }

/-- Composition starts line 0 of image k (R72, R78, R92 to R96, R98 to R101, R120, R310, R373). -/
def State.startImage (j : Job) (k : Nat) (s : State) : State :=
  let s := if s.lay.comp.isNone then s.judgeImage k else s
  let judged := s.lay.judged.getD ⟨k, [], [], [], false, false⟩
  let due := s.lay.commits.filter (fun c => imgLe c.image k)
  let was := s.lay.geom
  let now := mergeCommits was due
  let line0 : Nat := match s.lay.comp with
    | some c => c.line0 + c.length + c.gap
    | none => 0
  let m0 : Int := s.jet.mJob.getD 0 + (line0 : Int)
  let ahead := s.lay.repeating && s.tablesDue k
  let newIl := s.jet.bars.any (fun b => b.ilWait.any (fun w => w.1.due k))
  let s := s.onLay (fun l => { l with
    commits := l.commits.filter (fun c => !imgLe c.image k), geom := now, judged := none })
  let s := (judged.take.zipIdx).foldl (fun s t => match t.1 with
    | some o => s.takeBinding t.2 o
    | none => s) s
  let s := s.onLay (fun l => { l with inForce := l.inForce.map (Option.map (Content.forgetBefore k)) })
  let s := s.takeTables k
  let s := s.judgeRepeat j k line0 was now (!due.isEmpty)
  let stored := s.lay.repeating && s.lay.store.any (fun x => x.full || x.line0 ≠ line0)
  let s := s.swapHold k stored
  let s := if ahead then s.grazeTrigger else s
  let s := if stored then s.flushCover false j.width else s
  let fetch := if stored then ceilDiv (s.barsUsed.length * j.width * j.codeBits) 8 else now.fetch
  let s := s.onDfl (fun d => { d.without (· < 8) with demand := now.demand })
  let s := s.onLay (fun l => { l with
    fetch := fetch
    comp := some ⟨k, 0, now.length, now.gap, line0, false, none, judged.blank, judged.lypReq, judged.leftOut,
      judged.unready, stored, []⟩
    spans := l.spans.filter (fun p => p.image ≠ k) ++ [⟨k, line0, m0, now.length, now.gap, !due.isEmpty, false, [],
      if stored then some s.hold.covNum else none, []⟩] })
  let s := s.setReg Reg.LAYER_IMAGE k
  let s := s.judgeDemand
  let s := if due.isEmpty then s else s.raiseEv 32
  let s := if newIl then s.limitsChanged else if due.isEmpty then s else s.recomputeCeiling
  let s := if judged.blank then s.markImage k else s
  let s := if stored then s else s.wakeDomain 5
  s

/-! ### A band (R93, R94, R107, R181) -/

/-- A layer is left out of a band: its image yields no signature (R100); said: its inflate error has been reported. -/
def State.skipBand (layer : Nat) (said : Bool) (s : State) : State :=
  s.onLay (fun l => { l with comp := l.comp.map (fun x => { x with
    noSig := layer :: x.noSig.filter (· ≠ layer)
    errSaid := if said then layer :: x.errSaid.filter (· ≠ layer) else x.errSaid }) })

/-- The context of a wrapped layer opens at the first source row that an image needs (R368), where it is not open. -/
def State.openLayer (layer : Nat) (c : Content) (s : State) : State :=
  if (s.dctx layer).any (fun x => x.own) then s
  else s.openOwn layer (c.wrap - 1) 0 false (c.stride * c.srcH)

/-- A wrapped layer gives composition the source rows of a band through its context, which closes with the last of them (R364, R368). -/
def State.feedLayer (layer : Nat) (c : Content) (image first n : Nat) (s : State) : State :=
  let rows := c.needRows first n
  if c.wrap = 0 || rows.isEmpty || (s.dctx layer).any (fun x => x.own && x.done) then s
  else
    let top := rows.foldl max 0 + 1
    let s := (s.openLayer layer c).feedOwn layer (s.layerInput c image) (top * c.stride)
    s.onCtx layer (fun x => if top = c.srcH then { x.emptied .closed with done := true } else { x with state := .waitOut })

/-- The stream of a wrapped layer is in error (R376): its context enters ERROR. -/
def State.layerError (layer : Nat) (c : Content) (code : Nat) (s : State) : State := (s.openLayer layer c).spoilCtx layer code

/-- The readiness of one layer for a band is judged (R93, R94, R376): layers left out of the band, and whether the rest of the
image is blank. A layer in force whose first band is known to lack its data is left out of it: its policy has been applied. -/
def State.judgeBand (k : Comp) (first n : Nat) (r : State × List Nat × Bool) (layer : Nat) : State × List Nat × Bool :=
  let s := r.1
  match s.lay.inForce.getD layer none with
  | none => r
  | some c =>
    if k.leftOut.contains layer then (s, r.2.1 ++ [layer], r.2.2)
    else
      let ok := s.dataReady c k.image first n && !k.errSaid.contains layer
      let code := if ok || c.wrap = 0 then 0 else (s.layerData c k.image none).2
      let known := first = 0 && k.noSig.contains layer
      let bad := s.forced 4 (readyPayload layer c.policy (first / 64) k.image) (!ok && !known)
      let s := if code ≠ 0 && !k.errSaid.contains layer && (bad || !ok) then s.layerError layer c code else s
      if bad then
        ((s.notReady layer c.policy (first / 64) k.image).skipBand layer (code ≠ 0), r.2.1 ++ [layer], r.2.2 || c.policy = 2)
      else if !ok && known then (s.skipBand layer (code ≠ 0), r.2.1 ++ [layer], r.2.2)
      else (s.feedLayer layer c k.image first n, r.2.1, r.2.2)

/-- The source rows of a layer that a run of lines needs are read from its Paddock or its landing buffer; of a wrapped one, which is one stream,
all of it at its first lines (R337). -/
def State.fetchLayer (c : Content) (first n : Nat) (s : State) : State :=
  let rows := c.needRows first n
  match rows.head? with
  | none => s
  | some r =>
    if c.wrap ≠ 0 then if first ≤ c.y0 then s.dramHolder .fetch false c.holder 0 c.length else s
    else
      let lo := rows.foldl min r * c.stride
      let len := (rows.foldl max r + 1) * c.stride - lo
      if !c.streamed then s.dramHolder .fetch false c.holder lo (lo + len)
      else
        let size := c.landPages * 2097152
        let at_ := c.landAt lo
        (s.dramHolder .fetch false c.holder at_ (min size (at_ + len))).dramHolder .fetch false c.holder 0 (at_ + len - size)

/-- Composition reads the layers in force, but for those left out, for a band. -/
def State.fetchLayers (out : List Nat) (first n : Nat) (s : State) : State :=
  (s.lay.inForce.zipIdx).foldl (fun s x => match x.1 with
    | some c => if out.contains x.2 then s else s.fetchLayer c first n
    | none => s) s

/-- LYP fails in a band (R96): the band and the rest of the image are blank. -/
def State.judgeLyp (s : State) (k : Comp) (first n : Nat) (r : State × List Nat × Bool) : State × List Nat × Bool :=
  if (s.lypFor k.image).any (fun l => s.lypFails l first n) then (r.1.lypNotReady, r.2.1, true) else r

/-- Lines of a delay ring are written (R179, R337, R348). -/
def State.wroteRing (b : Nat) (r : DelayRing) (line n : Nat) (s : State) : State :=
  if s.memc.n = 0 && s.memc.poisoned.isEmpty then s
  else
    let stride := ringStride ((s.lay.job.map (fun j => j.width)).getD 0) r.codeBits (s.bar b).msCapable
    match s.paddock.regions.find? (fun x => x.id = r.region) with
    | some x => (List.range n).foldl (fun s i =>
        let slot := (line + i) % r.lines
        s.wroteRegion x (slot * stride) (slot * stride + stride)) s
    | none => s

/-- A band joins a bar's ring; what no longer fits the ring leaves it (R179, R181). A band that the bar needed before it
began is marked underrun (R196), and its image for REJECT (R197). -/
def State.putBand (b : Nat) (band : RingBand) (s : State) : State :=
  match (s.bar b).ring with
  | none => s
  | some r =>
    let late := r.late.contains band.m
    let band := { band with underrun := late, begun := late }
    let s := s.onBar b (fun x => { x with ring := some { r with
      bands := r.bands.filter (fun q => band.line < q.line + r.lines) ++ [band],
      late := r.late.filter (· ≠ band.m) } })
    let s := s.wroteRing b r band.line band.code0.length
    if late && s.fb Fld.JET_CTRL_underrun_reject then s.markImage band.image else s

/-- The statuses of the nozzles of a bar, left and right (R185). -/
def State.barStatuses (s : State) (b : Nat) : List Nat × List Nat := (s.statuses b 0, s.statuses b 1)

/-- The band of a bar from its codes, screened with given statuses of its nozzles. -/
def State.bandOf (s : State) (image line : Nat) (il : Interlace) (nz : List Nat × List Nat) (code0 code1 : List (List Nat)) : RingBand :=
  { image := image, line := line, m := s.jet.mJob.getD 0 + line, il := il, complete := false, underrun := false,
    code0 := code0, code1 := code1, nzL := nz.1, nzR := nz.2, begun := false }

/-- Lines of a band join the coverage map. -/
def State.coverBand (p line : Nat) (image : Option Nat) (imageLine : Nat) (vals : List (List (List Nat))) (s : State) : State :=
  (vals.zipIdx).foldl (fun s v => s.coverLine p ⟨line + v.2, image, imageLine + v.2, v.1⟩) s

/-- What screening counted in a band (R135, R141, R146), live or in Graze: lines is the number of those with a discarded share. -/
def State.countBand (k : Screened) (lines : Nat) (s : State) : State :=
  let s := s.bump Fld.INK_CLAMP_CNT_value k.clamps.sum
  let s := s.bump Fld.INK_COMP_LOST_value k.lost
  let s := (List.range lines).foldl (fun s _ => s.fault 46) s
  let lim := s.f Fld.INK_CLAMP_LIMIT_value
  if lim ≠ 0 then (k.clamps.filter (· > lim)).foldl (fun s _ => s.fault 45) s else s

/-- The codes of a live band join the repeat store while its first image is composed (R99), as they stand: a band that is blank or lacks a
layer is repeated so (DESIGN CHOICE 74: no rule says whether such an image is stored). -/
def storeCodes (codes : BarCodes) (nz : List (List Nat × List Nat)) (x : Store) : Store :=
  { x with
    nz := (x.nz.zip nz).map (fun p => p.1 ++ [p.2])
    code0 := x.code0.mapIdx (fun b c => c ++ (codes.getD b ([], [])).1)
    code1 := x.code1.mapIdx (fun b c => c ++ (codes.getD b ([], [])).2) }

/-- The codes of a live band are computed and put in the rings (R106 to R142, R181). Screening goes on from the accumulators of the line screened
last, also where bands from the repeat store lie between (DESIGN CHOICE 79: R136 speaks of gaps only). -/
def State.screenBand (j : Job) (k : Comp) (out : List Nat) (blank : Bool) (first n : Nat) (s : State) : State :=
  let use := s.jet.bars.map (fun b => b.inUse)
  let ils := s.jet.bars.map (fun b => b.il)
  let vs := (List.range 8).filterMap (fun l =>
    if out.contains l then none else (s.lay.inForce.getD l none).map (fun c => (⟨c, (s.layerData c k.image (c.bandKey first)).1⟩ : View)))
  let lyp := s.lypFor k.image
  let lines := (List.range n).map (fun i =>
    if blank then s.blankLine s.hold.active j.width else s.composeLine s.hold.active vs lyp j.width (first + i))
  let start : BarCodes × Screened × Nat := (List.replicate 8 ([], []), ⟨s.ink.acc, List.replicate 32 0, 0, false⟩, 0)
  let r := (lines.zipIdx).foldl (fun r l => s.screenLine use ils j.codeBits j.width (k.line0 + first + l.2) 0 l.1 r) start
  let s := s.barsUsed.foldl (fun s b =>
    let c := r.1.getD b ([], [])
    s.putBand b (s.bandOf k.image (k.line0 + first) (s.bar b).il (s.barStatuses b) c.1 c.2)) s
  let s := if s.lay.repeating then
      (s.wroteStore j first n).onLay (fun l => { l with store := l.store.map (storeCodes r.1 ((List.range 8).map s.barStatuses)) })
    else s
  let s := (s.onInk (fun i => { i with acc := r.2.1.acc, bandClamps := r.2.1.clamps })).countBand r.2.1 r.2.2
  s.coverBand j.width (k.line0 + first) (some k.image) first lines

/-- The codes of a band from the repeat store are put in the rings, bit for bit (R99), with the statuses under which they were screened
(R140). -/
def State.storedBand (k : Comp) (x : Store) (first n : Nat) (s : State) : State :=
  s.barsUsed.foldl (fun s b =>
    let c0 := ((x.code0.getD b []).drop first).take n
    let c1 := ((x.code1.getD b []).drop first).take n
    s.putBand b (s.bandOf k.image (k.line0 + first) (x.ils.getD b Interlace.reset) ((x.nz.getD b []).getD (first / 64) ([], [])) c0 c1)) s

/-- A band of the image in composition starts. -/
def State.startBand (j : Job) (k : Comp) (s : State) : State :=
  if k.pos < k.length then
    let s := s.replayNozzles (k.line0 + k.pos)
    let n := min 64 (k.length - k.pos)
    let s := s.onLay (fun l => { l with comp := some { k with band := some (k.pos, n) } })
    match (if k.fromStore && !k.blank then s.lay.store else none) with
    | some x => (s.readStore j k.pos n).storedBand k x k.pos n
    | none =>
      if k.blank then s.screenBand j k [] true k.pos n
      else
        let r := s.judgeLyp k k.pos n ((List.range 8).foldl (State.judgeBand k k.pos n) (s, [], false))
        let s := if r.2.2 then
            (r.1.onLay (fun l => { l with comp := l.comp.map (fun x => { x with blank := true }) })).markImage k.image
          else r.1
        (if r.2.2 then s else s.fetchLayers r.2.1 k.pos n).screenBand j k r.2.1 r.2.2 k.pos n
  else
    let n := min 64 (k.length + k.gap - k.pos)
    let s := s.onLay (fun l => { l with comp := some { k with band := some (k.pos, n) } })
    s.coverBand j.width (k.line0 + k.pos) none k.pos (List.replicate n [])

/-- An image is to be started: none is in composition, or the last one and its gap are done. -/
def State.atBoundary (s : State) : Bool := match s.lay.comp with
  | some c => c.length + c.gap ≤ c.pos
  | none => true

/-- Composition starts a band: the image with it where it is at a boundary (R92, R93). At line 0 it waits for a fill (R310). -/
def State.composeStep (j : Job) (s : State) : State :=
  if s.atBoundary then
    let k := s.imageToStart j
    if s.hold.filling then s.onHold (fun h => { h with waitFill := true })
    else
      let s := s.startImage j k
      match s.lay.comp with
      | some c => (s.startBand j c).fetchAhead
      | none => s
  else
    match s.lay.comp with
    | some c => (s.startBand j c).fetchAhead
    | none => s

/-- Composition is to inflate a wrapped layer (R368): of the image that it is at, or is about to start. -/
def State.inflates (s : State) (j : Job) : Bool :=
  if s.atBoundary then (s.contentsAt (s.imageToStart j)).any (fun c => c.wrap ≠ 0)
  else s.lay.inForce.any (fun c => c.any (fun c => c.wrap ≠ 0))

/-- COMPOSITION_BAND_START (R92, R93): while a job is open, a commit has been accepted, no band is under way, and the lead
leaves room. The PIX domain is woken where the band is screened, and DFL where a layer of it is wrapped (R398); it waits
for DRAM that is off or in self-refresh (R351). -/
def execCompositionBandStart (dt : Nat) (s : State) : Res :=
  if s.down then .next s else
  let s := s.elapse dt
  match s.lay.job with
  | none => .next s
  | some j =>
    let busy := s.lay.comp.any (fun c => c.band.isSome)
    if !j.accepted || busy || s.lay.stopped then .next s
    else
      let live := s.atBoundary || s.lay.comp.any (fun c => !c.fromStore)
      let needs := [6] ++ (if live then [5] else []) ++ (if live && s.inflates j then [9] else [])
      let s := (s.wakeAll needs).callDram
      if needs.all s.isOn && s.dramUp then .next (s.composeStep j) else .next s

/-! ### A band is complete -/

/-- Bytes of a ring line (R179, R181): the codes of strike 0 and then of strike 1, from the lowest bit of the first byte. -/
def ringLineBytes (codeBits stride : Nat) (c0 c1 : List Nat) (ms : Bool) : List Byte :=
  leBytes stride ((c0 ++ if ms then c1 else []).foldr (fun c a => c + 2 ^ codeBits * a) 0)

/-- The signature of a band of one bar (R509). -/
def bandSig (p codeBits : Nat) (ms : Bool) (r : RingBand) : Nat :=
  crc32c ((r.code0.zip r.code1).flatMap (fun c => ringLineBytes codeBits (ringStride p codeBits ms) c.1 c.2 ms))

/-- The complete flag of a band is set at every bar (R181), and its SIG is entered (R509). -/
def State.markComplete (j : Job) (k : Comp) (first : Nat) (s : State) : State :=
  let line := k.line0 + first
  let s := s.onJet (fun x => { x with bars := x.bars.map (fun b => { b with
    ring := b.ring.map (fun r => { r with
      bands := r.bands.map (fun q => if q.line = line then { q with complete := true } else q) }) }) })
  let sig := fun (b : Nat) =>
    match (s.bar b).ring.bind (fun r => r.bands.find? (fun q => q.line = line)) with
    | some q => bandSig j.width j.codeBits (s.bar b).msCapable q
    | none => 0
  s.observe 0x70 0 (leBytes 4 k.image ++ leBytes 4 line ++ (List.range 8).flatMap (fun b => leBytes 4 (sig b)))

/-- The image in composition passes its latch point (R89, R93, R310): EV033. -/
def State.passLatch (j : Job) (k : Comp) (s : State) : State :=
  let s := (s.onLay (fun l => { l with comp := l.comp.map (fun c => { c with latched := true }) })).raiseEv 33
  if j.closed && k.image = j.last then s
  else
    let next := imgAdd k.image 1
    (s.judgeImage next).fillHold next

/-- The signature of a layer for the image just composed, and the freeze detector (R100). An image blanked for another layer gives none (DESIGN
CHOICE 78: R100 names only the layer's own failure). -/
def State.signLayer (k : Comp) (s : State) (layer : Nat) : State :=
  let none_ := s.onLay (fun l => { l with prevSig := l.prevSig.set layer none })
  match s.lay.inForce.getD layer none with
  | none => none_
  | some c =>
    if k.blank || k.fromStore || k.noSig.contains layer then none_
    else
      let sig := s.layerSignature c k.image k.length
      let same := c.varying && s.lay.prevSig.getD layer none = some sig
      let s := s.onLay (fun l => { l with sigs := l.sigs.set layer sig, prevSig := l.prevSig.set layer (some sig) })
      if same then
        let s := (s.faultAs 43 255 layer (min 4 c.freezeSev) .detector).raiseEv 36
        s.setSticky Reg.LAYER_FREEZE_STAT (2 ^ layer)
      else s

/-- Every line of the image itself has been composed (R99, R100). -/
def State.imageComposed (k : Comp) (s : State) : State :=
  let s := ((List.range 8).foldl (State.signLayer k) s).onDfl (fun d => d.without (· < 8))
  let first := s.lay.store.any (fun x => !x.full && x.line0 = k.line0)
  let s := s.onLay (fun l => { l with store := l.store.map (fun x => if x.line0 = k.line0 then { x with full := true } else x) })
  if first && s.hold.grazeWant then s.grazeTrigger else s

/-- BAND_COMPLETE (R72, R73, R93, R100, R181, R310): the position moves on; latch point, end of the image, end of the job and the
limit of the lead are judged. -/
def execBandComplete (dt : Nat) (s : State) : Res :=
  if s.down then .next s else
  let s := s.elapse dt
  match s.lay.job, s.lay.comp with
  | some j, some k =>
    match k.band with
    | none => .next s
    | some (first, n) =>
      let s := if first < k.length then s.markComplete j k first else s
      let pos := first + n
      let k' := { k with pos := pos, band := none }
      let s := s.onLay (fun l => { l with comp := some k' })
      let s := if !k.latched && k.length ≤ pos + j.latchLines then s.passLatch j k' else s
      let s := if k.pos < k.length && pos = k.length then s.imageComposed k' else s
      let above := j.closed && k.image = j.last && pos = k.length + k.gap
      if above then .next s.jobEnd
      else .next (s.onLay (fun l => { l with stopped := s.lead ≥ s.leadLimit })).leadBack.fetchAhead
  | _, _ => .next s

/-- COMPOSITION_RESUME (R73): the web has advanced. -/
def execCompositionResume (dt : Nat) (s : State) : Res :=
  if s.down then .next s else
  let s := s.elapse dt
  if s.lay.stopped && s.lead < s.leadLimit then .next (s.onLay (fun l => { l with stopped := false })) else .next s

/-! ### REJECT -/

/-- REJECT_DUE (R97): the high-water mark has reached the position of a marked image. -/
def execRejectDue (dt : Nat) (s : State) : Res :=
  if s.down then .next s else
  let s := s.elapse dt
  match s.lay.rejects.find? (fun r => s.passed (s.rejectAt r.2)) with
  | some r => .next ((s.onLay (fun l => { l with rejects := l.rejects.erase r })).rejectNow)
  | none => .next s

/-- REJECT_END (R97): the active pulse ends. -/
def execRejectEnd (dt : Nat) (s : State) : Res :=
  if s.down then .next s else
  let s := s.elapse dt
  match s.lay.rejectEnd with
  | some t => if t ≤ s.now then .next ((s.onLay (fun l => { l with rejectEnd := none })).emit (.rejectEnd (!s.rejectHigh))) else .next s
  | none => .next s

end Sys2Proof.Machine
end

