-- ==== Sys2Proof/Machine/LinkTrain.lean ====
section
/-! DEFINITION. Training of lanes, their leaving and rejoining, and the sleep of directions, as the link's commands share them
(R213, R215, R222 to R226, R232 to R248, R252, R255). -/

set_option Elab.async false

namespace Sys2Proof.Machine

/-! ### Faults and packets -/

/-- A lane fault with the scope of R427: the bar of the lane. -/
def State.laneFault (src n : Nat) (s : State) : State := s.faultAt src (2 ^ (n / 4)) n

/-- A packet has its own length and its CRC-32C (R224). -/
def pktOk (p : List Byte) : Bool :=
  12 ≤ p.length && leAt p 2 2 = p.length && crc32c (p.take (p.length - 4)) = leAt p (p.length - 4) 4

/-- Type and length of an upstream packet of an insertion (R226, R228 to R230). -/
def upInsert (p : List Byte) : Bool :=
  let sub := leAt p 1 1
  match leAt p 0 1 with
  | 0x20 => sub = 8 && p.length = 20
  | 0x31 => sub ≤ 2 && p.length = 16
  | 0x41 => sub ≤ 2 && (if sub = 0 then 20 ≤ p.length && p.length ≤ 48 && p.length % 4 = 0 else p.length = 16)
  | 0x80 => sub ≤ 1 && p.length = 12
  | 0x90 => sub ≤ 3 && p.length = 12
  | _ => false

/-- Type and length of an upstream packet of the stream (R226, R231). -/
def upStream (p : List Byte) : Bool :=
  let n := leAt p 12 2
  match leAt p 0 1 with
  | 0x50 | 0x51 => n ≤ 944 && p.length = 20 + ceilDiv n 4
  | 0x60 | 0x61 => n ≤ 118 && p.length = 20 + 2 * n
  | _ => false

/-! ### Bars and halves -/

/-- The partners of a lane: the other lanes of its half-bar. -/
def State.partners (s : State) (n : Nat) : List Nat :=
  (s.halfLanes (n / 4) (s.laneHalf n)).filter (· ≠ n)

/-- Half h of the bar of lane n loses its last lane in service: EV099, and FS001 when its bar is armed (R235, R255). -/
def State.halfDown (h n : Nat) (s : State) : State :=
  let b := n / 4
  let s := s.onLinkBar b (fun l => { l with down := l.down.set h true })
  let s := s.laneEv n 99
  if s.armed b then s.laneFault 1 n else s

/-- The half-bar of a lane loses its last lane in service. -/
def State.halfLost (n : Nat) (s : State) : State := s.halfDown (s.laneHalf n) n

/-- LINK_ROLE of a lane has been written (R213): the halves of its bar that had a lane in service before are given; one that has none
now is lost, one that has gained one is back (R254, R255). -/
def State.rolesMoved (n : Nat) (was : List Nat) (s : State) : State :=
  let b := n / 4
  [0, 1].foldl (fun s h =>
    if was.contains h && !s.halfUp b h then s.halfDown h n
    else if !was.contains h && s.halfUp b h then (s.onLinkBar b (fun x => { x with down := x.down.set h false })).laneEv n 99
    else s) s

/-- The sequence number of the next DOT packet of a half-bar (R232). -/
def State.nextSeq (s : State) (b h : Nat) : Nat :=
  if h = 0 then (s.linkBar b).seqLeft else (s.linkBar b).seqRight

/-! ### Requests for training (R236, R241, R442) -/

/-- The rate that a training of a lane asks for: an argument, rate_req, or STRAP_LANE (R241, R256, R530). -/
def State.rateWanted (s : State) (n arg : Nat) : Nat :=
  if arg ≠ 0 then arg
  else if s.f (Fld.LINK_CTRL_rate_req n) ≠ 0 then s.f (Fld.LINK_CTRL_rate_req n)
  else if s.sys.straps.lane = 0 then 1 else if s.sys.straps.lane = 1 then 2 else 3

/-- The counter of the last marker that a lane has sent is kept when its markers end (R222). -/
def State.keepMarker (n : Nat) (s : State) : State :=
  let l := s.lane n
  let x := s.linkBar (n / 4)
  if [TState.lock, .negotiate, .align, .active].contains l.tstate then
    let t := if l.tstate = .active && x.ds ≠ .awake then x.sleptAt - 1 else s.now
    s.onLane n (fun l => { l with txMarker := l.counterAt (t / codewordTime l.rate) })
  else s

/-- A training of a lane is requested: the lane is OFF and waits for its Drover grant. -/
def State.askTrain (n wanted : Nat) (s : State) : State :=
  let s := (s.wakeDomain 6).droverDrop (.lane n) |>.keepMarker n
  let s := s.onLane n (fun l => { l with
    tstate := .off, rate := 0, secondPass := false, wanted := wanted, preTx := false, preRx := false, inPair := false,
    preferred := false, awaiting := true, since := s.now, fifo := [], ins := [], rxBuf := [], rxResync := true })
  let s := s.putLane n .idle
  s.droverAsk 0 (s.f (Fld.DROVER_CLASS_tokens 0)) (.lane n)

/-- Retraining after a failure or a leaving: retrain_auto is 1 and the lane is not held out of service (R236, R241). -/
def State.mayRetrain (s : State) (n : Nat) : Bool :=
  s.fb (Fld.LINK_CTRL_retrain_auto n) && !s.fb (Fld.LINK_CTRL_oos n) && (s.lane n).tries < 3

/-- Every lane of a bar is ACTIVE. -/
def State.barTrained (s : State) (b : Nat) : Bool := (barLanes b).all (fun n => (s.lane n).tstate = .active)

/-- A lane has settled: ACTIVE, or FAILED or OFF with no further training under way (R252, R256). -/
def Lane.settled (l : Lane) : Bool := l.tstate = .active || ((l.tstate = .failed || l.tstate = .off) && !l.awaiting)

/-- The BAR_CFG TRAINs whose last lane has settled complete (R252); a bar brought to ACTIVE wants its element check where
imp_boot is 1 (R267). -/
def State.settleTrains (s : State) : State :=
  let done := s.link.trains.filter (fun t =>
    (scopeBars t.bars).all (fun b => (barLanes b).all (fun n => (s.lane n).settled)))
  let s := s.onLink (fun l => { l with trains := l.trains.filter (fun t => !done.contains t) })
  done.foldl (fun s t =>
    let good := (scopeBars t.bars).filter s.barTrained
    let mask := (good.map (fun b => 2 ^ b)).sum
    let s := if s.fb Fld.JET_NH_CTRL_imp_boot then good.foldl (fun s b => s.wantImp b none) s else s
    s.completeAt t.order (if good.length = (scopeBars t.bars).length then 0 else 0x43) mask) s

/-! ### Training states (R241 to R244) -/

/-- A lane enters QUIET at a rate: its transmitter is idle. -/
def State.enterQuiet (n rate : Nat) (second : Bool) (s : State) : State :=
  ((s.keepMarker n).putLane n .idle).onLane n (fun l => { l with
    tstate := .quiet, rate := rate, secondPass := second, since := s.now, goodMarkers := 0, farLocked := false, farAsk := false,
    farWill := false, aligned := false, qKnown := false })

/-- The state byte of a training set (R242): EQ, LOCK, NEGOTIATE, ALIGN, and the own receiver's lock. -/
def Lane.stateByte (l : Lane) : Nat :=
  (match l.tstate with
   | .eq => 2
   | .lock => 3
   | .negotiate => 4
   | .align => 5
   | _ => 0) + 128 * b2n (4 ≤ l.goodMarkers || l.tstate = .align)

/-- The precode byte of a training set (R242, R243): the far end is asked to precode; this end will. -/
def State.precodeByte (s : State) (n : Nat) : Nat :=
  let l := s.lane n
  s.f (Fld.LINK_CTRL_pre_rx_want n)
    + 2 * b2n (if l.tstate = .align then l.preTx else l.farAsk && s.fb (Fld.LINK_CTRL_pre_tx_allow n))

/-- A free request for, or report of, three taps: each field of two bits 0 to 2 (R242). -/
def tapBits (v : Nat) : Nat := v % 3 + 4 * (v / 3 % 3) + 16 * (v / 9 % 3)

/-- A lane's training codewords carry another training set from now on (R242, R243). What the receiver asks of the far taps, and whether the
own taps are at a limit, are free. -/
def State.putSet (n : Nat) (s : State) : State :=
  let l := s.lane n
  let (req, s) := s.free
  let (stat, s) := s.free
  let set := leBytes 1 l.stateByte ++ leBytes 1 n ++ leBytes 1 (2 ^ l.wanted - 1)
    ++ leBytes 1 (s.precodeByte n) ++ leBytes 1 (tapBits req) ++ leBytes 1 (tapBits stat) ++ List.replicate 10 0
  s.putLane n (.training l.rate l.preTx set)

/-- What a lane's training set shows of its state and of precoding. -/
def State.setShows (s : State) (n : Nat) : Nat × Nat := ((s.lane n).stateByte, s.precodeByte n)

/-- The training set goes out anew where it shows something else than before (R242). -/
def State.renewSet (n : Nat) (was : Nat × Nat) (s : State) : State :=
  if [TState.lock, .negotiate, .align].contains (s.lane n).tstate && s.setShows n ≠ was then s.putSet n else s

/-- The duration of a training that ends now (R256). -/
def State.timeTraining (n : Nat) (s : State) : State :=
  s.onLane n (fun l => { l with trainTime := min 65535 ((s.now - l.began) / 10000) })

/-- The next lower rate common to both ends (R241). -/
def Lane.lowerRate (l : Lane) : Option Nat :=
  ((List.range 4).reverse.find? (fun r => 1 ≤ r && r < l.rate && bitOf l.farRates (r - 1)))

/-- A training fails with a cause (R241): a lower rate, another try, or the end; EV100 and FS002 at the third failure. -/
def State.trainFail (n cause : Nat) (s : State) : State :=
  let lower := if s.fb (Fld.LINK_CTRL_downshift n) && (s.lane n).secondPass then (s.lane n).lowerRate else none
  let s := (s.timeTraining n).keepMarker n
  let s := s.onLane n (fun l => { l with
    tstate := .failed, cause := cause, tries := satAdd 8 l.tries 1, since := s.now, awaiting := false })
  let s := if (s.lane n).tries = 3 then
      let s := if s.testPending 0 n then s.testResult 0 true else s
      (s.laneEv n 100).laneFault 2 n
    else s
  match lower with
  | some r => s.enterQuiet n r true
  | none =>
    let s := s.onLane n (fun l => { l with rate := 0 })
    let s := s.droverDrop (.lane n)
    if s.mayRetrain n then s.askTrain n (s.lane n).wanted else s.settleTrains

/-- Two lanes of a bar hold the role of lane n (R213). -/
def State.roleClash (s : State) (n : Nat) : Bool :=
  (barLanes (n / 4)).any (fun k => k ≠ n && s.laneHalf k = s.laneHalf n && s.laneMember k = s.laneMember n)

/-- The Drover grants a training (R241): the lane leaves OFF; the retire point of a BAR_CFG TRAIN is passed (R252). -/
def State.laneGranted (n : Nat) (s : State) : State :=
  if !(s.lane n).awaiting then s.droverDrop (.lane n)
  else
    let s := s.onLane n (fun l => { l with awaiting := false, began := s.now, farRates := 0 })
    let s := (s.link.trains.filter (fun t => bitOf t.bars (n / 4))).foldl (fun s t =>
      match s.descAt t.order with
      | some d => s.retire d
      | none => s) s
    let s := s.enterQuiet n 1 false
    if s.roleClash n then s.trainFail n 5 else s

/-- Seed of a lane for a rate (R244, R495): LINK_EQ, where it is valid. -/
def seedOf (p : List Byte) (rate : Nat) : Option Nat :=
  if leAt p (8 * (rate - 1) + 4) 4 = 0 then none else some (leAt p (8 * (rate - 1)) 4)

/-- The equaliser is set from the seed, or from default presets, whose values are free (R244). -/
def State.loadSeed (n : Nat) (s : State) : State :=
  let s := s.noteRead 0x20 n
  let r := (s.lane n).rate
  match (s.record 0x20 n).bind (fun p => seedOf p r) with
  | some e => s.onLane n (fun l => { l with seeded := true, eqSet := e })
  | none =>
    let (v, s) := s.free
    let s := s.onLane n (fun l => { l with seeded := false, eqSet := v % 2 ^ 32 })
    s.laneFault 6 n

/-- The settings reached are saved (R244). -/
def State.saveSeed (n : Nat) (s : State) : State :=
  let l := s.lane n
  if l.rate ≤ 1 || !s.fb (Fld.LINK_CTRL_save_seed n) then s
  else
    let old := (s.record 0x20 n).getD (List.replicate 24 0)
    let at_ := 8 * (l.rate - 1)
    s.writeRecord 0x20 n (old.take at_ ++ leBytes 4 l.eqSet ++ leBytes 4 1 ++ old.drop (at_ + 8)) none

/-- A lane enters ALIGN: from here it precodes where the far receiver asks it to and it may, and so does the far end (R241, R243). -/
def State.enterAlign (n : Nat) (s : State) : State :=
  (s.onLane n (fun l => { l with
    tstate := .align, since := s.now, preTx := l.farAsk && s.fb (Fld.LINK_CTRL_pre_tx_allow n), preRx := l.farWill })).putSet n

/-- LOCK is complete: NEGOTIATE on the first pass, ALIGN on the second (R241). -/
def State.lockDone (n : Nat) (s : State) : State :=
  let l := s.lane n
  if l.tstate = .lock && 4 ≤ l.goodMarkers && l.farLocked then
    if l.secondPass then s.enterAlign n
    else (s.onLane n (fun l => { l with tstate := .negotiate, since := s.now })).putSet n
  else s

/-- NEGOTIATE with a far end that shows its rates (R241, R243). -/
def State.negotiate (n far : Nat) (s : State) : State :=
  let w := (s.lane n).wanted
  let s := s.onLane n (fun l => { l with farRates := far })
  match (List.range 4).reverse.find? (fun r => 1 ≤ r && r ≤ w && bitOf far (r - 1)) with
  | none => s.trainFail n 3
  | some 1 => s.enterAlign n
  | some r => s.enterQuiet n r true

/-- Packets held for the partners that are later than Q, each whole again (R236). -/
def State.heldLater (s : State) (n q : Nat) : List DotPkt :=
  match (s.partners n).filter (fun k => (s.lane k).inPair) with
  | k :: _ => ((s.lane k).fifo.filter (fun p => 1 ≤ diff32 p.seq q && diff32 p.seq q < 2 ^ 31)).map
      (fun p => { p with left := p.bytes.length })
  | [] => []

/-- The marker grid of a lane that enters service with its next slot: that of a lane of its bar in service at its rate, so that the bar's
counters are equal, else a new one whose counter goes on from the training's (R215, R222, log entry 39). -/
def State.joinGrid (n : Nat) (s : State) : State :=
  let l := s.lane n
  let k := s.now / codewordTime l.rate + 1
  match (barLanes (n / 4)).find? (fun m => m ≠ n && (s.lane m).inPair && (s.lane m).rate = l.rate) with
  | some m => s.onLane n (fun l => { l with base := k, epoch := (s.lane m).epoch, txMarker := (s.lane m).txMarker })
  | none => s.onLane n (fun l => { l with base := k, epoch := k, txMarker := (l.counterAt (k - 1) + 1) % 65536 })

/-- RESYNC goes out in the last marker of ALIGN (R236, R241), from which the markers of service are counted: the number of the first DOT
packet of the lane. -/
def State.putResync (n number : Nat) (s : State) : State :=
  if s.replaying then s
  else
    let l := s.lane n
    let p := seqPkt 2 number 0 (s.laneHalf n)
    let c := ({ l with tstate := .active } : Lane).counterAt l.base
    { s with out := s.out ++ [.codeword n 0 l.preTx (markerMessage n l.mode c l.lastSeq p), .insert n p] }

/-- The tick number that a bar's next pulse carries: the tick after the last issued (R165, R193). -/
def State.nextTick (s : State) (b : Nat) : Int := (s.bar b).lastTick + 1

/-- SYNC with the active line and the next tick of a bar (R193, R199). -/
def State.syncBar (b : Nat) (s : State) : State := s.sendSync b (s.bar b).activeB (s.nextTick b)

/-- The upstream of a bar is awake again (R245): EV103; a SYNC that waits for the echoes is sent (R247). -/
def State.awakeUp (b : Nat) (s : State) : State :=
  let wait := (s.linkBar b).syncWait
  let s := s.onLinkBar b (fun l => { l with us := .awake, syncWait := false })
  let s := s.laneEv (4 * b) 103
  (if wait then s.syncBar b else s).settleSleeps

/-- A lane enters ACTIVE (R213, R234, R236, R241, R244): RESYNC, EV096, EV098, EV099, EV101 as they apply, the ceiling; the upstream of a bar
is awake with its first lane (log entry 38). -/
def State.laneUp (n : Nat) (s : State) : State :=
  let b := n / 4
  let h := s.laneHalf n
  let l := s.lane n
  let copy := s.heldLater n l.trainQ
  let next := (copy.head?.map (fun p => p.seq)).getD (s.nextSeq b h)
  let mates := (s.partners n).filter (fun k => (s.lane k).inPair)
  let alone := mates.isEmpty
  let prefer := alone || (!l.rejoining && s.laneMember n = 0)
  let regained := (s.linkBar b).down.getD h false
  let first := !(barLanes b).any (fun k => (s.lane k).inPair)
  let s := if prefer then mates.foldl (fun s k => s.onLane k (fun l => { l with preferred := false })) s else s
  let s := ((s.joinGrid n).putResync n next).timeTraining n
  let s := s.onLane n (fun l => { l with
    tstate := .active, inPair := true, rejoining := false, preferred := prefer, tries := 0, since := s.now,
    missing := 0, rxMarkerKnown := false, rxBuf := [], rxResync := true, fifo := copy, missed := false, ins := [], uncorrAt := [],
    hubUncorrAt := [], corrAt := [], fecWarned := false })
  let s := (s.putLane n (.service l.rate l.preTx)).wakeDown b
  let s := s.onLinkBar b (fun x => { x with down := x.down.set h false })
  let s := s.laneEv n 96
  let s := if first && (s.linkBar b).us ≠ .awake then s.awakeUp b else s
  let s := if l.rate < l.wanted then s.laneEv n 101 else s
  let s := if l.rejoining then s.laneEv n 98 else s
  let s := if regained then s.laneEv n 99 else s
  let s := s.recomputeCeiling
  let s := s.saveSeed n
  let s := s.droverDrop (.lane n)
  let s := if s.testPending 0 n then s.testResult 0 false else s
  let s := s.readTestStat b
  s.settleTrains

/-! ### Leaving (R235 to R237) -/

/-- The Q of the hub and an aligned marker have come in ALIGN (R241). -/
def State.alignDone (n : Nat) (s : State) : State :=
  let l := s.lane n
  if l.tstate = .align && l.aligned && l.qKnown then s.laneUp n else s

/-- A lane leaves its pair with a cause; oos says that LINK_CTRL.oos takes it out. -/
def State.leavePair (n cause : Nat) (oos : Bool) (s : State) : State :=
  if !(s.lane n).inPair then s
  else
    let pref := (s.lane n).preferred
    let s := s.keepMarker n
    let s := s.onLane n (fun l => { l with
      tstate := .failed, inPair := false, preferred := false, rejoining := true, rate := 0, fifo := [], ins := [],
      cause := if oos then l.cause else cause, since := s.now, preTx := false, preRx := false })
    let s := s.bump ⟨Reg.LINK_LEAVE_CNT n, 31, 0⟩ 1
    let s := s.laneEv n 97
    let s := if oos then s else s.laneFault 0 n
    let mates := (s.partners n).filter (fun k => (s.lane k).inPair)
    let s := match mates with
      | k :: _ => if pref then s.onLane k (fun l => { l with preferred := true }) else s
      | [] => s.halfLost n
    let s := s.recomputeCeiling
    let s := s.sleepGone (n / 4) s.now
    if s.mayRetrain n then s.askTrain n (s.lane n).wanted else s

/-- A lane in training is taken out of service: it is OFF again (R256). -/
def State.stopTraining (n : Nat) (s : State) : State :=
  let l := s.lane n
  if l.inPair || !(l.awaiting || [TState.quiet, .eq, .lock, .negotiate, .align].contains l.tstate) then s
  else
    let s := if l.awaiting then s else s.timeTraining n
    let s := ((s.droverDrop (.lane n)).keepMarker n).putLane n .idle
    (s.onLane n (fun l => { l with
      tstate := .off, rate := 0, awaiting := false, since := s.now, preTx := false, preRx := false })).settleTrains

/-- The limit of uncorrectable codewords per ms (R256). -/
def State.uncorrLimit (s : State) : Nat := orIfZero (s.f Fld.LINK_GLOBAL_uncorr_limit) 1

/-- Ticks of the last 1 ms. -/
def lastMs (now : Nat) (ts : List Nat) : List Nat := ts.filter (fun t => now - t < 1000000)

/-- A lane with too many uncorrectable codewords in either direction leaves (R235). -/
def State.judgeUncorr (n : Nat) (s : State) : State :=
  let l := s.lane n
  if s.uncorrLimit ≤ (lastMs s.now l.uncorrAt).length || s.uncorrLimit ≤ (lastMs s.now l.hubUncorrAt).length then
    s.leavePair n 8 false
  else s

/-- An upstream packet that fails its CRC, type or length, or a reply that names an unknown ctag (R224, R255). -/
def State.hubProto (n : Nat) (s : State) : State := s.laneFault 4 n

/-! ### Sleep and wake (R245 to R248, R252) -/

/-- No control packet waits for a bar, so its downstream may sleep (R246, R248). -/
def State.quietDown (s : State) (b : Nat) : Bool := (barLanes b).all (fun n => (s.lane n).ins.isEmpty)

/-- The downstream of a bar is to sleep: SLEEP is queued on every ACTIVE lane, and the direction sleeps when it has gone (R225, R245,
R248). -/
def State.sleepDown (b : Nat) (s : State) : State :=
  let s := s.onLinkBar b (fun l => { l with dsPending := true, dsRewake := false, dsEnd := none })
  let s := if s.replaying then s
    else (s.activeLanes b).foldl (fun s n => s.onLane n (fun l => { l with ins := insQueue ⟨2, sleepPkt 1⟩ l.ins })) s
  s.sleepGone b s.now

/-- SLEEP naming upstream goes to a bar's hub (R247). -/
def State.sendSleepUp (b : Nat) (s : State) : State :=
  (s.sendCtl b 2 (sleepPkt 2)).onLinkBar b (fun l => { l with usPending := true })

/-- The downstream of a bar is awake again (R245). -/
def State.awakeDown (b : Nat) (s : State) : State := (s.resumeDown b).settleSleeps

end Sys2Proof.Machine
end

