-- ==== Sys2Proof/Machine/BellOps.lean ====
section
/-! DEFINITION. Shared operations of the Bellwether: the counted position (R153, R160), the fire position and its steps
(R163, R164), ENC_OUT (R168), overspeed (R169, R170), the change of source (R167), and how a wheel takes one reference
edge (R153 to R161, R559, R560). -/

set_option Elab.async false

namespace Sys2Proof.Machine

/-! ### Set-up of a wheel -/

/-- The pitch length P in 1/65,536 subline (R152). -/
def State.pitchLen (s : State) (w : Nat) : Int :=
  (s.f (Fld.BELL_W_PITCH_INT_pitch_int w) * 65536 + s.f (Fld.BELL_W_PITCH_FRAC_pitch_frac w) : Nat)

/-- pitches of a wheel (R152). -/
def State.pitches (s : State) (w : Nat) : Int := (s.f (Fld.BELL_W_CFG_pitches w) : Nat)

/-- Index kind of a wheel (R152). -/
def State.indexKind (s : State) (w : Nat) : Nat := s.f (Fld.BELL_W_CFG_index w)

/-- The pitches that the edge at the end of a gap counts (R153). -/
def gapPitches (kind : Nat) : Int := if kind = 1 then 2 else if kind = 2 then 3 else 1

/-- A leads B (R150). -/
def State.aLeads (s : State) : Bool :=
  let sel := s.f Fld.BELL_CTRL_dir_sel
  if sel = 1 then true else if sel = 2 then false else !s.sys.straps.web

/-- A wheel whose edges are taken: W1 is unused while w1_mode is 0 (R175). -/
def State.wheelUsed (s : State) (w : Nat) : Bool :=
  s.fb (Fld.BELL_W_CFG_enable w) && (w = 0 || s.fb Fld.BELL_CTRL_w1_mode)

/-- The filter time of a wheel in ns (R151, R175). -/
def State.filterNs (s : State) (w : Nat) : Nat := min 1000 (s.f (Fld.BELL_W_FILTER_filter w))

/-! ### Positions -/

/-- The source wheel. -/
def State.source (s : State) : Wheel := s.wheel s.bell.src

/-- The periods of the last valid interval that COAST lasts (R160, R175). -/
def State.coastTeeth (s : State) : Nat := orIfZero (s.f Fld.BELL_COAST_coast_teeth) 1

/-- The instant at which the COAST of a wheel ends (R160). -/
def State.coastUntil (s : State) (x : Wheel) : Nat := x.coastAt + ceilDiv (s.coastTeeth * x.coastTime) (max 1 x.covered)

/-- The position of a wheel in COAST at an instant, advanced at the last valid speed (R160). -/
def State.coastedAt (s : State) (x : Wheel) (t : Nat) : Int :=
  x.coastPos + x.coastLen * ((min t (s.coastUntil x) : Nat) - (x.coastAt : Int)) / (max 1 x.coastTime : Nat)

/-- Its position now. -/
def State.coasted (s : State) (x : Wheel) : Int := s.coastedAt x s.now

/-- The counted position in 1/65,536 subline (R153, R160). -/
def State.counted (s : State) : Int :=
  if s.source.state = .coast then s.coasted s.source else s.source.pos + s.bell.offset

/-- The first line of a bar that lies above a fire position is later than m (R165). -/
def State.linesTo (s : State) (b : Nat) (fire : Int) : Int := (fire / 2 ^ 32 - s.offB b) / 65536

/-- Line counting of a bar begins at the present high-water mark: no line at or below it is fired (R165). -/
def State.rebaseTick (b : Nat) (s : State) : State :=
  s.onBar b (fun x => { x with lastTick := s.linesTo b s.bell.hwm, burst := 0, burstNext := none })

/-- A new straight piece of the fire position, from a position at an instant (R163). -/
def State.segment (base rate : Int) (stop : Option (Int × Bool)) (at_ : Nat) (s : State) : State :=
  s.onBell (fun b =>
    let b := { b with segPos := base, segAt := at_, rate := rate, fireStop := stop }
    b.reach (b.fireAt s.now))

/-- One bar's part of a step of the fire position: the lines that the step carries above the high-water mark are a burst
(R164). -/
def State.burstBar (top : Int) (s : State) (b : Nat) : State :=
  let n := (s.linesTo b top - (s.bar b).lastTick).toNat
  if n = 0 then s else s.onBar b (fun x => { x with burst := n })

/-- The fire position is set to the counted position (R164); a step that issues a burst is counted once. -/
def State.stepFire (s : State) : State :=
  let top := s.counted * 65536
  let s :=
    if !ahead 32 top s.bell.hwm then s
    else
      let any := (List.range 8).any (fun b => s.linesTo b s.bell.hwm < s.linesTo b top)
      let s := if any then s.bump Fld.BELL_BURST_CNT_value 1 else s
      if any then (List.range 8).foldl (fun s b => s.burstBar top b) s else s
  s.segment top 0 none s.now

/-! ### Speed, overspeed -/

/-- What follows a change of BELL_LRATE: overspeed (R169), ceil_low (R172), the demand on inflating (R373). -/
def State.rateChanged (s : State) : State :=
  s.judgeBars.judgeCeilLow.judgeDemand

/-- BELL_SPEED takes a value, and BELL_LRATE with it (R154). -/
def State.setSpeed (v : Int) (s : State) : State :=
  let l := v.natAbs * s.dpi * 10 / (256 * 254)
  let was : Nat := s.bell.lrate
  let s := s.onBell (fun b => { b with speed := v, lrate := l })
  if l = was then s else s.rateChanged

/-- The signed speed over the last intervals of a wheel, 1/256 mm/s, rounded toward zero (R154). -/
def State.speedOf (s : State) (w : Wheel) : Int :=
  let h := w.hist.take (2 ^ min 4 (s.f Fld.BELL_CTRL_speed_avg))
  let len := (h.map (fun p => p.1)).foldl (· + ·) 0
  let t := (h.map (fun p => p.2)).foldl (· + ·) 0
  if t = 0 then 0
  else
    let v : Int := len * 254 * 256 * 1000000000 / ((2 ^ 32 * 10 * s.dpi * t : Nat) : Int)
    if w.fwd then v else -v

/-! ### ENC_OUT (R168) -/

/-- enc_width in ns (R175). -/
def State.encWidth (s : State) : Nat := orIfZero (s.f Fld.BELL_ENC_CFG_enc_width) 50

/-- A pulse falls due: it starts, waits, or is lost (R168, R554). -/
def State.encDue (s : State) : State :=
  let b := s.bell
  if b.encEnd.isNone && b.encNext.isNone then
    if b.encLast = some s.now then s.onBell (fun b => { b with encWait := 1, encNext := some (s.now + 20) })
    else (s.onBell (fun b => { b with encEnd := some (s.now + s.encWidth) })).emit (.encPulse (!s.fb Fld.BELL_ENC_CFG_enc_pol) s.encWidth)
  else if b.encWait < 4 then s.onBell (fun b => { b with encWait := b.encWait + 1 })
  else s.bump Fld.BELL_ENC_LOST_value 1

/-- One count of ENC_OUT: M joins the accumulator, and a pulse falls due at N (R168). Nothing is produced in replay
(R521). -/
def State.encCount (s : State) : State :=
  let n := orIfZero (s.f Fld.BELL_ENC_RATIO_N) 1
  let m := min n (s.f Fld.BELL_ENC_RATIO_M)
  if !s.fb Fld.BELL_ENC_CFG_enc_en || s.replaying || m = 0 then s
  else
    let acc := s.bell.encAcc + m
    if n ≤ acc then (s.onBell (fun b => { b with encAcc := acc - n })).encDue
    else s.onBell (fun b => { b with encAcc := acc })

/-- enc_src: 3 is taken as 0 (R175). -/
def State.encSrc (s : State) : Nat := if s.f Fld.BELL_ENC_CFG_enc_src = 3 then 0 else s.f Fld.BELL_ENC_CFG_enc_src

/-- A forward edge of a wheel as ENC_OUT sees it (R168): it counts only past the wheel's largest earlier position. -/
def State.encEdge (w : Nat) (s : State) : State :=
  let p := (s.wheel w).pos
  if !ahead 16 p (s.bell.encMax.getD w 0) then s
  else
    let s := s.onBell (fun b => { b with encMax := b.encMax.set w p })
    if s.encSrc = w then s.encCount else s

/-! ### The change of source (R167) -/

/-- The fire position advances at the speed of a wheel in COAST from an instant on (R160). -/
def State.coastFire (w at_ : Nat) (s : State) : State :=
  let x := s.wheel w
  let at_ := max at_ s.bell.segAt
  s.segment (s.bell.fireAt at_) (x.coastLen * 65536 / (max 1 x.coastTime : Nat)) none at_

/-- A wheel becomes the source: the counted position is taken from it, and EV073 is raised. Of a wheel in COAST the speed is the last valid
one, at which the positions advance (R160). -/
def State.takeSource (w : Nat) (s : State) : State :=
  if s.bell.src = w then s.onBell (fun b => { b with srcWait := none })
  else
    let s := (s.onBell (fun b => { b with src := w, srcWait := none, offset := 0, backRun := none })).raiseEv 73
    if (s.wheel w).state = .coast then (s.coastFire w s.now).setSpeed (s.speedOf (s.wheel w)) else s

/-! ### One reference edge: pitches it counts -/

/-- The pitch number of a position from the reference index, 0 to pitches − 1 (R559). -/
def Wheel.slot (x : Wheel) (p n : Int) : Int := (x.pos - x.refPos) / p % n

/-- The pitches that an edge counts from the known place of the gap, and whether the extra tooth of kind 3 now lies behind
(R559); 0 for the edge of the extra tooth. -/
def Wheel.knownGap (x : Wheel) (kind : Nat) (p n : Int) (fwd : Bool) : Int × Bool :=
  if !x.gapKnown || kind = 0 then (1, false)
  else
    let k := x.slot p n
    if kind = 3 then
      if k = n - 1 && fwd ≠ x.extra then (0, fwd) else (1, !fwd && k = 0)
    else
      let g := gapPitches kind
      if (fwd && k = n - g) || (!fwd && k = n - 1) then (g, false) else (1, false)

/-- A position lies within one pitch of the last accepted index plus whole revolutions (R157). -/
def Wheel.inWindow (x : Wheel) (p n pos : Int) : Bool :=
  let d := (pos - x.refPos) % (n * p)
  !x.gapKnown || d ≤ p || n * p - d ≤ p

/-- What an edge is: the pitches it counts, whether it is the index, whether it counts in BELL_SLIP_CNT, whether the extra tooth now lies
behind, and whether it has been marked as the extra tooth, so that the next forward edge in RUN is the index (R157, R559). -/
structure RunEdge where
  k : Int
  index : Bool
  slip : Bool
  extra : Bool
  marked : Bool
  deriving DecidableEq, Repr, Inhabited

/-- What an edge is by its place alone (R559). -/
def Wheel.placeEdge (x : Wheel) (kind : Nat) (p n : Int) (fwd : Bool) : RunEdge :=
  let g := x.knownGap kind p n fwd
  ⟨g.1, false, false, g.2, false⟩

/-- A forward edge in RUN by the comparison of R157, where t is the interval that ends at it; an edge that it does not mark counts as its
place gives (R559). -/
def Wheel.runEdge (x : Wheel) (kind : Nat) (p n : Int) (t : Nat) : RunEdge :=
  let now := t * x.fwdCovered
  let was := x.fwdInterval
  let place := x.placeEdge kind p n true
  if x.idxNext then ⟨1, true, false, false, false⟩
  else
    let mark := (kind = 1 && 3 * was ≤ 2 * now) || (kind = 2 && 5 * was ≤ 2 * now) || (kind = 3 && 4 * now < 3 * was)
    let lost := kind = 2 && 3 * was ≤ 2 * now
    let k := gapPitches kind
    if mark then
      if x.inWindow p n (x.pos + k * p) then
        if kind = 3 then ⟨0, false, false, true, true⟩ else ⟨k, true, false, false, false⟩
      else if kind = 3 then ⟨1, false, true, false, false⟩
      else
        let r := (2 * now + was) / (2 * max 1 was)
        ⟨(clampNat 1 4 r : Nat), false, true, false, false⟩
    else if lost && place.k = 1 then ⟨2, false, true, false, false⟩
    else place

/-- A wheel's position moves by k pitches (R153); a backward pass below the reference withdraws it (R560). -/
def Wheel.move (x : Wheel) (p n k : Int) (fwd : Bool) : Wheel :=
  let step := if fwd then k else -k
  let pos := x.pos + step * p
  let x' := { x with pos := pos, net := x.net + step }
  if x.hasRef && pos < x.refPos && x.refPos ≤ x.pos then
    { x' with refPos := x.refPos - n * p, net := x'.net + n }
  else x'

/-- The pitches expected up to the next reference edge (R163). -/
def Wheel.expected (x : Wheel) (kind : Nat) (p n : Int) : Int :=
  if kind = 3 then 1 else (x.knownGap kind p n x.fwd).1

/-! ### Leaving RUN, index and miss -/

/-- A wheel enters COAST at its last edge (R160): EV070. Of the source, the counted position and the fire position advance at the last valid
speed. -/
def State.enterCoast (w : Nat) (s : State) : State :=
  let x := s.wheel w
  let p := s.pitchLen w
  let isSrc := s.bell.src = w
  let pos := if isSrc then s.counted else x.pos
  let len := if x.fwd then p * x.covered else -(p * x.covered)
  let s := s.onWheel w (fun x => { x with
    state := .coast, coastPos := pos, coastLen := len, coastTime := max 1 x.interval, coastAt := x.edgeAt, idxNext := false })
  let s := if isSrc then s.coastFire w x.edgeAt else s
  s.raiseEv 70

/-- A wheel leaves RUN with FS018 (R159, R160): the source goes over to the other wheel, if R167 lets it; else the wheel coasts. -/
def State.leaveRun (w : Nat) (s : State) : State :=
  let s := s.fault 18
  let o := 1 - w
  if s.bell.src = w && s.fb Fld.BELL_CTRL_src_auto && s.wheelUsed o && (s.wheel o).state = .run
      && !s.fb ⟨Reg.FOLD_STICKY 0, 16, 16⟩ then
    let s := s.onWheel w (fun x => { x with state := .first, speedValid := false, hist := [], idxNext := false })
    (s.takeSource o).setSpeed (s.speedOf (s.wheel o))
  else s.enterCoast w

/-- An index is accepted (R157, R158): it is compared while the check is armed, and becomes the reference. -/
def State.acceptIndex (w : Nat) (s : State) : State :=
  let x := s.wheel w
  let n := s.pitches w
  let s := s.observe 0x11 w (leBytes 4 (toTwos 32 x.net))
  let s := if s.bell.src = w then s.raiseEv 68 else s
  let d := x.net - n
  let near := x.armed && (d = 1 || d = -1)
  let far := x.armed && !near && d ≠ 0
  let pos := if near then x.refPos + n * s.pitchLen w else x.pos
  let s := s.onWheel w (fun x => { x with
    idxCnt := (if x.armed then x.net else x.idxCnt),
    pos := pos, refPos := pos, hasRef := true, net := 0, gapKnown := true, armed := true })
  let s := if near then ((s.bump Fld.BELL_SLIP_CNT_value 1).fault 17).raiseEv 69 else s
  if far then s.leaveRun w else s

/-- The miss check after an edge (R159). -/
def State.missCheck (w : Nat) (s : State) : State :=
  let x := s.wheel w
  if x.armed && s.pitches w + 2 ≤ x.net then
    let s := s.onWheel w (fun x => { x with armed := false })
    if x.state = .run then (s.onWheel w (fun x => { x with gapKnown := false })).leaveRun w else s
  else s

/-! ### Backward runs (R161) -/

/-- A backward edge of the source. -/
def State.backEdge (followsFwd : Bool) (s : State) : State :=
  let s := s.bump Fld.BELL_BACK_CNT_value 1
  let pos := s.counted
  let s := match s.bell.backRun, followsFwd with
    | some _, false => s
    | _, _ => s.onBell (fun b => { b with backRun := some ⟨pos, false⟩ })
  match s.bell.backRun with
  | some r =>
    let lim : Int := (orIfZero (s.f Fld.BELL_BACK_LIMIT_back_limit) 1 * 2 ^ 32 : Nat)
    if !r.said && lim < posDiff 16 r.start pos then
      let s := s.onBell (fun b => { b with backRun := some { r with said := true } })
      let s := s.raiseEv 67
      if s.jet.bars.any (fun x => x.hv) then s.fault 21 else s
    else s
  | none => s

/-! ### The fire position at an edge of the source (R163, R164) -/

/-- The source has taken an edge: in RUN the fire position takes its new rate, otherwise it is set to the counted
position. -/
def State.edgeFire (wasRun : Bool) (ts : Nat) (s : State) : State :=
  let w := s.bell.src
  let x := s.source
  let p := s.pitchLen w
  match x.state with
  | .coast => s
  | .run =>
    let n := x.expected (s.indexKind w) p (s.pitches w)
    let top := s.counted * 65536
    let s := if wasRun then s else s.stepFire
    let at_ := if wasRun then max ts s.bell.segAt else ts
    let base := if wasRun then s.bell.fireAt at_ else top
    let e := posDiff 32 top base
    let lim := 4096 * n * 2 ^ 32
    let c := max (-lim) (min lim (if x.fwd then e else -e))
    let mag := n * p * 65536 + c
    let rate := mag * x.covered / (n * (max 1 x.interval : Nat))
    let stop := if x.fwd then top + n * p * 65536 else top - n * p * 65536
    let s := s.segment base (if x.fwd then rate else -rate) (some (stop, x.fwd)) at_
    s.onBell (fun b => { b with phaseErr := e / 2 ^ 32, slewing := lim < e || e < -lim })
  | _ => s.stepFire

/-- An edge of the source wheel wakes the downstream of every bar (R246). -/
def State.wakeForEdge (s : State) : State := (List.range 8).foldl (fun s b => s.wakeDown b) s

/-! ### A reference edge -/

/-- The edge of a wheel in COAST counts in its own position and is not used (R160); that of the extra tooth is neither counted nor timed
(R153). -/
def State.coastEdge (w : Nat) (fwd : Bool) (ts : Nat) (s : State) : State :=
  let x := s.wheel w
  let p := s.pitchLen w
  let n := s.pitches w
  let g := x.knownGap (s.indexKind w) p n fwd
  let s := s.onWheel w (fun x => { x with extra := g.2 })
  if g.1 = 0 then s else (s.onWheel w (fun x => { x.move p n g.1 fwd with edgeAt := ts, fwd := fwd })).missCheck w

/-- The next tracking state of a wheel at an edge (R156). -/
def Track.atEdge (t : Track) (same : Bool) : Track :=
  match t with
  | .still => .first
  | .coast => .coast
  | _ => if same then .run else .reversing

/-- A wheel after an edge that counts k pitches: state, intervals and position (R153, R154, R156). -/
def Wheel.take (x : Wheel) (p n k : Int) (fwd same : Bool) (ts : Nat) : Wheel :=
  let t := ts - x.edgeAt
  let y := x.move p n k fwd
  let st := x.state.atEdge same
  let y := { y with state := st, edgeAt := ts, fwd := fwd, speedValid := decide (st = Track.run) }
  if same then
    { y with
      interval := t, covered := k.toNat, hist := ((k * p, t) :: x.hist).take 16,
      fwdInterval := (if fwd then t else 0), fwdCovered := (if fwd then k.toNat else 1) }
  else { y with hist := [], fwdInterval := 0, fwdCovered := 1 }

/-- The redundant wheel's position at its edge is compared with W0's, interpolated to the nanosecond of that edge, backwards too where W0's last
edge is the later one (R166). -/
def State.wheelDiff (ts : Nat) (s : State) : State :=
  let a := s.wheel 0
  let b := s.wheel 1
  let adv : Int := s.pitchLen 0 * a.covered * ((ts : Int) - a.edgeAt) / (max 1 a.interval : Nat)
  let at_ := a.pos + (if s.bell.src = 0 then s.bell.offset else 0)
  let pos :=
    if s.bell.src = 0 && a.state = .coast then s.coastedAt a ts
    else if a.interval = 0 then at_ else if a.fwd then at_ + adv else at_ - adv
  let lim : Int := (s.f Fld.BELL_DIFF_LIMIT_diff_limit * 2 ^ 32 : Nat)
  if lim < (posDiff 16 b.pos pos).natAbs then (s.fault 16).raiseEv 74 else s

/-- A wheel outside COAST takes a reference edge. -/
def State.takeEdge (w : Nat) (fwd : Bool) (ts : Nat) (s : State) : State :=
  let x := s.wheel w
  let p := s.pitchLen w
  let n := s.pitches w
  let kind := s.indexKind w
  let same := x.state ≠ .still && fwd = x.fwd
  let e : RunEdge :=
    if x.state = .run && same && fwd && kind ≠ 0 && x.fwdInterval ≠ 0 then x.runEdge kind p n (ts - x.edgeAt)
    else x.placeEdge kind p n fwd
  let s := s.onWheel w (fun x => { x with extra := e.extra, idxNext := e.marked })
  let s := if e.slip then s.bump Fld.BELL_SLIP_CNT_value 1 else s
  if e.k = 0 then s
  else
    let isSrc := s.bell.src = w
    let s := s.onWheel w (fun x => x.take p n e.k fwd same ts)
    let s := if w = 1 && !x.seen then
        s.onWheel w (fun x => { x with pos := s.bell.fireAt (max ts s.bell.segAt) / 65536 }) else s
    let s := s.onWheel w (fun x => { x with seen := true })
    let s := if isSrc then
        (if fwd then s.onBell (fun b => { b with backRun := none }) else s.backEdge (x.state = .still || x.fwd)) else s
    let s := if isSrc && x.state = .still then (s.onBell (fun b => { b with moveAt := s.now })).raiseEv 66 else s
    let s := if isSrc then s.setSpeed (s.speedOf (s.wheel w)) else s
    let s := if fwd then s.encEdge w else s
    let s := if e.index then s.acceptIndex w else s
    let s := s.missCheck w
    let s := if w = 1 && (s.wheel 1).state = .run then s.wheelDiff ts else s
    if isSrc && s.bell.src = w then s.edgeFire (x.state = .run) ts else s

/-- A reference edge of a wheel (R150): a change of source that waits for it takes effect first (R167). -/
def State.refEdge (w : Nat) (fwd : Bool) (ts : Nat) (s : State) : State :=
  let s := if s.bell.srcWait = some w then s.takeSource w else s
  let s := if s.bell.src = w then s.wakeForEdge else s
  if (s.wheel w).state = .coast then s.coastEdge w fwd ts else s.takeEdge w fwd ts

/-! ### Transitions of the inputs -/

/-- One input of a wheel, changed. -/
def State.onInput (w : Nat) (inputB : Bool) (f : WInput → WInput) (s : State) : State :=
  s.onWheel w (fun x => if inputB then { x with b := f x.b } else { x with a := f x.a })

/-- The inversion of an input (R151). -/
def State.inverted (s : State) (w : Nat) (inputB : Bool) : Bool :=
  if inputB then s.fb (Fld.BELL_W_CFG_b_inv w) else s.fb (Fld.BELL_W_CFG_a_inv w)

/-- A filtered transition to a level, first seen at ts, is taken (R150, R151, R554), and recorded (R509). -/
def State.takeTransition (w : Nat) (inputB level : Bool) (ts : Nat) (s : State) : State :=
  let s := s.tallyEntryAt 0x10 (w + 2 * b2n inputB + 4 * b2n level) ((s.devTime + 2 ^ 32 - (s.now - ts) % 2 ^ 32) % 2 ^ 32) []
  let x := s.wheel w
  let bLevel := if x.bAt = some ts then x.bPrev else x.b.lvl
  let s := s.onInput w inputB (fun i => { i with lvl := level, change := none })
  if inputB then s.onWheel w (fun y => { y with bPrev := x.b.lvl, bAt := some ts })
  else if !s.wheelUsed w then s
  else if !s.fb (Fld.BELL_W_CFG_b_present w) then (if level then s.refEdge w true ts else s)
  else if bLevel ≠ !s.aLeads then s
  else s.refEdge w level ts

end Sys2Proof.Machine
end

