-- ==== Sys2Proof/Machine/SeeOps.lean ====
section
/-! DEFINITION. What a camera port receives and the correction chain: CSI-2 packets, the CONTEXT block, the stages of R288, and
the registration of R292. The forms that MIPI CSI-2 fixes (header, ECC, checksum, packing of RAW pixels) are its own. -/

set_option Elab.async false

namespace Sys2Proof.Machine

/-! ### CSI-2 long packets (R279, R281) -/

/-- The syndrome of a single error in each of the 26 header bits. -/
def eccColumns : List Nat :=
  [0x07, 0x0B, 0x0D, 0x0E, 0x13, 0x15, 0x16, 0x19, 0x1A, 0x1C, 0x23, 0x25, 0x26, 0x29, 0x2A, 0x2C, 0x31, 0x32, 0x34, 0x38,
   0x1F, 0x2F, 0x37, 0x3B, 0x3D, 0x3E]

/-- The ECC of the 26 header bits. -/
def eccOf (d : Nat) : Nat := (eccColumns.zipIdx).foldl (fun e c => if bitOf d c.2 then e ^^^ c.1 else e) 0

/-- A header after its ECC: none where it is uncorrectable, else its bits and whether one was corrected. -/
def eccFix (d ecc : Nat) : Option (Nat × Bool) :=
  let syn := eccOf d ^^^ ecc
  if syn = 0 then some (d, false)
  else match (eccColumns.zipIdx).find? (fun c => c.1 = syn) with
    | some c => some (d ^^^ 2 ^ c.2, true)
    | none => if [1, 2, 4, 8, 16, 32].contains syn then some (d, true) else none

/-- A long packet taken apart: virtual channel, data type, payload, whether its checksum holds. -/
structure CsiPkt where
  vc : Nat
  dtype : Nat
  body : List Byte
  good : Bool
  deriving DecidableEq, Repr, Inhabited

/-- A long packet: none where its header is uncorrectable, else the packet and whether its header was corrected. -/
def csiParse (bs : List Byte) : Option (CsiPkt × Bool) :=
  let h := leAt bs 3 1
  match eccFix (leAt bs 0 3 + h / 64 * 2 ^ 24) (h % 64) with
  | none => none
  | some (d, fixed) =>
    let wc := bits d 23 8
    let body := (bs.drop 4).take wc
    some (⟨bits d 7 6 + 4 * bits d 25 24, bits d 5 0, body,
      bs.length = wc + 6 && crcRun 0x8408 0xFFFF body = leAt bs (4 + wc) 2⟩, fixed)

/-- Bits per pixel of a data type of R279; 0 for any other. -/
def pixelBits (dtype : Nat) : Nat :=
  if dtype = 0x2A then 8 else if dtype = 0x2B then 10 else if dtype = 0x2C then 12 else if dtype = 0x2D then 14 else 0

/-- Pixels of one packing group: n pixels whose upper bits stand in a byte each, and whose k lower bits follow, packed from bit
0. -/
def unpackGroup (n k : Nat) (bs : List Byte) : List Nat :=
  let low := leNat (bs.drop n)
  (List.range n).map (fun i => leAt bs i 1 * 2 ^ k + low / 2 ^ (k * i) % 2 ^ k)

/-- The pixels of a line by data type, n of them left. -/
def unpackRaw (dtype : Nat) : Nat → List Byte → List Nat
  | 0, _ => []
  | n + 1, bs =>
    if dtype = 0x2A then leAt bs 0 1 :: unpackRaw dtype n (bs.drop 1)
    else
      let g := if dtype = 0x2C then 2 else 4
      let k := pixelBits dtype - 8
      let px := unpackGroup g k (bs.take (g + g * k / 8))
      if n + 1 ≤ g then px.take (n + 1)
      else px ++ (unpackRaw dtype n (bs.drop (g + g * k / 8))).take (n + 1 - g)

/-- Step 1 of R288: 14-bit values. -/
def unpack (dtype columns : Nat) (bs : List Byte) : List Nat :=
  (unpackRaw dtype columns bs).map (fun v => v * 2 ^ (14 - pixelBits dtype))

/-- Bytes of a line of a port (R281). -/
def CamPort.lineBytes (p : CamPort) : Nat := ceilDiv (p.columns * pixelBits p.dtype) 8

/-- Bytes in a port FIFO (R284). -/
def CamPort.level (p : CamPort) : Nat := (p.fifo.map (fun l => l.bytes)).sum

/-! ### The CONTEXT block (R302) -/

/-- A matrix entry of 1.0 in Q4.12, and n zero entries. -/
def q12One : List Byte := [0, 0x10]
def q12Zero (n : Nat) : List Byte := List.replicate (2 * n) 0

/-- The block before one is loaded: mono, no stage enabled, the reset matrices. -/
def resetBlock : List Byte :=
  List.replicate 36 0
    ++ q12One ++ q12Zero 4 ++ q12One ++ q12Zero 4 ++ q12One ++ q12Zero 4 ++ q12One
    ++ q12One ++ q12Zero 4 ++ q12One ++ q12Zero 4 ++ q12One ++ q12Zero 1
    ++ List.replicate 54 0 ++ [1, 0, 0, 1, 0] ++ List.replicate 41 0

/-- The block in force for the frame. -/
def CamPort.blk (p : CamPort) : List Byte := p.block.getD resetBlock

def blkKind (b : List Byte) : Nat := leAt b 0 1 % 4
def blkColPhase (b : List Byte) : Nat := bits (leAt b 0 1) 3 2
def blkRowPhase (b : List Byte) : Nat := bits (leAt b 0 1) 5 4
def blkFlag (b : List Byte) (i : Nat) : Bool := bitOf (leAt b 1 1) i
def blkDpcThr (b : List Byte) : Nat := leAt b 2 2
def blkBlack (b : List Byte) (site : Nat) : Nat := leAt b (4 + 2 * site) 2
def blkIr (b : List Byte) (r k : Nat) : Int := ofTwos 16 (leAt b (36 + 8 * r + 2 * k) 2)
def blkCm (b : List Byte) (r k : Nat) : Int := ofTwos 16 (leAt b (68 + 8 * r + 2 * k) 2)
def blkCo (b : List Byte) (r : Nat) : Int := ofTwos 16 (leAt b (92 + 2 * r) 2)
def blkX0 (b : List Byte) : Int := ofTwos 32 (leAt b 100 4)
def blkDx (b : List Byte) : Nat := leAt b 104 4
def blkQ (b : List Byte) : Int := ofTwos 32 (leAt b 108 4)
def blkCamOff (b : List Byte) : Nat := leAt b 112 6
def blkLineLead (b : List Byte) : Nat := leAt b 120 4
def blkReadLead (b : List Byte) : Nat := leAt b 124 4
def blkMk (b : List Byte) (i : Nat) : Nat := leAt b (128 + 2 * i) 2
def blkStreakCh (b : List Byte) (i : Nat) : Nat := leAt b (136 + i) 1
def blkStreakThr (b : List Byte) : Nat := leAt b 144 2
def blkStreakFrames (b : List Byte) : Nat := leAt b 146 1
def blkStreakMin (b : List Byte) : Nat := leAt b 147 1
def blkUplEn (b : List Byte) : Bool := bitOf (leAt b 148 1) 0
def blkTap (b : List Byte) : Nat := bits (leAt b 148 1) 2 1
def blkWrap (b : List Byte) : Nat := bits (leAt b 148 1) 4 3
def blkLevel (b : List Byte) : Nat := leAt b 149 1
def blkTokens (b : List Byte) : Nat := leAt b 150 1

/-- A signed value of a field lies in w bits. -/
def fitsSigned (w : Nat) (x : Int) : Bool := -(2 ^ (w - 1) : Int) ≤ x && x < 2 ^ (w - 1)

/-- Side of the mosaic: 1, 2 or 4; it is also the distance to the nearest pixel of the same site (R290). -/
def mosaicSide (kind : Nat) : Nat := if kind = 0 then 1 else if kind = 2 then 4 else 2

/-- The check of a CONTEXT block (R302). A mosaic suits the data of a port whose lines hold it a whole number of times (DESIGN CHOICE 80:
R302 does not say what suits). -/
def contextOk (columns : Nat) (b : List Byte) : Bool :=
  b.length = 192 && columns % mosaicSide (blkKind b) = 0 && bits (leAt b 0 1) 7 6 = 0 && bits (leAt b 1 1) 7 6 = 0 && blkDpcThr b < 16384
    && (List.range 16).all (fun i => blkBlack b i < 16384) && (List.range 3).all (fun r => fitsSigned 12 (blkCo b r))
    && leAt b 98 2 = 0 && leAt b 118 2 = 0 && (List.range 8).all (fun i => blkStreakCh b i ≤ 2)
    && blkStreakThr b < 4096 && 1 ≤ blkStreakFrames b && bits (leAt b 148 1) 7 5 = 0 && blkTap b ≤ 2
    && 1 ≤ blkLevel b && blkLevel b ≤ 9 && (b.drop 151).all (· = 0)

/-- The check of a DEFECT table (R303). -/
def defectOk (b : List Byte) : Bool :=
  let n := leAt b 0 4
  16 ≤ b.length && n ≤ 4096 && b.length = 16 + 4 * n && ((b.take 16).drop 4).all (· = 0) && rising (words32 (b.drop 16))

/-- The check of a SHADING table (R303). -/
def shadingOk (b : List Byte) : Bool :=
  let form := leAt b 0 1
  let n := leAt b 2 2
  16 ≤ b.length && form ≤ 1 && leAt b 1 1 = 0 && ((b.take 16).drop 4).all (· = 0)
    && b.length = (if form = 0 then 16 + 4 * n else 16 + 8712 + 2 * n)

/-! ### The correction chain (R288 to R291) -/

/-- The site of a pixel: its place in the mosaic, row by row. -/
def siteOf (b : List Byte) (row col : Nat) : Nat :=
  let n := mosaicSide (blkKind b)
  n * ((row + blkRowPhase b) % n) + (col + blkColPhase b) % n

/-- The channel of a site (R291): 0 R, 1 G, 2 B, 3 X. -/
def siteChannel (kind site : Nat) : Nat :=
  if kind = 0 then 0
  else if kind = 1 then [0, 1, 1, 2].getD site 0
  else if kind = 3 then site
  else [0, 1, 2, 1, 1, 3, 1, 3, 2, 1, 0, 1, 1, 3, 1, 3].getD site 0

/-- The per-column black offset of a SHADING table. -/
def shadeCb (t : List Byte) (col : Nat) : Int :=
  if t.isEmpty then 0
  else if leAt t 0 1 = 0 then ofTwos 16 (leAt t (18 + 4 * col) 2)
  else ofTwos 16 (leAt t (16 + 8712 + 2 * col) 2)

/-- Step 2: black level. A negative cb can take a value beyond 14 bits; it stays at the largest there (DESIGN CHOICE 80). -/
def blackLevel (b shade : List Byte) (row : Nat) (px : Array Nat) : Array Nat :=
  px.mapIdx (fun col (p : Nat) => min 16383 ((p : Int) - blkBlack b (siteOf b row col) - shadeCb shade col).toNat)

/-- The pixels of the same site left and right (R290); at an edge the one that exists serves for both. -/
def sidesOf (d : Nat) (px : Array Nat) (i : Nat) : Nat × Nat :=
  let r := if i + d < px.size then px.getD (i + d) 0 else px.getD (i - d) 0
  if d ≤ i then (px.getD (i - d) 0, r) else (r, r)

/-- Columns that the DEFECT table maps on a row. -/
def defectCols (t : List Byte) (row : Nat) : List Nat :=
  ((words32 (t.drop 16)).filter (fun w => w / 65536 = row || w / 65536 = 0xFFFF)).map (fun w => w % 65536)

/-- Step 3: static replacement, then dynamic detection; the number of dynamic replacements. -/
def defective (b : List Byte) (cols : List Nat) (px : Array Nat) : Array Nat × Nat :=
  let d := mosaicSide (blkKind b)
  let mean := fun (q : Nat × Nat) => (q.1 + q.2 + 1) / 2
  let px := px.mapIdx (fun i p => if cols.contains i then mean (sidesOf d px i) else p)
  if !blkFlag b 0 then (px, 0)
  else
    let odd := fun (i p : Nat) =>
      let q := sidesOf d px i
      !cols.contains i && (max q.1 q.2 + blkDpcThr b < p || p + blkDpcThr b < min q.1 q.2)
    let n := ((List.range px.size).filter (fun i => odd i (px.getD i 0))).length
    (px.mapIdx (fun i p => if odd i p then mean (sidesOf d px i) else p), n)

/-- The node before a place, and the weight of the next one in 1/256 (R289). -/
def gridAt (x spacing : Nat) : Nat × Nat :=
  let s := max 1 spacing
  (min 32 (x / s), (x % s * 256 + s / 2) / s)

/-- The shading gain of a pixel (R289). -/
def shadeGain (t : List Byte) (columns lines row col ch : Nat) : Nat :=
  if leAt t 0 1 = 0 then leAt t (16 + 4 * col) 2
  else
    let c := gridAt col (ceilDiv columns 32)
    let r := gridAt row (ceilDiv lines 32)
    let g := fun (i j : Nat) => leAt t (16 + 2 * (1089 * ch + 33 * (min 32 i) + min 32 j)) 2
    ((256 - r.2) * ((256 - c.2) * g r.1 c.1 + c.2 * g r.1 (c.1 + 1))
      + r.2 * ((256 - c.2) * g (r.1 + 1) c.1 + c.2 * g (r.1 + 1) (c.1 + 1)) + 32768) / 65536

/-- Step 4: shading. -/
def shade (b t : List Byte) (columns lines row : Nat) (px : Array Nat) : Array Nat :=
  if !blkFlag b 4 || t.isEmpty then px
  else px.mapIdx (fun col p =>
    min 16383 ((p * shadeGain t columns lines row col (siteChannel (blkKind b) (siteOf b row col)) + 8192) / 16384))

/-- Rows above and below a pixel that its demosaic window takes in (R291). -/
def windowReach (kind : Nat) : Nat := if kind = 0 then 0 else if kind = 2 then 2 else 1

/-- The lines of the window of a line: row and values. For a line sensor the first line stands in for absent earlier ones. -/
def windowLines (hist : List HistLine) (lineSensor : Bool) (reach n : Nat) : List (Nat × Array Nat) :=
  (List.range (2 * reach + 1)).filterMap (fun k =>
    let want := if n + k < reach then none else hist.find? (fun h => h.number + reach = n + k)
    match want with
    | some h => some (h.number, h.vals.toArray)
    | none =>
      if lineSensor && n = 0 && k < reach then (hist.find? (fun h => h.number = 0)).map (fun h => (0, h.vals.toArray)) else none)

/-- Step 5 for one pixel: R, G, B, X (R291). A channel that the window does not hold has no stated value. -/
def demosaicAt (b : List Byte) (reach : Nat) (win : List (Nat × Array Nat)) (own : Array Nat) (row col : Nat) : List Nat :=
  let kind := blkKind b
  let p := own.getD col 0
  if kind = 0 then [p, p, p, 0]
  else
    let mine := siteChannel kind (siteOf b row col)
    let cols := (List.range (2 * reach + 1)).filterMap (fun k =>
      if col + k < reach || own.size ≤ col + k - reach then none else some (col + k - reach))
    (List.range 4).map (fun ch =>
      if ch = 3 && kind = 1 then 0
      else if ch = mine then p
      else
        let vs := win.flatMap (fun l => (cols.filter (fun c => siteChannel kind (siteOf b l.1 c) = ch)).map (fun c => l.2.getD c 0))
        if vs.isEmpty then Config.emptyMean row col ch % 16384 else (2 * vs.sum + vs.length) / (2 * vs.length))

/-- Step 6: IR separation. -/
def irSeparate (b : List Byte) (v : List Nat) : List Nat :=
  if !blkFlag b 5 then v
  else (List.range 4).map (fun r =>
    (clampInt 0 16383 (((((List.range 4).map (fun k => blkIr b r k * (v.getD k 0 : Nat))).sum) + 2048) / 4096)).toNat)

/-- The matrix entry and offset of step 7 under the calibrated gains (R496). -/
def cmGain (kc : Nat) (x : Int) : Int := (x * (kc : Nat) + 8192) / 16384

/-- Step 7: the colour matrix. -/
def colourMatrix (b : List Byte) (kc v : List Nat) : List Nat :=
  (List.range 3).map (fun r =>
    let k := kc.getD r 0x4000
    let sum := ((List.range 4).map (fun j => cmGain k (blkCm b r j) * (v.getD j 0 : Nat))).sum
    (clampInt 0 4095 ((sum + 8192) / 16384 + cmGain k (blkCo b r))).toNat)

/-! ### Registration (R292, R293) -/

/-- The print position of a camera column. -/
def positionOf (b : List Byte) (col : Nat) : Int :=
  (256 * blkX0 b + (col * blkDx b : Nat) + ((col * col : Nat) : Int) * blkQ b / 2 ^ 24) / 65536

/-- The web position of a line at the arrival of its packet. -/
def State.lineW (s : State) (b : List Byte) : Int :=
  let moving := s.source.state = .run || s.source.state = .coast
  let back : Int := if moving then (s.bell.rate * (blkLineLead b : Nat) + 2 ^ 31) / 2 ^ 32 else 0
  s.bell.fire / 2 ^ 32 - back

/-- What a camera line lies over: nothing printed; a line of an image, with its job line; the gap after an image. -/
inductive LineOver
  | out
  | image (p : Span) (y line : Nat)
  | gap (p : Span)
  deriving DecidableEq, Repr, Inhabited

/-- Registration of a line. -/
def State.lineOver (s : State) (b : List Byte) (w : Int) : LineOver :=
  match s.lay.job, s.jet.mJob with
  | some _, some m0 =>
    let y := (w - blkCamOff b) / 65536 - m0
    if y < 0 then .out
    else match s.lay.spans.find? (fun p => p.m0 ≤ y + m0 && y + m0 < p.m0 + p.length + p.gap) with
      | some p =>
        let i := (y + m0 - p.m0).toNat
        if i < p.length then .image p y.toNat i else .gap p
      | none => .out
  | _, _ => .out

end Sys2Proof.Machine
end

