-- ==== Sys2Proof/Machine/HoldOps.lean ====
section
/-! DEFINITION. The colour hold loop: the forward model, witnesses, estimates and the integrator (R308 to R323). -/

set_option Elab.async false

namespace Sys2Proof.Machine

/-! ### Densities (R314) -/

/-- ⌊log10 n⌋ for n < 10^(2^k), by halving exponents. -/
def ilog10 : Nat → Nat → Nat
  | 0, _ => 0
  | k + 1, n => if 10 ^ 2 ^ k ≤ n then 2 ^ k + ilog10 k (n / 10 ^ 2 ^ k) else ilog10 k n

/-- DLOG: round(4,096 × log10(4,095 / max(c, 1))). -/
def dlog (c : Nat) : Nat := (ilog10 15 (4095 ^ 8192 / (max c 1) ^ 8192) + 1) / 2

/-- A measurement table of the loop. -/
def Hold.table (h : Hold) (typ index sub : Nat) : List Byte :=
  ((h.meas.find? (fun m => m.typ = typ && m.index = index && m.sub = sub)).map (fun m => m.data)).getD []

/-- FD and FS at a mean (R314). -/
def Hold.density (h : Hold) (i ch v : Nat) : Nat := entry16 (h.table 0x10 i ch) v
def Hold.slope (h : Hold) (i ch v : Nat) : Nat := entry16 (h.table 0x11 i ch) v

/-- Fields of a HOLD_INK block (R329). -/
def Hold.ink (h : Hold) (i : Nat) : List Byte := h.table 0x12 i 0
def inkCh (b : List Byte) : Nat := leAt b 0 1
def inkDom (b : List Byte) : Nat := leAt b 1 1
def inkLo (b : List Byte) : Nat := leAt b 2 2
def inkHi (b : List Byte) : Nat := leAt b 4 2
def inkConf (b : List Byte) (code : Nat) : Nat := leAt b (8 + code) 1
def inkMinW (b : List Byte) : Nat := leAt b 24 4

/-- Paper density of a cell and channel. -/
def Hold.paperAt (h : Hold) (j ch : Nat) : Nat := keyGet (h.paper0.getD ch 0) (1728 * ch + j) h.paper

/-- Cell gain of an ink and cell (R308). -/
def Hold.cell (h : Hold) (i j : Nat) : Nat := keyGet 0x4000 (1728 * i + j) h.cells

/-! ### Classes and witnesses (R315) -/

/-- A witness: ink, weight, slope, ΔD. -/
structure Witness where
  ink : Nat
  w : Nat
  slope : Nat
  dd : Int
  deriving DecidableEq, Repr, Inhabited

/-- What the forward model makes of a pixel. -/
structure Verdict where
  paper : Bool
  wits : List Witness
  deriving DecidableEq, Repr, Inhabited

/-- The class of the record (R294): 0 paper, 1 + the lowest ink it witnesses, 15 otherwise. -/
def Verdict.cls (v : Verdict) : Nat :=
  if v.paper then 0 else match v.wits.map (fun w => w.ink) with
    | [] => 15
    | i :: is => 1 + is.foldl min i

/-- The judgement of one pixel over a coverage block (means and spread codes), with its measured densities (R315, R316). -/
def State.judgePixel (s : State) (x : Nat) (block : List (Nat × Nat)) (dm : List Nat) : Verdict :=
  let h := s.hold
  let v := fun (i : Nat) => (block.getD i (0, 0)).1
  if block.all (fun e => e.1 ≤ s.f Fld.HOLD_PAPER_CFG_paper_max && e.2 ≠ 15) then ⟨true, []⟩
  else
    let predicted := fun (ch : Nat) =>
      min 65535 (h.paperAt (x / 64) ch + ((List.range 8).map (fun i => h.density i ch (v i))).sum)
    let en := s.f Fld.HOLD_CTRL_ink_en
    ⟨false, (List.range 8).filterMap (fun i =>
      let b := h.ink i
      let ch := inkCh b
      let w := inkConf b (block.getD i (0, 15)).2
      let sl := h.slope i ch (v i)
      let all := ((List.range 8).map (fun j => h.slope j ch (v j))).sum
      if bitOf en i && inkLo b ≤ v i && v i ≤ inkHi b && 0 < w && 0 < sl && inkDom b * all ≤ 256 * sl then
        some ⟨i, w, sl, (predicted ch : Int) - (dm.getD ch 0 : Nat)⟩
      else none)⟩

/-- The coverage block row of a line: of the copy of the store the image was taken from, or of the ring (R311, R313). The Bool
says that a row is missing where coverage is kept. -/
def State.coverageOf (s : State) (p : Span) (y line : Nat) : Option CovRow × Bool :=
  match p.copy with
  | none =>
    let r := s.hold.cov.find? (fun r => r.line = y / 8 * 8)
    (r, r.isNone)
  | some n =>
    match s.hold.covStore.find? (fun c => c.num = n) with
    | none => (none, false)
    | some c =>
      let r := c.rows.find? (fun r => r.line = (c.line0 + line) / 8 * 8)
      (r, r.isNone)

/-! ### Accumulation (R316, R317) -/

/-- The window of an image (R317). -/
def State.windowOf (s : State) (length : Nat) : Nat :=
  let w := s.f Fld.HOLD_WINDOW_window_lines
  if w = 0 || length < w then length else w

/-- Length of an image in the job's sequence. -/
def State.lengthOf (s : State) (image : Nat) : Nat :=
  ((s.lay.spans.find? (fun p => p.image = image)).map (fun p => p.length)).getD 0

/-- A witness joins the sums of its cell and ink. -/
def addWitness (j : Nat) (t : Witness) (l : List WitSum) : List WitSum :=
  let mine := fun (x : WitSum) => x.cell = j && x.ink = t.ink
  let x := (l.find? mine).getD ⟨j, t.ink, 0, 0, 0, 0⟩
  if 1048576 ≤ x.n then l
  else { x with a := x.a + (t.w * t.slope : Nat) * t.dd, b := x.b + (t.w * t.slope * t.slope : Nat), w := x.w + t.w, n := x.n + 1 }
    :: l.filter (fun x => !mine x)

/-- A paper density joins the sum of its cell and channel. -/
def addPaper (j ch d : Nat) (l : List PaperSum) : List PaperSum :=
  let mine := fun (x : PaperSum) => x.cell = j && x.ch = ch
  let x := (l.find? mine).getD ⟨j, ch, 0, 0⟩
  { x with sum := x.sum + d, n := x.n + 1 } :: l.filter (fun x => !mine x)

/-- The three densities of a paper pixel join the sums, but those too far above the paper (R316). -/
def State.addPapers (s : State) (j : Nat) (dm : List Nat) (l : List PaperSum) : List PaperSum :=
  (List.range 3).foldl (fun l ch =>
    let d := dm.getD ch 0
    if s.f Fld.HOLD_PAPER_CFG_gut_rej + s.hold.paperAt j ch < d then l else addPaper j ch d l) l

/-- Two sets of paper sums, joined. -/
def joinPapers (a b : List PaperSum) : List PaperSum :=
  a.foldl (fun l x =>
    let mine := fun (y : PaperSum) => y.cell = x.cell && y.ch = x.ch
    let y := (l.find? mine).getD ⟨x.cell, x.ch, 0, 0⟩
    { y with sum := y.sum + x.sum, n := y.n + x.n } :: l.filter (fun y => !mine y)) b

/-- A context measures for the loop (R317): it is set in HOLD_CTX, the loop runs, and the job has its coverage ring (R312). -/
def State.ctxMeasures (s : State) (p : Nat) : Bool := s.hold.covOk && s.fb Fld.HOLD_CTRL_hold_en && bitOf (s.f Fld.HOLD_CTX_value) p

/-- An estimate of an image is open, or opens with a line of its window. -/
def State.openEst (image : Nat) (s : State) : State :=
  let h := s.hold
  let passed := match h.closed with
    | some k => imgLe image k
    | none => false
  if passed || h.ests.any (fun e => e.image = image) then s
  else s.onHold (fun h => { h with ests := h.ests ++ [⟨image, false, [], h.papers⟩], papers := [] })

/-- The open estimate of an image, changed. -/
def State.onEst (image : Nat) (f : Est → Est) (s : State) : State :=
  s.onHold (fun h => { h with ests := h.ests.map (fun e => if e.image = image then f e else e) })

/-! ### The integrator (R319 to R323) -/

/-- K_mono (R322). -/
def kMono (d : Nat) : Nat := 4096 * d ^ d / (d + 1) ^ (d + 1)

/-- d_max of the last eight updates. -/
def Hold.dMax (h : Hold) : Nat := match h.delays with
  | [] => 15
  | d :: ds => ds.foldl max d

/-- K_eff (R322). -/
def State.kEff (s : State) : Nat :=
  let k := s.f Fld.HOLD_GAIN_loop_gain
  if s.fb Fld.HOLD_CTRL_guard then min k (kMono s.hold.dMax) else k

/-- Quotient truncated toward 0. -/
def truncDiv (a : Int) (b : Nat) : Int := if a < 0 then -((a.natAbs / b : Nat) : Int) else (a.natAbs / b : Nat)

/-- The estimate of a cell (R319). -/
def WitSum.estimate (x : WitSum) : Int := clampInt (-16384) 16384 (truncDiv (x.a * 32768) x.b.toNat)

/-- The step of a cell (R321). -/
def State.gainStep (s : State) (k : Nat) (e : Int) (c : Nat) : Int :=
  let db : Int := s.f Fld.HOLD_GAIN_deadband
  let e' := e - clampInt (-db) db e
  let delta := (((k * c : Nat) : Int) * e' + 2 ^ 26) / 2 ^ 27
  let leak := ((s.f Fld.HOLD_STEP_leak : Nat) * ((c : Int) - 16384) + 2 ^ 15) / 2 ^ 16
  let m : Int := s.f Fld.HOLD_STEP_max_step
  clampInt (-m) m (delta - leak)

/-- Sign of a number: −1, 0, 1. -/
def signOf (x : Int) : Int := if x < 0 then -1 else if 0 < x then 1 else 0

/-- A cell and ink at a limit (R323): once until it leaves the limit. -/
def State.judgeLimit (key c : Nat) (s : State) : State :=
  let at_ := c ≤ s.f Fld.HOLD_LIMITS_g_min || s.f Fld.HOLD_LIMITS_g_max ≤ c
  if at_ then
    if s.hold.limited.contains key then s
    else ((s.onHold (fun h => { h with limited := key :: h.limited })).fault 48).raiseEv 141
  else s.onHold (fun h => { h with limited := h.limited.filter (· ≠ key) })

/-- Oscillation of a cell and ink (R323). -/
def State.judgeOsc (key : Nat) (step : Int) (s : State) : State :=
  let lim := s.f Fld.HOLD_ALARM_osc_count
  let was := keyGet ((0 : Int), 0) key s.hold.osc
  let sg := signOf step
  let n := if sg ≠ 0 && was.1 ≠ 0 && sg ≠ was.1 then was.2 + 1 else 0
  let hit := lim ≠ 0 && lim ≤ n
  let s := s.onHold (fun h => { h with osc := keySet ((0 : Int), 0) key (sg, if hit then 0 else n) h.osc })
  if hit then (s.fault 49).raiseEv 142 else s

/-- One cell and ink is updated (R321). -/
def State.updateCell (k : Nat) (x : WitSum) (s : State) : State :=
  let key := 1728 * x.ink + x.cell
  let c := s.hold.cell x.ink x.cell
  let st := s.gainStep k x.estimate c
  let c' := (clampInt (s.f Fld.HOLD_LIMITS_g_min : Nat) (s.f Fld.HOLD_LIMITS_g_max : Nat) (c + st)).toNat
  let s := s.onHold (fun h => { h with
    cells := keySet 0x4000 key c' h.cells
    dirty := h.dirty || c' ≠ c
    changed := h.changed || c' ≠ c
    history := true })
  (s.judgeLimit key c').judgeOsc key st

/-- Paper densities follow their sums (R320). -/
def State.updatePapers (ps : List PaperSum) (s : State) : State :=
  ps.foldl (fun s x =>
    if x.n < 256 then s
    else
      let p := s.hold.paperAt x.cell x.ch
      let d := ((s.f Fld.HOLD_PAPER_CFG_gut_alpha : Nat) * (((x.sum / x.n : Nat) : Int) - p) + 128) / 256
      s.onHold (fun h => { h with
        paper := (1728 * x.ch + x.cell, ((p : Int) + d).toNat) :: h.paper.filter (fun y => y.1 ≠ 1728 * x.ch + x.cell) })) s

/-- The alarm of an ink (R323). -/
def State.judgeAlarm (xs : List WitSum) (s : State) (i : Nat) : State :=
  let n := xs.countP (fun x => x.ink = i && s.f Fld.HOLD_ALARM_err_alarm < x.estimate.natAbs)
  if xs.any (fun x => x.ink = i) && s.f Fld.HOLD_ALARM_alarm_cells ≤ n then (s.fault 52).raiseEv 143 else s

/-- What discards a closing estimate besides its own mark (R318): damaged lines of its window, and open records that are
already invalid and hold lines of it. -/
def State.estSpoiled (s : State) (e : Est) : Bool :=
  let w := s.windowOf (s.lengthOf e.image)
  s.lay.spans.any (fun p => p.image = e.image && p.hurt.any (fun t => t.1 < p.m0 + w && p.m0 ≤ t.2))
    || (s.see.ports.zipIdx).any (fun p => s.ctxMeasures p.2 && p.1.record.image = some e.image && p.1.record.lineFirst < w
          && (p.1.truncated || p.1.lineErr))

/-- An estimate closes (R317 to R323). -/
def State.closeEst (e : Est) (s : State) : State :=
  let s := s.onHold (fun h => { h with
    ests := h.ests.filter (fun x => x.image ≠ e.image), lastImage := e.image, closed := some e.image })
  let s := s.raiseEv 135
  if e.discard || s.estSpoiled e then (s.bump ⟨Reg.HOLD_DISCARD_CNT, 31, 0⟩ 1).raiseEv 136
  else
    let xs := e.sums.filter (fun x => 0 < x.b && inkMinW (s.hold.ink x.ink) ≤ x.w)
    let s := s.onHold (fun h => { h with
      lastE := xs.foldl (fun l x => keySet (0 : Int) (1728 * x.ink + x.cell) x.estimate l) h.lastE })
    let s := s.updatePapers e.papers
    let s := (List.range 8).foldl (State.judgeAlarm xs) s
    if s.fb Fld.HOLD_CTRL_hold_en && !s.fb Fld.HOLD_CTRL_freeze then
      let k := s.kEff
      let s := xs.foldl (fun s x => s.updateCell k x) s
      if xs.isEmpty then s else s.onHold (fun h => { h with updates := h.updates ++ [e.image] })
    else s

/-- A context has registered at or beyond the window of an image (R317). -/
def State.ctxBeyond (s : State) (p image : Nat) : Bool :=
  let w := s.windowOf (s.lengthOf image)
  s.hold.seenTo.any (fun r => r.port = p && ((r.image ≠ image && imgLe image r.image) || (r.image = image && w ≤ r.line)))

/-- Every counted context has passed the window of an image. -/
def State.estDone (s : State) (image : Nat) : Bool :=
  (s.see.ports.zipIdx).all (fun p => !(s.ctxMeasures p.2 && p.1.enabled && !p.1.silent) || s.ctxBeyond p.2 image)

/-- Open estimates close as far as they are done, oldest first (R317). -/
def State.closeEsts (s : State) : State :=
  s.hold.ests.foldl (fun s e =>
    match s.hold.ests.head? with
    | some x => if x.image = e.image && s.estDone x.image then s.closeEst x else s
    | none => s) s

/-- A line of an image lies no further than where a context has been. -/
def Reach.covers (r : Reach) (image line : Nat) : Bool :=
  if r.image = image then line ≤ r.line else imgLe image r.image

/-- A context has registered a line of an image (R317): the furthest that each has come is kept. -/
def State.noteReach (p image line : Nat) (s : State) : State :=
  s.onHold (fun h =>
    if h.seenTo.any (fun r => r.port = p && r.covers image line) then h
    else { h with seenTo := ⟨p, image, line⟩ :: h.seenTo.filter (fun r => r.port ≠ p) })

/-- Measurement tables bound to an image no later than k are used from now on (R331). -/
def State.takeMeasFor (k : Nat) (s : State) : State :=
  let due := s.hold.measWait.filter (fun w => w.1.due k && w.2.typ ≤ 0x12)
  if due.isEmpty then s
  else s.onHold (fun h => { (due.foldl (fun h w => takeMeas h w.2) h) with
    measWait := h.measWait.filter (fun w => !(w.1.due k && w.2.typ ≤ 0x12)) })

end Sys2Proof.Machine
end

