-- ==== Sys2Proof/Machine/CalOps.lean ====
section
/-! DEFINITION. Camera calibration: measurements, attempts, runs (R496 to R503). -/

set_option Elab.async false

namespace Sys2Proof.Machine

/-- cal_lines and gap_min_cal in their ranges (R508). -/
def State.calLines (s : State) : Nat := max 16 (s.f Fld.CAL_GAP_cal_lines)
def State.gapMinCal (s : State) : Nat := max (2 * s.calLines + 16) (s.f Fld.CAL_GAP_gap_min_cal)

/-- Patches of a TILE payload (R498): first column, last column, stated values. -/
def tilePatches (b : List Byte) : List (Nat × Nat × List Nat) :=
  (List.range (leAt b 8 1)).map (fun i =>
    (leAt b (16 + 16 * i) 2, leAt b (18 + 16 * i) 2, (List.range 3).map (fun r => leAt b (20 + 16 * i + 2 * r) 2)))

/-- The content of a TILE payload is in range (R498). -/
def tileOk (b : List Byte) : Bool :=
  3 ≤ leAt b 8 1 && leAt b 8 1 ≤ 16 && (tilePatches b).all (fun t => t.1 + 8 ≤ t.2.1)

/-- Step-7 values of columns a to b of a line, summed per channel, and their number. -/
def sumColumns (vals : List (List Nat)) (a b : Nat) : List Nat × Nat :=
  let vs := (vals.drop a).take (b + 1 - a)
  ((List.range 3).map (fun r => (vs.map (fun v => v.getD r 0)).sum), vs.length)

/-- Two lists added entry by entry. -/
def addLists : List Nat → List Nat → List Nat
  | a :: as, b :: bs => (a + b) :: addLists as bs
  | [], bs => bs
  | as, [] => as

/-- A line joins a measurement (R497, R499). -/
def State.measLine (p gen : Nat) (vals : List (List Nat)) (s : State) : State :=
  let st := sumColumns vals (s.f (Fld.CAL_PORT_STRIP_strip_c0 p)) (s.f (Fld.CAL_PORT_STRIP_strip_c1 p))
  let ps := (tilePatches ((s.record 0x23 p).getD [])).map (fun t => sumColumns vals t.1 t.2.1)
  s.onCalPort p (fun c =>
    let m := c.meas
    { c with meas :=
      { lines := m.lines + 1, gen := gen, strip := addLists m.strip st.1, stripN := m.stripN + st.2
        patch := if m.lines = 0 then ps.map (fun x => x.1) else (m.patch.zip ps).map (fun x => addLists x.1 x.2.1)
        patchN := addLists m.patchN (ps.map (fun x => x.2)) } })

/-- A quotient rounded to nearest, halves up; one by 0 has no stated value. -/
def calRound (a b : Nat) : Nat := if b = 0 then Config.calQuotient a else (2 * a + b) / (2 * b)

/-- The gains and references of a finished measurement (R499, R500). -/
def State.measResult (s : State) (p : Nat) : List Nat × List Nat :=
  let c := s.calPort p
  let m := c.meas
  let mean := fun (r : Nat) => m.strip.getD r 0 / max 1 m.stripN
  if c.tile then
    let ps := ((tilePatches ((s.record 0x23 p).getD [])).map (fun t => t.2.2)).zip
      ((m.patch.zip m.patchN).map (fun x => x.1.map (fun v => v / max 1 x.2)))
    let num := fun (r : Nat) => (ps.map (fun x => x.1.getD r 0 * x.2.getD r 0)).sum
    let den := fun (r : Nat) => (ps.map (fun x => x.2.getD r 0 * x.2.getD r 0)).sum
    ((List.range 3).map (fun r => calRound (c.kc.getD r 0 * num r) (den r)),
     (List.range 3).map (fun r => calRound (mean r * num r) (den r)))
  else ((List.range 3).map (fun r => calRound (c.kc.getD r 0 * c.t.getD r 0) (mean r)), c.t)

/-- Two results agree within cal_tol (R501). -/
def State.closeTo (s : State) (a b : List Nat) : Bool :=
  (a.zip b).all (fun x => (if x.1 < x.2 then x.2 - x.1 else x.1 - x.2) * 10000 ≤ s.f Fld.CAL_TOL_cal_tol * x.1)

/-- The CAM_PHOTO payload (R501). -/
def CalPort.photo (c : CalPort) (kc : List Nat) : List Byte :=
  kc.flatMap (leBytes 2) ++ c.t.flatMap (leBytes 2) ++ c.cert ++ leBytes 2 (toTwos 16 c.refTemp) ++ leBytes 1 c.kind
    ++ leBytes 1 0 ++ leBytes 8 c.tileTime ++ leBytes 8 c.runTime ++ List.replicate 24 0

/-- A run ends: its requests complete, its tokens return. -/
def State.endRun (p status : Nat) (s : State) : State :=
  let c := s.calPort p
  let s := c.descs.foldl (fun s o => s.completeAt o status c.attempts) s
  let s := s.onCalPort p (fun c => { c with
    run := .idle, tile := false, attempts := 0, descs := [], auto := false, meas := Meas.none, first := none, started := false })
  s.droverDrop (.cal p)

/-- An attempt is accepted (R501): gains are held and the record is written. -/
def State.acceptRun (p : Nat) (kc t : List Nat) (s : State) : State :=
  let temp := (s.see.ports.getD p CamPort.reset).temp
  let s := s.onCalPort p (fun c => { c with
    kcNext := some kc, t := t, refTemp := temp, tries := 0, attempts := c.attempts + 1, traced := true
    kind := if c.tile then 0 else 1
    cert := if c.tile then ((s.record 0x23 p).getD []).take 8 else c.cert
    tileTime := if c.tile then s.net.ext % 2 ^ 64 else c.tileTime
    runTime := s.net.ext % 2 ^ 64 })
  let s := s.writeRecord 0x24 p ((s.calPort p).photo kc) none
  s.endRun p 0

/-- An attempt is discarded (R501): after the fourth FS105. -/
def State.discardRun (p : Nat) (s : State) : State :=
  let temp := (s.see.ports.getD p CamPort.reset).temp
  let s := s.onCalPort p (fun c => { c with tries := c.tries + 1, attempts := c.attempts + 1 })
  if 4 ≤ (s.calPort p).attempts then
    ((s.fault 105).onCalPort p (fun c => { c with refTemp := temp })).endRun p 0x78
  else
    (s.onCalPort p (fun c => { c with run := .pending, meas := Meas.none, first := none })).droverDrop (.cal p)

/-- A measurement has its lines (R499 to R501). -/
def State.endMeas (p : Nat) (s : State) : State :=
  let c := s.calPort p
  let r := s.measResult p
  match c.first with
  | none => s.onCalPort p (fun c => { c with first := some r, meas := Meas.none })
  | some a =>
    let inRange := (a.1 ++ r.1).all (fun k => 0x3000 ≤ k && k ≤ 0x5000)
    if s.closeTo a.1 r.1 && (!c.tile || s.closeTo a.2 r.2) && inRange then
      let half := fun (x y : List Nat) => (x.zip y).map (fun z => (z.1 + z.2 + 1) / 2)
      s.acceptRun p (half a.1 r.1) (half a.2 r.2)
    else s.discardRun p

/-- A run that awaits its grant is settled at the end of the line that asked for it (R502). -/
def State.settleCal (p : Nat) (s : State) : State :=
  let c := s.calPort p
  if c.run ≠ .awaiting then s
  else if s.droverHas (.cal p) then
    let s := c.descs.foldl (fun s o => match s.descAt o with | some d => s.retire d | none => s) s
    s.onCalPort p (fun c => { c with run := .measuring, started := true })
  else (s.droverDrop (.cal p)).onCalPort p (fun c => { c with run := .pending, meas := Meas.none })

/-- The camera lines registered over the present gap are counted (R497). -/
def State.noteGap (p : Nat) (what : LineOver) (s : State) : State :=
  match what with
  | .gap q => s.onCalPort p (fun c =>
      { c with gapLines := if c.gapLines ≠ 0 && c.gapOf = q.image then c.gapLines + 1 else 1, gapOf := q.image })
  | _ => s.onCalPort p (fun c => { c with gapLines := 0 })

/-- A camera line qualifies by where it lies (R497). -/
def State.calPlace (s : State) (p : Nat) (what : LineOver) : Bool :=
  s.source.state = .still || s.fb Fld.CAL_CTRL_splice
    || (match what with
        | .gap q => s.gapMinCal ≤ q.gap && 8 ≤ (s.calPort p).gapLines
        | _ => false)

/-- A camera line of a port reaches its calibration (R497, R499, R502). -/
def State.calLine (p : Nat) (what : LineOver) (vals : List (List Nat)) (gen : Nat) (valid : Bool) (s : State) : State :=
  let s := s.settleCal p
  let s := s.noteGap p what
  let c := s.calPort p
  let still := s.source.state = .still
  if c.run = .idle then s
  else if c.tile && c.run = .measuring && !still then
    (s.onCalPort p (fun c => { c with run := .pending, meas := Meas.none, first := none })).droverDrop (.cal p)
  else if valid && (c.meas.lines = 0 || gen = c.meas.gen) && s.calPlace p what && (!c.tile || still) then
    if c.run = .pending then
      let s := (s.measLine p gen vals).onCalPort p (fun c => { c with run := .awaiting })
      s.droverAsk 3 (s.f (Fld.DROVER_CLASS_tokens 3)) (.cal p)
    else
      let s := s.measLine p gen vals
      if s.calLines ≤ (s.calPort p).meas.lines then s.endMeas p else s
  else if c.run = .measuring then s.onCalPort p (fun c => { c with meas := Meas.none })
  else s

/-- A strip run becomes pending by temperature (R502). -/
def State.calByTemp (p : Nat) (s : State) : State :=
  let c := s.calPort p
  let t := (s.see.ports.getD p CamPort.reset).temp
  if s.fb Fld.CAL_CTRL_cal_auto && s.fb (Fld.SEE_PORT_TEMPCFG_temp_en p) && c.run = .idle && c.traced
      && s.f Fld.CAL_DT_cal_dt < (t - c.refTemp).natAbs then
    s.onCalPort p (fun c => { c with run := .pending, auto := true })
  else s

end Sys2Proof.Machine
end

