-- ==== Sys2Proof/Machine/SeeRec.lean ====
section
/-! DEFINITION. Statistics records, marks, streaks, the statistics ring and camera upload (R293 to R299). -/

set_option Elab.async false

namespace Sys2Proof.Machine

/-- A camera port. -/
def State.camPort (s : State) (p : Nat) : CamPort := s.see.ports.getD p CamPort.reset

/-- Pipeline and context of a port (R279). -/
def pipeOf (p : Nat) : Nat := if p = 4 then 2 else if p = 5 then 3 else p

/-- A pipeline. -/
def State.pipe (s : State) (v : Nat) : Pipe := s.see.pipes.getD v ⟨0, []⟩

/-- The lowest pace of a pipeline in the last 1,024 µs; 0 without a busy microsecond in them (R282). -/
def Pipe.slowest (p : Pipe) (now : Nat) : Nat :=
  match p.samples.filter (fun q => q.2 ≤ now && now < q.2 + 1024000) with
  | [] => 0
  | q :: qs => qs.foldl (fun m x => min m x.1) q.1

/-! ### Accumulation (R294) -/

/-- A key of a list of counts counts one more. -/
def keyBump (k : Nat) : List (Nat × Nat) → List (Nat × Nat)
  | [] => [(k, 1)]
  | (x, n) :: l => if x = k then (x, n + 1) :: l else (x, n) :: keyBump k l

/-- A pixel joins the histogram: bins of the value over 16. -/
def Rec.histPixel (v : List Nat) (r : Rec) : Rec :=
  { r with hist := (List.range 3).foldl (fun h ch => keyBump (256 * ch + v.getD ch 0 / 16) h) r.hist }

/-- A pixel joins the sums of its cell and class, up to 1,048,576, and those of its column (R294, R296). -/
def Rec.cellPixel (b : List Byte) (j cls col : Nat) (v : List Nat) (r : Rec) : Rec :=
  if 8 < cls then r
  else
    let mine := fun (x : CellSum) => x.cell = j && x.cls = cls
    let x := (r.cells.find? mine).getD ⟨j, cls, 0, 0, 0, 0⟩
    let r :=
      if 1048576 ≤ x.count then r
      else { r with cells := { x with r := x.r + v.getD 0 0, g := x.g + v.getD 1 0, b := x.b + v.getD 2 0, count := x.count + 1 }
        :: r.cells.filter (fun x => !mine x) }
    if cls = 0 then r
    else
      let same := fun (x : ColSum) => x.ink = cls - 1 && x.col = col
      let c := (r.cols.find? same).getD ⟨cls - 1, col, 0, 0⟩
      { r with cols := { c with sum := c.sum + v.getD (blkStreakCh b (cls - 1)) 0, count := c.count + 1 }
        :: r.cols.filter (fun x => !same x) }

/-- A pixel of the mark detector (R295). -/
def Rec.markPixel (b : List Byte) (number col : Nat) (v : List Nat) (r : Rec) : Rec :=
  if blkFlag b 2 && blkMk b 0 ≤ col && col ≤ blkMk b 1 && v.getD 1 0 < blkMk b 2 then
    { r with dark := r.dark ++ [(number, col)] }
  else r

/-! ### Marks (R295) -/

/-- Connected sets of dark pixels, that of the earliest pixel first: pixels that share a side belong together. -/
def marksOf (dark : List (Nat × Nat)) : List (List (Nat × Nat)) :=
  dark.foldl (fun sets q =>
    let near := fun (c : List (Nat × Nat)) => c.any (fun x => (x.1 = q.1 && x.2 + 1 = q.2) || (x.1 + 1 = q.1 && x.2 = q.2))
    match sets.find? near with
    | none => sets ++ [[q]]
    | some first =>
      let joined := (sets.filter near).flatten ++ [q]
      sets.filterMap (fun c => if c = first then some joined else if near c then none else some c)) []

/-- The 16 bytes of a mark: centroid column × 16, its line, w and image line of that line. -/
def markBytes (r : Rec) (m : List (Nat × Nat)) : List Byte :=
  let n := max 1 m.length
  let col := (2 * 16 * (m.map (fun x => x.2)).sum + n) / (2 * n)
  let line := (2 * (m.map (fun x => x.1)).sum + n) / (2 * n)
  let at_ := (r.seen.find? (fun x => x.1 = line)).getD (line, 0, 0xFFFFFFFF)
  leBytes 4 col ++ leBytes 2 line ++ leBytes 2 0 ++ leBytes 4 (toTwos 32 at_.2.1) ++ leBytes 4 at_.2.2

/-- Lines that a set spans. -/
def spanLines (m : List (Nat × Nat)) : Nat := ((m.map (fun x => x.1)).eraseDups).length

/-- A set of dark pixels reaches the last line of a record, so that a record to follow may carry it on. -/
def Rec.markOpen (r : Rec) (m : List (Nat × Nat)) : Bool :=
  match r.seen.getLast? with
  | some x => m.any (fun q => q.1 = x.1)
  | none => false

/-- The marks of a record, the first 16 of a frame in all; one that the next record may carry on is entered there. -/
def Rec.marks (b : List Byte) (last : Bool) (r : Rec) : List (List (Nat × Nat)) :=
  ((marksOf r.dark).filter (fun m => (last || !r.markOpen m) && max 1 (blkMk b 3) ≤ spanLines m)).take (16 - r.marksBefore)

/-- The record of the same frame that follows at an image boundary (R293): it carries on the marks that are open. -/
def Rec.next (b : List Byte) (r : Rec) : Rec :=
  let open_ := ((marksOf r.dark).filter r.markOpen).flatten
  { Rec.empty with
    split := true, dark := r.dark.filter open_.contains, marksBefore := r.marksBefore + (r.marks b false).length
    seen := r.seen.filter (fun x => open_.any (fun q => q.1 ≤ x.1)) }

/-! ### Streaks (R296) -/

/-- Mean of channel ch in a cell and class: sum and count. -/
def Rec.cellMean (r : Rec) (j cls ch : Nat) : Nat × Nat :=
  match r.cells.find? (fun x => x.cell = j && x.cls = cls) with
  | some x => (if ch = 0 then x.r else if ch = 1 then x.g else x.b, x.count)
  | none => (0, 0)

/-- A column is light: its mean exceeds that of its cell by more than streak_thr. -/
def Rec.lightCol (b : List Byte) (r : Rec) (c : ColSum) : Bool :=
  let m := r.cellMean ((positionOf b c.col).toNat / 64) (c.ink + 1) (blkStreakCh b c.ink)
  blkStreakMin b ≤ c.count && 0 < c.count && 0 < m.2
    && m.1 * c.count + blkStreakThr b * c.count * m.2 < c.sum * m.2

/-- Rising columns as runs of adjacent ones. -/
def runsOf : List Nat → List (Nat × Nat)
  | [] => []
  | a :: as =>
    match runsOf as with
    | (b, c) :: rs => if a + 1 = b then (a, c) :: rs else (a, a) :: (b, c) :: rs
    | [] => [(a, a)]

/-- Candidates of a record: runs of up to 16 light columns of an ink. -/
def Rec.candidates (b : List Byte) (columns : Nat) (r : Rec) : List StreakSpan :=
  if !blkFlag b 3 then []
  else (List.range 8).flatMap (fun i =>
    let light := (r.cols.filter (fun c => c.ink = i && r.lightCol b c)).map (fun c => c.col)
    (((runsOf ((List.range columns).filter (fun c => light.contains c))).filter (fun x => x.2 < x.1 + 16)).map
      (fun x => ⟨i, x.1, x.2⟩)))

def StreakSpan.meets (a b : StreakSpan) : Bool := a.ink = b.ink && a.first ≤ b.last && b.first ≤ a.last

/-- Records in which a candidate has been seen, this one included, as far back as they follow one another. -/
def seenIn (c : StreakSpan) : List (List StreakSpan) → Nat
  | [] => 1
  | l :: ls => if l.any (fun x => x.meets c) then 1 + seenIn c ls else 1

/-- Reported streaks: ink, records seen, first and last position. -/
def CamPort.streaks (p : CamPort) (cs : List StreakSpan) : List (Nat × Nat × Nat × Nat) :=
  let b := p.blk
  (cs.filter (fun c => blkStreakFrames b ≤ seenIn c p.candidates)).map (fun c =>
    let x := (positionOf b c.first).toNat
    let y := (positionOf b c.last).toNat
    (c.ink, min 255 (seenIn c p.candidates), min x y, max x y))

/-! ### The record (R294, R297) -/

/-- The cells of a record as bytes: empty without stats_en. -/
def Rec.cellBytes (b : List Byte) (r : Rec) : List Byte :=
  if !blkFlag b 1 then List.replicate 248832 0
  else (List.range (1728 * 9)).flatMap (fun k =>
    match r.cells.find? (fun x => 9 * x.cell + x.cls = k) with
    | some x => leBytes 4 x.r ++ leBytes 4 x.g ++ leBytes 4 x.b ++ leBytes 4 x.count
    | none => List.replicate 16 0)

/-- The 252,480 bytes of a record. -/
def recBytes (port : Nat) (p : CamPort) (valid last : Bool) (streaks : List (Nat × Nat × Nat × Nat)) : List Byte :=
  let r := p.record
  let ms := r.marks p.blk last
  let st := streaks.take 32
  leBytes 1 port ++ leBytes 1 (b2n valid + 2 * b2n p.truncated + 4 * b2n r.split + 8 * b2n p.lineErr)
    ++ leBytes 2 p.gen ++ leBytes 4 p.fseq ++ leBytes 4 p.fsTime ++ leBytes 4 (r.image.getD 0xFFFFFFFF)
    ++ leBytes 4 (r.lineFirst % 2 ^ 24) ++ leBytes 4 (r.lineLast % 2 ^ 24) ++ leBytes 2 r.lines ++ leBytes 2 ms.length
    ++ leBytes 2 st.length ++ leBytes 2 0 ++ leBytes 4 r.dpc ++ List.replicate 28 0
    ++ r.cellBytes p.blk ++ (List.range 768).flatMap (fun k => leBytes 4 (keyGet 0 k r.hist))
    ++ ms.flatMap (markBytes r) ++ List.replicate (16 * (16 - ms.length)) 0
    ++ st.flatMap (fun x => leBytes 1 x.1 ++ leBytes 1 x.2.1 ++ leBytes 3 x.2.2.1 ++ leBytes 3 x.2.2.2)
    ++ List.replicate (8 * (32 - st.length)) 0

/-! ### Upload (R298, R299) -/

/-- Host writes of bytes at an offset of an area of pages. -/
def areaWrites (size off : Nat) (bs : List Byte) (pages : List Nat) : List Out :=
  (pages.zipIdx).filterMap (fun p =>
    let a := max off (p.2 * size)
    let e := min (off + bs.length) ((p.2 + 1) * size)
    if a < e then some (.hostWrite (p.1 + (a - p.2 * size)) ((bs.drop (a - off)).take (e - a))) else none)

/-- The 28 bytes of an item header before its check word. -/
def itemHeader (port seq : Nat) (x : UpItem) (length tap wrap : Nat) : List Byte :=
  leBytes 4 seq ++ leBytes 4 length ++ leBytes 1 port ++ leBytes 1 tap ++ leBytes 1 wrap ++ leBytes 1 0 ++ leBytes 4 x.fseq
    ++ leBytes 2 x.gen ++ leBytes 2 0 ++ leBytes 4 x.fsTime ++ leBytes 4 0

/-- An upload item is written to the port's area (R299): the header's check word last, then SEE_PORT_UPL and EV133. -/
def State.areaItem (port : Nat) (s : State) (x : UpItem) : State :=
  let p := s.camPort port
  let body := if x.wrap = 0 then x.data else deflateWhole (x.wrap - 1) x.level (s.ctxDict (8 + port)) x.data
  let size := pageBytes p.upSize
  let need := 32 + body.length
  let at0 := ceilDiv p.upOff 64 * 64
  let fits := at0 + need ≤ p.upLen
  if p.upLen < need then s
  else
    let put := fun (off : Nat) (bs : List Byte) (s : State) => { s with out := s.out ++ areaWrites size off bs p.upPages }
    let skip := itemHeader port p.upSeq x 0 0xFF 0
    let s := if fits || p.upLen < at0 + 32 then s else put (at0 + 28) (leBytes 4 (crc32c skip)) (put at0 skip s)
    let off := if fits then at0 else 0
    let h := itemHeader port p.upSeq x body.length x.tap x.wrap
    let s := put (off + 28) (leBytes 4 (crc32c h)) (put off h (put (off + 32) body s))
    (s.onPort port (fun p => { p with upSeq := (p.upSeq + 1) % 2 ^ 32, upOff := off + need })).raiseEv 133

/-- The stream of a port's upload opens (R298, R364, R378), where it is not open: context 8 + port. -/
def State.openUpload (port wrap level : Nat) (s : State) : State :=
  if (s.dctx (8 + port)).any (fun c => c.own) then s else s.openOwn (8 + port) (wrap - 1) level true 0

/-- An upload item is compressed through its port's context and written (R298, R368); it waits where that finds no slot (R365). -/
def State.putItem (port : Nat) (s : State) (x : UpItem) : State :=
  if x.wrap = 0 then s.areaItem port x
  else
    let s := s.openUpload port x.wrap x.level
    if (s.dctx (8 + port)).any (fun c => c.slot.isSome) then (s.areaItem port x).closeCtx (8 + port)
    else s.onPort port (fun p => { p with upWait := p.upWait ++ [x] })

/-- What a port was to upload of its frame is given up. -/
def State.dropUpload (port : Nat) (s : State) : State :=
  (s.closeCtx (8 + port)).onPort port (fun p => { p with upTake := p.upTake.map (fun _ => false), upData := [] })

/-- An upload item of the present frame is due (R298): one to be compressed waits until DFL is ON (R398). -/
def State.writeItem (port tap : Nat) (data : List Byte) (s : State) : State :=
  let p := s.camPort port
  let x : UpItem := ⟨tap, blkWrap p.blk, blkLevel p.blk, p.fseq, p.gen, p.fsTime, data⟩
  if x.wrap ≠ 0 && !s.isOn 9 then (s.wakeDomain 9).onPort port (fun p => { p with upWait := p.upWait ++ [x] })
  else (if x.wrap = 0 then s else s.wakeDomain 9).putItem port x

/-- DFL is ON: the items that wait for it are written (R398). -/
def State.flushItems (s : State) : State :=
  (List.range 6).foldl (fun s n =>
    let xs := (s.camPort n).upWait
    if xs.isEmpty then s else xs.foldl (State.putItem n) (s.onPort n (fun p => { p with upWait := [] }))) s

/-- The first line of the frame reaches the tap (R298): the frame is uploaded if the grant has come, else skipped. -/
def State.judgeUpload (port : Nat) (s : State) : State :=
  let p := s.camPort port
  if p.upTake.isSome then s
  else if !blkUplEn p.blk || p.upLen = 0 then s.onPort port (fun p => { p with upTake := some false })
  else if s.droverHas (.upload port) then s.onPort port (fun p => { p with upTake := some true, upData := [] })
  else
    let s := (s.droverDrop (.upload port)).onPort port (fun p => { p with upTake := some false })
    s.bump ⟨Reg.SEE_PORT_UPL_SKIP port, 31, 0⟩ 1

/-- Bytes at the tap join the frame's payload, and its stream opens with the first (R364). -/
def State.tapBytes (port tap : Nat) (bs : List Byte) (s : State) : State :=
  let p := s.camPort port
  if p.upTake = some true && blkTap p.blk = tap then
    let s := s.onPort port (fun p => { p with upData := p.upData ++ bs })
    if blkWrap p.blk = 0 then s
    else
      let s := s.wakeDomain 9
      if s.isOn 9 then (s.openUpload port (blkWrap p.blk) (blkLevel p.blk)).feedOwn (8 + port) (p.upData ++ bs) 0 else s
  else s

/-! ### Writing a record -/

/-- What a written record does (R295 to R297, R269): its events, its streaks for re-fire. -/
def State.presentRec (marks : Bool) (streaks : List (Nat × Nat × Nat × Nat)) (s : State) : State :=
  let s := s.raiseEv 128
  let s := if marks then s.raiseEv 132 else s
  let s := if streaks.isEmpty then s else s.raiseEv 131
  (streaks.take 32).foldl (fun s x => s.streakRefire x.1 x.2.2.1 x.2.2.2) s

/-- The record of a frame is closed and written to the statistics ring (R293, R294, R297). What C2 has released meanwhile is
free. A record with no room, or with no ring, is lost. `last` says that the frame ends with it. -/
def State.writeRec (port : Nat) (last : Bool) (s : State) : State :=
  let p := s.camPort port
  let r := p.record
  let valid := !p.truncated && !p.lineErr
  let cs := if valid then r.candidates p.blk p.columns else []
  let st := if valid then p.streaks cs else []
  let bytes := recBytes port p valid last st
  let x := if 8 ≤ p.stats.length then s.free else (0, s)
  let s := x.2
  let kept := p.stats.drop (x.1 % (p.stats.length + 1))
  let room := kept.length < 8 && (s.padOf (.stats port)).isSome
  let s := s.onPort port (fun p => { p with
    candidates := if valid then (cs :: p.candidates).take 254 else p.candidates
    stats := if room then kept ++ [bytes] else kept
    record := r.next p.blk })
  let s :=
    if room then
      let s := s.dramHolder .aux true (.stats port) (252480 * kept.length) (252480 * kept.length + 252480)
      let s := s.tallyEntry 0x30 port (leBytes 4 p.fseq ++ leBytes 4 p.gen ++ leBytes 4 (crc32c bytes))
      let s := if s.tally.camFull then s.tallyEntry 0x31 port bytes else s
      s.presentRec (!(r.marks p.blk last).isEmpty) st
    else (s.bumpSat (Fld.SEE_VP_STAT_lost (pipeOf port)) 1).fault 61
  let s := match r.image with
    | some k =>
      if (!valid || !room) && s.ctxMeasures port && r.lineFirst < s.windowOf (s.lengthOf k) then
        s.onEst k (fun e => { e with discard := true })
      else s
    | none => s
  if blkTap p.blk = 2 then
    let s := s.judgeUpload port
    if (s.camPort port).upTake = some true then s.writeItem port 2 bytes else s
  else s

end Sys2Proof.Machine
end

