-- ==== Sys2Proof/Machine/Dfl.lean ====
section
/-! DEFINITION. Commands of the compression engine's stream contexts: DFL_CONTEXT_OPEN, DFL_INPUT_ARRIVE, DFL_OUTPUT_BUFFER and
SAVE_AREA (R363 to R380). -/

set_option Elab.async false

namespace Sys2Proof.Machine

/-- The bytes that a deflate context can write so far: whole bytes of its bit stream. -/
def Ctx.deflated (c : Ctx) : List Byte :=
  let bits := deflateBits c.wrap c.level c.dict c.input (c.flushes.map (fun f => (f.at_, f.final)))
  packBits (bits.length / 8) bits

/-- The dictionary of a DICTID among those that a stream took when it opened (R378). -/
def Ctx.dictById (c : Ctx) (id : Nat) : Option (List Byte) :=
  let have_ := c.dicts.filter (fun p => p.2.id = id)
  let lowest := have_.foldl (fun m p => min m p.1) 16
  (have_.find? (fun p => p.1 = lowest)).map (fun p => p.2.data)

/-- What an inflate context has from its input so far: its bytes, its error of R376 (0 none), and whether its stream has
ended. -/
def Ctx.inflated (c : Ctx) : List Byte × Nat × Bool :=
  let r := inflate c.wrap [] c.dictById c.input
  let n := r.out.length
  let codes :=
    (if r.status = 2 then [r.code] else [])
      ++ (if r.status = 1 && !r.trailing.isEmpty then [9] else [])
      ++ (match c.expect with
        | some t => (if (r.status = 1 && n < t) || (r.status = 0 && c.ended) then [10] else []) ++ (if t < n then [11] else [])
        | none => [])
  ((match c.expect with | some t => r.out.take t | none => r.out), codes.foldl (fun m x => if m = 0 then x else min m x) 0,
    r.status = 1)

/-- The bytes, the error and the end of a context's stream so far. -/
def Ctx.result (c : Ctx) : List Byte × Nat × Bool :=
  if c.deflate then (c.deflated, 0, c.flushes.any (fun f => f.final)) else c.inflated

/-! ### Running -/

/-- An inflate context meets an error (R376): it stops and keeps no further state. A layer's error is recorded once per image, and the layer is
not ready from there on. -/
def State.failCtx (n code : Nat) (s : State) : State :=
  match (if n < 8 then s.lay.comp else none) with
  | some k =>
    if k.errSaid.contains n then (s.onCtx n (fun c => c.emptied .error)).droverDrop (.dfl n)
    else (s.onLay (fun l => { l with comp := some { k with errSaid := n :: k.errSaid } })).spoilCtx n code
  | none => s.spoilCtx n code

/-- The context needs a Drover grant of its own before it compresses (R371). -/
def State.needsTokens (s : State) (n : Nat) (c : Ctx) : Bool :=
  c.deflate && 4 ≤ c.level && !c.tokens && !(8 ≤ n && n ≤ 13 && s.droverHas (.upload (n - 8)))

/-- The slot whose dictionary a zlib stream names by FDICT and DICTID (R378). -/
def Ctx.fdictSlot (c : Ctx) : Option Nat :=
  if c.deflate || c.wrap ≠ 1 || c.input.length < 6 || !bitOf ((c.input.getD 1 0).toNat) 5 then none
  else
    let id := (c.input.drop 2).take 4 |>.foldl (fun v b => v * 256 + b.toNat) 0
    (c.dicts.filter (fun p => p.2.id = id)).foldl (fun m p => some (min (m.getD p.1) p.1)) none

/-- The rate at which a level deflates, MB/s (R369). -/
def ratedDeflate (level : Nat) : Nat := [2000, 2000, 1800, 1500, 1200, 1000, 800, 650, 500, 400].getD level 400

/-- A context works (R369, R372, R380): the pace is free, for deflating at least the rated one where supply and temperature are those of the
rating, for inflating at most 8 GB/s. -/
def State.dflPace (c : Ctx) (s : State) : State :=
  let (x, s) := s.free
  let low := if s.ratedSupply then ratedDeflate c.level else 0
  let keep := fun (ps : List (Nat × Nat)) => ps.filter (fun p => s.now - p.2 < 1024000)
  s.onDfl (fun d => if c.deflate then { d with outPaces := (low + x % (65536 - low), s.now) :: keep d.outPaces }
    else { d with inPaces := (x % 8001, s.now) :: keep d.inPaces })

/-- A context that holds its slot and its tokens works until its output buffer fills, its input runs out, its stream ends or an error
arises (R374 to R376); its tokens then return (R371). -/
def State.workCtx (n : Nat) (c : Ctx) (s : State) : State :=
  let s := s.dflPace c
  let r := c.result
  let more := (r.1.drop c.given).take c.room
  let given := c.given + more.length
  let room := c.room - more.length
  let all := given = r.1.length
  let s := if more = [] then s else s.emit (.dfl n more)
  if all && r.2.1 ≠ 0 then s.failCtx n r.2.1
  else if all && r.2.2 then s.closeCtx n
  else
    let s := s.onCtx n (fun c => { c with
      given := given, room := room, tokens := false, lastUse := s.now, fresh := false
      dictSlot := if c.deflate then c.dictSlot else c.fdictSlot
      state := if room = 0 then .waitOut else .waitIn })
    s.droverDrop (.dfl n)

/-- A context can go on: it has room, and input that it has not worked on, or output that it has not given (R371, R374, R375). -/
def Ctx.ready (c : Ctx) : Bool := 0 < c.room && (c.fresh || c.given < c.result.1.length)

/-- A context has input or room: it takes a slot if it has none, or waits for one; once it is ready it asks for tokens where it needs them, and
works. -/
def State.runCtx (n : Nat) (s : State) : State :=
  match s.dctx n with
  | none => s
  | some c =>
    let at_ := match c.slot with
      | some k => some (k, s)
      | none => s.findSlot n
    match at_ with
    | none => s.onCtx n (fun c => { c with wants := true })
    | some r =>
      let s := r.2.enterSlot n r.1
      match s.dctx n with
      | none => s
      | some c =>
        if !c.ready then s.onCtx n (fun c => { c with state := if c.room = 0 then .waitOut else .waitIn })
        else
          let s := s.onCtx n (fun c => { c with state := .working })
          if s.needsTokens n c then s.droverAsk 5 (s.f Fld.DFL_CTRL_dfl_tokens) (.dfl n) else s.workCtx n { c with state := .working }

/-- The context that has waited longest for a slot, of those for which one is free (R365). -/
def State.nextWaiting (s : State) : Option (Nat × Ctx) :=
  (s.dfl.ctxs.filter (fun c => c.2.wants && (c.2.slot.isSome || (s.freeSlot c.1).isSome))).foldl (fun m c =>
    match m with
    | some x => if c.2.lastUse < x.2.lastUse then some c else m
    | none => some c) none

/-- Contexts that wait take the slots that have come free, and go on (R365); with the slot of an upload, its item is written (R298). -/
def State.settleSlots : Nat → State → State
  | 0, s => s
  | k + 1, s =>
    match s.nextWaiting with
    | none => s
    | some c =>
      let s := s.onCtx c.1 (fun c => { c with wants := false })
      State.settleSlots k (
        if c.2.own then (s.takeSlot c.1).flushItems
        else if c.2.state = .closed && !c.2.fresh then s.takeSlot c.1
        else s.runCtx c.1)

/-- The Drover grants the tokens of a context (R371): of Tally's, its sealed chunks are stored. -/
def State.ctxGranted (n : Nat) (s : State) : State :=
  match s.dctx n with
  | some c =>
    let s := s.onCtx n (fun c => { c with tokens := true })
    if c.own then (if s.tally.late.isEmpty then s else s.storeLate)
    else (s.workCtx n { c with tokens := true }).settleSlots 16
  | none => s.droverDrop (.dfl n)

/-- The direction that a context's number allows (R364). -/
def ctxFits (n : Nat) (deflate : Bool) : Bool :=
  if n < 8 then !deflate else if n < 15 then deflate else if n = 15 then !deflate else true

/-- Format and length of the stream of a layer (R368): it is wrapped, and an image that shows it is being composed. -/
def State.layerStream (s : State) (n : Nat) : Option (Nat × Nat) :=
  match s.lay.inForce.getD n none with
  | some c => if c.wrap = 0 || !s.lay.comp.any (fun k => !k.fromStore) then none else some (c.wrap - 1, c.stride * c.srcH)
  | none => none

/-- The context that DFL_CONTEXT_OPEN opens: a layer's with the format and the length that its layer gives it (R368). -/
def State.ctxToOpen (s : State) (n wrap level : Nat) (deflate : Bool) (expect : Nat) : Option Ctx :=
  if n < 8 then (s.layerStream n).map (fun x => newCtx x.1 0 false x.2 s.now)
  else if 2 < wrap then none
  else some (newCtx wrap level deflate expect s.now)

/-- DFL_CONTEXT_OPEN (R364, R365, R368, R378): it takes a slot and its dictionary, or waits for one, or for DFL to be ON (R398); expect is the
length that the stream must have, 0 for none stated. -/
def execDflContextOpen (dt : Nat) (ctx : Fin 128) (wrap level : Nat) (deflate : Bool) (expect : Nat) (s : State) : Res :=
  if s.down then .next s else
  let s := s.elapse dt
  let n := ctx.val
  if !ctxFits n deflate || s.dctxOpen n then .next s
  else match s.ctxToOpen n wrap level deflate expect with
    | none => .next s
    | some c =>
      let s := (s.wakeDomain 9).putCtx n c
      .next (if s.isOn 9 then s.takeSlot n else s)

/-- A context has more to do: it goes on, or waits for DFL to be ON (R398). -/
def State.goOn (n : Nat) (s : State) : State :=
  let s := s.wakeDomain 9
  if s.isOn 9 then (s.runCtx n).settleSlots 16 else s.onCtx n (fun c => { c with wants := true })

/-- What DFL_INPUT_ARRIVE gives a context: bytes, and a flush or the end of what is to be fetched. -/
def Ctx.take (data : List Byte) (flush : Nat) (c : Ctx) : Ctx :=
  { c with
    input := c.input ++ data, fresh := true
    ended := c.ended || (!c.deflate && flush = 2)
    flushes := if c.deflate && (flush = 1 || flush = 2) then c.flushes ++ [⟨c.input.length + data.length, flush = 2⟩] else c.flushes }

/-- DFL_INPUT_ARRIVE (R370, R375, R376): flush 1 is SYNC, 2 FINAL; for an inflate context 2 says that no input remains to be
fetched. Bytes behind the end of an inflate stream are an error. The device's own streams are fed by their units. -/
def execDflInputArrive (dt : Nat) (ctx : Fin 128) (data : List Byte) (flush : Nat) (s : State) : Res :=
  if s.down then .next s else
  let s := s.elapse dt
  let n := ctx.val
  match s.dctx n with
  | none => .next s
  | some c =>
    if c.own || c.state = .error || c.flushes.any (fun f => f.final) then .next s
    else if c.done then .next (if data.isEmpty then s else s.failCtx n 9)
    else .next ((s.onCtx n (Ctx.take data flush)).goOn n)

/-- DFL_OUTPUT_BUFFER (R374, R375): the output goes on where it stopped. -/
def execDflOutputBuffer (dt : Nat) (ctx : Fin 128) (room : Nat) (s : State) : Res :=
  if s.down then .next s else
  let s := s.elapse dt
  let n := ctx.val
  match s.dctx n with
  | none => .next s
  | some c =>
    if c.own || c.done || c.state = .error then .next s
    else .next ((s.onCtx n (fun c => { c with room := room })).goOn n)

/-- SAVE_AREA (R366): the region asked for has not been granted within 100 ms: EV177, once. -/
def execSaveArea (dt : Nat) (s : State) : Res :=
  if s.down then .next s else
  let s := s.elapse dt
  match s.dfl.saveSince with
  | some t =>
    if s.dfl.save || s.dfl.saveSaid || s.now < t + 100000000 then .next s
    else .next ((s.onDfl (fun d => { d with saveSaid := true })).raiseEv 177)
  | none => .next s

/-- DFL is first powered after a reset: its save area is asked for (R366). -/
def State.askSaveArea (s : State) : State :=
  if s.dfl.save || s.dfl.saveSince.isSome then s
  else (s.padAsk 6 3 .dflSave).onDfl (fun d => { d with saveSince := some s.now })

end Sys2Proof.Machine
end

