-- ==== Sys2Proof/Machine/Crypto.lean ====
section
/-! DEFINITION. The algorithms of public standards that the security functions name: SHA-384 (R472, R474), ECDSA P-384 (R472),
AES-256-GCM (SP 800-38D, R478) and the AES key wrap (SP 800-38F, R472). -/

set_option Elab.async false

namespace Sys2Proof.Machine

/-- A big-endian number from bytes. -/
def beNat (bs : List Byte) : Nat := bs.foldl (fun n b => n * 256 + b.toNat) 0

/-- Bytes at, at + 1, …, at + len − 1. -/
def cut (bs : List Byte) (at_ len : Nat) : List Byte := (bs.drop at_).take len

/-! ### SHA-384: its constants are the first 64 bits of the fractional parts of roots of primes -/

/-- The first 80 prime numbers. -/
def smallPrimes : List Nat := (List.range 410).filter (fun p => 1 < p && (List.range 21).all (fun d => d < 2 || p ≤ d || p % d ≠ 0))

/-- The greatest number whose n-th power is at most x, from r up, its bits below bit k still open. -/
def rootFrom (n x : Nat) : Nat → Nat → Nat
  | 0, r => r
  | k + 1, r => rootFrom n x k (if (r + 2 ^ k) ^ n ≤ x then r + 2 ^ k else r)

/-- 64 bits of the fractional part of the n-th root of a prime. -/
def rootBits (n p : Nat) : Nat := rootFrom n (p * 2 ^ (64 * n)) 69 0 % 2 ^ 64

/-- What the exclusive or of some rotations of a 64-bit word to the right gives. -/
def turned (x : Nat) (by_ : List Nat) : Nat := by_.foldl (fun y n => y ^^^ (x / 2 ^ n + x * 2 ^ (64 - n) % 2 ^ 64)) 0

/-- The rounds of a block over what is left of the constants: the 16 words of the message in use, oldest first, and the last four values of each
of the two registers, newest first. -/
def shaRounds : List Nat → List Nat → List Nat → List Nat → List Nat
  | [], _, up, low => up ++ low
  | k :: ks, ws, up, low =>
    let w := fun i => ws.getD i 0
    let u := fun i => up.getD i 0
    let l := fun i => low.getD i 0
    let chosen := l 2 ^^^ (l 0 &&& (l 1 ^^^ l 2))
    let most := (u 0 &&& (u 1 ||| u 2)) ||| (u 1 &&& u 2)
    let t := k + w 0 + l 3 + chosen + turned (l 0) [14, 18, 41]
    let next := w 0 + w 9 + (turned (w 1) [1, 8] ^^^ (w 1 / 2 ^ 7)) + (turned (w 14) [19, 61] ^^^ (w 14 / 2 ^ 6))
    shaRounds ks (ws.drop 1 ++ [next % 2 ^ 64]) ((t + most + turned (u 0) [28, 34, 39]) % 2 ^ 64 :: up.take 3)
      ((t + u 3) % 2 ^ 64 :: low.take 3)

/-- What n blocks of 128 bytes make of a hash value. -/
def shaBlocks (ks : List Nat) : Nat → List Nat → List Byte → List Nat
  | 0, h, _ => h
  | n + 1, h, bs =>
    let v := shaRounds ks ((List.range 16).map (fun i => beNat (cut bs (8 * i) 8))) (h.take 4) (h.drop 4)
    shaBlocks ks n ((List.range 8).map (fun i => (h.getD i 0 + v.getD i 0) % 2 ^ 64)) (bs.drop 128)

/-- SHA-384 of a message. -/
def sha384 (m : List Byte) : List Byte :=
  let fill := (239 - m.length % 128) % 128
  let whole := m ++ [0x80#8] ++ List.replicate fill 0 ++ beBytes 16 (8 * m.length)
  let start := ((smallPrimes.drop 8).take 8).map (rootBits 2)
  ((shaBlocks (smallPrimes.map (rootBits 3)) (whole.length / 128) start whole).flatMap (beBytes 8)).take 48

/-! ### AES-256 -/

/-- The S-box, entry i in bits 8i + 7 to 8i, and its inverse. -/
def aesS : Nat := 0x16bb54b00f2d99416842e6bf0d89a18cdf2855cee9871e9b948ed9691198f8e19e1dc186b95735610ef6034866b53e708a8bbd4b1f74dde8c6b4a61c2e2578ba08ae7a65eaf4566ca94ed58d6d37c8e779e4959162acd3c25c2406490a3a32e0db0b5ede14b8ee4688902a22dc4f816073195d643d7ea7c41744975fec130ccdd2f3ff1021dab6bcf5389d928f40a351a89f3c507f02f94585334d43fbaaefd0cf584c4a39becb6a5bb1fc20ed00d153842fe329b3d63b52a05a6e1b1a2c830975b227ebe28012079a059618c323c7041531d871f1e5a534ccf73f362693fdb7c072a49cafa2d4adf04759fa7dc982ca76abd7fe2b670130c56f6bf27b777c63
def aesInvS : Nat := 0x7d0c2155631469e126d677ba7e042b17619953833cbbebc8b0f52aae4d3be0a0ef9cc9939f7ae52d0d4ab519a97f51605fec8027591012b131c7078833a8dd1ff45acd78fec0db9a2079d2c64b3e56fc1bbe18aa0e62b76f89c5291d711af1476edf751ce837f9e28535ade72274ac9673e6b4f0cecff297eadc674f4111913a6b8a130103bdafc1020f3fca8f1e2cd00645b3b80558e4f70ad3bc8c00abd890849d8da75746155edab9edfd5048706c92b6655dcc5ca4d41698688664f6f87225d18b6d49a25b76b224d92866a12e084ec3fa420b954cee3d23c2a632947b54cbe9dec444438e3487ff2f9b8239e37cfbd7f3819ea340bf38a53630d56a0952
def subByte (n : Nat) : Nat := aesS / 2 ^ (8 * n) % 256
def invSubByte (n : Nat) : Nat := aesInvS / 2 ^ (8 * n) % 256

/-- Multiplication by x, and of two bytes, in the field of AES. -/
def xtime (n : Nat) : Nat := if n < 128 then 2 * n else (2 * n - 256) ^^^ 0x1B
def aesMul : Nat → Nat → Nat → Nat
  | 0, _, _ => 0
  | k + 1, a, b => (if b % 2 = 1 then a else 0) ^^^ aesMul k (xtime a) (b / 2)

/-- Bytes of two lists, added in the field. -/
def xorList (a b : List Nat) : List Nat := (a.zip b).map (fun p => p.1 ^^^ p.2)

/-- The round keys: words of four bytes, newest first; i is the number of the next word. -/
def expandKey : Nat → Nat → Nat → List (List Nat) → List (List Nat)
  | 0, _, _, ws => ws
  | k + 1, i, rcon, ws =>
    let t := ws.getD 0 []
    let u :=
      if i % 8 = 0 then xorList ((t.drop 1 ++ t.take 1).map subByte) [rcon, 0, 0, 0]
      else if i % 8 = 4 then t.map subByte
      else t
    expandKey k (i + 1) (if i % 8 = 0 then xtime rcon else rcon) (xorList (ws.getD 7 []) u :: ws)

/-- The 15 round keys of a 256-bit key. -/
def roundKeys (key : List Byte) : List (List Nat) :=
  let bs := key.map (fun b => b.toNat)
  let w0 := (List.range 8).map (fun i => (bs.drop (4 * i)).take 4)
  let ws := (expandKey 52 8 1 w0.reverse).reverse
  (List.range 15).map (fun r => ((ws.drop (4 * r)).take 4).flatten)

/-- ShiftRows and its inverse, column by column. -/
def shiftRows (s : List Nat) : List Nat :=
  (List.range 16).map (fun i => s.getD ((i + 4 * (i % 4)) % 16) 0)
def invShiftRows (s : List Nat) : List Nat :=
  (List.range 16).map (fun i => s.getD ((i + 16 - 4 * (i % 4)) % 16) 0)

/-- A column matrix whose first row is given, rotated row by row. -/
def mixWith (row : List Nat) (s : List Nat) : List Nat :=
  (List.range 16).map (fun i =>
    (List.range 4).foldl (fun x j => x ^^^ aesMul 8 (s.getD (i / 4 * 4 + j) 0) (row.getD ((j + 4 - i % 4) % 4) 0)) 0)

/-- The cipher over the round keys after the first. -/
def aesRounds : List (List Nat) → List Nat → List Nat
  | [], s => s
  | [k], s => xorList (shiftRows (s.map subByte)) k
  | k :: ks, s => aesRounds ks (xorList (mixWith [2, 3, 1, 1] (shiftRows (s.map subByte))) k)

/-- The inverse cipher over the round keys after the last, newest first. -/
def aesInvRounds : List (List Nat) → List Nat → List Nat
  | [], s => s
  | [k], s => xorList ((invShiftRows s).map invSubByte) k
  | k :: ks, s => aesInvRounds ks (mixWith [14, 11, 13, 9] (xorList ((invShiftRows s).map invSubByte) k))

/-- A block enciphered, and deciphered. -/
def aesEnc (rk : List (List Nat)) (blk : List Nat) : List Nat :=
  match rk with
  | [] => blk
  | k :: ks => aesRounds ks (xorList blk k)
def aesDec (rk : List (List Nat)) (blk : List Nat) : List Nat :=
  match rk.reverse with
  | [] => blk
  | k :: ks => aesInvRounds ks (xorList blk k)

/-! ### AES-256-GCM -/

/-- A product in the field of GCM, bit 127 first. -/
def ghMul : Nat → Nat → Nat → Nat
  | 0, _, _ => 0
  | k + 1, x, v =>
    (if bitOf x k then v else 0) ^^^ ghMul k x (if v % 2 = 1 then v / 2 ^^^ 0xE1 * 2 ^ 120 else v / 2)

/-- GHASH over blocks of 16 bytes, the last filled with zeros. -/
def ghash (h : Nat) : Nat → Nat → List Byte → Nat
  | 0, y, _ => y
  | k + 1, y, bs =>
    let b := bs.take 16
    ghash h k (ghMul 128 (y ^^^ (beNat b * 256 ^ (16 - b.length))) h) (bs.drop 16)

/-- A block of 16 bytes as a number, enciphered. -/
def encNat (rk : List (List Nat)) (n : Nat) : Nat :=
  (aesEnc rk ((beBytes 16 n).map (fun b => b.toNat))).foldl (fun a b => a * 256 + b) 0

/-- The counter mode from a counter value. -/
def gctr (rk : List (List Nat)) (iv : Nat) : Nat → Nat → List Byte → List Byte
  | 0, _, _ => []
  | k + 1, c, bs =>
    let m := beBytes 16 (encNat rk (iv * 2 ^ 32 + c % 2 ^ 32))
    (((bs.take 16).zip m).map (fun p => p.1 ^^^ p.2)) ++ gctr rk iv k (c + 1) (bs.drop 16)

/-- Authenticated decryption: none where the tag does not agree. -/
def gcmOpen (key iv aad ct tag : List Byte) : Option (List Byte) :=
  let rk := roundKeys key
  let h := encNat rk 0
  let n := ceilDiv ct.length 16
  let y := ghash h (ceilDiv aad.length 16) 0 aad
  let y := ghash h n y ct
  let y := ghMul 128 (y ^^^ (8 * aad.length * 2 ^ 64 + 8 * ct.length)) h
  let t := y ^^^ encNat rk (beNat iv * 2 ^ 32 + 1)
  if beBytes 16 t = tag then some (gctr rk (beNat iv) n 2 ct) else none

/-! ### AES key wrap -/

def kwIv : List Byte := List.replicate 8 0xA6

/-- Steps t of the unwrapping, downwards, over n blocks of 8 bytes. -/
def kwUnwrapSteps (rk : List (List Nat)) (n : Nat) : Nat → List Byte × List (List Byte) → List Byte × List (List Byte)
  | 0, p => p
  | t + 1, p =>
    let i := t % n
    let a := beBytes 8 (beNat p.1 ^^^ (t + 1))
    let b := (aesDec rk ((a ++ p.2.getD i []).map (fun x => x.toNat))).map (BitVec.ofNat 8)
    kwUnwrapSteps rk n t (b.take 8, p.2.set i (b.drop 8))

/-- A wrapped key unwrapped: none where its integrity check fails. -/
def keyUnwrap (kek wrapped : List Byte) : Option (List Byte) :=
  let n := wrapped.length / 8 - 1
  if n = 0 then none
  else
    let r := kwUnwrapSteps (roundKeys kek) n (6 * n)
      (wrapped.take 8, (List.range n).map (fun i => cut wrapped (8 + 8 * i) 8))
    if r.1 = kwIv then some r.2.flatten else none

/-- Steps of the wrapping, upwards from t. -/
def kwWrapSteps (rk : List (List Nat)) (n : Nat) : Nat → Nat → List Byte × List (List Byte) → List Byte × List (List Byte)
  | 0, _, p => p
  | k + 1, t, p =>
    let i := t % n
    let b := (aesEnc rk ((p.1 ++ p.2.getD i []).map (fun x => x.toNat))).map (BitVec.ofNat 8)
    kwWrapSteps rk n k (t + 1) (beBytes 8 (beNat (b.take 8) ^^^ (t + 1)), p.2.set i (b.drop 8))

/-- A key wrapped. -/
def keyWrap (kek key : List Byte) : List Byte :=
  let n := key.length / 8
  let r := kwWrapSteps (roundKeys kek) n (6 * n) 0 (kwIv, (List.range n).map (fun i => cut key (8 * i) 8))
  r.1 ++ r.2.flatten

/-! ### ECDSA over P-384 -/

/-- The field, the order and the base point of P-384. -/
def p384P : Nat := 0xfffffffffffffffffffffffffffffffffffffffffffffffffffffffffffffffeffffffff0000000000000000ffffffff
def p384N : Nat := 0xffffffffffffffffffffffffffffffffffffffffffffffffc7634d81f4372ddf581a0db248b0a77aecec196accc52973
def p384B : Nat := 0xb3312fa7e23ee7e4988e056be3f82d19181d9c6efe8141120314088f5013875ac656398d8a2ed19d2a85c8edd3ec2aef
def p384Gx : Nat := 0xaa87ca22be8b05378eb1c71ef320ad746e1d3b628ba79b9859f741e082542a385502f25dbf55296c3a545e3872760ab7
def p384Gy : Nat := 0x3617de4a96262c6f5d9e98bf9292dc29f8f41dbd289a147ce9da3113b5f0b8c00a60b1ce1d7e819d7a431d7c90ea0e5f

/-- Powers modulo m. -/
def powMod (m : Nat) : Nat → Nat → Nat → Nat
  | 0, _, _ => 1
  | k + 1, a, e => (if e % 2 = 1 then a else 1) * powMod m k (a * a % m) (e / 2) % m

/-- Inverse modulo a prime of 384 bits. -/
def invMod (m a : Nat) : Nat := powMod m 384 (a % m) (m - 2)

/-- A point in Jacobian coordinates; Z = 0 is the point at infinity. -/
abbrev JPoint := Nat × Nat × Nat

def subP (a b : Nat) : Nat := (a + p384P - b % p384P) % p384P

/-- A point doubled. -/
def jDouble (q : JPoint) : JPoint :=
  let (x, y, z) := q
  if z = 0 || y = 0 then (1, 1, 0)
  else
    let zz := z * z % p384P
    let m := 3 * (subP x zz * (x + zz)) % p384P
    let yy := y * y % p384P
    let s := 4 * x * yy % p384P
    let x' := subP (m * m) (2 * s)
    (x', subP (m * subP s x') (8 * yy * yy), 2 * y * z % p384P)

/-- The sum of two points. -/
def jAdd (a b : JPoint) : JPoint :=
  let (x1, y1, z1) := a
  let (x2, y2, z2) := b
  if z1 = 0 then b
  else if z2 = 0 then a
  else
    let u1 := x1 * (z2 * z2 % p384P) % p384P
    let u2 := x2 * (z1 * z1 % p384P) % p384P
    let s1 := y1 * (z2 * z2 % p384P * z2 % p384P) % p384P
    let s2 := y2 * (z1 * z1 % p384P * z1 % p384P) % p384P
    if u1 = u2 then (if s1 = s2 then jDouble a else (1, 1, 0))
    else
      let h := subP u2 u1
      let r := subP s2 s1
      let hh := h * h % p384P
      let hhh := h * hh % p384P
      let v := u1 * hh % p384P
      let x3 := subP (subP (r * r) hhh) (2 * v)
      (x3, subP (r * subP v x3) (s1 * hhh), h * z1 % p384P * z2 % p384P)

/-- k times a point, from the highest of n bits down. -/
def jMul (q : JPoint) (k : Nat) : Nat → JPoint
  | 0 => (1, 1, 0)
  | n + 1 =>
    let r := jMul q (k / 2) n
    if k % 2 = 1 then jAdd (jDouble r) q else jDouble r

/-- The signature r, s over a hash holds for a public key, an uncompressed point of 97 bytes. -/
def ecdsaOk (pub sig hash : List Byte) : Bool :=
  let x := beNat (cut pub 1 48)
  let y := beNat (cut pub 49 48)
  let r := beNat (cut sig 0 48)
  let s := beNat (cut sig 48 48)
  if pub.length ≠ 97 || pub.getD 0 0 ≠ 4#8 || p384P ≤ x || p384P ≤ y
      || y * y % p384P ≠ (x * x % p384P * x + (p384P - 3) * x + p384B) % p384P
      || r = 0 || s = 0 || p384N ≤ r || p384N ≤ s then false
  else
    let w := invMod p384N s
    let (a, _, z) := jAdd (jMul (p384Gx, p384Gy, 1) (beNat hash * w % p384N) 384) (jMul (x, y, 1) (r * w % p384N) 384)
    if z = 0 then false
    else
      let zi := invMod p384P z
      a * (zi * zi % p384P) % p384P % p384N = r

end Sys2Proof.Machine
end

