-- ==== Sys2Proof/Machine/SecOps.lean ====
section
/-! DEFINITION. Security functions: the wipes at start (R469 to R471), keys and counters of the MRAM (R475, R476, R495), the check
of a firmware image (R474, R475), the checks of a token (R472, R473), the decisions of a mark package (R478, R479). -/

set_option Elab.async false

namespace Sys2Proof.Machine

/-! ### Life-cycle (R468 to R471) -/

/-- Code of a life-cycle state, and the state of a code (R468). -/
def Lc.code : Lc → Nat
  | .blank => 0 | .factory => 1 | .provisioned => 2 | .field => 3 | .rma => 4 | .scrap => 5
def lcOf (n : Nat) : Option Lc :=
  match n with
  | 0 => some .blank | 1 => some .factory | 2 => some .provisioned | 3 => some .field | 4 => some .rma | 5 => some .scrap
  | _ => none

/-- A record survives the transition to a state (R469). -/
def keptAt (target : Lc) (r : MRec) : Bool :=
  match target with
  | .blank => true
  | .factory => false
  | .provisioned => r.typ < 0x30
  | .field => true
  | .rma => r.typ = 0x01 || (0x10 ≤ r.typ && r.typ < 0x30)
  | .scrap => r.typ = 0x10

/-- What the ROM wipes at a start (R469 to R471): for a pending transition, and for the tamper bit. -/
def State.romWipes (s : State) : State :=
  let s :=
    match s.sec.pendingLc with
    | some t =>
      let s := s.onCal (fun c => { c with recs := c.recs.filter (keptAt t) })
      s.onSec (fun x => { x with lc := t, pendingLc := none })
    | none => s
  if s.sec.tamper then s.onCal (fun c => { c with recs := c.recs.filter (fun r => r.typ ≠ 0x03 && r.typ ≠ 0x04) }) else s

/-- A transition exists, and a signer has the authority for it (R469): signers 0 to 3 are Guonmund's, 4 the owner. -/
def lcAllowed (src target : Lc) (signer : Nat) : Bool :=
  let owner := signer = 4
  match src, target with
  | .blank, .factory => !owner
  | .factory, .provisioned => !owner
  | .provisioned, .field => owner
  | .field, .rma => owner
  | .scrap, .scrap => false
  | .blank, .scrap => true
  | .factory, .scrap => true
  | .rma, .scrap => true
  | _, .scrap => owner
  | _, _ => false

/-! ### Keys and counters (R475, R476, R495) -/

/-- The key hash record of a signer: hash and revocation; none where the slot is unusable (R495). -/
def State.keyHash (s : State) (signer : Nat) : Option (List Byte × Bool) :=
  let rec_ := if signer ≤ 3 then s.record 0x01 signer else if signer = 4 then s.record 0x02 0 else none
  rec_.map (fun b => (b.take 48, leAt b 48 4 ≠ 0))

/-- The anti-rollback counter of a component (R476): the higher valid value; 255 where no copy holds. -/
def State.svn (s : State) (core : Nat) : Nat :=
  let r := s.mrec 0x10 core
  let vs := [r.a, r.b].filterMap (fun x => if x.state = .valid then some (leNat x.payload) else none)
  if vs.isEmpty then 255 else vs.foldl max 0

/-- One KEY record is read at start (R491, R495): FS095 when it is BAD. -/
def State.readKeyRec (s : State) (k : Nat × Nat) : State :=
  let s := s.noteRead k.1 k.2
  if (s.mrec k.1 k.2).code = 2 then
    (s.onCal (fun c => { c with partBad := c.partBad.set 0 true })).fault 95
  else s

/-- KEY and BOOT records are read (R476, R495, R534): keys are unwrapped, counters are taken. -/
def State.readKeys (s : State) : State :=
  if s.sys.keysRead then s
  else
    let s := s.onSys (fun x => { x with keysRead := true })
    let keys := (List.range 4).map (fun i => (1, i)) ++ [(2, 0), (3, 0)] ++ (List.range 8).map (fun i => (4, i))
    let s := keys.foldl State.readKeyRec s
    let s := (List.range 4).foldl (fun s c => s.noteRead 0x10 c) s
    let s :=
      if (List.range 4).any (fun c => (s.mrec 0x10 c).inUse.isNone) then
        let bad := (List.range 4).any (fun c => (s.mrec 0x10 c).code = 2)
        (s.onCal (fun c => { c with partBad := if bad then c.partBad.set 1 true else c.partBad })).fault 89
      else s
    let kek := beBytes 32 Config.deviceKey
    let marks := (List.range 8).filterMap (fun i => ((s.record 0x04 i).bind (keyUnwrap kek)).map (fun k => (i, k)))
    let prov := (s.record 0x03 0).bind (keyUnwrap kek)
    s.onSec (fun x => { x with markKeys := marks, kprov := prov })

/-! ### Firmware (R474, R475) -/

/-- The header of a firmware image passes R474 for a component. -/
def fwHeaderOk (comp : Nat) (img : List Byte) : Bool :=
  let zero := fun (a n : Nat) => (cut img a n).all (· = 0)
  512 ≤ img.length && leAt img 0 4 = 0x51544657 && leAt img 4 1 = comp && zero 6 2 && leAt img 8 4 ≤ 255
    && img.length = 512 + leAt img 12 4 && zero 161 31 && zero 288 224

/-- The cause for which a firmware image is rejected (SEC_BOOT.cause), 0 for an image that is accepted (R475). -/
def State.fwCause (s : State) (comp : Nat) (img : List Byte) : Nat :=
  let signer := leAt img 5 1
  if !fwHeaderOk comp img then 1
  else if s.sec.lc = .scrap || 4 < signer || (s.sec.lc = .blank && s.sec.loading) then 2
  else match s.keyHash signer with
    | none => 4
    | some (h, revoked) =>
      if revoked then 3
      else if sha384 (cut img 64 97) ≠ h || sha384 (img.drop 512) ≠ cut img 16 48 then 4
      else if !ecdsaOk (cut img 64 97) (cut img 192 96) (sha384 (img.take 192)) then 5
      else if leAt img 8 4 < s.svn comp then 6
      else 0

/-- A firmware image is rejected (R475): FS088, EV249. -/
def State.fwReject (comp cause : Nat) (s : State) : State :=
  let s := s.onSec (fun x => { x with rejCause := cause, rejComp := comp })
  (s.fault 88).raiseEv 249

/-- A firmware image is accepted, from slot B or a host load, or from slot A or the factory UART. -/
def State.fwAccept (comp svn : Nat) (fromB : Bool) (s : State) : State :=
  s.onSec (fun x => { x with
    accepted := x.accepted.set comp true, slotB := x.slotB.set comp fromB, svnRun := x.svnRun.set comp svn })

/-- STRAP_BOOT as the life-cycle state has it taken (R530, R531): 0 MRAM, 1 host load, 2 factory UART. -/
def State.bootSource (s : State) : Nat :=
  if s.sec.lc = .blank then 2
  else
    let b := s.sys.straps.boot
    if b = 3 then 0 else if b = 2 && (s.sec.lc = .provisioned || s.sec.lc = .field) then 0 else b

/-! ### Tokens (R472, R473) -/

/-- Magic and reserved fields of a token hold (step 1 of R473). -/
def tokenForm (t : List Byte) : Bool :=
  let zero := fun (a n : Nat) => (cut t a n).all (· = 0)
  leAt t 0 4 = 0x51544B30 && zero 7 1 && zero 52 12 && zero 112 16 && zero 361 23

/-- Kind and target are permitted from the present state (step 6 of R473): R469, R471, R482, R519; the fields that a kind holds at 0
are 0. -/
def State.tokenAllowed (s : State) (t : List Byte) : Bool :=
  let kind := leAt t 4 1
  let target := leAt t 5 1
  let signer := leAt t 6 1
  let secs := leAt t 48 4
  let zero := fun (a n : Nat) => (cut t a n).all (· = 0)
  let timed := 1 ≤ secs && secs ≤ 86400
  let bare := zero 64 48 && zero 224 40
  match kind with
  | 1 =>
    secs = 0 && (match lcOf target with
      | none => false
      | some l => lcAllowed s.sec.lc l signer
          && (if s.sec.lc = .factory && l = .provisioned then
                (keyUnwrap (beBytes 32 Config.deviceKey) (cut t 224 40)).isSome
              else bare))
  | 2 => target = 0 && secs = 0 && bare && signer = 4
  | 3 =>
    timed && bare && 1 ≤ target && target ≤ 7 &&
      match s.sec.lc with
      | .factory => signer ≤ 3
      | .rma => signer ≤ 3
      | .provisioned => signer = 4 && target = 1
      | _ => false
  | 4 => target = 0 && timed && bare && signer = 4 && (s.sec.lc = .provisioned || s.sec.lc = .field)
  | _ => false

/-- The failing step of R473 of a token, 0 when all six hold. -/
def State.tokenStep (s : State) (t : List Byte) : Nat :=
  let signer := leAt t 6 1
  let pub := cut t 264 97
  if !tokenForm t then 1
  else if leAt t 8 8 ≠ Config.deviceId then 2
  else if cut t 16 32 ≠ s.sec.nonce then 3
  else match s.keyHash signer with
    | none => 4
    | some (h, revoked) =>
      if revoked || sha384 pub ≠ h then 4
      else if !ecdsaOk pub (cut t 128 96) (sha384 (t.take 128)) then 5
      else if !s.tokenAllowed t then 6
      else 0

/-! ### Mark packages (R478, R479) -/

/-- The magic, the reserved field and the ranges of a mark package header hold, and its lengths agree with its content. -/
def markHeaderOk (p : List Byte) : Bool :=
  let kind := leAt p 4 1
  let fmt := leAt p 6 1
  let ct := leAt p 44 4
  let zero := fun (a n : Nat) => (cut p a n).all (· = 0)
  80 ≤ p.length && leAt p 0 4 = 0x51544D4B && zero 48 16 && p.length = 80 + ct &&
  match kind with
  | 0 =>
    (1 ≤ fmt && fmt ≤ 12 && fmt ≠ 9 && fmt ≠ 10) && zero 7 1 && 1 ≤ leAt p 12 4 && leAt p 12 4 ≤ 65536
      && leAt p 16 4 < 2 ^ 17 && leAt p 20 4 < 2 ^ 24 && 1 ≤ leAt p 24 2 && leAt p 24 2 ≤ 8192
      && 1 ≤ leAt p 26 2 && leAt p 26 2 ≤ 8192 && (if fmt = 12 then leAt p 31 1 ≤ 7 else leAt p 31 1 = 0)
      && ct = rowStride fmt 0 (leAt p 24 2) * leAt p 26 2
  | 1 => zero 6 2 && zero 31 1 && (ct = 64 + 32768 + 1336336 + 4096 || ct = 64 + 32768 + 574992 + 4096)
  | 2 => zero 6 1 && zero 31 1 && leAt p 7 1 ≤ 7 && ct = 32
  | _ => false

/-- The key that a package names (R478): KPROV only for kind KEY. -/
def State.markKey (s : State) (p : List Byte) : Option (List Byte) :=
  let k := leAt p 5 1
  if k = 0xFF then (if leAt p 4 1 = 2 then s.sec.kprov else none)
  else (s.sec.markKeys.find? (fun x => x.1 = k)).map (fun x => x.2)

/-- MARK_PKG is permitted (R468, R479, R482). -/
def State.markPermitted (s : State) : Bool :=
  (s.sec.lc = .factory || s.sec.lc = .provisioned || s.sec.lc = .field) && s.sec.scope / 2 = 0

/-- The first decisions on a package (R479): a status, or its plaintext. -/
def State.markOpen (s : State) (p : List Byte) : Nat ⊕ List Byte :=
  if !s.markPermitted then .inl 0x15
  else if !markHeaderOk p then .inl 0x11
  else match s.markKey p with
    | none => .inl 0x74
    | some k =>
      let ct := leAt p 44 4
      match gcmOpen k (cut p 32 12) (p.take 64) (cut p 64 ct) (p.drop (64 + ct)) with
      | none => .inl 0x70
      | some plain => .inr plain

/-- Two runs of images share one. -/
def imagesMeet (a n b m : Nat) : Bool := diff32 b a < n || diff32 a b < m

/-- The readiness point of an image has passed (R93). -/
def State.readinessPast (s : State) (image : Nat) : Bool :=
  s.lay.judged.any (fun j => imgLe image j.image) || s.lay.comp.any (fun c => imgLe image c.image)

/-- The decisions on CONTENT after its tag (R479): a status, or the slot it takes. -/
def State.lypPlace (s : State) (p : List Byte) : Nat ⊕ Nat :=
  let image := leAt p 8 4
  let count := leAt p 12 4
  if s.sec.lyp.any (fun l => imagesMeet image count l.image l.count) then .inl 0x72
  else if s.readinessPast image then .inl 0x71
  else match (List.range 64).find? (fun n => s.sec.lyp.all (fun l => l.slot ≠ n)) with
    | none => .inl 0x73
    | some n => .inr n

/-- A raster is placed in its slot (R479): its pages come from quota 8. -/
def State.lypStore (l : LypSlot) (s : State) : State :=
  let r := runsTake (max 1 (ceilDiv l.data.length 2097152)) s.paddock.free
  let s := s.onSec (fun x => { x with lyp := x.lyp ++ [l] })
  let s := s.onPaddock (fun p => { p with
    free := r.2, regions := p.regions ++ [⟨p.nextId, 8, .lyp l.slot, r.1⟩], nextId := p.nextId + 1 })
  s.wroteHolder (.lyp l.slot)

end Sys2Proof.Machine
end

