-- ==== Sys2Proof/Machine/DomainOps.lean ====
section
/-! DEFINITION. Power domains: requests and refusals, coming ON, Shelf, and what a device reset keeps (R395 to R401, R532). -/

set_option Elab.async false

namespace Sys2Proof.Machine

/-- The work that has waited for a domain which does not come ON fails (R399): requests of DRAM are not served, and upload items are given
up. What the domain itself holds goes with its contents. -/
def State.failWaiting (d : Nat) (s : State) : State :=
  match d with
  | 4 => s.onMemc (fun m => { m with runs := [], srWake := none, channels := m.channels.map (fun c => { c with queue := [] }) })
  | 9 => (List.range 6).foldl (fun s n => s.onPort n (fun p => { p with upWait := [] })) s
  | _ => s

/-- Some bar has HV_EN asserted. -/
def State.anyHv (s : State) : Bool := s.jet.bars.any (fun b => b.hv)

/-- A request is refused: SYS_PD_REFUSE and EV205 (R397, R400). -/
def State.refuseDomain (cause d : Nat) (s : State) : State :=
  (s.onPower (fun p => { p with refuseCause := cause, refuseDomain := d })).raiseEv 205

/-- Printing needs the domain (R16): PIX but while a repeat is re-read. -/
def State.printNeeds (s : State) (d : Nat) : Bool :=
  d ≤ 4 || d = 6 || (d = 5 && !s.lay.rereads)

/-- The cause for which a domain may not leave ON now (R16, R396), 0 for none. -/
def State.pdForbidden (s : State) (d : Nat) : Nat :=
  if d < 4 then 1
  else if s.anyHv && s.printNeeds d then 2
  else if d = 4 && !s.memc.inSr then 3
  else if d = 6 && (List.range 8).any s.armed then 6
  else if d = 9 && s.tally.state = .recording then 6
  else 0

/-- A domain has work in flight (R397), as far as the state shows it. -/
def State.pdBusy (s : State) (d : Nat) : Bool :=
  match d with
  | 4 => !s.memc.runs.isEmpty || s.memc.channels.any (fun c => !c.queue.isEmpty) || s.memc.srWake.isSome
  | 5 => (s.lay.comp.any (fun c => c.band.isSome)) || s.hold.graze = .running
  | 6 => s.link.lanes.any (fun l => l.awaiting || (l.tstate ≠ .off && l.tstate ≠ .active && l.tstate ≠ .failed))
      || !s.link.reqs.isEmpty
  | 7 => s.see.ports.any (fun p => p.inFrame)
  | 8 => s.net.ceilWait.isSome
  | 9 => s.dfl.ctxs.any (fun c => c.2.state = .working) || s.replaying
  | _ => false

/-- JET has power again: the ACTIVE lanes of a bar send what they sent before, as its downstream is awake or waking (R245, R395). -/
def State.relight (b : Nat) (s : State) : State :=
  (s.activeLanes b).foldl (fun s n =>
    let l := s.lane n
    match (s.linkBar b).ds with
    | .awake => s.putLane n (.service l.rate l.preTx)
    | .waking => s.putLane n (.prbs l.rate)
    | .asleep => s) s

/-- A domain is ON: EV206; a core that comes from OFF starts from its reset vector, bars take up line counting anew, and the
compression engine asks for its save area when it is first powered and takes up the upload items that wait for it (R366, R398, R399). -/
def State.domainIsOn (d : Nat) (s : State) : State :=
  let lost := (s.domain d).lost
  let s := s.onDomain d (fun x => { x with state := .on, waiting := false, lost := false })
  let s := s.raiseEv 206
  match d with
  | 6 => (List.range 8).foldl (fun s b => (s.relight b).rebaseTick b) s
  | 7 =>
    if lost && s.sys.cores then s.onMbx (fun m => { m with cores := m.cores.modify 2 (fun c => { c with run := true }) }) else s
  | 8 =>
    if lost && s.sys.cores then s.onMbx (fun m => { m with cores := m.cores.modify 3 (fun c => { c with run := true }) }) else s
  | 9 => s.askSaveArea.flushItems.settleSlots 128
  | _ => s

/-! ### Device reset and Shelf -/

/-- A wheel after reset, at the levels its inputs have. -/
def Wheel.keepRaw (w : Wheel) : Wheel :=
  { Wheel.reset with a := { Wheel.reset.a with raw := w.a.raw }, b := { Wheel.reset.b with raw := w.b.raw } }

/-- The device after a reset: the life-cycle latch, the tamper bit, the records, SYS_SHELF_STAT and the levels at the inputs are
kept (R401, R532). -/
def State.reboot (straps : Straps) (cause : Nat) (s : State) : State :=
  let s := s.cutWrite
  let s := (List.range 8).foldl (fun s b => s.endPulse b) s
  let s := if s.lay.rejectEnd.isSome then s.emit (.rejectEnd (!s.rejectHigh)) else s
  let r := State.afterReset straps cause s.sec.lc s.sec.pendingLc s.sec.tamper s.cal.recs
  { r with
    power := { r.power with shelfEntry := s.power.shelfEntry }
    bell := { r.bell with wheels := s.bell.wheels.map Wheel.keepRaw }
    freeCount := s.freeCount, out := s.out, pending := s.pending }

/-- A device reset with its cause (R532, R533): Crook's safe state, for which HOLD goes out (R434); the straps stay as they are, and the
start performs the wipes that are due. -/
def State.deviceReset (cause : Nat) (s : State) : State :=
  let s := if s.crook.state = .clear then ((List.range 8).foldl (fun s b => s.sendHold b 1) s).flushHolds else s
  (s.reboot s.sys.straps cause).romWipes

/-- The device is in Shelf (R400): only the VSTBY island is powered. -/
def State.enterShelf (entry : Nat) (s : State) : State :=
  let r := s.reboot s.sys.straps 0
  { r with
    sys := { r.sys with porst := true }
    power := { r.power with inShelf := true, pwrOn := false, shelfEntry := entry } }

/-- A Shelf entry that waits proceeds once no record write is pending (R400). -/
def State.settleShelf (s : State) : State :=
  if s.power.shelfWait && s.cal.writes.isEmpty then s.enterShelf 1 else s

end Sys2Proof.Machine
end

