-- ==== Sys2Proof/Machine/Memory.lean ====
section
/-! DEFINITION. Commands of the DRAM controllers and of Paddock (R335 to R362, R536). -/

set_option Elab.async false

namespace Sys2Proof.Machine

/-! ### Refresh (R340 to R344) -/

/-- tREFI of a channel, ns (R340). -/
def Channel.trefi (c : Channel) : Nat := if c.hot then 3900 else 7800

/-- Temperature of the board node (R341, R404). -/
def State.boardTemp (s : State) : Int := s.therm.nodes.getD 15 0

/-- REF_DUE (R340, R342): the REF is postponed only if all four conditions hold. What is owed is issued with the REF that is not postponed, unless
a SCAN read at deadline is queued. -/
def execRefDue (dt : Nat) (channel : Fin 8) (s : State) : Res :=
  if s.down then .next s else
  let s := s.elapse dt
  let n := channel.val
  let c := s.channel n
  if !s.chActive n || s.now < c.refAt then .next s
  else
    let urgent := s.deadlineQueued n
    let may := c.owed < 4 && s.fb Fld.MEMC_CTRL_postpone_en && c.noPostUntil ≤ s.now && urgent
    let s := s.onChannel n (fun c => { c with refAt := c.refAt + c.trefi })
    if may then
      .next ((s.onChannel n (fun c => { c with owed := c.owed + 1, single := false })).bumpSat (Fld.MEMC_REF_postponed n) 1)
    else
      let paid := if urgent then 0 else c.owed
      .next ((s.onChannel n (fun c => { c with owed := c.owed - paid, single := paid = 0 })).refresh n (1 + paid) s.now)

/-- The refresh interval of a channel changes (R343): EV163. -/
def State.setHot (n : Nat) (hot : Bool) (s : State) : State :=
  let c := s.channel n
  if c.hot = hot then s
  else if !hot then (s.onChannel n (fun c => { c with hot := false })).raiseEv 163
  else if c.owed = 0 then (s.onChannel n (fun c => { c with hot := true, refAt := s.now + 3900 })).raiseEv 163
  else
    let s := s.onChannel n (fun c => { c with
      hot := true, owed := 0, single := false, noPostUntil := s.now + 31200, refAt := s.now + 2 * c.owed * s.trfc + 3900 })
    let s := s.bump (Fld.MEMC_REF_bursts n) 1
    (s.refresh n (2 * c.owed) s.now).raiseEv 163

/-- The channel's temperature comes from MPR readout (R341). -/
def State.usesMpr (s : State) (n : Nat) : Bool := s.fb Fld.MEMC_CTRL_temp_src && !(s.channel n).mprFailed

/-- The refresh interval of a channel is judged by its DRAM temperature (R340, R341). -/
def State.judgeHot (n : Nat) (s : State) : State :=
  if !s.chActive n then s
  else if s.usesMpr n then s.setHot n ((s.channel n).mpr = 2)
  else if 85 * 64 < s.boardTemp then s.setHot n true
  else if s.boardTemp ≤ 82 * 64 then s.setHot n false
  else s

/-- A DRAM temperature above 95 °C raises FS037, once per crossing (R341). -/
def State.judgeDramHot (s : State) : State :=
  let above := 95 * 64 < s.boardTemp && (List.range 8).any (fun n => s.chActive n && !s.usesMpr n)
  let was := s.memc.over95
  let s := s.onMemc (fun m => { m with over95 := above })
  if above && !was then s.fault 37 else s

/-- The DRAM temperature is judged anew on every channel after a sample of the thermal model. -/
def State.judgeDram (s : State) : State := ((List.range 8).foldl (fun s n => s.judgeHot n) s).judgeDramHot

/-- A command of R344 directly follows a single REF that was issued when due: the channel is still stalled by it, and has issued nothing else
since. -/
def State.afterRef (s : State) (n : Nat) : Bool := s.chActive n && (s.channel n).single && s.now ≤ (s.channel n).stallTo

/-- A command of R344 is issued: it adds to the stall of its REF, 100 ns at most, as the two together add 200 at most. -/
def State.joinRef (n : Nat) (cmd : DramCmd) (name : String) (s : State) : State :=
  let (v, s) := s.free
  (s.onChannel n (fun c => (c.stall s.now (v % 101)).issue [cmd])).emit (.dram n name 1)

/-- MPR_TEMP_READ (R341, R344): at most once a millisecond, and only after a single REF that was issued when due. -/
def execMprTempRead (dt : Nat) (channel : Fin 8) (range : Nat) (ok : Bool) (s : State) : Res :=
  if s.down then .next s else
  let s := s.elapse dt
  let n := channel.val
  let c := s.channel n
  if !s.afterRef n || !s.fb Fld.MEMC_CTRL_temp_src || (c.mprAt ≠ 0 && s.now < c.mprAt + 1000000) then .next s
  else
    let s := s.onChannel n (fun c => { c with mprAt := s.now, mprFailed := !ok, mpr := if ok then min 2 range else c.mpr })
    let s := s.joinRef n .mprRead "MPR2"
    let s := if ok then s else s.fault 34
    .next (s.judgeHot n).judgeDramHot

/-- ZQ_CAL (R344): every 128 ms, only after a single REF that was issued when due. -/
def execZqCal (dt : Nat) (channel : Fin 8) (s : State) : Res :=
  if s.down then .next s else
  let s := s.elapse dt
  let n := channel.val
  let c := s.channel n
  if !s.afterRef n || s.now < c.zqAt + 128000000 then .next s
  else .next ((s.onChannel n (fun c => { c with zqAt := s.now })).joinRef n .zqcs "ZQCS")

/-! ### Errors (R345 to R348) -/

/-- The write-back queue of channel `n` holds 16 corrected words; a corrected word is queued, announced and written by class MAINT (R346). A full queue
drops it. -/
def State.queueFix (n addr : Nat) (s : State) : State :=
  if 16 ≤ (s.channel n).fixes.length then s
  else ((s.onChannel n (fun c => { c with fixes := c.fixes ++ [addr / 64 * 64] })).emit (.dram n "WRITEBACK" addr)).dramAsk
    .maint true none addr (addr + 8)

/-- A correctable error (R346): counted, recorded, its corrected word written back while the write-back queue has room. -/
def State.correctable (n addr : Nat) (s : State) : State :=
  let s := s.bump (Fld.MEMC_CE_CNT_value n) 1
  let s := s.onChannel n (fun c => { c with
    errAddr := addr, errUe := false, ceAt := s.now :: c.ceAt.filter (fun t => s.now < t + 1000000000) })
  let s := s.queueFix n addr
  let lim := s.f Fld.MEMC_CE_LIMIT_value
  let above := lim ≠ 0 && lim < (s.channel n).ceAt.length
  let said := (s.channel n).ceSaid
  let s := s.onChannel n (fun c => { c with ceSaid := above })
  if above && !said then (s.fault 24).raiseEv 160 else s

/-- Codes lo to hi − 1 of a line become 0. -/
def zeroCodes (lo hi : Nat) (xs : List Nat) : List Nat := xs.mapIdx (fun i x => if lo ≤ i && i < hi then 0 else x)

/-- The codes of 64 bytes of a line, both strikes, from byte at_ of the line on (R181): strike 0 stands first, codes from bit 0
on. -/
def spoilLine (p codeBits at_ : Nat) (c : List Nat × List Nat) : List Nat × List Nat :=
  let lo := 8 * at_ / codeBits
  let hi := ceilDiv (8 * at_ + 512) codeBits
  (zeroCodes lo hi c.1, zeroCodes (lo - p) (hi - p) c.2)

/-- The codes of the 64 bytes at an offset of a delay ring are sent as 0 (R347). -/
def DelayRing.spoil (p : Nat) (ms : Bool) (o : Nat) (r : DelayRing) : DelayRing :=
  let stride := ringStride p r.codeBits ms
  let slot := if stride = 0 then 0 else o / stride
  let at_ := if stride = 0 then 0 else o % stride / 64 * 64
  { r with bands := r.bands.map (fun q =>
    let ls := (q.code0.zip q.code1).mapIdx (fun i c =>
      if (q.line + i) % r.lines = slot then spoilLine p r.codeBits at_ c else c)
    { q with code0 := ls.map (fun c => c.1), code1 := ls.map (fun c => c.2) }) }

/-- A ring of a bar reads poisoned data. -/
def State.spoilRing (b id o : Nat) (s : State) : State :=
  let p := (s.lay.job.map (fun j => j.width)).getD 0
  let f := fun (r : DelayRing) => if r.region = id then r.spoil p (s.bar b).msCapable o else r
  s.onBar b (fun x => { x with ring := x.ring.map f, oldRings := x.oldRings.map f })

/-- The codes of 64 bytes at an offset of a repeat store are 0 (R347): line after line, all bars in use of a line together, strike 1 with strike
0 (DESIGN CHOICE 76). -/
def Store.spoil (used : List Nat) (width codeBits o : Nat) (x : Store) : Store :=
  let lineBits := used.length * width * codeBits
  let zero := fun (b : Nat) (ls : List (List Nat)) => ls.mapIdx (fun i c =>
    let start := i * lineBits + used.idxOf b * width * codeBits
    if used.contains b then zeroCodes ((8 * o - start) / codeBits) (ceilDiv (8 * o + 512 - start) codeBits) c else c)
  { x with code0 := x.code0.mapIdx zero, code1 := x.code1.mapIdx zero }

/-- 64 bytes of the repeat store, or of Graze's copy of it, read as code 0. -/
def State.spoilStore (copy : Bool) (o : Nat) (s : State) : State :=
  match s.lay.job with
  | some j =>
    let f := Option.map (Store.spoil s.barsUsed j.width j.codeBits (o / 64 * 64))
    if copy then s.onHold (fun h => { h with grazeStore := f h.grazeStore }) else s.onLay (fun l => { l with store := f l.store })
  | none => s

/-- Four blocks of the coverage ring give class 15 (R311, R312, R347): block rows follow each other, 16 bytes a block. -/
def State.spoilCoverage (o : Nat) (s : State) : State :=
  let blocks := ceilDiv ((s.lay.job.map (fun j => j.width)).getD 0) 16
  let rows := s.hold.covLines / 8
  let u := o % (16 * max 1 blocks) / 64 * 4
  let row := o / (16 * max 1 blocks)
  s.onHold (fun h => { h with cov := h.cov.map (fun r =>
    if r.line / 8 % max 1 rows = row then
      { r with blocks := r.blocks.mapIdx (fun i q => if u ≤ i && i < u + 4 then q.map (fun e => (e.1, 15)) else q) }
    else r) })

/-- Four blocks of stored coverage give class 15: block rows follow each other as they were stored (DESIGN CHOICE 76). -/
def spoilRows (o : Nat) (rows : List CovRow) : List CovRow :=
  rows.mapIdx (fun k r =>
    let u := o % (16 * max 1 r.blocks.length) / 64 * 4
    if o / (16 * max 1 r.blocks.length) = k then
      { r with blocks := r.blocks.mapIdx (fun i q => if u ≤ i && i < u + 4 then q.map (fun e => (e.1, 15)) else q) }
    else r)

/-- Stored coverage, or Graze's copy of it, is poisoned at an offset (R313, R347). -/
def State.spoilCovStore (copy : Bool) (o : Nat) (s : State) : State :=
  s.onHold (fun h =>
    if copy then { h with grazeCov := spoilRows o h.grazeCov }
    else { h with covStore := h.covStore.mapIdx (fun i x => if i = 0 then { x with rows := spoilRows o x.rows } else x) })

/-- A statistics record that a poisoned read reaches has valid 0 (R294, R347): which of those in the ring is free. -/
def State.spoilStats (ctx : Nat) (s : State) : State :=
  let a := s.free
  a.2.onPort ctx (fun p => { p with stats := p.stats.mapIdx (fun i b =>
    if i = a.1 % max 1 p.stats.length then b.modify 1 (fun x => x &&& 0xFE#8) else b) })

/-- The chunk of the journal that holds a byte of its region is poisoned (R347, R529): chunks follow each other, from the end of the region on at
its start. -/
def State.spoilTally (o : Nat) (s : State) : State :=
  let size := max 1 (s.tally.pages * 2097152)
  s.onTally (fun t => { t with chunks := t.chunks.map (fun c =>
    if (o + size - c.at_) % size < c.bytes.length then { c with poisoned := true } else c) })

/-- A saved stream context is poisoned (R376): which of those evicted is free. -/
def State.spoilSaved (s : State) : State :=
  let ev := s.dfl.ctxs.filter (fun c => c.2.state = .evicted)
  let a := s.free
  match ev[a.1 % max 1 ev.length]? with
  | none => s
  | some c =>
    a.2.spoilCtx c.1 12

/-- The bar of a remap copy (R210): of the tables in force, waiting and superseded that a region holds, or else of the NOZZLE_MAP that
loads it. -/
def State.remapBar (s : State) (id order : Nat) : Option Nat :=
  let held := fun (b : Nat) =>
    [0, 1].any (fun h => ((s.bar b).half h).tables.any (fun m => m.region = id)) || (s.bar b).oldCopies.contains id
  match (List.range 8).find? held with
  | some b => some b
  | none => (s.descAt order).map (fun d => d.byte 9 % 8)

/-- Poisoned bytes of what scan-out and the hold loop read later stand as these make of them (R347): codes are 0, coverage blocks give class
15, until they are written anew. -/
def State.spoilHeld (addr : Nat) (s : State) : State :=
  match s.regionAt addr with
  | none => s
  | some r =>
    let o := (r.offset addr).getD 0
    match r.holder with
    | .ringOf b => s.spoilRing b r.id o
    | .repeatStore => s.spoilStore false o
    | .grazeCopy => s.spoilStore true o
    | .coverage => s.spoilCoverage o
    | .covStore => s.spoilCovStore false o
    | .grazeCov => s.spoilCovStore true o
    | _ => s

/-- What another consumer makes of 64 poisoned bytes that it reads (R347). Layers are judged where composition reads them; a core's access ends
in a bus error, which changes no state of the device (R451). -/
def State.spoil (addr : Nat) (s : State) : State :=
  match s.regionAt addr with
  | none => s
  | some r =>
    match r.holder with
    | .remap o =>
      match s.remapBar r.id o with
      | some b => s.faultBar 13 b
      | none => s
    | .stats c => s.spoilStats c
    | .tally => s.spoilTally ((r.offset addr).getD 0)
    | .dflSave => s.spoilSaved
    | _ => s

/-- An uncorrectable error (R347, R348): FS026, EV161; its word stays poisoned, and its test falls due. -/
def State.uncorrectable (n addr : Nat) (s : State) : State :=
  let s := s.bump (Fld.MEMC_UE_CNT_value n) 1
  let s := s.onChannel n (fun c => { c with errAddr := addr, errUe := true })
  let s := (s.fault 26).raiseEv 161
  (s.onMemc (fun m => { m with
    poisoned := if m.poisoned.contains addr then m.poisoned else addr :: m.poisoned
    wordTests := if m.wordTests.contains addr then m.wordTests else m.wordTests ++ [addr] })).spoilHeld addr

/-- The word of a DRAM address lies in the interleave on a channel (R336). -/
def State.onChan (s : State) (n addr : Nat) : Bool :=
  s.memc.n ≠ 0 && addr < s.memc.n * s.channelBytes && (s.channel n).k = addr / 512 % s.memc.n

/-- A read of a channel is poisoned: the word counts as uncorrectable, and its consumer takes poisoned data (R347). -/
def State.poisonRead (n word : Nat) (s : State) : State := (s.uncorrectable n word).spoil word

/-- A command/address parity error (R345): a retry; FS033 where it is the third within 1 ms. -/
def State.parityError (n : Nat) (s : State) : State :=
  let near := (s.channel n).parityAt.filter (fun t => s.now < t + 1000000)
  let s := s.onChannel n (fun c => { c with retryAt := some s.now, parityAt := s.now :: near })
  let s := ((s.emit (.dram n "RETRY" 1)).bump (Fld.MEMC_CA_CNT_value n) 1).raiseEv 164
  if 2 ≤ near.length then s.fault 33 else s

/-- The commands that the DRAM has discarded: the last read of a column and what came after it; where no read is concerned, how many of the last
commands they are is free (R345). -/
def State.discarded (n : Nat) (read : Option Nat) (s : State) : Nat × State :=
  let cs := (s.channel n).issued
  match read with
  | some a => ((cs.findIdx (fun c => c = .column false (a / 64 * 64))) + 1, s)
  | none => let (v, s) := s.free; (min cs.length (1 + v % 16), s)

/-- The commands that the DRAM has discarded are issued again, and the rows that it closed opened again (R345). -/
def State.replayCommands (n k : Nat) (s : State) : State :=
  (s.onChannel n (fun c => { c with rows := (c.openRows s.now).map (fun r => { r with at_ := s.now }) })).emit (.dram n "REPLAY" k)

/-- CA_PARITY_ALERT (R345): the command is replayed from the retry buffer; where it has left the buffer, the request that it served is
poisoned. -/
def execCaParityAlert (dt : Nat) (alert : ParityAlert) (s : State) : Res :=
  if s.down then .next s else
  let s := s.elapse dt
  let n := alert.channel.val
  if !s.chActive n then .next s
  else
    match alert.read with
    | some a =>
      if s.onChan n a && !(s.channel n).issued.contains (.column false (a / 64 * 64)) then .next ((s.poisonRead n (a / 8 * 8)).parityError n)
      else
        let s := s.parityError n
        let r := s.discarded n alert.read
        .next (r.2.replayCommands n r.1)
    | none =>
      let s := s.parityError n
      let r := s.discarded n none
      .next (r.2.replayCommands n r.1)

/-- The word that makes the 64 bytes of a read uncorrectable, if one does: that of the errors, or one that stays poisoned (R347, R348). -/
def State.badWord (s : State) (word errors : Nat) : Option Nat :=
  if 2 ≤ errors then some word else s.memc.poisoned.find? (fun a => a / 64 = word / 64)

/-- A column read by a channel, with a word of it and the number of wrong bits in that (R346, R347). -/
def State.readWord (n word errors : Nat) (s : State) : State :=
  match s.badWord word errors with
  | some a => s.uncorrectable n a
  | none => if errors = 1 then s.correctable n word else s

/-- The request of a column, if one is queued, is served, after those that the channel takes before it (R338). -/
def State.returnColumn (n word : Nat) (s : State) : State :=
  let mine := fun (q : DramReq) => !q.write && q.addr = word / 64 * 64
  let c := s.channel n
  if !c.queue.any mine then
    s.onChannel n (fun c => { c.issue [.column false (word / 64 * 64)] with accesses := c.accesses + 1, single := false })
  else
    let r := c.serve s.now mine c.queue.length
    let s := s.onChannel n (fun _ => r.1)
    let s := (r.2.filter (fun q => q.cls = .scan)).foldl (fun s q => s.noteScan n (s.now - q.at_)) s
    (s.dramAdmit s.now).payRefresh s.now n

/-- DRAM_READ_RETURN (R338, R346, R347). -/
def execDramReadReturn (dt : Nat) (channel : Fin 8) (addr errors : Nat) (s : State) : Res :=
  if s.down then .next s else
  let s := s.elapse dt
  let n := channel.val
  let word := addr / 8 * 8
  if !s.chActive n || !s.onChan n word then .next s
  else
    let bad := s.badWord word errors
    let s := ((s.returnColumn n word).readWord n word errors).touchDram
    .next (match bad with | some a => s.spoil a | none => s)

/-- DRAM_WORD_TEST (R348, R440, R441): of a word whose test is due; a LASTING word's page is retired. An injected occurrence of FS026
is tested against a sound unit (R445). -/
def execDramWordTest (dt : Nat) (addr : Nat) (lasting : Bool) (s : State) : Res :=
  if s.down then .next s else
  let s := s.elapse dt
  let word := addr / 8 * 8
  if !s.testMayRun 26 0 then .next s
  else if s.memc.wordTests.contains word then
    let s := (s.onMemc (fun m => { m with wordTests := m.wordTests.filter (· ≠ word) })).touchDram
    let s := [false, false, true, false, true, false, true].foldl (fun s w => s.dramAsk .maint w none word (word + 8)) s
    if lasting then
      let s := s.raiseEv 162
      let s := s.wordTested true
      let r := s.padRetire (word / 2097152)
      .next (if r.1 then r.2.fault 27 else r.2)
    else .next (s.wordTested false)
  else if s.fold.tests.any (fun t => t.source = 26 && t.injected) then .next (s.testResult 26 false)
  else .next s

/-! ### Patrol scrub (R349) -/

/-- The scrub asks for the tokens of its next page. -/
def State.scrubAsk (s : State) : State :=
  if s.f Fld.MEMC_SCRUB_scrub_h ≠ 0 && s.memc.trained && s.memc.n ≠ 0 then
    s.droverAsk 6 (s.f Fld.MEMC_SCRUB_scrub_tokens) .scrub
  else s

/-- The channel that holds a DRAM address. -/
def State.chanOf (s : State) (addr : Nat) : Nat :=
  ((List.range 8).find? (fun n => (s.channel n).state = .active && s.onChan n addr)).getD 0

/-- SCRUB_PAGE (R349): it waits for DRAM that is off or in self-refresh (R351, R398). errors and uncorrectable are the addresses of words of the page with one wrong bit and with more. -/
def execScrubPage (dt : Nat) (errors uncorrectable : List Nat) (s : State) : Res :=
  if s.down then .next s else
  let s := s.elapse dt
  if s.f Fld.MEMC_SCRUB_scrub_h = 0 || !s.droverHas .scrub then .next s
  else if !s.dramUp then .next s.callDram
  else
    let page := s.memc.scrubPage
    let here := fun (ws : List Nat) => (ws.map (fun a => a / 8 * 8)).filter (fun a => a / 2097152 = page)
    let bad := here uncorrectable ++ s.memc.poisoned.filter (fun a => a / 2097152 = page && !(here uncorrectable).contains a)
    let s := (here errors).foldl (fun s a => if bad.contains a then s else s.correctable (s.chanOf a) a) s
    let s := bad.foldl (fun s a => s.uncorrectable (s.chanOf a) a) s
    let s := (s.droverDrop .scrub).dramAsk .maint false none (page * 2097152) (page * 2097152 + 2097152)
    let next := page + 1
    let s := s.onMemc (fun m =>
      if next < s.pageCount then { m with scrubPage := next }
      else { m with scrubPage := 0, scrubSince := s.now, scrubLate := false })
    .next s.scrubAsk

/-- SCRUB_LATE (R349): FS025, once per pass. -/
def execScrubLate (dt : Nat) (s : State) : Res :=
  if s.down then .next s else
  let s := s.elapse dt
  let h := s.f Fld.MEMC_SCRUB_scrub_h
  if h = 0 || !s.memc.trained || s.memc.scrubLate || s.now < s.memc.scrubSince + h * 3600000000000 then .next s
  else .next ((s.onMemc (fun m => { m with scrubLate := true })).fault 25)

/-! ### Self-refresh (R350, R351) -/

/-- The conditions of R350: no request is queued, nothing is armed, Tally does not record, and no wipe, zeroing or scrub has requests to
make. -/
def State.dramIdle (s : State) : Bool :=
  s.fb Fld.MEMC_CTRL_sr_en && s.memc.trained && !s.memc.inSr && s.isOn 4
    && !(List.range 8).any s.armed && s.tally.state ≠ .recording
    && s.memc.wipeDone && s.paddock.dirty.isEmpty && !s.droverHas .scrub
    && s.memc.runs.isEmpty && s.memc.channels.all (fun c => c.queue.isEmpty)

/-- SELF_REFRESH_ENTRY (R350, R351): each channel issues the REF that it owes and closes its rows; the commit point follows when the last has
issued SRE, 1 µs later at most beyond its REF (DESIGN CHOICE 76: the spec gives no time). -/
def execSelfRefreshEntry (dt : Nat) (s : State) : Res :=
  if s.down then .next s else
  let s := s.elapse dt
  let us := orIfZero (s.f Fld.MEMC_SR_IDLE_sr_idle) 1
  if s.dramIdle && s.memc.srAt.isNone && s.memc.idleSince + us * 1000 ≤ s.now then
    let s := s.payAll s.now
    let (v, s) := s.free
    let last := s.memc.channels.foldl (fun m c => max m c.stallTo) s.now
    .next (s.onMemc (fun m => { m with srAt := some (last + v % 1001) }))
  else .next s

/-- The channels leave self-refresh (R350, R351): EV165, and FS035 where a request has waited for more than 2 µs. -/
def State.exitSelfRefresh (s : State) : State :=
  if !s.memc.inSr then s
  else
    let late := s.memc.srWake.any (fun t => t + 2000 < s.now)
    let s := if late then s.fault 35 else s
    let s := s.onMemc (fun m => { m with
      inSr := false, srWake := none, idleSince := s.now
      channels := m.channels.map (fun c =>
        if c.state = .selfRefresh then { c with state := .active, owed := 0, single := false, refAt := s.now + c.trefi } else c) })
    s.raiseEv 165

/-- SELF_REFRESH_EXIT (R351): the exit sequence ends that a request has begun, at the latest this one. -/
def execSelfRefreshExit (dt : Nat) (s : State) : Res :=
  if s.down then .next s else
  let s := s.elapse dt
  .next (if s.isOn 4 then s.exitSelfRefresh else s)

/-! ### Training and wipe (R353, R354, R536) -/

/-- MEMC_GEOM as it reads (R361): density 3 is taken as 2, two_ranks reads 0 with density 2. -/
def geomRead (v : Nat) : Nat :=
  let d := min 2 (bits v 9 8)
  putBits (putBits (v &&& 0x00FF0301) 9 8 d) 0 0 (if d = 2 then 0 else v % 2)

/-- Every enabled channel trains with the present MEMC_GEOM. -/
def State.startTraining (s : State) : State :=
  let g := geomRead (s.reg Reg.MEMC_GEOM)
  s.onMemc (fun m => { m with
    geom := g, trained := false, trainAt := s.now, n := 0
    channels := m.channels.mapIdx (fun i _ =>
      { Channel.reset with state := if bitOf (bits g 23 16) i then .training else .off }) })

/-- The seeds of a channel are valid (R353, R536): its record is VALID, and its seeds were taken under the geometry in force. -/
def State.seedsValid (s : State) (n : Nat) : Bool :=
  match s.record 0x21 n with
  | some b => leAt b 4 4 = s.memc.geom
  | none => false

/-- The training of one channel ends (R353). -/
def State.endTraining (ok : List Bool) (s : State) (n : Nat) : State :=
  if (s.channel n).state ≠ .training then s
  else
    let s := s.noteRead 0x21 n
    let seeded := s.seedsValid n
    let s := if seeded then s else s.fault 36
    let ms := (s.now - s.memc.trainAt) / 1000000
    if ok.getD n false then
      let k := s.memc.n
      let s := s.onMemc (fun m => { m with n := m.n + 1 })
      let s := s.onChannel n (fun c => { c with
        state := .active, k := k, seeded := seeded, trainMs := ms, refAt := s.now + 7800, zqAt := s.now, mprFailed := true })
      let g := s.memc.geom
      let j := s.freeCount
      let s := { s with freeCount := j + 1 }
      s.writeRecord 0x21 n (leBytes 4 g ++ leBytes 4 g
        ++ (List.range 1016).map (fun i => BitVec.ofNat 8 (Config.seedByte j i))) none
    else
      (s.onChannel n (fun c => { c with state := .failed, seeded := seeded, trainMs := ms })).fault 32

/-- TRAINED (R353): EV166. -/
def execTrained (dt : Nat) (ok : List Bool) (s : State) : Res :=
  if s.down then .next s else
  if ok.length ≠ 8 then .fault .illFormed
  else
    let s := s.elapse dt
    if !s.memc.channels.any (fun c => c.state = .training) then .next s
    else
      let s := (List.range 8).foldl (State.endTraining ok) s
      let s := s.onMemc (fun m => { m with trained := true, idleSince := s.now, scrubSince := s.now })
      let s := if s.memc.n = 0 then s.onSys (fun x => { x with halted := true }) else s
      .next ((s.raiseEv 166).scrubAsk)

/-- WIPE_DONE (R354): EV167. -/
def execWipeDone (dt : Nat) (s : State) : Res :=
  if s.down then .next s else
  let s := s.elapse dt
  if s.memc.wipeAt.isNone || s.memc.wipeDone then .next s
  else .next ((((s.wipeTo s.pageCount).onMemc (fun m => { m with wipeDone := true })).touchDram).raiseEv 167)

/-- The value of MEMC_GEOM is stored in the seed records that are VALID (R536). -/
def State.storeGeom (g : Nat) (s : State) : State :=
  (List.range 8).foldl (fun s n =>
    match s.record 0x21 n with
    | some b => s.writeRecord 0x21 n (leBytes 4 g ++ b.drop 4) none
    | none => s) s

/-- MEMC_GEOM_WRITE (R536, R538): before READY a change restarts training; later it is stored for the next reset. -/
def execMemcGeomWrite (dt : Nat) (data : Word) (s : State) : Res :=
  if s.down then .next s else
  let s := s.elapse dt
  if !s.writeOpen 1 Reg.MEMC_GEOM.off then .next s else
  let s := s.noteWrite 1 Reg.MEMC_GEOM.off data.toNat
  let g := geomRead data.toNat
  if s.sys.lock || !s.isOn 4 || g = s.reg Reg.MEMC_GEOM then .next s
  else
    let s := s.setReg Reg.MEMC_GEOM g
    if s.sys.ready then .next (s.storeGeom g)
    else if s.sys.cores then .next ((s.onSys (fun x => { x with halted := false })).startTraining)
    else .next s

/-! ### Paddock (R355 to R358) -/

/-- What is granted to holders that wait for nothing else takes effect: a JOB_OPEN, the save area of the compression engine. -/
def State.padSettle (s : State) : State :=
  let s := if (s.padOf .dflSave).isSome then s.onDfl (fun d => { d with save := true, saveSince := none }) else s
  (s.openTry false).fetchAhead

/-- PADDOCK_FREE (R358): a core, or C0, frees a region of its own; other holders free theirs by their own commands. -/
def execPaddockFree (dt : Nat) (region : Nat) (s : State) : Res :=
  if s.down then .next s else
  let s := s.elapse dt
  match s.paddock.regions.find? (fun r => r.id = region) with
  | some r =>
    match r.holder with
    | .core _ => .next (s.padFreeId region)
    | .sec => .next (s.padFreeId region)
    | _ => .next s
  | none => .next s

/-- PAGE_ZERO_DONE (R358). -/
def execPageZeroDone (dt : Nat) (page : Nat) (s : State) : Res :=
  if s.down then .next s else
  let s := s.elapse dt
  if !runsHas s.paddock.dirty page then .next s
  else
    let s := s.onPaddock (fun p => { p with dirty := runsDel page p.dirty, free := runsAdd page 1 p.free })
    let s := s.onMemc (fun m => { m with poisoned := m.poisoned.filter (fun a => a / 2097152 ≠ page) })
    .next (s.dramAsk .aux true none (page * 2097152) (page * 2097152 + 2097152)).touchDram

/-- PAD_RETIRE (R358): before the set-up lock. -/
def execPadRetire (dt : Nat) (data : Word) (s : State) : Res :=
  if s.down then .next s else
  let s := s.elapse dt
  if !s.writeOpen 1 Reg.PAD_RETIRE.off then .next s else
  let s := s.noteWrite 1 Reg.PAD_RETIRE.off data.toNat
  if s.sys.lock || !s.isOn 4 then .next s
  else
    let r := s.padRetire (bits data.toNat 16 0)
    .next (if r.1 then r.2.fault 27 else r.2)

end Sys2Proof.Machine
end

