-- ==== Sys2Proof/Machine/Boot.lean ====
section
/-! DEFINITION. Commands of start-up and reset: PORST_N, SYS_RST, firmware, READY, the set-up lock (R435, R474 to R476, R530 to
R540). -/

set_option Elab.async false

namespace Sys2Proof.Machine

/-- PORST_FALL (R435, R532): every effect of a device reset, which lasts until PORST_N rises. -/
def execPorstFall (_dt : Nat) (s : State) : Res :=
  if s.down then .next s
  else
    let r := s.deviceReset 0
    .next (r.onSys (fun x => { x with porst := true }))

/-- The straps as SYS_STRAP lays them out (R530, R540). -/
def strapsOf (v : Nat) : Straps :=
  ⟨bits v 1 0, bits v 3 2, bits v 5 4, bitOf v 7, bitOf v 8, bitOf v 9⟩

/-- PORST_RISE (R530, R532, R534): the straps are sampled and start-up begins. -/
def execPorstRise (_dt : Nat) (straps : BitVec 10) (s : State) : Res :=
  if !s.sys.porst || s.power.inShelf then .next s
  else .next (s.reboot (strapsOf straps.toNat) 0).romWipes

/-- SYS_RESET (R533). -/
def execSysReset (dt : Nat) (data : Word) (s : State) : Res :=
  if s.down then .next s else
  let s := s.elapse dt
  if !s.writeOpen 1 Reg.SYS_RST.off then .next s else
  let s := s.noteWrite 1 Reg.SYS_RST.off data.toNat
  if bits data.toNat 31 16 = 0xD1E5 && bitOf data.toNat 0 then .next (s.deviceReset 1) else .next s

/-- SRAM_WIPE_DONE (R25, R475, R534): with a host load the ROM goes to recovery mode. -/
def execSramWipeDone (dt : Nat) (s : State) : Res :=
  if s.down then .next s else
  let s := s.elapse dt
  if s.sys.sramWiped then .next s
  else
    let s := s.onSys (fun x => { x with sramWiped := true })
    .next (if s.bootSource = 1 && s.sec.lc ≠ .scrap then s.onSec (fun x => { x with recovery := true }) else s)

/-- Words of fresh random content, four bytes each: no rule states them. -/
def freeWords : Nat → State → List Byte × State
  | 0, s => ([], s)
  | n + 1, s =>
    let a := s.free
    let r := freeWords n a.2
    (leBytes 4 a.1 ++ r.1, r.2)

/-- C0 starts: its first nonce comes from the TRNG (R473, R477). -/
def State.startC0 (s : State) : State :=
  let s := s.onSys (fun x => { x with c0 := true })
  let s := s.onSec (fun x => { x with recovery := false, loading := false })
  let s := s.onMbx (fun m => { m with cores := m.cores.modify 0 (fun c => { c with run := true }) })
  if s.sec.trngFail then s
  else
    let r := freeWords 8 s
    r.2.onSec (fun x => { x with nonce := r.1 })

/-- C0_IMAGE_VERIFIED (R474, R475, R531, R534): from slot A the ROM falls back to slot B, then to recovery mode. -/
def execC0ImageVerified (dt : Nat) (image : List Byte) (slotB : Bool) (s : State) : Res :=
  if s.down then .next s else
  let s := s.elapse dt
  if !s.sys.sramWiped || s.sys.c0 || s.sec.lc = .scrap || (s.sec.recovery && !s.sec.loading) then .next s
  else
    let s := s.readKeys
    let cause := s.fwCause 0 image
    if cause = 0 then .next ((s.fwAccept 0 (leAt image 8 4) (s.sec.loading || (slotB && s.bootSource = 0))).startC0)
    else
      let s := s.fwReject 0 cause
      .next (s.onSec (fun x => { x with
        recovery := x.recovery || (slotB && s.bootSource = 0), loading := false }))

/-- One of C1 to C3: an accepted image starts its core; after a rejection the next image is the one of slot B. -/
def State.startCore (s : State) (p : Nat × List Byte) : State :=
  let c := p.1
  if s.sec.accepted.getD c false then s
  else
    let cause := s.fwCause c p.2
    if cause = 0 then
      let s := s.fwAccept c (leAt p.2 8 4) (s.sec.slotB.getD c false || s.bootSource = 1)
      s.onMbx (fun m => { m with cores := m.cores.modify c (fun x => { x with run := true }) })
    else (s.fwReject c cause).onSec (fun x => { x with slotB := x.slotB.set c true })

/-- MEMC_GEOM is set from the DRAM seeds of the lowest channel whose record is VALID (R536). -/
def State.seedGeom (s : State) : State :=
  match (List.range 8).findSome? (fun n => s.record 0x21 n) with
  | some b => s.setReg Reg.MEMC_GEOM (geomRead (leAt b 0 4))
  | none => s

/-- The gains of a port from its record (R501, R503). -/
def CalPort.load (b : List Byte) (p : CalPort) : CalPort :=
  let at2 := fun (o : Nat) => leAt b o 2
  { p with
    kc := [at2 0, at2 2, at2 4], t := [at2 6, at2 8, at2 10], cert := cut b 12 8, refTemp := ofTwos 16 (at2 20)
    kind := leAt b 22 1, tileTime := leAt b 24 8, runTime := leAt b 32 8, traced := true }

/-- A CAL or USER record is read at start (R491, R537). -/
def State.readRec (s : State) (k : Nat × Nat) : State :=
  let s := s.noteRead k.1 k.2
  if (s.mrec k.1 k.2).code = 2 then
    s.onCal (fun c => { c with partBad := c.partBad.set (if k.1 < 0x30 then 2 else 3) true })
  else s

/-- C1 reads every CAL and USER record (R406, R503, R537): the thermal parameters and the camera gains are taken; FS076 without the
former. -/
def State.readRecords (s : State) : State :=
  let recs := (List.range 32).map (fun i => (0x20, i)) ++ (List.range 8).map (fun i => (0x21, i)) ++ [(0x22, 0)]
    ++ (List.range 6).map (fun i => (0x23, i)) ++ (List.range 6).map (fun i => (0x24, i)) ++ [(0x30, 0), (0x31, 0)]
  let s := recs.foldl State.readRec s
  let s := s.onCal (fun c => { c with ports := c.ports.mapIdx (fun i p =>
    match s.record 0x24 i with
    | some b => p.load b
    | none => p) })
  let s := s.onTherm (fun t => { t with record := s.record 0x22 0 })
  let s := if (s.record 0x22 0).isNone then s.fault 76 else s
  s.onSys (fun x => { x with records := true })

/-- CORES_STARTED (R475, R534, R536): images of C1 to C3 in turn. -/
def execCoresStarted (dt : Nat) (images : List (List Byte)) (s : State) : Res :=
  if s.down then .next s else
  if images.length ≠ 3 then .fault .illFormed
  else
    let s := s.elapse dt
    if !s.sys.c0 || s.sys.cores then .next s
    else
      let s := [1, 2, 3].foldl (fun s c => s.startCore (c, images.getD (c - 1) [])) s
      if !s.sec.accepted.all (fun a => a) then .next s
      else
        let s := s.onSys (fun x => { x with cores := true })
        .next (s.seedGeom.startTraining.readRecords).askSaveArea

/-- The conditions of R537. -/
def State.readyHolds (s : State) : Bool :=
  s.sys.sramWiped && s.sys.c0 && s.sys.cores && s.mbx.cores.all (fun c => c.run) && s.hif.ready && s.memc.trained
    && s.memc.n ≠ 0 && s.sys.records && s.therm.started

/-- A counter is raised to the svn of the running image (R476): EV255. -/
def State.raiseSvn (s : State) (c : Nat) : State :=
  let v := s.sec.svnRun.getD c 0
  if s.svn c < v then (s.writeRecord 0x10 c (leBytes 4 v) none).raiseEv 255 else s

/-- The cores ask for their memory (R356): C0 of quota 8, C1 to C3 and the mailboxes of quota 7 (DESIGN CHOICE 76: the spec names these holders,
and neither when they ask nor for how much). -/
def State.askCores (s : State) : State :=
  let s := s.padAsk 8 (max 1 (Config.corePages 0)) .sec
  (List.range 4).foldl (fun s k => s.padAsk 7 (max 1 (Config.corePages (k + 1))) (.core (k + 1))) s

/-- DEVICE_READY (R354, R476, R537): the wipe of the DRAM begins. -/
def execDeviceReady (dt : Nat) (s : State) : Res :=
  if s.down then .next s else
  let s := s.elapse dt
  if s.sys.ready || !s.readyHolds then .next s
  else
    let s := s.onSys (fun x => { x with ready := true, bootMs := (s.now - x.edgeAt) / 1000000 })
    let s := s.onMemc (fun m => { m with wipeAt := some s.now })
    .next ((List.range 4).foldl State.raiseSvn s.askCores)

/-- SETUP_LOCK (R10, R538). -/
def execSetupLock (dt : Nat) (s : State) : Res :=
  if s.down then .next s else
  let s := s.elapse dt
  if !s.writeOpen 1 Reg.SYS_LOCK.off then .next s else
  let s := s.noteWrite 1 Reg.SYS_LOCK.off 1
  .next (s.onSys (fun x => { x with lock := true }))

end Sys2Proof.Machine
end

