-- ==== Sys2Proof/Machine/SeeLine.lean ====
section
/-! DEFINITION. A camera line on its way through a pipeline, and the start and the end of a frame (R281 to R284, R287 to R294). -/

set_option Elab.async false

namespace Sys2Proof.Machine

/-! ### Steps 8 and 9: one line -/

/-- What one line gathers: its record, the witnesses and the paper sums of its image's estimate. -/
structure Gather where
  record : Rec
  sums : List WitSum
  papers : List PaperSum
  deriving DecidableEq, Repr, Inhabited

/-- The values of a pixel reach the histogram and the mark detector. -/
def Gather.common (b : List Byte) (number col : Nat) (v : List Nat) (g : Gather) : Gather :=
  let r := if blkFlag b 1 then g.record.histPixel v else g.record
  { g with record := r.markPixel b number col v }

/-- A pixel of an image inside the print width (R294, R315, R316). -/
def State.imagePixel (s : State) (b : List Byte) (row : Option CovRow) (measures : Bool) (col x : Nat) (v : List Nat) (g : Gather) :
    Gather :=
  let dm := v.map dlog
  let t : Verdict := match row with
    | some r => match r.blocks[x / 16]? with
      | some block => s.judgePixel x block dm
      | none => ⟨false, []⟩
    | none => ⟨false, []⟩
  let g := if blkFlag b 1 || blkFlag b 3 then { g with record := g.record.cellPixel b (x / 64) t.cls col v } else g
  if !measures then g
  else { g with
    sums := t.wits.foldl (fun l w => addWitness (x / 64) w l) g.sums
    papers := if t.paper then s.addPapers (x / 64) dm g.papers else g.papers }

/-- The pixels of a line over an image, a gap, or nothing (R293). -/
def State.gather (s : State) (b : List Byte) (what : LineOver) (number : Nat) (row : Option CovRow) (measures : Bool)
    (vals : List (List Nat)) (g : Gather) : Gather :=
  let width := (s.lay.job.map (fun j => j.width)).getD 0
  (vals.zipIdx).foldl (fun g c =>
    let g := g.common b number c.2 c.1
    let x := positionOf b c.2
    if x < 0 || (width : Int) ≤ x then g
    else match what with
      | .out => g
      | .gap _ => if measures then { g with papers := s.addPapers (x.toNat / 64) (c.1.map dlog) g.papers } else g
      | .image _ _ _ => s.imagePixel b row measures c.2 x.toNat c.1 g) g

/-- A line joins the record of its frame. -/
def Rec.line (number : Nat) (w : Int) (what : LineOver) (r : Rec) : Rec :=
  match what with
  | .image p _ line => { r with
      lines := r.lines + 1, image := some p.image, lineFirst := if r.image.isNone then line else r.lineFirst, lineLast := line
      seen := r.seen ++ [(number, w, line)] }
  | _ => { r with lines := r.lines + 1, seen := r.seen ++ [(number, w, 0xFFFFFFFF)] }

/-- A line over an image (R293, R317): a record of another image closes first, estimates close that every context has passed, and
the tables bound to the image come into use. -/
def State.imageLine (port : Nat) (p : Span) (y line : Nat) (s : State) : State × Option CovRow × Bool :=
  let s := match (s.camPort port).record.image with
    | some k => if k = p.image then s else s.writeRec port false
    | none => s
  let s := (s.noteReach port p.image line).closeEsts
  let s := s.takeMeasFor p.image
  let measures := s.ctxMeasures port && line < s.windowOf p.length
  let s := if measures then s.openEst p.image else s
  let cov := s.coverageOf p y line
  let s := if cov.2 then s.bumpSat Fld.HOLD_COV_miss 1 else s
  (s, cov.1, measures)

/-- Paper sums of a gap join the newest open estimate, or wait for the next. -/
def State.addGutter (ps : List PaperSum) (s : State) : State :=
  s.onHold (fun h => match h.ests.getLast? with
    | some e => { h with ests := h.ests.map (fun x => if x.image = e.image then { x with papers := joinPapers ps x.papers } else x) }
    | none => { h with papers := joinPapers ps h.papers })

/-- A line is registered and joins its record, its estimate and the calibration of its port (R292 to R294, R316, R497). -/
def State.registerLine (port number : Nat) (w : Int) (dpc : Nat) (vals : List (List Nat)) (s : State) : State :=
  let b := (s.camPort port).blk
  let what := s.lineOver b w
  let x : State × Option CovRow × Bool := match what with
    | .image p y line => s.imageLine port p y line
    | .gap p => ((s.noteReach port p.image p.length).closeEsts, none, s.ctxMeasures port)
    | .out => (s, none, s.ctxMeasures port)
  let s := x.1
  let old := (s.camPort port).record
  let start : Gather := match what with
    | .image p _ _ =>
      let e := (s.hold.ests.find? (fun e => e.image = p.image)).getD default
      ⟨old, e.sums, e.papers⟩
    | _ => ⟨old, [], []⟩
  let g := s.gather b what number x.2.1 x.2.2 vals start
  let s := s.onPort port (fun q => { q with record := { g.record.line number w what with dpc := g.record.dpc + dpc } })
  let s := match what with
    | .image p _ _ => if x.2.2 then s.onEst p.image (fun e => { e with sums := g.sums, papers := g.papers }) else s
    | .gap _ => s.addGutter g.papers
    | .out => s
  let q := s.camPort port
  s.calLine port what vals q.gen (!q.truncated && !q.lineErr)

/-! ### Steps 1 to 7 -/

/-- A line whose window is whole passes steps 5 to 9. -/
def State.finishLine (port : Nat) (s : State) (h : HistLine) : State :=
  let p := s.camPort port
  let b := p.blk
  let reach := windowReach (blkKind b)
  let sensor := !p.shading.isEmpty && leAt p.shading 0 1 = 0
  let win := windowLines p.history sensor reach h.number
  let own := h.vals.toArray
  let kc := (s.calPort port).kc
  let vals := (List.range p.columns).map (fun col =>
    colourMatrix b kc (irSeparate b (demosaicAt b reach win own h.number col)))
  let s := s.onPort port (fun p => { p with
    history := p.history.map (fun x => if x.number = h.number then { x with done := true } else x) })
  let s := if blkTap b = 1 then s.judgeUpload port else s
  let s := s.tapBytes port 1 (vals.flatMap (fun v => v.flatMap (leBytes 2)))
  s.registerLine port h.number h.w h.dpc vals

/-- A line of the port FIFO is taken (R283): steps 1 to 4, then the lines whose window it completes. -/
def State.takeLine (port : Nat) (s : State) : State :=
  let p := s.camPort port
  match p.fifo with
  | [] => s
  | l :: rest =>
    let b := p.blk
    let s := if blkTap b = 0 then s.judgeUpload port else s
    let s := s.tapBytes port 0 (l.pixels.flatMap (leBytes 2))
    let v := defective b (defectCols p.defect l.number) (blackLevel b p.shading l.number l.pixels.toArray)
    let px := shade b p.shading p.columns p.frameLines l.number v.1
    let reach := windowReach (blkKind b)
    let s := s.onPort port (fun p => { p with fifo := rest, history := p.history ++ [⟨l.number, px.toList, l.w, v.2, false⟩] })
    let s := ((s.camPort port).history.filter (fun h => !h.done && h.number + reach ≤ l.number)).foldl (State.finishLine port) s
    s.onPort port (fun p => { p with history := p.history.filter (fun h => l.number < h.number + 2 * reach || !h.done) })

/-- The paces of n busy microseconds from a tick on: free, and at least the rated 1,600 Mpx/s where the supply and the temperature are those
of the rating (R282). -/
def State.busyPaces : Nat → Nat → State → List (Nat × Nat) × State
  | 0, _, s => ([], s)
  | n + 1, at_, s =>
    let (x, s) := s.free
    let r := State.busyPaces n (at_ + 1000) s
    ((if s.ratedSupply then 1600 + x % 63936 else x % 65536, at_) :: r.1, r.2)

/-- A pipeline takes a line of a context, which keeps it busy for the microseconds that the line takes at the rated pace (R282). -/
def State.pipeTakes (v ctx : Nat) (s : State) : State :=
  let r := s.busyPaces (max 1 ((s.camPort (v + 2 * ctx)).columns / 1600)) s.now
  let s := r.2.onSee (fun z => { z with pipes := z.pipes.modify v (fun p =>
    { ctx := ctx, samples := r.1 ++ p.samples.filter (fun q => s.now < q.2 + 1024000) }) })
  s.takeLine (v + 2 * ctx)

/-- A pipeline chooses at a line boundary (R283): a line of its owner if one waits, else one of its sharer. -/
def State.pipeLine (v : Nat) (s : State) : State :=
  if !(s.camPort v).fifo.isEmpty then s.pipeTakes v 0
  else if 2 ≤ v && !(s.camPort (v + 2)).fifo.isEmpty then s.pipeTakes v 1
  else s

/-- Every line that a port still holds passes its pipeline, which goes on choosing at each line boundary. -/
def State.drainPort (port : Nat) (s : State) : State :=
  let v := pipeOf port
  let n := (s.camPort v).fifo.length + (if port = v then 0 else (s.camPort port).fifo.length)
  let s := (List.range n).foldl (fun s _ => if (s.camPort port).fifo.isEmpty then s else s.pipeLine v) s
  ((s.camPort port).history.filter (fun h => !h.done)).foldl (State.finishLine port) s

/-! ### Frames -/

/-- A frame is marked truncated (R281, R284). -/
def State.truncFrame (port : Nat) (s : State) : State :=
  let s := s.onPort port (fun p => { p with truncated := true })
  (s.bumpSat (Fld.SEE_PORT_ERR_truncated port) 1).raiseEv 129

/-- A frame is closed (R294, R297 to R299): its lines are processed, its record written, its upload item written. -/
def State.closeFrame (port : Nat) (s : State) : State :=
  let s := s.drainPort port
  let s := s.settleCal port
  let s := s.writeRec port true
  let p := s.camPort port
  let s := if p.upTake = some true && blkTap p.blk ≠ 2 then s.writeItem port (blkTap p.blk) p.upData else s
  let s := s.droverDrop (.upload port)
  s.onPort port (fun p => { p with inFrame := false, history := [], upTake := none, upData := [], record := Rec.empty })

/-- The generation that a frame carries (R287): the newest completed one whose write ended before its exposure began. -/
def carried (now lead : Nat) : List Gen → Option (Gen × List Gen)
  | [] => none
  | g :: gs =>
    if g.tw + lead + g.exposure < now then some (g, [])
    else (carried now lead gs).map (fun r => (r.1, g :: r.2))

/-- Gains held come into force with a frame (R496). -/
def State.takeGains (port : Nat) (s : State) : State :=
  match (s.calPort port).kcNext with
  | none => s
  | some kc =>
    let s := s.onCalPort port (fun c => { c with kc := kc, kcNext := none })
    s.onHold (fun h => { h with ests := h.ests.map (fun e => { e with discard := true }) })

/-- A frame starts (R279, R287, R298, R301): a table held in the same instant does not come into force yet. -/
def State.startFrame (port : Nat) (s : State) : State :=
  let s := s.takeGains port
  let due := fun (x : List (Nat × List Byte)) => (x.filter (fun q => q.1 < s.now)).getLast?.map (fun q => q.2)
  let early := fun (x : List (Nat × List Byte)) => x.filter (fun q => s.now ≤ q.1)
  let s := s.onPort port (fun p => { p with
    block := (due p.blockWait).orElse (fun _ => p.block), blockWait := early p.blockWait
    defect := (due p.defectWait).getD p.defect, defectWait := early p.defectWait
    shading := (due p.shadingWait).getD p.shading, shadingWait := early p.shadingWait
    fseq := (p.fseq + 1) % 2 ^ 32, inFrame := true, truncated := false, lineErr := false, fsAt := s.now, fsTime := s.devTime
    lineNo := 0, history := [], record := Rec.empty, upTake := none, upData := [] })
  let p := s.camPort port
  let s := if p.silent then (s.onPort port (fun p => { p with silent := false })).raiseEv 134 else s
  let s := match carried s.now (blkReadLead p.blk) p.pendingGens with
    | some (g, rest) => (s.onPort port (fun p => { p with gen := g.gen, pendingGens := rest })).raiseEv 130
    | none => s
  if blkUplEn p.blk && p.upLen ≠ 0 then s.droverAsk 4 (blkTokens p.blk) (.upload port) else s

end Sys2Proof.Machine
end

