-- ==== Sys2Proof/Machine/See.lean ====
section
/-! DEFINITION. Commands of the cameras: CAM_CFG, EXPOSE_SET and the I²C buses, the ports, the pipelines (R279 to R307). -/

set_option Elab.async false

namespace Sys2Proof.Machine

/-! ### CAM_CFG (R300 to R303) -/

/-- A CAM_CFG descriptor of an op that may start now. -/
def State.camStart (s : State) (ring slot op : Nat) : Option Desc :=
  match s.startable ring slot 0x31 with
  | some d => if d.byte 8 = op then some d else none
  | none => none

/-- A table joins the shadow of its context: it replaces what was held before it, but for the last of an earlier instant, which a frame that
starts in this instant still takes (R301). -/
def joinShadow (b : Nat × List Byte) (held : List (Nat × List Byte)) : List (Nat × List Byte) :=
  (held.filter (fun q => q.1 < b.1)).getLast?.toList ++ [b]

/-- A CAM_CFG table (R301): copied, checked, held in the shadow of its context. -/
def State.camTable (ring slot op : Nat) (list : List PageEnt) (data : List Byte) (check : CamPort → List Byte → Bool)
    (hold : Nat × List Byte → CamPort → CamPort) (s : State) : State :=
  match s.camStart ring slot op with
  | none => s
  | some d =>
    let s := s.wakeDomain 7
    if !s.isOn 7 then s
    else
      match d.hostIn list data with
        | none => s
        | some (st, bytes) =>
          let s := s.readHost d list
          if st ≠ 0 then s.complete d st 0
          else if !check (s.camPort (d.byte 9)) bytes then s.complete d 0x60 0
          else (s.onPort (d.byte 9) (hold (s.now, bytes))).complete d 0 0

/-- CAM_CFG CONTEXT (R301, R302). -/
def execCamCfgContext (dt : Nat) (ring : Fin 64) (slot : Nat) (list : List PageEnt) (data : List Byte) (s : State) : Res :=
  if s.down then .next s else
  .next ((s.elapse dt).camTable ring.val slot 0 list data (fun p b => contextOk p.columns b) (fun b p => { p with blockWait := joinShadow b p.blockWait }))

/-- CAM_CFG DEFECT (R301, R303). -/
def execCamCfgDefect (dt : Nat) (ring : Fin 64) (slot : Nat) (list : List PageEnt) (data : List Byte) (s : State) : Res :=
  if s.down then .next s else
  .next ((s.elapse dt).camTable ring.val slot 1 list data (fun _ b => defectOk b) (fun b p => { p with defectWait := joinShadow b p.defectWait }))

/-- CAM_CFG SHADING (R301, R303). -/
def execCamCfgShading (dt : Nat) (ring : Fin 64) (slot : Nat) (list : List PageEnt) (data : List Byte) (s : State) : Res :=
  if s.down then .next s else
  .next ((s.elapse dt).camTable ring.val slot 2 list data (fun _ b => shadingOk b) (fun b p => { p with shadingWait := joinShadow b p.shadingWait }))

/-- CAM_CFG UPLOAD (R299, R301): the buffer becomes the port's area; a length of 0 ends uploading. -/
def execCamCfgUpload (dt : Nat) (ring : Fin 64) (slot : Nat) (list : List PageEnt) (s : State) : Res :=
  if s.down then .next s else
  let s := s.elapse dt
  match s.camStart ring.val slot 3 with
  | none => .next s
  | some d =>
    let s := s.wakeDomain 7
    if !s.isOn 7 then .next s
    else
      match d.hostOut list with
        | none => .next s
        | some false => .next (s.complete d 0x11 0)
        | some true =>
          let s := s.readList d
          let s := (s.dropUpload (d.byte 9)).onPort (d.byte 9) (fun p => { p with
            upPages := list.map (fun e => e.addr), upSize := d.buf.pageSize, upLen := d.buf.length, upOff := 0
            upTake := if p.inFrame then some false else none, upData := [], upWait := [] })
          .next ((s.droverDrop (.upload (d.byte 9))).complete d 0 0)

/-! ### Exposure (R285 to R287) -/

/-- The next EXPOSE_SET of a bus starts (R286): one whose port is not enabled completes with PORT_OFF. -/
def State.i2cStart (bus : Nat) (s : State) (order : Nat) : State :=
  if ((s.see.buses.getD bus ⟨[], none⟩).busy).isSome then s
  else
    let s := s.onSee (fun x => { x with buses := x.buses.modify bus (fun b => { b with queue := b.queue.filter (· ≠ order) }) })
    match s.descAt order with
    | none => s
    | some d =>
      let p := s.camPort (d.byte 8)
      if !p.enabled then s.complete d 0x63 0
      else
        let s := s.onSee (fun x => { x with buses := x.buses.modify bus (fun b => { b with busy := some order }) })
        s.emit (.i2cWrite bus p.addr ((d.bytes.drop 24).take (d.byte 9)))

/-- A bus takes up its queue. -/
def State.i2cNext (bus : Nat) (s : State) : State :=
  ((s.see.buses.getD bus ⟨[], none⟩).queue).foldl (State.i2cStart bus) s

/-- A number into a rising list. -/
def insertRising (x : Nat) : List Nat → List Nat
  | [] => [x]
  | y :: ys => if x < y then x :: y :: ys else y :: insertRising x ys

/-- EXPOSE_SET (R285, R286). -/
def execExposeSet (dt : Nat) (ring : Fin 64) (slot : Nat) (s : State) : Res :=
  if s.down then .next s else
  let s := s.elapse dt
  match s.startable ring.val slot 0x32 with
  | none => .next s
  | some d =>
    let s := s.wakeDomain 7
    if !s.isOn 7 then .next s
    else
      let p := s.camPort (d.byte 8)
      if !p.enabled then .next (s.complete d 0x63 0)
      else
        let s := s.start d
        let s := s.onSee (fun x => { x with buses := x.buses.modify p.bus (fun b => { b with queue := insertRising d.order b.queue }) })
        .next (s.i2cNext p.bus)

/-- I2C_WRITE_DONE (R286): STOP, a NAK, or a bus held too long. -/
def execI2cWriteDone (dt : Nat) (bus : Fin 2) (outcome : Fin 3) (s : State) : Res :=
  if s.down then .next s else
  let s := s.elapse dt
  match (s.see.buses.getD bus.val ⟨[], none⟩).busy with
  | none => .next s
  | some order =>
    let s := s.onSee (fun x => { x with buses := x.buses.modify bus.val (fun b => { b with busy := none }) })
    let s := match s.descAt order with
      | none => s
      | some d =>
        if outcome.val = 0 then
          let s := s.onPort (d.byte 8) (fun p =>
            if p.enabled then { p with pendingGens := ⟨d.num 10 2, d.num 12 4, s.now⟩ :: p.pendingGens } else p)
          s.complete d 0 (d.num 10 2)
        else (s.fault 59).complete d (if outcome.val = 1 then 0x61 else 0x62) 0
    .next (s.i2cNext bus.val)

/-- SENSOR_TEMP_READ (R285, R286, R502): the temperature of a port's sensor, or a failed read. The bus is free for it: no read goes out while
a write is in progress, and the read is over with the command. -/
def execSensorTempRead (dt : Nat) (port : Fin 6) (value : Word) (ok : Bool) (s : State) : Res :=
  if s.down then .next s else
  let s := s.elapse dt
  let p := s.camPort port.val
  if !s.isOn 7 || !p.enabled || !s.fb (Fld.SEE_PORT_TEMPCFG_temp_en port.val)
      || (s.see.buses.getD p.bus ⟨[], none⟩).busy.isSome then .next s
  else
    let s := s.emit (.i2cRead p.bus p.addr (s.f (Fld.SEE_PORT_TEMPCFG_reg_addr port.val)) 2)
    if ok then
      .next ((s.onPort port.val (fun p => { p with temp := ofTwos 16 value.toNat, tempAt := s.now })).calByTemp port.val)
    else .next (s.fault 59)

/-! ### Ports (R279 to R281, R284) -/

/-- The port configuration passes the table of R279. -/
def portCfgOk (port lanes dtype columns : Nat) : Bool :=
  (lanes = 1 || lanes = 2 || (lanes = 4 && port < 4)) && pixelBits dtype ≠ 0 && 16 ≤ columns
    && columns ≤ (if port < 4 then 16384 else 8192)

/-- The other fields of SEE_PORT_CFG take a written word (R280). -/
def State.cfgPort (n w : Nat) (s : State) : State :=
  let s := s.setF (Fld.SEE_PORT_CFG_vc n) (bits w 27 24)
  let s := s.setF (Fld.SEE_PORT_CFG_dt n) (bits w 21 16)
  let s := s.setF (Fld.SEE_PORT_CFG_lanes n) (bits w 14 12)
  let s := s.setF (Fld.SEE_PORT_CFG_i2c_bus n) (bits w 11 11)
  s.setF (Fld.SEE_PORT_CFG_i2c_addr n) (bits w 10 4)

/-- The page of a port's statistics is asked for where it is neither held nor asked for. -/
def State.askStats (n : Nat) (s : State) : State :=
  if (s.padOf (.stats n)).isSome || s.paddock.waiting.any (fun q => q.holder = .stats n) then s else s.padAsk 4 1 (.stats n)

/-- PORT_ENABLE (R280): enable is written 1. -/
def execPortEnable (dt : Nat) (port : Fin 6) (cfg : Word) (s : State) : Res :=
  if s.down then .next s else
  let s := s.elapse dt
  if !s.writeOpen 1 (Reg.SEE_PORT_CFG port.val).off then .next s else
  let s := s.noteWrite 1 (Reg.SEE_PORT_CFG port.val).off cfg.toNat
  let n := port.val
  let w := cfg.toNat
  if !s.isOn 7 || !bitOf w 31 || (s.camPort n).enabled then .next s
  else
    let geom := s.reg (Reg.SEE_PORT_GEOM n)
    let s := s.cfgPort n w
    if !portCfgOk n (bits w 14 12) (bits w 21 16) (geom % 65536) then .next s
    else
      let s := s.setF (Fld.SEE_PORT_CFG_enable n) 1
      let s := (s.dropUpload n).onPort n (fun p => { p with
        enabled := true, lanes := bits w 14 12, dtype := bits w 21 16, vc := bits w 27 24, columns := geom % 65536
        frameLines := geom / 65536, bus := bits w 11 11, addr := bits w 10 4, gen := 0, pendingGens := []
        inFrame := false, truncated := false, lineErr := false, fsAt := s.now, silent := false, lineNo := 0, fifo := []
        history := [], record := Rec.empty, candidates := [], stats := [] })
      .next (s.askStats n)

/-- The inputs of a port act (R279, R521): its domain is ON, it is enabled, and no replay runs. -/
def State.portLive (s : State) (p : Nat) : Bool := s.isOn 7 && (s.camPort p).enabled && !s.replaying

/-- CSI_FRAME_START (R279, R281, R287, R301): a frame without its FE is closed as truncated first. -/
def execCsiFrameStart (dt : Nat) (port : Fin 6) (s : State) : Res :=
  if s.down then .next s else
  let s := s.elapse dt
  if !s.portLive port.val then .next s
  else
    let p := s.camPort port.val
    let s := if !p.inFrame then s
      else (if p.truncated then s.raiseEv 129 else s.truncFrame port.val).closeFrame port.val
    .next (s.startFrame port.val)

/-- A line of the frame is discarded, and the statistics of the frame are invalid (R281). -/
def State.badLine (port : Nat) (s : State) : State := s.onPort port (fun p => { p with lineErr := true })

/-- The checksum of a long packet of the port's kind is wrong (R281, R306). -/
def State.badSum (port : Nat) (s : State) : State := (s.bumpSat (Fld.SEE_PORT_ERR_checksum port) 1).fault 57

/-- A line of a frame: a good one reaches its port FIFO (R281, R284). -/
def State.putLine (port : Nat) (pkt : CsiPkt) (s : State) : State :=
  let p := s.camPort port
  let number := p.lineNo
  let s := s.onPort port (fun p => { p with lineNo := p.lineNo + 1 })
  if !pkt.good then (s.badSum port).badLine port
  else if p.truncated then s
  else if p.frameLines ≤ number then s.badLine port
  else if pkt.body.length ≠ p.lineBytes then s.badLine port
  else if 262144 < p.level + pkt.body.length then (s.truncFrame port).fault 58
  else
    let l : CamLine := ⟨number, unpack p.dtype p.columns pkt.body, pkt.body.length, s.lineW p.blk⟩
    let s := s.onPort port (fun p => { p with fifo := p.fifo ++ [l] })
    let n := ceilDiv (s.camPort port).level 256
    s.setF (Fld.SEE_PORT_FIFO_max port) (max n (s.f (Fld.SEE_PORT_FIFO_max port)))

/-- A long packet as its header reads: none where the header is lost, with the mark that a bit of it was corrected (R281). -/
def State.takePacket (n : Nat) (r : Option (CsiPkt × Bool)) (s : State) : State :=
  match r with
  | none => (s.bumpSat (Fld.SEE_PORT_ERR_uncorrectable n) 1).fault 56
  | some (pkt, fixed) =>
    let s := if fixed then s.bumpSat (Fld.SEE_PORT_ERR_corrected n) 1 else s
    let p := s.camPort n
    if pkt.vc ≠ p.vc || pkt.dtype ≠ p.dtype then s
    else if p.inFrame then s.putLine n pkt
    else if pkt.good then s
    else s.badSum n

/-- CSI_LINE (R281, R284, R292): a long packet. -/
def execCsiLine (dt : Nat) (port : Fin 6) (data : List Byte) (s : State) : Res :=
  if s.down then .next s else
  let s := s.elapse dt
  let n := port.val
  if !s.portLive n then .next s
  else .next (s.takePacket n (csiParse data))

/-- CSI_FRAME_END (R281, R294): a frame short of its lines has invalid statistics. -/
def execCsiFrameEnd (dt : Nat) (port : Fin 6) (s : State) : Res :=
  if s.down then .next s else
  let s := s.elapse dt
  let p := s.camPort port.val
  if !s.portLive port.val || !p.inFrame then .next s
  else
    let s := if p.lineNo < p.frameLines && !p.truncated then s.badLine port.val else s
    .next (s.closeFrame port.val)

/-- PORT_SILENT (R281, R317): no FS for frame_timeout ms while the web moves, once per silence. -/
def execPortSilent (dt : Nat) (port : Fin 6) (s : State) : Res :=
  if s.down then .next s else
  let s := s.elapse dt
  let n := port.val
  let p := s.camPort n
  let ms := s.f (Fld.SEE_PORT_TIMEOUT_frame_timeout n)
  if !s.portLive n || p.silent || ms = 0 || s.source.state = .still || s.now < max p.fsAt s.bell.moveAt + ms * 1000000 then .next s
  else
    let s := s.onPort n (fun p => { p with silent := true })
    .next ((s.fault 60).raiseEv 134).closeEsts

/-- VP_LINE (R282, R283): the pipeline takes a line of its owner, or of its sharer. -/
def execVpLine (dt : Nat) (pipe : Fin 4) (s : State) : Res :=
  if s.down then .next s else
  let s := s.elapse dt
  .next (if s.isOn 7 then s.pipeLine pipe.val else s)

end Sys2Proof.Machine
end

