-- ==== Sys2Proof/Machine/CalCmd.lean ====
section
/-! DEFINITION. Commands of calibration and of the records in MRAM: CAL_RUN, the ends of record writes, the splice
(R492, R493, R497 to R505). -/

set_option Elab.async false

namespace Sys2Proof.Machine

/-! ### Runs (R499 to R502) -/

/-- A CAL_RUN descriptor of an op that may start now. -/
def State.calStart (s : State) (ring slot op : Nat) : Option Desc :=
  match s.startable ring slot 0x30 with
  | some d => if d.byte 8 = op then some d else none
  | none => none

/-- A descriptor joins the run of its port (R502): past its retire point when a measurement has begun. -/
def State.joinRun (d : Desc) (s : State) : State :=
  let p := d.byte 9
  let s := s.start d
  let s := s.onCalPort p (fun c => { c with
    run := if c.run = .idle then .pending else c.run, descs := c.descs ++ [d.order] })
  if (s.calPort p).started then s.retire d else s

/-- CAL_RUN TILE (R499, R502, R505): it replaces a strip run of the port. -/
def execCalRunTile (dt : Nat) (ring : Fin 64) (slot : Nat) (s : State) : Res :=
  if s.down then .next s else
  let s := s.elapse dt
  match s.calStart ring.val slot 0 with
  | none => .next s
  | some d =>
    let p := d.byte 9
    if s.source.state ≠ .still then .next (s.complete d 0x79 0)
    else if (s.calPort p).tile then .next (s.complete d 0x7D 0)
    else
      let s := s.noteRead 0x23 p
      if (s.record 0x23 p).isNone then .next (s.complete d 0x15 0)
      else
        let s := s.droverDrop (.cal p)
        let s := s.onCalPort p (fun c => { c with tile := true, run := .pending, attempts := 0, meas := Meas.none, first := none, started := false })
        .next (s.joinRun d)

/-- CAL_RUN STRIP (R500, R502, R503, R505). -/
def execCalRunStrip (dt : Nat) (ring : Fin 64) (slot : Nat) (s : State) : Res :=
  if s.down then .next s else
  let s := s.elapse dt
  match s.calStart ring.val slot 1 with
  | none => .next s
  | some d => if !(s.calPort (d.byte 9)).traced then .next (s.complete d 0x7A 0) else .next (s.joinRun d)

/-! ### Records (R490 to R495, R505) -/

/-- The 32 bytes of a slot's header (R490). -/
def RecSlot.header (typ sel : Nat) (x : RecSlot) : List Byte :=
  let h := leBytes 2 typ ++ leBytes 1 1 ++ leBytes 1 sel ++ leBytes 4 x.gen ++ leBytes 4 x.payload.length ++ leBytes 4 x.time
    ++ List.replicate 12 0
  h ++ leBytes 4 (crc32c (h ++ x.payload))

/-- CAL_RUN READ (R489, R491, R505). -/
def execCalRunRead (dt : Nat) (ring : Fin 64) (slot : Nat) (read : RunRead) (s : State) : Res :=
  if s.down then .next s else
  let s := s.elapse dt
  match s.calStart ring.val slot 2 with
  | none => .next s
  | some d =>
    let typ := d.num 10 2
    let sel := d.byte 12
    match d.hostOut read.list with
    | none => .next s
    | some false => .next (s.complete d 0x11 0)
    | some true =>
      let s := s.readList d
      if typ < 0x20 then .next (s.complete d 0x15 0)
      else
        let s := (s.readErrs typ sel read.errs).noteRead typ sel
        match (s.mrec typ sel).inUse with
        | none => .next (s.complete d (if (s.mrec typ sel).code = 0 then 0x7B else 0x7C) 0)
        | some x =>
          let bytes := x.header typ sel ++ x.payload
          if d.buf.length < bytes.length then .next (s.complete d 0x11 0)
          else .next ((s.writeHost d (read.list.map (fun e => e.addr)) bytes).complete d 0 0)

/-- A record type and selector of R495 that the host may write, and the payload fits it (R505). -/
def recordFits (typ sel : Nat) (b : List Byte) : Bool :=
  match typ with
  | 0x20 => sel < 32 && b.length = 24
  | 0x21 => sel < 8 && b.length = 1024
  | 0x22 => sel = 0 && b.length = 2048
  | 0x23 => sel < 6 && b.length = 272 && tileOk b
  | 0x30 => sel = 0 && b.length = 38016
  | 0x31 => sel = 0 && leAt b 64 4 ≤ 16384 && b.length = 68 + 4 * leAt b 64 4
  | _ => false

/-- CAL_RUN WRITE may write a type in the present life-cycle state (R505). -/
def State.mayWrite (s : State) (typ : Nat) : Bool :=
  0x20 ≤ typ && typ ≠ 0x24 && s.sec.lc ≠ .scrap && (typ ≠ 0x22 || s.sec.lc = .factory || s.sec.lc = .rma)

/-- CAL_RUN WRITE (R492, R505): it completes when its write is verified. -/
def execCalRunWrite (dt : Nat) (ring : Fin 64) (slot : Nat) (list : List PageEnt) (data : List Byte) (s : State) : Res :=
  if s.down then .next s else
  let s := s.elapse dt
  match s.calStart ring.val slot 3 with
  | none => .next s
  | some d =>
    let typ := d.num 10 2
    let sel := d.byte 12
    match d.hostIn list data with
    | none => .next s
    | some (st, bytes) =>
      let s := s.readHost d list
      if st ≠ 0 then .next (s.complete d st 0)
      else if !s.mayWrite typ then .next (s.complete d 0x15 0)
      else if !recordFits typ sel bytes then .next (s.complete d 0x7C 0)
      else .next ((s.start d).writeRecord typ sel bytes (some d.order))

/-- MRAM_WRITE_DONE (R400, R489, R492 to R494): the write at the head of those not deferred ends; mismatches counts its failed readbacks. -/
def execMramWriteDone (dt : Nat) (back : Readback) (s : State) : Res :=
  if s.down then .next s else
  let s := s.elapse dt
  match s.cal.writes.find? (fun w => w.deferred.isNone) with
  | none => .next s
  | some w =>
    let s := (s.onCal (fun c => { c with writes := c.writes.erase w })).countEcc back.corrected back.lost
    let ok := back.mismatches.val < 2
    let s := (s.putRecord w.typ w.sel w.payload ok).redefer w.typ w.sel
    .next (w.descs.foldl (fun s o => s.completeAt o (if ok then 0 else 0x7C) 0) s).settleShelf

/-- MRAM_DEFERRED_WRITE (R493): a second has passed since the last write of the record. -/
def execMramDeferredWrite (dt : Nat) (typ sel : Nat) (s : State) : Res :=
  if s.down then .next s else
  let s := s.elapse dt
  .next (s.onCal (fun c => { c with writes := c.writes.map (fun w =>
    match w.deferred with
    | some t => if w.typ = typ && w.sel = sel && t ≤ s.now then { w with deferred := none } else w
    | none => w) }))

/-! ### Splice (R497, R508) -/

/-- SPLICE_SET (R497): splice reads 1 for splice_ms. -/
def execSpliceSet (dt : Nat) (s : State) : Res :=
  if s.down then .next s else
  let s := s.elapse dt
  if !s.writeOpen 1 Reg.CAL_CTRL.off then .next s else
  let s := s.noteWrite 1 Reg.CAL_CTRL.off (putBits (s.reg Reg.CAL_CTRL) 30 30 1)
  let s := s.setF Fld.CAL_CTRL_splice 1
  .next (s.onCal (fun c => { c with spliceAt := s.now }))

/-- SPLICE_EXPIRE (R508). -/
def execSpliceExpire (dt : Nat) (s : State) : Res :=
  if s.down then .next s else
  let s := s.elapse dt
  let ms := orIfZero (s.f Fld.CAL_CTRL_splice_ms) 1
  if s.fb Fld.CAL_CTRL_splice && s.cal.spliceAt + ms * 1000000 ≤ s.now then .next (s.setF Fld.CAL_CTRL_splice 0) else .next s

end Sys2Proof.Machine
end

