-- ==== Sys2Proof/Machine/ThermOps.lean ====
section
/-! DEFINITION. The thermal model, its thresholds and throttle, and VCORE over PMBus (R402 to R414). -/

set_option Elab.async false

namespace Sys2Proof.Machine

/-! ### Power and reference (R402, R405) -/

/-- Power of a domain as the model takes it: the rated maximum where its monitor has failed (R402). -/
def State.domainPower (s : State) (d : Nat) : Nat :=
  let p := s.therm.power.getD d 0
  if p = 0xFFFFFF then Config.ratedPower s.therm.record d else p

/-- THERM_PWR_TOTAL: the sum over all domains. -/
def State.totalPower (s : State) : Nat := ((List.range 10).map s.domainPower).sum

/-- Budget in tokens, not below print_res (R424). -/
def State.budget (s : State) : Nat := max (s.f Fld.DROVER_BUDGET_budget) (s.f Fld.DROVER_BUDGET_print_res)

/-- The reference in use, 1/64 °C (R405). -/
def State.refUsed (s : State) : Int :=
  let t := s.therm
  if !t.refValid then ofTwos 16 (s.f Fld.THERM_REF_DEFAULT_ref_default)
  else if t.refStale then t.ref + s.f Fld.THERM_REF_DEFAULT_stale_guard
  else t.ref

/-! ### The model (R403, R404) -/

/-- Lanes in service among n of them from lane a on. -/
def State.lanesUp (s : State) (a n : Nat) : Nat := ((s.link.lanes.drop a).take n).countP (fun l => l.inPair)

/-- Accesses of channels 0 to 3, or 4 to 7, since the last sample (R403). -/
def State.groupAccesses (s : State) (first : Nat) : Nat := ((List.range 4).map (fun i => (s.channel (first + i)).accesses)).sum

/-- Power inputs of the 16 nodes in mW, from the mean power of each domain over the interval (R403); split is the share of channels 0 to 3,
of 65,536, where no channel had an access. -/
def State.nodePower (s : State) (mean : Nat → Rat) (split : Nat) : List Rat :=
  let b := s.therm.busy
  let quarter := fun (q : Nat) => if b.sum = 0 then mean 5 / 4 else mean 5 * b.getD q 0 / b.sum
  let a := s.groupAccesses 0
  let b4 := s.groupAccesses 4
  let mem : Rat := if a + b4 = 0 then (split : Rat) / 65536 else (a : Rat) / (a + b4 : Nat)
  let lo := s.lanesUp 0 16
  let hi := s.lanesUp 16 16
  let lane := fun (n : Nat) => if lo + hi = 0 then mean 6 / 2 else mean 6 * n / (lo + hi : Nat)
  [quarter 0, quarter 1, quarter 2, quarter 3, mean 4 * mem, mean 4 * (1 - mem),
    lane lo, lane hi, mean 3, mean 7, mean 8 + mean 9, mean 0 + mean 1 + mean 2, 0, 0, 0, (s.f Fld.THERM_BOARD_MW_board_mw : Nat)]

/-- The solution of a system of linear equations given as rows of coefficients with their right side last. -/
def solveRows : Nat → List (List Rat) → List Rat
  | 0, _ => []
  | n + 1, rows =>
    match rows with
    | [] => []
    | r :: rest =>
      let p := r.headD 0
      let t := r.tail
      let red := rest.map (fun q => (q.tail.zip t).map (fun x => x.1 - q.headD 0 / p * x.2))
      let xs := solveRows n red
      let b := t.getLastD 0
      ((b - ((t.zip xs).map (fun x => x.1 * x.2)).sum) / p) :: xs

/-- Conductance to the reference of node i, mW/°C: that of the heat sink is 1 / R_hs (R404, R406). -/
def State.gRef (s : State) (i : Nat) : Rat :=
  let hs := s.f Fld.THERM_HS_hs_mkw
  if i = 13 && hs ≠ 0 then (1000000 : Rat) / hs else Config.thermGref s.therm.record i

/-- The node temperatures after a step of backward Euler, 1/64 °C to the nearest (R404). -/
def State.stepNodes (s : State) (power : List Rat) (interval : Nat) : List Int :=
  let rec_ := s.therm.record
  let tref : Rat := (s.refUsed : Rat) / 64
  let c := fun (i : Nat) => (Config.thermC rec_ i : Rat) * 1000000000 / interval
  let g := fun (i j : Nat) => if i = j then (0 : Rat) else (Config.thermG rec_ i j : Rat)
  let row := fun (i : Nat) =>
    let sum := ((List.range 16).map (g i)).sum
    (List.range 16).map (fun j => if i = j then c i + sum + s.gRef i else - g i j)
      ++ [power.getD i 0 + c i * ((s.therm.nodes.getD i 0 : Rat) / 64) + s.gRef i * tref]
  (solveRows 16 ((List.range 16).map row)).map (fun x => (x * 64 + 1 / 2).floor)

/-- Tj and its node: the highest of nodes 0 to 11 (R403). -/
def hottest (nodes : List Int) : Int × Nat :=
  (List.range 11).foldl (fun (m : Int × Nat) i =>
    let t := nodes.getD (i + 1) 0
    if m.1 < t then (t, i + 1) else m) (nodes.getD 0 0, 0)

/-- Sampling every 62.5 µs (R408): near below a threshold, and for 30 s after reset. -/
def State.fastSampling (s : State) : Bool :=
  let t := s.therm.tj
  let near := fun (th : Int) => 64 * (th - 6) ≤ t && t ≤ 64 * th
  near 95 || near 103 || near 112 || s.now < 30000000000

/-- The sample interval in ticks (R408). -/
def State.sampleTicks (s : State) : Nat := if s.fastSampling then 62500 else 1000000

/-! ### VCORE (R411, R413, R414) -/

/-- vmin and vset in their ranges, mV: VCORE is never driven below vmin (R413). -/
def State.vmin (s : State) : Nat := clampNat 600 850 (s.f Fld.THERM_VCORE_CFG_vmin)
def State.vset (s : State) : Nat := max s.vmin (clampNat 600 850 (s.f Fld.THERM_VCORE_CFG_vset))

/-- A reading of READ_VOUT differs from the commanded value by more than 25 mV (R414). -/
def State.voutOff (s : State) (value : Nat) : Bool :=
  25 < (if value < s.therm.commanded then s.therm.commanded - value else value - s.therm.commanded)

/-- The CRC-8 of SMBus over a message (PEC). -/
def pec8 (bs : List Byte) : Nat :=
  bs.foldl (fun c b => (List.range 8).foldl (fun c _ => if 128 ≤ c then (2 * c ^^^ 0x107) % 256 else 2 * c) (c ^^^ b.toNat)) 0

/-- n / d to the nearest, halves up. -/
def nearest (n d : Int) : Int := (2 * n + d) / (2 * d)

/-- The code of a voltage in mV (R413): VID, or LINEAR16 with the exponent read from VOUT_MODE. -/
def State.voutCode (s : State) (mv : Nat) : Int :=
  if s.fb Fld.THERM_PMBUS_CFG_fmt then
    let e := s.therm.expo
    if 0 ≤ e then nearest mv (1000 * 2 ^ e.toNat) else nearest (mv * 2 ^ (-e).toNat) 1000
  else
    let step := if s.fb Fld.THERM_PMBUS_CFG_vid_step then 10 else 5
    s.f Fld.THERM_PMBUS_CFG_vid_base + nearest ((mv : Int) - s.f Fld.THERM_PMBUS_CFG_vid_v0) step

/-- VOUT_COMMAND is written (R413), with PEC if pec is 1. -/
def State.writeVout (s : State) : State :=
  let addr := s.f Fld.THERM_PMBUS_CFG_pm_addr
  let data := leBytes 2 (toTwos 16 (s.voutCode s.therm.commanded))
  let pec := if s.fb Fld.THERM_PMBUS_CFG_pec then leBytes 1 (pec8 (leBytes 1 (2 * addr) ++ leBytes 1 0x21 ++ data)) else []
  s.emit (.pmbusWrite addr 0x21 (data ++ pec))

/-- The commanded value moves 10 mV toward a target, or less where it is nearer, and is written (R411, R413). -/
def State.stepVcore (target : Nat) (s : State) : State :=
  let v := s.therm.commanded
  if !s.therm.pmbOn || v = target then s
  else
    let next := if target < v then max target (v - 10) else min target (v + 10)
    let s := s.onTherm (fun t => { t with commanded := next, step := some (next, s.now), tries := 0, stepAt := s.now })
    s.writeVout

/-- FS073 once per entry to THROTTLE, when VCORE is at vmin (R411). -/
def State.judgeFloor (s : State) : State :=
  if s.therm.pmbOn && s.therm.throttle = .throttle && s.therm.present ≤ s.vmin && !s.therm.floorSaid then
    (s.onTherm (fun t => { t with floorSaid := true })).fault 73
  else s

/-- RECOVER ends when VCORE is at vset (R411): EV201. -/
def State.judgeRecovered (s : State) : State :=
  if s.therm.throttle = .recover && s.therm.present = s.vset && s.therm.step.isNone then
    (s.onTherm (fun t => { t with throttle := .normal })).raiseEv 201
  else s

/-- THROTTLE is entered (R411): EV201, and a step down at once. -/
def State.enterThrottle (s : State) : State :=
  let s := s.onTherm (fun t => { t with throttle := .throttle, floorSaid := false })
  let s := if s.vmin < s.therm.commanded then s.stepVcore s.vmin else s
  (s.raiseEv 201).judgeFloor

/-- The throttle is judged (R411), while throttle_en is 1. -/
def State.judgeThrottle (s : State) : State :=
  if !s.fb Fld.THERM_CTRL_throttle_en then s
  else match s.therm.throttle with
    | .normal => if s.therm.hot then s.enterThrottle else s
    | .recover => if s.therm.hot then s.enterThrottle else s
    | .throttle =>
      if s.therm.hot then s else ((s.onTherm (fun t => { t with throttle := .recover })).raiseEv 201).judgeRecovered

/-- throttle_en is written 0 (R411). -/
def State.throttleOff (s : State) : State := s.onTherm (fun t => { t with throttle := .normal })

/-- The check sensor has differed from node 1 by more than div_limit for 100 ms (R407). -/
def State.diverged (s : State) : Bool :=
  s.fb Fld.THERM_CTRL_check_en && s.therm.divergeSince.any (fun t => t + 100000000 ≤ s.now)

/-- The check sensor at a sample of the model (R407): what it shows, which no rule computes, is free. -/
def State.takeCheck (s : State) : State :=
  let (v, s) := s.free
  let check := ofTwos 16 (v % 65536)
  let apart := (check - s.therm.nodes.getD 1 0).natAbs
  let off := s.fb Fld.THERM_CTRL_check_en && s.f Fld.THERM_DIV_LIMIT_div_limit < apart
  s.onTherm (fun t => { t with
    check := check, divergeSince := if off then some (t.divergeSince.getD s.now) else none, divergeSaid := t.divergeSaid && off })

/-- Tj is compared with the thresholds (R410, R412), the faults in the order of their sources (R426). -/
def State.judgeTj (s : State) : State :=
  let t := s.therm.tj
  let s :=
    if 112 * 64 ≤ t && !s.therm.shutdown then (s.onTherm (fun t => { t with shutdown := true })).fault 72 else s
  let s := s.onTherm (fun x => { x with hot := if 103 * 64 ≤ t then true else if t < 99 * 64 then false else x.hot })
  let s := s.judgeThrottle
  if !s.therm.warn && 95 * 64 ≤ t then ((s.onTherm (fun t => { t with warn := true })).fault 77).raiseEv 200
  else if s.therm.warn && t < 92 * 64 then (s.onTherm (fun t => { t with warn := false })).raiseEv 200
  else s

end Sys2Proof.Machine
end

