-- ==== Sys2Proof/Machine/Drover.lean ====
section
/-! DEFINITION. Commands of the Drover (R415 to R419). -/

set_option Elab.async false

namespace Sys2Proof.Machine

/-- Tokens that a request is charged (R415). -/
def State.charge (s : State) (q : DReq) : Nat := min q.tokens s.lendable

/-- One request is served before another (R416, R417): lower prio, then earlier arrival. -/
def State.servedBefore (s : State) (a b : DReq) : Bool :=
  let p := s.f (Fld.DROVER_CLASS_prio a.cls)
  let q := s.f (Fld.DROVER_CLASS_prio b.cls)
  p < q || (p = q && a.order < b.order)

/-- The request at the head of the queue. -/
def State.droverHead (s : State) : Option DReq :=
  s.power.queue.foldl (fun m q => match m with
    | some x => if s.servedBefore q x then some q else m
    | none => some q) none

/-- The GRANT payload of the Drover (R510): class and tokens. -/
def droverPayload (cls tokens : Nat) : List Byte := leBytes 4 cls ++ leBytes 4 tokens

/-- A request may be granted (R417). -/
def State.droverFits (s : State) (q : DReq) : Bool :=
  s.charge q + s.tokensOut ≤ s.lendable
    && !(s.fb Fld.DROVER_CTRL_throttle_gate && s.therm.throttle ≠ .normal && !s.fb (Fld.DROVER_CLASS_throttle_ok q.cls))
    && !(s.fb Fld.DROVER_CTRL_meas_guard && s.budget * 125 < s.totalPower)

/-- The request that is granted next: the head where it may be; in replay the first that the next recorded grant names
(R510, R522). -/
def State.droverNext (s : State) : Option DReq :=
  if s.replaying then s.power.queue.find? (fun q => s.replayAllows 1 (droverPayload q.cls (s.charge q)))
  else s.droverHead.bind (fun q => if s.droverFits q then some q else none)

/-- What a holder does at once with its grant: a lane begins its training, a stream context compresses. The others look for
their grants when they have work. -/
def State.useGrant (h : Holder) (s : State) : State :=
  match h with
  | .lane n => s.laneGranted n
  | .dfl n => s.ctxGranted n
  | _ => s

/-- DROVER_GRANT (R415 to R417). -/
def execDroverGrant (dt : Nat) (s : State) : Res :=
  if s.down then .next s else
  let s := s.elapse dt
  match s.droverNext with
  | none => .next s
  | some q =>
    let n := s.charge q
    let s := s.onPower (fun p => { p with
      queue := p.queue.erase q, grants := p.grants ++ [⟨q.cls, n, q.holder, s.now, false⟩] })
    let s := s.bump Fld.DROVER_GRANTS_value 1
    let s := s.setF Fld.DROVER_WAIT_MAX_value (max (s.f Fld.DROVER_WAIT_MAX_value) ((s.now - q.at_) / 1000))
    .next ((s.journal 1 (droverPayload q.cls n)).useGrant q.holder)

/-- The holder that a class and an index name; of a self-test the index is source + 128 × target. -/
def holderOf (cls index : Nat) : Option Holder :=
  match cls with
  | 0 => some (.lane index)
  | 1 => some (.selfTest (index % 128) (index / 128))
  | 2 => some .graze
  | 3 => some (.cal index)
  | 4 => some (.upload index)
  | 5 => some (.dfl index)
  | 6 => some .scrub
  | 7 => some (.firmware index)
  | _ => none

/-- The holder's work has not ended (R418), as far as the state shows it: it keeps its tokens, or goes on waiting. -/
def State.stillWorks (s : State) (h : Holder) : Bool :=
  match h with
  | .lane n => (s.lane n).awaiting || ((s.lane n).tstate ≠ .off && (s.lane n).tstate ≠ .active && (s.lane n).tstate ≠ .failed)
  | .selfTest src target => s.testPending src target
  | .graze => s.hold.graze = .awaitGrant || s.hold.graze = .running
  | .cal p => (s.calPort p).run = .awaiting || (s.calPort p).run = .measuring
  | .upload p => (s.port p).inFrame
  | .dfl n => (s.dctx n).any (fun c => c.state = .working)
  | .scrub => s.f Fld.MEMC_SCRUB_scrub_h ≠ 0
  | .firmware _ => false

/-- DROVER_RETURN (R418). -/
def execDroverReturn (dt : Nat) (cls index : Nat) (s : State) : Res :=
  if s.down then .next s else
  let s := s.elapse dt
  match holderOf cls index with
  | some h => .next (if s.stillWorks h then s else s.droverDrop h)
  | none => .next s

/-- HOLD_LONG (R419): FS084, once for the grant. -/
def execHoldLong (dt : Nat) (index : Nat) (s : State) : Res :=
  if s.down then .next s else
  let s := s.elapse dt
  match s.power.grants[index]? with
  | none => .next s
  | some g =>
    let sec := orIfZero (s.f Fld.DROVER_HOLD_MAX_hold_max) 1
    if g.longSaid || s.now ≤ g.since + sec * 1000000000 then .next s
    else .next ((s.onPower (fun p => { p with
      grants := p.grants.modify index (fun g => { g with longSaid := true }) })).fault 84)

/-- DROVER_WAIT (R419): EV207, once per request. -/
def execDroverWait (dt : Nat) (index : Nat) (s : State) : Res :=
  if s.down then .next s else
  let s := s.elapse dt
  match s.power.queue[index]? with
  | none => .next s
  | some q =>
    let us := s.f Fld.DROVER_WAIT_WARN_wait_warn
    if us = 0 || q.warned || s.now ≤ q.at_ + us * 1000 then .next s
    else .next ((s.onPower (fun p => { p with
      queue := p.queue.modify index (fun q => { q with warned := true }) })).raiseEv 207)

/-- BUDGET_OVER (R419): once for each time that power has exceeded the budget for 10 ms. -/
def execBudgetOver (dt : Nat) (s : State) : Res :=
  if s.down then .next s else
  let s := s.elapse dt
  match s.power.overSince with
  | some t =>
    if s.power.overSaid || s.now < t + 10000000 then .next s
    else .next (((s.onPower (fun p => { p with overSaid := true })).fault 81).raiseEv 208)
  | none => .next s

end Sys2Proof.Machine
end

