-- ==== Sys2Proof/Machine/HostRings.lean ====
section
/-! DEFINITION. Commands of the host interface: endpoint, rings, doorbells, descriptors, completions, FENCE and ABORT (R29 to
R68, R556, R557). -/

set_option Elab.async false

namespace Sys2Proof.Machine

/-! ### Rings -/

/-- Slots of a ring (R34). -/
def State.ringSize (s : State) (n : Nat) : Nat := 2 ^ s.f (Fld.HIF_RING_CFG_size_log2 n)

/-- A ring is enabled, and is a completion ring. -/
def State.ringOn (s : State) (n : Nat) : Bool := s.fb (Fld.HIF_RING_CFG_enable n)
def State.isCring (s : State) (n : Nat) : Bool := s.fb (Fld.HIF_RING_CFG_kind n)

/-- Host address of a ring. -/
def State.ringBase (s : State) (n : Nat) : Nat :=
  s.f (Fld.HIF_RING_BASE_LO_value n) * 4096 + s.f (Fld.HIF_RING_BASE_HI_value n) * 2 ^ 32

/-- Host address of the doorbell page (R36). -/
def State.doorPage (s : State) : Nat :=
  s.f Fld.HIF_DB_ADDR_LO_value * 4096 + s.f Fld.HIF_DB_ADDR_HI_value * 2 ^ 32

/-- A completion ring has room (R51). -/
def State.cringRoom (s : State) (n : Nat) : Bool :=
  s.ringOn n && s.isCring n && diff32 (s.ring n).count (s.ring n).door < s.ringSize n

/-- The progress word of a ring is written (R38). -/
def State.writeProgress (n : Nat) (s : State) : State :=
  s.emit (.hostWrite (s.doorPage + 0x100 + 4 * n) (leBytes 4 (s.ring n).count))

/-- Polling leaves back-off (R40). -/
def State.leaveBackoff (s : State) : State :=
  if s.hif.slow then (s.onHif (fun h => { h with slow := false, lastChange := s.now })).raiseEv 18 else s

/-- A completion ring's event is raised and its unsignalled count returns to 0 (R50). -/
def State.signalRing (n : Nat) (s : State) : State :=
  let s := s.onRing n (fun r => { r with unsig := 0 })
  s.raiseEv (s.f (Fld.HIF_RING_CFG_event n))

/-- The 16 bytes of a completion with its phase bit (R47, R48). -/
def Completion.bytes (c : Completion) (phase : Bool) : List Byte :=
  leBytes 2 c.tag ++ leBytes 1 c.ring ++ leBytes 1 c.status ++ leBytes 4 c.result ++ leBytes 4 c.time
    ++ leBytes 2 c.slot ++ leBytes 1 c.opcode ++ leBytes 1 (128 * b2n phase + b2n c.final)

/-- The phase bit of the next completion of a ring (R48): 1 on the first pass. -/
def State.ringPhase (s : State) (n : Nat) : Bool := (s.ring n).count / s.ringSize n % 2 = 0

/-- The descriptor of a written completion: gone after its final completion (R43). -/
def State.noteWritten (c : Completion) (s : State) : State :=
  if c.final then s.onHif (fun h => { h with inflight := h.inflight.filter (fun d => d.order ≠ c.order) })
  else s.onDesc c.order (fun d => { d with primaryOut := true })

/-- A completion is written to its ring (R48, R50, R51): bytes 0 to 14, then byte 15, the progress word, the event. -/
def State.writeCompletion (c : Completion) (s : State) : State :=
  let n := c.cring
  let bs := c.bytes (s.ringPhase n)
  let a := s.ringBase n + (s.ring n).count % s.ringSize n * 16
  let s := s.emit (.hostWrite a (bs.take 15))
  let s := s.emit (.hostWrite (a + 15) (bs.drop 15))
  let s := s.onRing n (fun r => { r with
    count := (r.count + 1) % 2 ^ 32, unsig := r.unsig + 1, unsigSince := if r.unsig = 0 then s.now else r.unsigSince })
  let s := s.writeProgress n
  let s := s.noteWritten c
  let s := s.leaveBackoff
  let s := if c.notify || (s.ring n).unsig ≥ orIfZero (s.f (Fld.HIF_RING_MOD_mod_count n)) 1 then s.signalRing n else s
  if diff32 (s.ring n).count (s.ring n).door = s.ringSize n && !(s.ring n).filled then
    (s.onRing n (fun r => { r with filled := true })).raiseEv 16
  else s

/-- The primary completion of a descriptor has been written (R55). -/
def State.primaryDone (s : State) (order : Nat) : Bool :=
  match s.descAt order with
  | some d => d.primaryOut
  | none => !s.hif.held.any (fun e => e.order = order)

/-- A held completion can be written: its ring has room, and the completion that R55 puts before it has been written. -/
def State.writable (s : State) (c : Completion) : Bool := s.cringRoom c.cring && c.after.all s.primaryDone

/-- The held completions of a ring are written in order while there is room (R51). -/
def State.drainRing (n : Nat) (s : State) : State :=
  s.hif.held.foldl (fun s c =>
    if c.cring = n && s.writable c then
      (s.onHif (fun h => { h with held := h.held.erase c })).writeCompletion c
    else s) s

/-- A ring halts with a cause (R39, R68): EV017. -/
def State.haltRing (n cause : Nat) (s : State) : State :=
  (s.onRing n (fun r => { r with halted := true, cause := cause })).raiseEv 17

/-! ### The endpoint -/

/-- Lanes that STRAP_PCIE selects (R530). -/
def State.strapWidth (s : State) : Nat :=
  if s.sys.straps.pcie = 1 then 4 else if s.sys.straps.pcie = 2 then 2 else 8

/-- CONFIG_REQUEST (R30): retry status until ready. -/
def execConfigRequest (dt : Nat) (s : State) : Res :=
  if s.down then .next s else
  let s := s.elapse dt
  .next (s.emit (.configReply (if s.hif.ready then some (Caps.ofWidth s.strapWidth) else none)))

/-- The lease of a STREAMED layer ends with a reset (R32): no further page is read or comes. -/
def Content.endLease (c : Content) : Content :=
  if c.streamed then { c with dead := true, reads := c.reads.filter (fun p => p.state ≠ .asked) } else c

/-- Upload of a port's frames ends (R32, R299). -/
def State.endUpload (s : State) (port : Nat) : State :=
  ((s.onPort port (fun p => { p with upPages := [], upLen := 0, upOff := 0, upTake := if p.inFrame then some false else none, upData := [], upWait := [] })).closeCtx
    (8 + port)).droverDrop (.upload port)

/-- What a reset of the host interface clears (R32): registers, rings, leases, held completions; descriptors not past
their retire point are withdrawn. -/
def State.hifReset (s : State) : State :=
  let s := s.hif.inflight.foldl (fun s d => if d.retired then s else s.withdraw d) s
  let s := s.clearRegs 0x100000 0x1FFFFF
  let s := s.onLay (fun l => { l with
    inForce := l.inForce.map (Option.map Content.endLease),
    waiting := l.waiting.map (List.map (fun b =>
      { b with content := b.content.map Content.endLease })) })
  let s := s.onLink (fun l => { l with reqs := l.reqs.map (fun r => { r with mute := true }) })
  let s := (List.range 6).foldl (fun s p => s.endUpload p) s
  let s := s.onHif (fun h => { Hif.reset with
    linkUp := h.linkUp, rate := h.rate, width := h.width, readData := h.readData, captures := h.captures,
    nextOrder := h.nextOrder, mute := true })
  let s := s.setSticky Reg.SYS_RST_CAUSE 0x100
  s.agentReset State.faultFor 1

/-- FUNCTION_LEVEL_RESET (R32, R461). -/
def execFunctionLevelReset (dt : Nat) (s : State) : Res := if s.down then .next s else .next (s.elapse dt).hifReset

/-- PCIE_RESET (R30, R67, R532): PERST_N or a hot reset; the link goes down with it, FS068 while any bar has HV_EN asserted. -/
def execPcieReset (dt : Nat) (s : State) : Res :=
  if s.down then .next s else
  let s := s.elapse dt
  let lost := s.hif.linkUp && s.jet.bars.any (fun b => b.hv)
  let s := s.hifReset.onHif (fun h => { h with linkUp := false, rate := 0, width := 0 })
  .next (if lost then s.fault 68 else s)

/-- HIF_READY (R30, R534): the reset of the host interface is complete. -/
def execHifReady (dt : Nat) (s : State) : Res :=
  if s.down then .next s else
  .next ((s.elapse dt).onHif (fun h => { h with ready := true, resetting := false }))

/-- PCIE_LINK_TRAINED (R31): a low rate or width raises FS069; EV020. -/
def execPcieLinkTrained (dt rate width : Nat) (s : State) : Res :=
  if s.down then .next s else
  let s := s.elapse dt
  let s := s.onHif (fun h => { h with linkUp := true, rate := rate, width := width })
  let s := if rate < 3 || width < s.strapWidth then s.fault 69 else s
  .next (s.raiseEv 20)

/-- PCIE_LINK_DOWN (R67): FS068 while any bar has HV_EN asserted. -/
def execPcieLinkDown (dt : Nat) (s : State) : Res :=
  if s.down then .next s else
  let s := s.elapse dt
  let s := s.onHif (fun h => { h with linkUp := false })
  .next (if s.jet.bars.any (fun b => b.hv) then s.fault 68 else s)

/-! ### Enabling rings -/

/-- The writable fields of HIF_RING_CFG. -/
def ringCfgMask : Nat := 0x811F3F6F

/-- RING_ENABLE (R35, R36, R51, R535): a write of enable 1 to HIF_RING_CFG. -/
def execRingEnable (dt : Nat) (ring : Fin 64) (cfg : Word) (s : State) : Res :=
  if s.down then .next s else
  let s := s.elapse dt
  if !s.writeOpen 1 (Reg.HIF_RING_CFG ring.val).off then .next s else
  let s := s.noteWrite 1 (Reg.HIF_RING_CFG ring.val).off cfg.toNat
  let n := ring.val
  if !s.sys.ready || s.ringOn n then .next s
  else
    let s := s.setReg (Reg.HIF_RING_CFG n) ((cfg.toNat &&& ringCfgMask) % 2 ^ 31)
    let size := s.f (Fld.HIF_RING_CFG_size_log2 n)
    let c := s.f (Fld.HIF_RING_CFG_cring n)
    if size < 6 || 16 < size then .next (s.haltRing n 1)
    else if !s.isCring n && !(s.ringOn c && s.isCring c) then .next (s.haltRing n 4)
    else
      let s := s.setF (Fld.HIF_RING_CFG_enable n) 1
      let s := s.onRing n (fun r => { Ring.reset with lost := r.lost })
      let s := (s.onHif (fun h => { h with mute := false })).readToken
      .next (s.drainRing n)

/-- Reads of a ring under way whose descriptors are no longer wanted: what they bring is dropped. -/
def Ring.drop (r : Ring) : Ring := { r with fetched := r.count, reads := [], lost := r.lost ++ r.reads.map (fun x => x.1) }

/-- RING_DISABLE (R35, R51): a write of enable 0; halted is cleared, and an enabled ring's other fields stay. Descriptors asked for and not
yet returned are dropped when they come (DESIGN CHOICE 77: no rule speaks of them). -/
def execRingDisable (dt : Nat) (ring : Fin 64) (cfg : Word) (s : State) : Res :=
  if s.down then .next s else
  let s := s.elapse dt
  if !s.writeOpen 1 (Reg.HIF_RING_CFG ring.val).off then .next s else
  let s := s.noteWrite 1 (Reg.HIF_RING_CFG ring.val).off cfg.toNat
  let n := ring.val
  let s := if s.ringOn n then s.setF (Fld.HIF_RING_CFG_enable n) 0
    else s.setReg (Reg.HIF_RING_CFG n) ((cfg.toNat &&& ringCfgMask) % 2 ^ 31)
  .next (s.onRing n (fun r => { r.drop with halted := false }))

/-! ### Doorbells -/

/-- One read of the 256 bytes of doorbells is issued (R40). -/
def State.poll (s : State) : State :=
  let s := s.onHif (fun h => { h with polls := h.polls ++ [s.now], pollAt := some s.now })
  s.emit (.hostRead s.doorPage 256 false)

/-- The poll interval in ns (R40): db_poll in its range, 100 µs in back-off. -/
def State.pollEvery (s : State) : Nat := if s.hif.slow then 100000 else clampNat 250 1000000 (s.f Fld.HIF_DB_CFG_db_poll)

/-- DOORBELL_POLL (R40): one interval after the poll before, whether or not that has returned; a kick counts as a poll. It waits while 512
reads are under way (R29). -/
def execDoorbellPoll (dt : Nat) (s : State) : Res :=
  if s.down then .next s else
  let s := s.elapse dt
  .next (if s.fb Fld.HIF_CTRL_db_enable && s.hif.ready && !s.hif.mute && s.readsOut < 512
      && s.hif.pollAt.all (fun t => t + s.pollEvery ≤ s.now)
    then s.poll else s)

/-- DB_KICK (R40): an immediate poll, and back-off ends. While 512 reads are under way (R29) the poll is due, and waits. -/
def execDbKick (dt : Nat) (s : State) : Res :=
  if s.down then .next s else
  let s := s.elapse dt
  if !s.writeOpen 1 Reg.HIF_DB_KICK.off then .next s else
  let s := s.noteWrite 1 Reg.HIF_DB_KICK.off 1
  let s := s.leaveBackoff
  .next (if !s.hif.ready || s.hif.mute then s
    else if s.readsOut < 512 then s.poll
    else s.onHif (fun h => { h with pollAt := none }))

/-- The device acts on a doorbell value of a ring (R37, R39, R51). -/
def State.takeDoorbell (n value : Nat) (s : State) : State :=
  if !s.ringOn n || (s.ring n).door = value then s
  else
    let s := s.onRing n (fun r => { r with door := value })
    let s := s.onHif (fun h => { h with lastChange := s.now })
    let s := s.tallyEntry 0x20 n (leBytes 4 value)
    if s.isCring n then s.onRing n (fun r => { r with filled := false })
    else if !(s.ring n).halted && diff32 value (s.ring n).count > s.ringSize n then (s.haltRing n 2).fault 66
    else s

/-- The device acts on one ring's doorbell as read; those of recorded rings are ignored in replay (R521). -/
def State.actDoorbell (n value : Nat) (s : State) : State :=
  if s.replaying && s.tally.rings.contains n then s else s.takeDoorbell n value

/-- DOORBELL_READ_DONE (R39 to R42): the 64 doorbells of the oldest read under way have returned. A round trip above 65,535 ns reads as 65,535
in HIF_RTT (DESIGN CHOICE 77: its fields have 16 bits, and R41 does not say what they hold then). -/
def execDoorbellReadDone (dt : Nat) (bells : List Word) (s : State) : Res :=
  if s.down then .next s else
  if bells.length = 64 then
    let s := s.elapse dt
    match s.hif.polls with
    | [] => .next s
    | t :: ts =>
      let rtt := min 65535 (s.now - t)
      let before := s.hif.rings.map (fun r => r.door)
      let s := s.onHif (fun h => { h with polls := ts, failRun := 0, rttLast := rtt })
      let s := s.setF Fld.HIF_RTT_max (max rtt (s.f Fld.HIF_RTT_max))
      let s := (List.range 64).foldl (fun s n => s.actDoorbell n (bells.getD n 0).toNat) s
      .next (if s.hif.rings.map (fun r => r.door) = before then s else s.leaveBackoff)
  else .fault .illFormed

/-- DOORBELL_READ_FAIL (R42): FS065 at the third failure of a run. -/
def execDoorbellReadFail (dt : Nat) (s : State) : Res :=
  if s.down then .next s else
  let s := s.elapse dt
  match s.hif.polls with
  | [] => .next s
  | _ :: ts =>
    let s := s.onHif (fun h => { h with polls := ts, failRun := h.failRun + 1 })
    .next (if s.hif.failRun = 3 then s.fault 65 else s)

/-- DB_BACKOFF (R40): 10 ms without a change while the host interface is active. -/
def execDbBackoff (dt : Nat) (s : State) : Res :=
  if s.down then .next s else
  let s := s.elapse dt
  .next (
    if s.fb Fld.HIF_CTRL_db_enable && s.hif.ready && s.fb Fld.HIF_DB_CFG_backoff_en && !s.hif.slow && s.now - s.hif.lastChange ≥ 10000000 then
      (s.onHif (fun h => { h with slow := true })).raiseEv 18
    else s)

/-! ### Descriptors -/

/-- Descriptors that a submission ring may be asked for now (R43, R51): posted and not asked for. -/
def State.fetchable (s : State) (n : Nat) : Nat :=
  let r := s.ring n
  if s.ringOn n && !s.isCring n && !r.halted && s.cringRoom (s.f (Fld.HIF_RING_CFG_cring n))
      && !(s.hif.held.any (fun c => c.cring = s.f (Fld.HIF_RING_CFG_cring n) && !s.cringRoom c.cring))
  then diff32 r.door r.fetched else 0

/-- Descriptors in flight or asked for (R43). -/
def State.inFlight (s : State) : Nat :=
  s.hif.inflight.length + ((List.range 64).map (fun n => if s.isCring n then 0 else diff32 (s.ring n).fetched (s.ring n).count)).sum

/-- The ring to serve next: high priority before normal, equal priorities in turn after the one served last (R43). -/
def State.nextRing (s : State) : Option Nat :=
  let turn := (List.range 64).map (fun i => (s.hif.lastServed + 1 + i) % 64)
  let some_ := turn.filter (fun n => s.fetchable n > 0)
  match some_.find? (fun n => s.fb (Fld.HIF_RING_CFG_prio n)) with
  | some n => some n
  | none => some_.head?

/-- The reads of n slots from the next: slot and number, two where the ring wraps. -/
def State.slotReads (s : State) (ring n : Nat) : List (Nat × Nat) :=
  let size := s.ringSize ring
  let at_ := (s.ring ring).fetched % size
  let a := min n (size - at_)
  (at_, a) :: (if a < n then [(0, n - a)] else [])

/-- DESCRIPTOR_FETCH (R43, R51, R537): at most 16 descriptors of one ring are asked for. -/
def execDescriptorFetch (dt : Nat) (s : State) : Res :=
  if s.down then .next s else
  let s := s.elapse dt
  if s.fb Fld.HIF_CTRL_quiesce || !s.sys.ready || !s.hif.ready then .next s
  else
    match s.nextRing with
    | none => .next s
    | some r =>
      let n := min (min 16 (s.fetchable r)) (1024 - s.inFlight)
      if n = 0 || s.hif.mute || 510 < s.readsOut then .next s
      else
        let rs : List (Nat × Nat) := s.slotReads r n
        let s := { s with out := s.out ++ rs.map (fun (p : Nat × Nat) => Out.hostRead (s.ringBase r + p.1 * 64) (p.2 * 64) false) }
        let s := s.onRing r (fun x => { x with
          fetched := (x.fetched + n) % 2 ^ 32, reads := x.reads ++ rs.map (fun (p : Nat × Nat) => (p.2, p.2)) })
        .next (s.onHif (fun h => { h with lastServed := r }))

/-- One descriptor of the oldest read under way has come. -/
def readOne : List (Nat × Nat) → List (Nat × Nat)
  | [] => []
  | x :: xs => if x.2 ≤ 1 then xs else (x.1, x.2 - 1) :: xs

/-- A descriptor of a ring comes onto the chip (R36, R38): the device's count and the progress word move on. -/
def State.countRead (n : Nat) (s : State) : State :=
  (s.onRing n (fun r => { r with count := (r.count + 1) % 2 ^ 32, reads := readOne r.reads })).writeProgress n

/-- The slot of a descriptor that was aborted unread is reached: its place in the order of reading is known (R54). -/
def State.reachSkipped (n slot : Nat) (s : State) : State :=
  s.onHif (fun h => { h with held := h.held.map (fun c =>
    if c.unread && c.ring = n && c.slot = slot && c.place.isNone then { c with place := some h.nextOrder } else c) })

/-- DESCRIPTOR_ARRIVE (R43 to R45, R55, R521): the descriptor is checked and kept, or completes with an error. A slot that
an ABORT withdrew is skipped. Descriptors asked for before their ring halted on OVERRUN are taken like those already read (DESIGN CHOICE 77:
R39 speaks of further reads and of descriptors already read). -/
def execDescriptorArrive (dt : Nat) (ring : Fin 64) (bytes : List Byte) (s : State) : Res :=
  if s.down then .next s else
  if bytes.length = 64 then
    let s := s.elapse dt
    let n := ring.val
    let r := s.ring n
    if !s.ringOn n || s.isCring n || diff32 r.fetched r.count = 0 then .next s
    else if r.skips.contains r.count then
      let s := (s.onRing n (fun x => { x with skips := x.skips.filter (· ≠ r.count) })).reachSkipped n (r.count % s.ringSize n)
      .next (s.countRead n)
    else
      let d : Desc := ⟨n, r.count % s.ringSize n, bytes, s.hif.nextOrder, s.f (Fld.HIF_RING_CFG_cring n), false, false, false⟩
      let s := s.onHif (fun h => { h with inflight := h.inflight ++ [d], nextOrder := h.nextOrder + 1 })
      let s := s.countRead n
      let s := s.observe 0x21 n (leBytes 4 d.slot ++ leBytes 4 (crc32c bytes))
      match s.checkDesc d with
      | some st => .next (s.complete d st 0)
      | none =>
        if s.replaying && !s.tally.rings.contains n && d.opcode ≠ 0x40 && d.opcode ≠ 0x7E && d.opcode ≠ 0x7F then
          .next (s.complete d 0x15 0)
        else .next s
  else .fault .illFormed

/-- DESCRIPTOR_READ_FAIL (R67, R68): the read of n descriptors has failed. The ring halts with cause DMA; FS064 and FS066. The ring's
other reads under way are dropped (DESIGN CHOICE 77: R68 speaks only of descriptors already read). One that fails too does the same, also after
its ring has been disabled, or enabled again; a ring that is halted stays so. -/
def execDescriptorReadFail (dt : Nat) (ring : Fin 64) (n : Nat) (s : State) : Res :=
  if s.down then .next s else
  let s := s.elapse dt
  let r := s.ring ring.val
  if r.reads.contains (n, n) then
    let s := s.onRing ring.val (fun r => { r with reads := r.reads.erase (n, n) }.drop)
    let s := s.haltRing ring.val 3
    .next ((s.fault 64).fault 66)
  else if r.lost.contains n then
    let s := s.onRing ring.val (fun r => { r with lost := r.lost.erase n }.drop)
    let s := if (s.ring ring.val).halted then s else s.haltRing ring.val 3
    .next ((s.fault 64).fault 66)
  else .next s

/-! ### Completions -/

/-- COMPLETION_WRITE (R48, R51, R55): the oldest completion that can be written is written. -/
def execCompletionWrite (dt : Nat) (s : State) : Res :=
  if s.down then .next s else
  let s := s.elapse dt
  match s.hif.held.find? s.writable with
  | some c => .next ((s.onHif (fun h => { h with held := h.held.erase c })).writeCompletion c)
  | none => .next s

/-- COMPLETION_DRAIN (R51): room has appeared in a completion ring. -/
def execCompletionDrain (dt : Nat) (ring : Fin 64) (s : State) : Res := if s.down then .next s else .next ((s.elapse dt).drainRing ring.val)

/-- COMPLETION_MOD_TIMEOUT (R50): mod_time has passed since the first unsignalled completion. -/
def execCompletionModTimeout (dt : Nat) (ring : Fin 64) (s : State) : Res :=
  if s.down then .next s else
  let s := s.elapse dt
  let n := ring.val
  let t := s.f (Fld.HIF_RING_MOD_mod_time n)
  .next (if s.ringOn n && t ≠ 0 && (s.ring n).unsig ≠ 0 && s.now - (s.ring n).unsigSince ≥ t * 100
    then s.signalRing n else s)

/-- MSIX_UNMASK (R65): the vector's mask bit is written 0; a pending message is sent. -/
def execMsixUnmask (dt : Nat) (vector : Fin 256) (s : State) : Res :=
  if s.down then .next s else
  let s := s.elapse dt
  if !s.writeOpen 1 (Reg.MSIX_VCTRL vector.val).off then .next s else
  let s := s.noteWrite 1 (Reg.MSIX_VCTRL vector.val).off 0
  let v := vector.val
  let s := s.setF ⟨Reg.MSIX_VCTRL v, 0, 0⟩ 0
  .next (if s.hif.pba.contains v then (s.onHif (fun h => { h with pba := h.pba.filter (· ≠ v) })).emit (.msi v) else s)

/-! ### FENCE and ABORT -/

/-- FENCE (R54): started; its ring is held back until it completes. -/
def execFence (dt : Nat) (ring : Fin 64) (slot : Nat) (s : State) : Res :=
  if s.down then .next s else
  let s := s.elapse dt
  match s.startable ring.val slot 0x7E with
  | some d => .next (s.start d)
  | none => .next s

/-- A descriptor in a FENCE's scope has not yet written the completion that the FENCE waits for. -/
def fenceWaits (f e : Desc) : Bool :=
  e.order < f.order && (f.byte 8 = 1 || e.ring = f.ring) && (f.byte 9 = 1 || !e.primaryOut)

/-- An earlier descriptor of a FENCE's ring was aborted unread, and has not yet written ABORTED; one that was never read is in the scope of its
own ring alone. -/
def abortWaits (f : Desc) (c : Completion) : Bool :=
  c.unread && f.byte 8 = 0 && c.ring = f.ring && c.place.any (fun p => p ≤ f.order)

/-- FENCE_RELEASE (R54). -/
def execFenceRelease (dt : Nat) (ring : Fin 64) (slot : Nat) (s : State) : Res :=
  if s.down then .next s else
  let s := s.elapse dt
  match s.liveAs ring.val slot (fun d => d.opcode = 0x7E && d.started) with
  | some d =>
    if !s.hif.inflight.any (fenceWaits d) && !s.hif.held.any (abortWaits d) then .next (s.complete d 0 0) else .next s
  | none => .next s

/-- The posted and unread count of a slot of a submission ring, if there is one (R55). One that an ABORT has withdrawn is posted no
more, nor is it among the retired: a second ABORT of it gives ABORT_UNKNOWN (DESIGN CHOICE 77: R55 does not say). -/
def State.postedCount (s : State) (n slot : Nat) : Option Nat :=
  let r := s.ring n
  let c := (r.count + (slot + s.ringSize n - r.count % s.ringSize n) % s.ringSize n) % 2 ^ 32
  if s.ringOn n && !s.isCring n && slot < s.ringSize n && diff32 c r.count < diff32 r.door r.count && !r.skips.contains c then some c else none

/-- The completion ABORTED of a descriptor that was never read: its opcode and notify flag are not known to the device,
so the opcode is a free value. -/
def State.abortUnread (n slot tag : Nat) (s : State) : State :=
  let (v, s) := s.free
  let c : Completion := ⟨s.f (Fld.HIF_RING_CFG_cring n), tag, n, 0x08, 0, s.devTime, slot, v % 256, true, false, s.hif.nextOrder,
    none, true, none⟩
  s.onHif (fun h => { h with held := h.held ++ [c], nextOrder := h.nextOrder + 1 })

/-- The completion of an ABORT, which is written after that of its target (R55). -/
def State.completeAfter (d : Desc) (status target : Nat) (s : State) : State :=
  let c := { s.mkCompletion d status 0 true with after := some target }
  let s := s.retire d
  s.onHif (fun h => { h with held := h.held ++ [c] })

/-- ABORT decides its target in the order of R55. An EXPOSE_SET whose write has started is past what an ABORT can stop (R286). -/
def State.decideAbort (d : Desc) (s : State) : State :=
  let n := d.byte 8
  let slot := d.num 10 2
  let tag := d.num 12 2
  let mine := fun (e : Desc) => e.ring = n && e.slot = slot && e.tag = tag && e.opcode ≠ 0x7F
  let sent := fun (e : Desc) => s.see.buses.any (fun b => b.busy = some e.order)
  match s.hif.inflight.find? (fun e => mine e && !e.retired && !sent e) with
  | some e => ((s.withdraw e).complete e 0x08 0).completeAfter d 0x09 e.order
  | none =>
    match s.postedCount n slot with
    | some c =>
      let s := s.onRing n (fun r => { r with skips := r.skips ++ [c] })
      (s.abortUnread n slot tag).completeAfter d 0x09 s.hif.nextOrder
    | none =>
      match s.hif.inflight.find? (fun e => mine e && (e.retired || sent e)) with
      | some e => s.completeAfter d 0x0A e.order
      | none =>
        if s.hif.retired.any (fun r => r.ring = n && r.slot = slot && r.tag = tag && r.opcode ≠ 0x7F) then s.complete d 0x0A 0
        else s.complete d 0x0B 0

/-- ABORT (R55, R56). -/
def execAbort (dt : Nat) (ring : Fin 64) (slot : Nat) (s : State) : Res :=
  if s.down then .next s else
  let s := s.elapse dt
  match s.startable ring.val slot 0x7F with
  | some d => .next (s.decideAbort d)
  | none => .next s

end Sys2Proof.Machine
end

