-- ==== Sys2Proof/Machine/JetOps.lean ====
section
/-! DEFINITION. Shared operations of scan-out and firing: what each tick sends (R189 to R192), underrun (R196, R197), fire
lines and their faults (R198 to R205), raster conditions (R207, R208). -/

set_option Elab.async false

namespace Sys2Proof.Machine

/-! ### What lies over a nozzle -/

/-- What lies over a nozzle at a tick: nothing that prints, line i of a ring band, or a line whose band composition has not yet
begun, by the tick at which that band begins at the bar and the line itself (R189, R196). -/
inductive Over
  | nothing
  | band (q : RingBand) (i : Nat)
  | late (key : Int) (line : Nat)
  deriving DecidableEq, Repr, Inhabited

/-- The rings that a bar holds. -/
def Bar.rings (x : Bar) : List DelayRing := x.ring.toList ++ x.oldRings

/-- The band that covers a tick. -/
def Bar.bandAt (x : Bar) (t : Int) : Option RingBand :=
  (x.rings.flatMap (fun r => r.bands)).find? (fun q => q.m ≤ t && t < q.m + q.code0.length)

/-- What lies over tick t of a bar. -/
def State.overBar (s : State) (b : Nat) (t : Int) : Over :=
  match (s.bar b).bandAt t with
  | some q => .band q (t - q.m).toNat
  | none =>
    if (s.bar b).ring.isNone then .nothing
    else match s.lay.spans.find? (fun p => p.m0 ≤ t && t < p.m0 + p.length + p.gap) with
      | some p =>
        let i := (t - p.m0).toNat
        if i < p.length then .late (p.m0 + (i / 64 * 64 : Nat)) (p.line0 + i) else .nothing
      | none =>
        match s.jet.mJob, s.lay.job with
        | some mj, some j =>
          let mine := s.lay.spans.filter (fun p => mj ≤ p.m0)
          let stop : Int := mine.foldl (fun (a : Int) p => max a (p.m0 + p.length + p.gap)) mj
          if t < stop || (j.closed && mine.any (fun p => p.image = j.last)) then .nothing
          else
            let e := (stop - mj).toNat
            let y := (t - mj).toNat
            .late (mj + (e + (y - e) / 64 * 64 : Nat)) y
        | _, _ => .nothing

/-! ### Raster conditions (R207) -/

/-- A raster condition of a bar: 0 GAP_START, 1 LINE_MATCH, 2 IMAGE_DONE, 3 UNDERRUN; ref and own say for which of the two
judgements it holds. -/
def State.barCond (b c : Nat) (ref own : Bool) (s : State) : State :=
  let s := if ref && s.f Fld.JET_CTRL_ref_bar = b then s.raiseEv (44 + c) else s
  if own && bitOf (s.f (Fld.JET_BAR_CTRL_ev_en b)) c then
    (s.setSticky (Reg.JET_BAR_EVSTAT b) (2 ^ c)).raiseEv (48 + b)
  else s

/-! ### Underrun (R196, R197) -/

/-- The band that begins at a tick, changed in whichever ring of a bar holds it. -/
def State.onBand (b : Nat) (key : Int) (f : RingBand → RingBand) (s : State) : State :=
  let g := fun (r : DelayRing) => { r with bands := r.bands.map (fun q => if q.m = key then f q else q) }
  s.onBar b (fun x => { x with ring := x.ring.map g, oldRings := x.oldRings.map g })

/-- A bar's rings hold the band that begins at a tick. -/
def State.hasBand (s : State) (b : Nat) (key : Int) : Bool := (s.bar b).rings.any (fun r => r.bands.any (fun q => q.m = key))

/-- Ticks a to b are damaged at some bar: an estimate of their image is discarded (R318). -/
def State.hurtTicks (a b : Int) (s : State) : State :=
  s.onLay (fun l => { l with spans := l.spans.map (fun p =>
    if p.m0 ≤ b && a < p.m0 + p.length then { p with hurt := (a, b) :: p.hurt } else p) })

/-- The image that has a tick is marked rejected where an underrun rejects (R196, R197). -/
def State.rejectAtTick (m : Int) (s : State) : State :=
  match s.lay.spans.find? (fun p => p.m0 ≤ m && m < p.m0 + p.length) with
  | some p => if s.fb Fld.JET_CTRL_underrun_reject then s.markImage p.image else s
  | none => s

/-- The payload of an underrun GRANT (R510): bar, and job line of the band. -/
def underrunPayload (b line : Nat) : List Byte := leBytes 4 b ++ leBytes 4 line

/-- The last tick of the band that begins at a tick: the last band of an image may be short (R92). -/
def State.bandEnd (s : State) (key : Int) : Int :=
  match s.lay.spans.find? (fun p => p.m0 ≤ key && key < p.m0 + p.length) with
  | some p => min (key + 63) (p.m0 + p.length - 1)
  | none => key + 63

/-- A band, by the tick and the job line at which it begins, is marked underrun at one bar: FS041, the condition, the count, the GRANT,
and REJECT (R196, R197, R510). -/
def State.markUnderrun (b : Nat) (key : Int) (line : Nat) (s : State) : State :=
  let s := s.journal 5 (underrunPayload b line)
  let s := if s.hasBand b key then s.onBand b key (fun q => { q with underrun := true, begun := true })
    else s.onBar b (fun x => { x with ring := x.ring.map (fun r => { r with late := key :: r.late }) })
  let s := s.bump ⟨Reg.JET_BAR_UNDERRUN b, 31, 0⟩ 1
  let s := (s.faultBar 41 b).barCond b 3 true true
  (s.hurtTicks key (s.bandEnd key)).rejectAtTick key

/-- A bar has begun to send a band, or has judged it; one whose rings cannot hold it is past it. -/
def State.begunAt (s : State) (b : Nat) (key : Int) : Bool :=
  (s.bar b).rings.any (fun r => r.late.contains key || r.bands.any (fun q => q.m = key && q.begun))
    || ((s.bar b).ring.isNone && !s.hasBand b key)

/-- A band is marked underrun at the bar that needs it, and with underrun_all at every bar that has not begun it. -/
def State.underrun (b : Nat) (key : Int) (line : Nat) (s : State) : State :=
  let s := s.markUnderrun b key line
  if s.fb Fld.JET_CTRL_underrun_all then
    (List.range 8).foldl (fun s c => if c = b || s.begunAt c key then s else s.markUnderrun c key line) s
  else s

/-- A band is judged when a bar first needs one of its lines (R196). -/
def State.judgeOver1 (b : Nat) (s : State) (t : Int) : State :=
  match s.overBar b t with
  | .nothing => s
  | .band q _ =>
    if q.begun then s
    else if s.forced 5 (underrunPayload b q.line) (!q.complete) then s.underrun b q.m q.line
    else s.onBand b q.m (fun q => { q with begun := true })
  | .late key y =>
    let line := y - (t - key).toNat
    if s.begunAt b key || !s.forced 5 (underrunPayload b line) true then s else s.underrun b key line

/-! ### Packets of a tick (R189 to R192) -/

/-- The image over a bar's reference line at a tick, or the last one before it. -/
def State.imageAt (s : State) (m : Int) : Option Nat :=
  let past := s.lay.spans.filter (fun p => p.m0 ≤ m)
  (past.foldl (fun (a : Option Span) p => match a with
    | some q => if q.m0 ≤ p.m0 then some p else some q
    | none => some p) none).map (fun p => p.image)

/-- The remap table of a half-bar at a tick: one that waits for an image whose line 0 the tick has reached is in force (R184). -/
def State.remapAt (s : State) (b h : Nat) (m : Int) : Option Remap :=
  let x := (s.bar b).half h
  match s.imageAt m with
  | some k => match (x.remapWait.filter (fun w => w.1.due k)).getLast? with
    | some w => some w.2
    | none => x.remap
  | none => x.remap

/-- The statuses that scan-out uses at a tick: those with which the band at the reference line was screened (R185). -/
def State.statusAt (s : State) (b h : Nat) (m : Int) : List Nat :=
  let past := ((s.bar b).rings.flatMap (fun r => r.bands)).filter (fun q => q.m ≤ m)
  let last := past.foldl (fun (a : Option RingBand) q => match a with
    | some p => if p.m ≤ q.m then some q else some p
    | none => some q) none
  match last with
  | some q => if h = 0 then q.nzL else q.nzR
  | none => s.statuses b h

/-- An entry fires in print by its flags and its status (R185, R257). -/
def RemapEntry.fires (e : RemapEntry) (status : Nat) : Bool :=
  !e.disabled && status ≠ 2 && (!e.spare || status = 3)

/-- The code that an entry of a sub-row takes from what lies over it; none where the line does not name the sub-row (R189). -/
def takeCode (il : Interlace) (o : Over) (sub pos : Nat) : Option Nat :=
  let strike := fun (e : IlEntry) =>
    if e.subA = sub then some false else if e.two && e.subB = sub then some true else none
  match o with
  | .nothing => none
  | .late _ y => (strike (il.at y)).map (fun _ => 0)
  | .band q i => (strike (q.il.at (q.line + i))).map (fun second =>
      if q.underrun then 0 else ((if second then q.code1 else q.code0).getD i []).getD pos 0)

/-- Packed codes (R227). -/
def packCodes (bitsOf : Nat) (cs : List Nat) : List Byte :=
  leBytes (ceilDiv (cs.length * bitsOf) 8) (cs.foldr (fun c a => c % 2 ^ bitsOf + 2 ^ bitsOf * a) 0)

/-- A DOT packet (R227). -/
def dotPkt (codeBits half sub seq : Nat) (m : Int) (cs : List Nat) : List Byte :=
  let body := packCodes codeBits cs
  closePkt (leBytes 1 (if codeBits = 3 then 0x11 else 0x10) ++ leBytes 1 (half * 128 + sub) ++ leBytes 2 (20 + body.length)
    ++ leBytes 4 seq ++ leBytes 4 (toTwos 32 m) ++ leBytes 2 cs.length ++ leBytes 2 0 ++ body)

/-- Lanes of a bar whose FIFO has overflowed while their partner kept pace leave their pair (R237). -/
def State.leaveMissed (b : Nat) (s : State) : State :=
  (barLanes b).foldl (fun s n =>
    if (s.lane n).missed then (s.onLane n (fun l => { l with missed := false })).leavePair n 10 false else s) s

/-- A DOT packet is queued on the lanes in service of its half-bar (R191, R232), behind those that wait for room. A half-bar without a lane
sends nothing (R235); in replay nothing is sent (R521). -/
def State.queueDot (b h : Nat) (m : Int) (codeBits sub : Nat) (cs : List Nat) (s : State) : State :=
  if (s.pairLanes b h).isEmpty || s.replaying then s
  else
    let q := s.nextSeq b h
    let bytes := dotPkt codeBits h sub q m cs
    let s := s.onLinkBar b (fun l =>
      if h = 0 then { l with seqLeft := (q + 1) % 2 ^ 32 } else { l with seqRight := (q + 1) % 2 ^ 32 })
    let p : DotPkt := ⟨h, q, m, bytes, bytes.length⟩
    let s := if s.dotsWait b h then s.onLinkBar b (fun l => { l with dots := l.dots ++ [p] }) else s.giveDot b p
    s.leaveMissed b

/-- One row of a half-bar at a tick: the codes of its entries in entry order, and whether any of them fires (R191). -/
def rowCodes (il : Interlace) (overs : List (Nat × Over)) (st : List Nat) (es : List (RemapEntry × Nat)) (sub : Nat) :
    Bool × List Nat :=
  let row := es.filter (fun e => e.1.sub = sub)
  let cs := row.map (fun e =>
    if e.1.fires (st.getD e.2 0) then
      takeCode il ((overs.find? (fun o => o.1 = e.1.off)).map (fun o => o.2) |>.getD .nothing) sub e.1.pos
    else none)
  (cs.any (fun c => c.isSome), cs.map (fun c => c.getD 0))

/-- Code depth of what a bar sends: that of the ring whose band lies over it, else of its first ring. -/
def State.codeBitsAt (s : State) (b : Nat) (ts : List Int) : Nat :=
  let rs := (s.bar b).rings
  match rs.find? (fun r => r.bands.any (fun q => ts.any (fun t => q.m ≤ t && t < q.m + q.code0.length))) with
  | some r => r.codeBits
  | none => ((rs.head?).map (fun r => r.codeBits)).getD 2

/-- A ring line over tick t of a bar is read for a half-bar whose entries of that line take positions lo to hi (R179, R337). -/
def State.scanLine (b h : Nat) (t : Int) (lo hi : Nat) (s : State) : State :=
  let lies := fun (q : RingBand) => q.m ≤ t && t < q.m + q.code0.length
  match (s.bar b).rings.find? (fun r => r.bands.any lies) with
  | none => s
  | some r =>
    let p := (s.lay.job.map (fun j => j.width)).getD 0
    let ms := (s.bar b).msCapable
    let line := ((r.bands.find? lies).map (fun q => q.line + (t - q.m).toNat)).getD 0
    let at_ := line % r.lines * ringStride p r.codeBits ms
    match s.paddock.regions.find? (fun x => x.id = r.region) with
    | none => s
    | some x => ((if ms then [0, p] else [0]).foldl (fun s k =>
        s.dramRegion .scan false (some (2 * b + h)) x (at_ + (k + lo) * r.codeBits / 8) (at_ + ceilDiv ((k + hi + 1) * r.codeBits) 8)) s)

/-- The ring lines of tick m of a half-bar are read. -/
def State.scanHalf (b h : Nat) (m : Int) (es : List RemapEntry) (offs : List Nat) (s : State) : State :=
  if s.memc.n = 0 then s
  else offs.foldl (fun s (o : Nat) =>
    let ps := (es.filter (fun e => !e.disabled && e.off = o)).map (fun e => e.pos)
    s.scanLine b h (m - (o : Int)) (ps.foldl min (ps.headD 0)) (ps.foldl max 0)) s

/-- The packets of tick m of a half-bar. -/
def State.sendHalf (b : Nat) (m : Int) (r : State × List Nat) (h : Nat) : State × List Nat :=
  let s := r.1
  match s.remapAt b h m with
  | none => r
  | some t =>
    let offs := ((t.entries.filter (fun e => !e.disabled)).map (fun e => e.off)).eraseDups
    let s := offs.foldl (fun s o => s.judgeOver1 b (m - o)) s
    let s := s.scanHalf b h m t.entries offs
    let overs := offs.map (fun (o : Nat) => (o, s.overBar b (m - o)))
    let st := s.statusAt b h m
    let k := s.codeBitsAt b (offs.map (fun (o : Nat) => m - (o : Int)))
    (List.range 4).foldl (fun r sub =>
      let row := rowCodes (s.bar b).il overs st t.entries.zipIdx sub
      if row.1 then
        let s := r.1.queueDot b h m k sub row.2
        (s.onBar b (fun x => { x with scan := x.scan ++ [(m, h * 128 + sub, packCodes k row.2)] }), r.2 ++ [sub])
      else r) (s, r.2)

/-- The packets of tick m (R191). -/
def State.sendTick (b : Nat) (m : Int) (s : State) : State :=
  let r := [0, 1].foldl (State.sendHalf b m) (s, [])
  r.1.onBar b (fun x => { x with
    nextSend := some (m + 1)
    sentRows := if r.2.isEmpty then x.sentRows else x.sentRows ++ [(m, r.2)] })

/-! ### Late packets (R192, R232) -/

/-- The payload of a drop GRANT (R510): bar, reason, row, tick. -/
def dropPayload (b reason row : Nat) (m : Int) : List Byte :=
  leBytes 1 b ++ leBytes 1 reason ++ leBytes 1 row ++ leBytes 1 0 ++ leBytes 4 (toTwos 32 m)

/-- One packet of tick m is dropped. -/
def State.dropDot (b : Nat) (m : Int) (row : Nat) (s : State) : State :=
  let s := s.journal 7 (dropPayload b 1 row m)
  let s := (s.bump ⟨Reg.JET_BAR_DOT_LATE b, 31, 0⟩ 1).hurtTicks m m
  s.onBar b (fun x => { x with scan := x.scan.filter (fun e => !(e.1 = m && e.2.1 = row)) })

/-- At the instant of tick m: packets of it that no lane of their half-bar has sent whole, or for which none has had room, are dropped;
copies that are left on one lane are discarded. -/
def State.lateHalf (b : Nat) (m : Int) (r : State × Bool) (h : Nat) : State × Bool :=
  let s := r.1
  let lanes := s.pairLanes b h
  let held := fun (n : Nat) => (s.lane n).fifo.filter (fun p => p.tick = m)
  let seqs := (lanes.flatMap (fun n => (held n).map (fun p => (p.seq, leAt p.bytes 1 1)))).eraseDups
  let late := seqs.filter (fun q => lanes.all (fun n => (held n).any (fun p => p.seq = q.1)))
  let s := lanes.foldl (fun s n =>
    let k := (held n).countP (fun p => !late.any (fun q => q.1 = p.seq))
    let s := s.onLane n (fun l => { l with fifo := l.fifo.filter (fun p => p.tick ≠ m) })
    if k = 0 then s else s.bump ⟨Reg.LINK_LATE_DROP n, 31, 0⟩ k) s
  let rest := ((s.linkBar b).dots.filter (fun p => p.half = h && p.tick = m)).map (fun p => (p.seq, leAt p.bytes 1 1))
  let s := s.onLinkBar b (fun l => { l with dots := l.dots.filter (fun p => !(p.half = h && p.tick = m)) })
  ((late ++ rest).foldl (fun s q => s.dropDot b m q.2) s, r.2 || !(late ++ rest).isEmpty)

/-- In replay the recorded drops are made (R510). -/
def State.lateReplay (b : Nat) (m : Int) (s : State) : State × Bool :=
  let rows := (((s.bar b).scan.filter (fun e => e.1 = m)).map (fun e => e.2.1)).filter (fun row =>
    (s.recorded 7 (· = dropPayload b 1 row m)).isSome)
  (rows.foldl (fun s row => s.dropDot b m row) s, !rows.isEmpty)

/-- The judgement of R192 at a tick: FS012. -/
def State.judgeLate (b : Nat) (m : Int) (s : State) : State :=
  let r := if s.replaying then s.lateReplay b m else [0, 1].foldl (State.lateHalf b m) (s, false)
  if r.2 then r.1.faultBar 12 b else r.1

/-! ### Fire lines (R198 to R205) -/

/-- The line of a pulse is lost at a switch-over (R202, R510). -/
def State.lineLost (b : Nat) (m : Int) (s : State) : State :=
  ((s.journal 7 (dropPayload b 2 0 m)).bump ⟨Reg.JET_BAR_FIRE_LOST b, 31, 0⟩ 1).hurtTicks m m

/-- Whether the line of a failed pulse is lost: known now, or left to its report (R202). -/
inductive Lost
  | now (m : Int)
  | report (m : Int)
  | no
  deriving DecidableEq, Repr, Inhabited

/-- The lost line is counted, or its pulse is judged by its report. -/
def State.judgeLost (b : Nat) (l : Lost) (s : State) : State :=
  match l with
  | .no => s
  | .now m => s.lineLost b m
  | .report m => s.onBar b (fun x => { x with
      awaiting := x.awaiting.map (fun a => if a.tick = m then { a with judge := true } else a) })

/-- A drill ends (R200, R205): EV122. After a failure the original line is active again and FS011 is raised. -/
def State.endDrill (b : Nat) (passed : Bool) (s : State) : State :=
  match (s.bar b).drill with
  | none => s
  | some d =>
    let s := s.setF (Fld.JET_BAR_CTRL_drill b) 0
    let keep := passed && s.fb (Fld.JET_BAR_CTRL_swap_keep b)
    let s := s.onBar b (fun x => { x with
      drill := none, drillPass := passed, drillDue := false,
      fire := if passed then .activeStandby else .activeFailed,
      activeB := if keep then x.activeB else d.origB })
    let s := if keep then s else s.syncBar b
    let s := if passed then s else s.faultBar 11 b
    s.raiseEv 122

/-- A fault on the active line of a bar (R200 to R202): src is FS008 or FS009. The failed line's self-test is due, but while one of the source
is pending elsewhere (R204, R440). -/
def State.lineFault (src b : Nat) (origin : Origin) (l : Lost) (s : State) : State :=
  let x := s.bar b
  match x.fire with
  | .disarmed => s
  | .bothFailed => s
  | .activeStandby =>
    let s := s.judgeLost b l
    let s := s.onBar b (fun y => { y with
      fire := .activeFailed, activeB := !y.activeB, selfTest := if s.fold.tests.any (fun t => t.source = src) then none else some x.activeB,
      testDue := false, drillDue := false, swaps := (y.swaps + 1) % 65536 })
    let s := s.syncBar b
    (s.faultAs src (2 ^ b) b (s.sevOf src) origin).raiseEv 120
  | .drill => (s.judgeLost b l).endDrill b false
  | .activeFailed =>
    let s := if x.testing.isSome then (s.endPulse b).dropLineTest b else s.endPulse b
    (s.onBar b (fun y => { y with fire := .bothFailed, testing := none })).faultBar 10 b

/-- The self-test of a failed line gives its result (R204, R440): a TRANSIENT line returns as standby, EV121. -/
def State.fireTested (b : Nat) (lasting : Bool) (s : State) : State :=
  let s := s.onBar b (fun y => { y with testing := none })
  let s := if !lasting && (s.bar b).fire = .activeFailed then
      (s.onBar b (fun y => { y with fire := .activeStandby })).raiseEv 121
    else s
  [8, 9].foldl (fun s src => if s.testPending src b then s.testResult src lasting else s) s

/-- A pulse of a self-test has failed by the pad monitor or by its report: the line is LASTING (R204). -/
def State.testFailed (b : Nat) (s : State) : State := if (s.bar b).testing.isSome then s.fireTested b true else s

/-- A report of a pulse on the line under test arrives on a lane (R204, R249): the hub sends each on every lane, in order, so a pulse has
passed once some lane has brought as many reports, within echo_ns. -/
def State.testEcho (b lane : Nat) (x : LineTest) (s : State) : State :=
  let n := x.seen.getD lane 0 + 1
  let y := { x with seen := x.seen.set lane n }
  if n ≤ x.passed then s.onBar b (fun z => { z with testing := some y })
  else match x.out with
    | [] => s
    | t :: rest =>
      if t + s.echoNs < s.now then s.fireTested b true
      else if n = 16 then s.fireTested b false
      else s.onBar b (fun z => { z with testing := some { y with passed := n, out := rest } })

/-- A pulse starts on the active line of a bar (R198). -/
def State.tickPulse (b : Nat) (m : Int) (mark : Bool) (s : State) : State :=
  let x := s.bar b
  if x.fire = .disarmed || x.fire = .bothFailed || s.replaying then s
  else
    let w := if mark then 2 * s.fireWidth else s.fireWidth
    let cut := match x.pulse with
      | some p => decide (s.now < p.2)
      | none => false
    let s := s.endPulse b
    let s := if cut then (s.bump ⟨Reg.JET_BAR_PULSE_CUT b, 31, 0⟩ 1).faultBar 15 b else s
    if !s.armed b then s
    else
      let start := if cut then s.now + 100 else s.now
      (s.onBar b (fun y => { y with
        pulse := some (x.activeB, start + w), awaiting := y.awaiting ++ [⟨m, x.activeB, start, false⟩] })).emit
          (.pulse b x.activeB w)

/-! ### The raster at a tick (R177, R204, R205, R207, R208, R262) -/

/-- Gaps at tick m: one that ends, one that begins; the start gap begins at the bars that had not passed its first line when the job's first
commit came. -/
def State.rasterGap (b : Nat) (m : Int) (s : State) : State :=
  let s := match (s.bar b).gapAt with
    | some g =>
      if g.2 ≤ m then s.onBar b (fun x => { x with gapAt := none, drillDue := false, testDue := false }) else s
    | none => s
  match s.lay.spans.find? (fun p => p.gap ≠ 0 && m = p.m0 + p.length) with
  | some p =>
    let next := (s.lay.spans.filter (fun q => m < q.m0)).foldl (fun (a : Int) q => min a q.m0) (p.m0 + p.length + p.gap)
    (s.barCond b 0 true true).gapBegin b m next
  | none =>
    match s.jet.mJob with
    | some mj =>
      if m = s.jet.startAt && m < mj && !s.lay.spans.any (fun p => p.m0 ≤ m && m < p.m0 + p.length) then s.gapBegin b m mj
      else s
    | none => s

/-- Line 0 of an image at a bar (R184, R208); the image counts as reached where its tick is issued. -/
def State.rasterLine0 (b : Nat) (p : Span) (issued : Bool) (s : State) : State :=
  let s := if issued then s.onBar b (fun x => { x with image := p.image }) else s
  let s := if issued && s.f Fld.JET_CTRL_ref_bar = b then
      let s := s.onJet (fun j => { j with image := p.image })
      if p.flip then
        (s.onJet (fun j => { j with flipImage := p.image, flipTime := s.devTime })).raiseEv 56
      else s
    else s
  s.takeBar p.image b

/-- A line of an image at a bar's reference line: LINE_MATCH, and the REJECT mark of a held bar (R431). -/
def State.rasterLine (b : Nat) (p : Span) (i : Nat) (s : State) : State :=
  let s := s.barCond b 1 (i = s.f Fld.JET_MATCH_value) (i = s.f (Fld.JET_BAR_MATCH_value b))
  if s.fb Fld.FOLD_CTRL_hold_reject && (s.fold.held.getD b false || s.crook.state ≠ .clear) then s.markImage p.image else s

/-- Bars that hold a ring. -/
def State.ringBars (s : State) : List Nat := (List.range 8).filter (fun b => !(s.bar b).rings.isEmpty)

/-- The scan signature of an image at a bar (R509). -/
def Bar.scanSig (x : Bar) (a z : Int) : Nat :=
  crc32c ((x.scan.filter (fun e => a ≤ e.1 && e.1 < z)).flatMap (fun e => leBytes 4 (toTwos 32 e.1) ++ e.2.2))

/-- IMAGE_DONE of an image at a bar (R207): SCAN (R509), the ring of a job that ends with it (R179), LYP slots (R480). -/
def State.imageDone (b : Nat) (p : Span) (s : State) : State :=
  let x := s.bar b
  let sig := x.scanSig p.m0 (p.m0 + p.length + x.oMax)
  let bars := s.ringBars
  let s := s.barCond b 2 true true
  let s := s.observe 0x71 b (leBytes 4 p.image ++ leBytes 4 sig)
  let s := s.onLay (fun l => { l with
    spans := l.spans.map (fun q => if q.image = p.image then { q with done := b :: q.done } else q) })
  let s := if bars.all (fun c => s.doneAt c p.image) then s.lypEnd p.image else s
  s.freeRingOf b p.image

/-- Images that every bar has done leave the list once the job is closed, but for the newest (while it is open the cameras
still map lines to them, R292); what the scan signatures no longer need goes too. -/
def State.trimSpans (b : Nat) (m : Int) (s : State) : State :=
  let bars := s.ringBars
  let gone := fun (p : Span) => bars.all (fun c => p.done.contains c && p.m0 + p.length + p.gap ≤ (s.bar c).lastTick)
  let newest := (s.lay.spans.getLast?).map (fun p => p.image)
  let s := if s.lay.job.isSome then s
    else s.onLay (fun l => { l with spans := l.spans.filter (fun p => some p.image = newest || !gone p) })
  let first := (s.lay.spans.filter (fun p => !p.done.contains b)).foldl (fun (a : Int) p => min a p.m0) (m + 1)
  s.onBar b (fun x => { x with
    scan := x.scan.filter (fun e => first ≤ e.1), sentRows := x.sentRows.filter (fun e => m < e.1) })

/-- A tick has been pulsed on the active line of a bar. -/
def State.pulsedAt (s : State) (b : Nat) (m : Int) : Bool := (s.bar b).awaiting.any (fun a => a.tick = m)

/-- The raster of a bar at tick m; issued says that the tick has not been withheld. -/
def State.raster (b : Nat) (m : Int) (issued : Bool) (s : State) : State :=
  let at_ := s.lay.spans.find? (fun p => p.m0 ≤ m && m < p.m0 + p.length + p.gap)
  let s := match at_ with
    | some p =>
      let i := (m - p.m0).toNat
      let s := s.onBar b (fun x => { x with inGap := decide (p.length ≤ i), line := i })
      let s := if i = 0 then s.rasterLine0 b p issued else s
      if i < p.length then s.rasterLine b p i else s
    | none => s.onBar b (fun x => { x with inGap := true, line := 0 })
  let due := s.lay.spans.filter (fun p => !p.done.contains b && p.m0 + p.length + (s.bar b).oMax ≤ m)
  let s := due.foldl (fun s p => s.imageDone b p) s
  let pulsed := issued && s.pulsedAt b m
  let s := s.rasterGap b m
  s.sweepTick b m pulsed

/-! ### A tick (R165, R170, R193 to R199) -/

/-- The spacing of the ticks of a burst (R164). -/
def State.burstSpace (s : State) (b : Nat) : Nat :=
  match s.limitOf b with
  | some l => max (ceilDiv 1000000000 l) 8467
  | none => 8467

/-- The sub-rows that the interlace entry of a half-bar names for tick m (R170, R188): every nozzle of it consults the entry for the line
over one of its entries, in the table under which that line was screened, or else in the table in force. -/
def State.namedAt (s : State) (b h : Nat) (m : Int) : List Nat :=
  match (s.remapAt b h m).bind (fun t => t.entries.find? (fun e => !e.disabled)) with
  | none => []
  | some e =>
    let il := (s.bar b).il
    match s.overBar b (m - e.off) with
    | .band q i => (q.il.at (q.line + i)).names
    | .late _ y => (il.at y).names
    | .nothing => (il.at ((m - s.jet.mJob.getD 0 - e.off) % (max 1 il.entries.length : Nat)).toNat).names

/-- The SKIP guard of R170 for the sub-rows that are named for a tick. -/
def State.guarded (s : State) (b : Nat) (rows : List Nat) : Bool :=
  let f := s.f (Fld.BELL_FMAX_fmax_b b)
  s.overPolicy = 0 && f ≠ 0 && rows.any (fun r => match (s.bar b).lastFired.getD r none with
    | some t => decide (s.now - t < ceilDiv 1000000000 f)
    | none => false)

/-- A tick is withheld (R170, R193): it is counted, SKIP goes to the hub, and an image-start marking passes on. -/
def State.withhold (b : Nat) (m : Int) (line0 : Bool) (s : State) : State :=
  let s := (s.bump ⟨Reg.BELL_SKIP_CNT b, 31, 0⟩ 1).hurtTicks m m
  let s := if s.armed b then s.sendCtl b 1 (seqPkt 1 (toTwos 32 m) 0 0) else s
  s.onBar b (fun x => { x with markPending := x.markPending || line0 })

/-- A queued packet is a SYNC (R228). -/
def InsPkt.isSync (p : InsPkt) : Bool := leAt p.bytes 0 2 = 0x20

/-- SYNC is still to go out to a bar: it waits for the upstream (R247), for the downstream that it wakes (R246), or for its codeword. -/
def State.syncDue (s : State) (b : Nat) : Bool :=
  (s.linkBar b).syncWait || (barLanes b).any (fun n => (s.lane n).ins.any InsPkt.isSync)

/-- A SYNC that waits to be sent names the next tick as it now is (R193). -/
def State.renewSync (b : Nat) (tick : Int) (s : State) : State :=
  let p := seqPkt 0 (toTwos 32 tick) (b2n (s.bar b).activeB) 0
  (barLanes b).foldl (fun s n => s.onLane n (fun l => { l with
    ins := l.ins.map (fun q => if q.isSync then { q with bytes := p } else q) })) s

/-- A tick is issued (R198, R205); until SYNC has gone out it is not pulsed (R193, R199), SYNC names the tick after it, and an image-start marking
passes on. -/
def State.issue (b : Nat) (m : Int) (line0 : Bool) (rows : List Nat) (s : State) : State :=
  let s := match (s.bar b).gapAt with
    | some g => if (s.bar b).fire = FireState.drill && g.2 - 8 ≤ m then s.endDrill b false else s
    | none => s
  let mark := line0 || (s.bar b).markPending
  if s.armed b && s.syncDue b then (s.renewSync b (m + 1)).onBar b (fun x => { x with markPending := mark })
  else
    (s.tickPulse b m mark).onBar b (fun x => { x with
      markPending := false
      lastFired := if x.fire = FireState.disarmed then x.lastFired
        else x.lastFired.mapIdx (fun r t => if rows.contains r then some s.now else t) })

/-- Tick m passes through the line event FIFO of a bar (R12, R195): its engines take what waits there, unless they are held up on this tick.
They disarm the bar with FS014 where they differ on the tick, and where the FIFO overflows. -/
def State.lineEvent (b : Nat) (m : Int) (differ stalled : Bool) (s : State) : State :=
  let waits := (s.bar b).events ++ [m]
  let full := waits.length > 16
  let s := s.onBar b (fun x => { x with events := if stalled && !full then waits else [] })
  if differ || full then (s.barDisarm b 3).faultBar 14 b else s

/-- The next tick of a bar (R165): held says that it belongs to a burst by its lateness (R164). -/
def State.fireNext (b : Nat) (held differ stalled : Bool) (s : State) : State :=
  let m := s.nextTick b
  let x := s.bar b
  let rows := ((x.sentRows.filter (fun e => e.1 = m)).map (fun e => e.2)).flatten
  let line0 := s.lay.spans.any (fun p => p.m0 = m)
  let skip := s.guarded b (s.namedAt b 0 m ++ s.namedAt b 1 m)
  let s := if skip then s else (s.leaveMissed b).judgeLate b m
  let s := s.lineEvent b m differ stalled
  let s := if skip then s.withhold b m line0 else s.issue b m line0 rows
  let burst := held || x.burst ≠ 0
  let s := s.onBar b (fun y => { y with
    lastTick := m, burst := y.burst - 1, burstNext := if burst then some (s.now + s.burstSpace b) else none })
  let s := s.raster b m (!skip)
  let s := if b = 0 && (List.range 8).any (fun c => s.armed c) then s.leadJudge else s
  s.trimSpans b m

/-- A line is due at a bar: the high-water mark has reached it (R153, R165). -/
def State.lineDue (s : State) (b : Nat) (m : Int) : Bool := !ahead 32 ((m * 65536 + s.offB b) * 2 ^ 32) s.bell.hwm

end Sys2Proof.Machine
end

