-- ==== Sys2Proof/Machine/LinkCmd.lean ====
section
/-! DEFINITION. Commands of the bar link: training, codewords and markers, BAR_CFG and its replies, sleep and wake
(R213 to R256). -/

set_option Elab.async false

namespace Sys2Proof.Machine

/-! ### Training -/

/-- Corrected symbols of the last 1 ms. -/
def Lane.corrMs (l : Lane) (now : Nat) : Nat := ((l.corrAt.filter (fun c => now - c.1 < 1000000)).map (fun c => c.2)).sum

/-- A codeword with corrected symbols is counted (R254, R256). -/
def State.countCorr (n corr : Nat) (s : State) : State :=
  let s := s.bump (Fld.LINK_FEC_CORR_value n) corr
  s.onLane n (fun l =>
    let l := { l with corrAt := if corr = 0 then l.corrAt else (s.now, corr) :: l.corrAt.filter (fun c => s.now - c.1 < 1000000) }
    { l with fecWarned := l.fecWarned && s.f Fld.LINK_FEC_WARN_fec_warn < l.corrMs s.now })

/-- LANE_TRAIN (R241, R256): train written 1 to LINK_CTRL; ignored while ACTIVE, while a training is under way, and while oos keeps the lane out
of service. -/
def execLaneTrain (dt : Nat) (lane : Fin 32) (s : State) : Res :=
  if s.down then .next s else
  let s := s.elapse dt
  if !s.writeOpen 1 (Reg.LINK_CTRL lane.val).off then .next s else
  let s := s.noteWrite 1 (Reg.LINK_CTRL lane.val).off (putBits (s.reg (Reg.LINK_CTRL lane.val)) 31 31 1)
  let n := lane.val
  let l := s.lane n
  .next (if s.isOn 6 && !s.fb (Fld.LINK_CTRL_oos n) && !l.awaiting && (l.tstate = .off || l.tstate = .failed) then s.askTrain n (s.rateWanted n 0) else s)

/-- LANE_OOS (R235, R236): LINK_CTRL.oos is written. -/
def execLaneOos (dt : Nat) (lane : Fin 32) (out : Bool) (s : State) : Res :=
  if s.down then .next s else
  let s := s.elapse dt
  if !s.writeOpen 1 (Reg.LINK_CTRL lane.val).off then .next s else
  let s := s.noteWrite 1 (Reg.LINK_CTRL lane.val).off (putBits (s.reg (Reg.LINK_CTRL lane.val)) 27 27 (b2n out))
  let n := lane.val
  if !s.isOn 6 then .next s
  else
    let s := s.setF (Fld.LINK_CTRL_oos n) (b2n out)
    let l := s.lane n
    if out then .next ((s.leavePair n 0 true).stopTraining n)
    else if l.rejoining && l.tstate = .failed && !l.awaiting && s.mayRetrain n then .next (s.askTrain n l.wanted)
    else .next s

/-- LANE_QUIET_DONE (R241, R244): 10 µs in QUIET; the equaliser is set from its seed. -/
def execLaneQuietDone (dt : Nat) (lane : Fin 32) (s : State) : Res :=
  if s.down then .next s else
  let s := s.elapse dt
  if !s.isOn 6 then .next s else
  let n := lane.val
  let l := s.lane n
  if l.tstate = .quiet && 10000 ≤ s.now - l.since then
    .next (((s.loadSeed n).onLane n (fun l => { l with tstate := .eq, since := s.now })).putLane n (.prbs l.rate))
  else .next s

/-- LANE_EQ_ADAPTED (R241): the receiver has adapted after at least 100 µs in EQ. -/
def execLaneEqAdapted (dt : Nat) (lane : Fin 32) (eq : Word) (s : State) : Res :=
  if s.down then .next s else
  let s := s.elapse dt
  if !s.isOn 6 then .next s else
  let n := lane.val
  let l := s.lane n
  if l.tstate = .eq && 100000 ≤ s.now - l.since then
    .next ((s.onLane n (fun l => { l with
      tstate := .lock, since := s.now, eqSet := eq.toNat, goodMarkers := 0, farLocked := false, rxMarkerKnown := false,
      epoch := s.now / codewordTime l.rate + 1, base := s.now / codewordTime l.rate, txMarker := (l.txMarker + 1) % 65536 })).putSet n)
  else .next s

/-- LANE_EQ_TIMEOUT (R241): eq_time is 2 ms with a valid seed, 20 ms without. -/
def execLaneEqTimeout (dt : Nat) (lane : Fin 32) (s : State) : Res :=
  if s.down then .next s else
  let s := s.elapse dt
  if !s.isOn 6 then .next s else
  let n := lane.val
  let l := s.lane n
  .next (if l.tstate = .eq && (if l.seeded then 2000000 else 20000000) ≤ s.now - l.since then s.trainFail n 1 else s)

/-- LANE_LOCK_TIMEOUT (R241): 2 ms in LOCK. -/
def execLaneLockTimeout (dt : Nat) (lane : Fin 32) (s : State) : Res :=
  if s.down then .next s else
  let s := s.elapse dt
  if !s.isOn 6 then .next s else
  let n := lane.val
  let l := s.lane n
  .next (if l.tstate = .lock && 2000000 ≤ s.now - l.since then s.trainFail n 2 else s)

/-- Transmit taps that the far receiver asks to change (R241, R242): their new values are free. -/
def State.serveFir (n fir : Nat) (s : State) : State :=
  let moved := fun (hi lo : Nat) => bits fir hi lo = 1 || bits fir hi lo = 2
  let tap := fun (on : Bool) (hi lo : Nat) (s : State) =>
    if on then
      let (v, s) := s.free
      s.onLane n (fun l => { l with eqSet := putBits l.eqSet hi lo v })
    else s
  tap (moved 5 4) 7 0 (tap (moved 3 2) 15 8 (tap (moved 1 0) 23 16 s))

/-- TRAINING_SET_RECEIVE (R236, R241 to R243): the training set of an upstream training codeword. How many symbols were corrected in it is
free, up to 15 (R218, R256). -/
def execTrainingSetReceive (dt : Nat) (lane : Fin 32) (bytes : List Byte) (s : State) : Res :=
  if s.down then .next s else
  let s := s.elapse dt
  if !s.isOn 6 then .next s else
  let n := lane.val
  let st := (s.lane n).tstate
  if bytes.length < 16 || !(st = .lock || st = .negotiate || st = .align) then .next s
  else if st = .lock && leAt bytes 1 1 % 32 ≠ n then .next (s.trainFail n 4)
  else
    let pre := leAt bytes 3 1
    let was := s.setShows n
    let (corr, s) := s.free
    let s := ((s.countCorr n (corr % 16)).onLane n (fun l => { l with farAsk := bitOf pre 0, farWill := bitOf pre 1 })).renewSet n was
    match st with
    | .lock =>
      let s := s.serveFir n (leAt bytes 4 1)
      .next ((s.onLane n (fun l => { l with farLocked := bitOf (leAt bytes 0 1) 7 })).lockDone n)
    | .negotiate => .next (s.negotiate n (leAt bytes 2 1))
    | _ =>
      let s := s.onLane n (fun l => { l with preRx := bitOf pre 1 })
      if leAt bytes 0 1 % 128 = 5 then
        .next ((s.onLane n (fun l => { l with trainQ := leAt bytes 8 4, qKnown := true })).alignDone n)
      else .next s

/-! ### Markers and codewords -/

/-- A marker passes the pattern, lane and counter checks (R222, R235). -/
def Lane.markerGood (l : Lane) (n : Nat) (bytes : List Byte) : Bool :=
  bytes.length = 642 && bytes.take 8 = markerPattern && leAt bytes 8 1 = n
    && (!l.rxMarkerKnown || leAt bytes 10 2 = (l.rxMarker + 1) % 65536)

/-- An insertion of n bytes as a codeword carries it (R221): none is 0, else 12 to 64 bytes, checked as R224. -/
def State.takeInsert (n len : Nat) (p : List Byte) (s : State) : State :=
  if len = 0 then s
  else if len < 12 || 64 < len || !pktOk p || !upInsert p then s.hubProto n
  else s

/-- What a lane's receiver takes from a marker that passes its checks (R217, R220, R222, R256). -/
def Lane.noteMarker (l : Lane) (n : Nat) (bytes : List Byte) : Lane :=
  { l with
    rxMarker := leAt bytes 10 2, rxMarkerKnown := true, rxS := scrambleSeed n, rxPrev := markerTail bytes,
    hubQ := leAt bytes 12 4, hubCorr := leAt bytes 18 2, hubUncorr := leAt bytes 17 1 }

/-- An upstream marker in service that passes its checks (R222, R235). -/
def State.serveMarker (n : Nat) (bytes : List Byte) (s : State) : State :=
  let uncorr := leAt bytes 17 1
  let health := leAt bytes 16 1
  let s := s.onLane n (fun l => { l.noteMarker n bytes with
    missing := 0, hubUncorrAt := List.replicate uncorr s.now ++ lastMs s.now l.hubUncorrAt })
  let len := leAt bytes 32 1
  let s := if !(bitOf health 0 && bitOf health 1) then s.leavePair n 9 false else s.judgeUncorr n
  s.takeInsert n len ((bytes.drop 40).take len)

/-- A codeword in service is uncorrectable (R235, R255): it is counted; FS003. -/
def State.badCodeword (n : Nat) (s : State) : State :=
  let s := s.onLane n (fun l => { l with uncorrAt := s.now :: lastMs s.now l.uncorrAt })
  let s := s.bump (Fld.LINK_FEC_UNCORR_value n) 1
  (s.judgeUncorr n).laneFault 3 n

/-- A marker in service is missing, or fails its checks: the second in succession takes the lane out of its pair (R235). The index that
ends it is known where its bytes are (R217), else free. -/
def State.missMarker (n : Nat) (known : Option (List Byte)) (s : State) : State :=
  let l := s.lane n
  let (v, s) := s.free
  let s := s.onLane n (fun l => { l with
    missing := l.missing + 1, rxMarker := (l.rxMarker + 1) % 65536, rxS := scrambleSeed n
    rxPrev := (known.map markerTail).getD (v % 4) })
  if 2 ≤ l.missing + 1 then s.leavePair n 7 false else s

/-- The FEC outcome of a marker (R218, R256): the symbols corrected, or none where it cannot be corrected. -/
def State.markerFec (n : Nat) (fec : Option Nat) (s : State) : State :=
  match fec with
  | some c => s.countCorr n c
  | none => if (s.lane n).inPair then s.badCodeword n else s.bump (Fld.LINK_FEC_UNCORR_value n) 1

/-- A good marker in ALIGN (R215, R241): the lane's upstream is aligned with the bar's other lanes in service where it arrives at most
8,192 UI behind the earliest. DESIGN CHOICE (log entry 39): that skew, which no rule computes, is free. -/
def State.judgeSkew (n : Nat) (s : State) : State :=
  if (barLanes (n / 4)).any (fun k => k ≠ n && (s.lane k).inPair) then
    let (v, s) := s.free
    let skew := v % 2 ^ 14
    s.onLane n (fun l => if l.aligned then l else { l with aligned := skew ≤ 8192, skew := skew })
  else s.onLane n (fun l => { l with aligned := true, skew := 0 })

/-- MARKER_RECEIVE (R222, R235, R241): the bytes of a marker, of no use where it cannot be corrected. -/
def execMarkerReceive (dt : Nat) (lane : Fin 32) (word : MarkerWord) (s : State) : Res :=
  if s.down then .next s else
  let s := s.elapse dt
  if !s.isOn 6 then .next s else
  let n := lane.val
  let fec := word.fec
  let bytes := word.bytes
  let l := s.lane n
  let good := fec.isSome && l.markerGood n bytes
  let note := fun (l : Lane) => if good then l.noteMarker n bytes else { l with rxMarkerKnown := false }
  match l.tstate with
  | .lock =>
    let s := s.markerFec n fec
    if fec.isSome && bytes.length = 642 && bytes.take 8 = markerPattern && leAt bytes 8 1 % 32 ≠ n then .next (s.trainFail n 4)
    else
      let was := s.setShows n
      let s := s.onLane n (fun l => { note l with goodMarkers := if good then l.goodMarkers + 1 else 0 })
      .next ((s.renewSet n was).lockDone n)
  | .negotiate => .next ((s.markerFec n fec).onLane n note)
  | .align =>
    let s := (s.markerFec n fec).onLane n note
    .next ((if good then s.judgeSkew n else s).alignDone n)
  | .active =>
    if (s.linkBar (n / 4)).us ≠ .awake then .next s
    else
      let s := s.markerFec n fec
      if !(s.lane n).inPair then .next s else .next (if good then s.serveMarker n bytes else s.missMarker n (fec.map (fun _ => bytes)))
  | _ => .next s

/-- MARKER_MISSING (R235): two consecutive markers have not arrived; in LOCK the run of good markers is broken. -/
def execMarkerMissing (dt : Nat) (lane : Fin 32) (s : State) : Res :=
  if s.down then .next s else
  let s := s.elapse dt
  if !s.isOn 6 then .next s else
  let n := lane.val
  match (s.lane n).tstate with
  | .lock => .next ((s.onLane n (fun l => { l with goodMarkers := 0, rxMarkerKnown := false })).renewSet n (s.setShows n))
  | .active => .next (if (s.linkBar (n / 4)).us = .awake then s.leavePair n 7 false else s)
  | _ => .next s

/-- Packets of the upstream stream (R223, R224): PAD bytes are passed over; the first that fails breaks the stream off. The
rest, and the number of packets that failed; none in place of the rest where packet boundaries are lost. -/
def parseStream : Nat → List Byte → Option (List Byte) × Nat
  | 0, bs => (some bs, 0)
  | k + 1, bs =>
    match bs with
    | [] => (some [], 0)
    | b :: rest =>
      if b = 0 then parseStream k rest
      else if bs.length < 4 then (some bs, 0)
      else
        let n := leAt bs 2 2
        if n < 12 || 256 < n then (none, 1)
        else if bs.length < n then (some bs, 0)
        else
          let r := parseStream k (bs.drop n)
          let p := bs.take n
          (r.1, r.2 + (if pktOk p && upStream p then 0 else 1))

/-- The stream area of a data codeword (R221, R223). -/
def State.takeStream (n first : Nat) (area : List Byte) (s : State) : State :=
  let l := s.lane n
  let buf := if l.rxResync then (if first = 0xFFFF then none else some (area.drop first)) else some (l.rxBuf ++ area)
  match buf with
  | none => s
  | some bs =>
    let r := parseStream (bs.length + 1) bs
    let s := s.onLane n (fun l => { l with rxBuf := r.1.getD [], rxResync := r.1.isNone })
    (List.range r.2).foldl (fun s _ => s.hubProto n) s

/-- A data codeword whose kind and bytes are known (R219, R221). -/
def State.goodCodeword (n kind : Nat) (bytes : List Byte) (corr : Nat) (s : State) : State :=
  let s := s.countCorr n corr
  if kind ≠ 0 then s
  else
    let len := leAt bytes 0 1
    let s := s.takeInsert n len ((bytes.drop 4).take len)
    s.takeStream n (leAt bytes 2 2) (bytes.drop (4 + len))

/-- CODEWORD_RECEIVE (R216 to R224): the 2,720 PAM4 indices of a data codeword. In training one that cannot be corrected is counted (R256). -/
def execCodewordReceive (dt : Nat) (lane : Fin 32) (symbols : List Nat) (s : State) : Res :=
  if s.down then .next s else
  let s := s.elapse dt
  if !s.isOn 6 then .next s else
  let n := lane.val
  let l := s.lane n
  if [TState.lock, .negotiate, .align].contains l.tstate && symbols.length = 2720 then
    .next (if (decodeCodeword l.preRx l.rxPrev l.rxS (symbols.map (· % 4))).1.isNone then s.bump (Fld.LINK_FEC_UNCORR_value n) 1 else s)
  else if l.tstate ≠ .active || (s.linkBar (n / 4)).us = .asleep || symbols.length ≠ 2720 then .next s
  else
    let idx := symbols.map (· % 4)
    let r := decodeCodeword l.preRx l.rxPrev l.rxS idx
    let s := s.onLane n (fun l => { l with rxS := r.2, rxPrev := idx.getLastD 0 })
    match r.1 with
    | none => .next ((s.onLane n (fun l => { l with rxBuf := [], rxResync := true })).badCodeword n)
    | some (kind, bytes, corr) => .next (s.goodCodeword n kind bytes corr)

/-- LANE_SIGNAL_LOSS (R235). -/
def execLaneSignalLoss (dt : Nat) (lane : Fin 32) (s : State) : Res :=
  if s.down then .next s else
  let s := s.elapse dt
  if !s.isOn 6 then .next s else
  let n := lane.val
  .next (if (s.linkBar (n / 4)).us = .awake then s.leavePair n 6 false else s)

/-- FEC_WARN (R254): more than fec_warn symbols corrected in one ms, once per rise. -/
def execFecWarn (dt : Nat) (lane : Fin 32) (s : State) : Res :=
  if s.down then .next s else
  let s := s.elapse dt
  if !s.isOn 6 then .next s else
  let n := lane.val
  let w := s.f Fld.LINK_FEC_WARN_fec_warn
  let l := s.lane n
  .next (if w ≠ 0 && w < l.corrMs s.now && !l.fecWarned then
    (s.onLane n (fun l => { l with fecWarned := true })).laneEv n 106 else s)

/-! ### BAR_CFG (R251 to R253) -/

/-- The descriptor that a row with an op byte starts. -/
def State.startOp (s : State) (ring slot opcode op : Nat) : Option Desc :=
  match s.startable ring slot opcode with
  | some d => if d.byte 8 = op then some d else none
  | none => none

/-- A bar has a lane in service. -/
def State.barUp (s : State) (b : Nat) : Bool := (barLanes b).any (fun n => (s.lane n).inPair)

/-- Every lane of a bar is taken out of service by LINK_CTRL.oos. DEDUCED (log entry 38): so TRAIN has no lane to train (R252). -/
def State.outOfService (b : Nat) (s : State) : Bool := (barLanes b).all (fun n => s.fb (Fld.LINK_CTRL_oos n))

/-- All four lanes of a bar are taken OFF and asked to train (R232, R252), those apart that oos keeps out of service (R256). An upstream that
is not awake is sent WAKE first (R247); it is awake with the first lane that trains. -/
def State.trainBar (arg b : Nat) (s : State) : State :=
  let up := (List.range 2).filter (fun h => s.halfUp b h)
  let s := if (s.linkBar b).us = .awake && !(s.linkBar b).usPending then s else (s.wakeUp b).flushBar 2 b
  let s := s.onLinkBar b (fun l => { l with
    seqLeft := 0, seqRight := 0, dots := [], dsPending := false, dsRewake := false, dsEnd := none, usPending := false, syncWait := false })
  let s := if (s.linkBar b).ds = .awake then s else s.awakeDown b
  let s := (barLanes b).foldl (fun s n =>
    if s.fb (Fld.LINK_CTRL_oos n) then s
    else (s.askTrain n (s.rateWanted n arg)).onLane n (fun l => { l with rejoining := false })) s
  up.foldl (fun s h => match s.halfLanes b h with
    | n :: _ => s.halfLost n
    | [] => s) s

/-- BAR_CFG_TRAIN (R241, R252). -/
def execBarCfgTrain (dt : Nat) (ring : Fin 64) (slot : Nat) (s : State) : Res :=
  if s.down then .next s else
  let s := s.elapse dt
  match s.startOp ring.val slot 0x22 0 with
  | none => .next s
  | some d =>
    let s := s.wakeDomain 6
    if !s.isOn 6 then .next s
    else
      let bars := scopeBars (d.byte 9)
      if bars.any (fun b => s.armed b) then .next (s.complete d 0x44 0)
      else if bars.any (fun b => s.outOfService b) then .next (s.complete d 0x42 0)
      else
        let s := s.start d
        let s := bars.foldl (fun s b => s.trainBar (d.byte 10) b) s
        let s := s.onLink (fun l => { l with trains := l.trains ++ [⟨d.order, d.byte 9⟩] })
        .next (s.recomputeCeiling.settleTrains)

/-- A WRITE or READ goes out (R239, R247, R252): the upstream of each named bar is woken; its retire point is the first insertion. -/
def State.barRequest (d : Desc) (isStat : Bool) (pktOf : Nat → List Byte) (s : State) : State :=
  let bars := scopeBars (d.byte 9)
  if bars.any (fun b => !s.barUp b) then s.complete d 0x42 0
  else if bars.isEmpty then s.complete d 0 0
  else
    let s := bars.foldl (fun s b => s.wakeUp b) (s.start d)
    s.hubAsk isStat (d.byte 9) pktOf d.order false (d.num 16 8)

/-- A range of n words covers an address. -/
def covers (address n at_ : Nat) : Bool := address ≤ at_ && at_ < address + 4 * n

/-- BAR_CFG_WRITE (R239, R252, R267). -/
def execBarCfgWrite (dt : Nat) (ring : Fin 64) (slot : Nat) (s : State) : Res :=
  if s.down then .next s else
  let s := s.elapse dt
  match s.startOp ring.val slot 0x22 1 with
  | none => .next s
  | some d =>
    let s := s.wakeDomain 6
    if !s.isOn 6 then .next s
    else
      let n := d.byte 11
      let s := s.barRequest d false (fun c => cfgPkt c (d.num 12 4) ((d.bytes.drop 24).take (4 * n)))
      .next (if covers (d.num 12 4) n 0x100 then (scopeBars (d.byte 9)).foldl (fun s b => s.wantImp b none) s else s)

/-- BAR_CFG_READ (R252). -/
def execBarCfgRead (dt : Nat) (ring : Fin 64) (slot : Nat) (s : State) : Res :=
  if s.down then .next s else
  let s := s.elapse dt
  match s.startOp ring.val slot 0x22 2 with
  | none => .next s
  | some d =>
    let s := s.wakeDomain 6
    if !s.isOn 6 then .next s
    else
      .next (s.barRequest d true (fun c => statPkt c (d.num 12 4) (d.byte 11)))

/-- BAR_CFG_SLEEP (R245, R247, R248, R252): SLEEP is queued for the directions named; a bar whose upstream is not named has it woken. -/
def execBarCfgSleep (dt : Nat) (ring : Fin 64) (slot : Nat) (s : State) : Res :=
  if s.down then .next s else
  let s := s.elapse dt
  match s.startOp ring.val slot 0x22 3 with
  | none => .next s
  | some d =>
    let s := s.wakeDomain 6
    if !s.isOn 6 then .next s
    else
      let s := s.start d
      let dirs := d.byte 10
      let s := s.onLink (fun l => { l with sleeps := l.sleeps ++ [⟨d.order, d.byte 9, dirs, false⟩] })
      let s := (scopeBars (d.byte 9)).foldl (fun s b =>
        let s := if !bitOf dirs 1 then s.wakeUp b
          else if (s.linkBar b).us = .asleep then s
          else if s.barUp b then s.sendSleepUp b
          else (s.onLinkBar b (fun l => { l with us := .asleep })).laneEv (4 * b) 102
        if bitOf dirs 0 && (s.linkBar b).ds ≠ .asleep then s.sleepDown b else s) s
      .next s.settleSleeps

/-- BAR_CFG_WAKE (R245, R247, R252): a downstream starts to wake at once; the upstream is woken whichever directions are named. -/
def execBarCfgWake (dt : Nat) (ring : Fin 64) (slot : Nat) (s : State) : Res :=
  if s.down then .next s else
  let s := s.elapse dt
  match s.startOp ring.val slot 0x22 4 with
  | none => .next s
  | some d =>
    let s := s.wakeDomain 6
    if !s.isOn 6 then .next s
    else
      let dirs := d.byte 10
      let s := if bitOf dirs 0 then (s.start d).retire d else s.start d
      let s := s.onLink (fun l => { l with sleeps := l.sleeps ++ [⟨d.order, d.byte 9, dirs, true⟩] })
      let s := (scopeBars (d.byte 9)).foldl (fun s b =>
        let s := s.onLinkBar b (fun l => { l with dsOver := l.dsOver || bitOf dirs 0, usOver := l.usOver || bitOf dirs 1 })
        let s := if bitOf dirs 0 then s.wakeDown b else s
        s.wakeUp b) s
      .next s.settleSleeps

/-! ### Replies (R229, R252) -/

/-- A BAR_CFG whose replies are decided completes. -/
def State.reqComplete (r : HubReq) (late : Bool) (s : State) : State :=
  if r.dev then s
  else s.completeAt r.order (if r.naked ≠ 0 then 0x41 else if late then 0x40 else 0) r.acked

/-- What a reply means beside its BAR_CFG: TEST_CMD of a batch, TEST_STAT, words for the host. -/
def State.replyEffect (b : Nat) (r : HubReq) (ok : Bool) (words : List Byte) (s : State) : State :=
  let address := leAt r.pkt 8 4
  let s := if 65536 ≤ r.dest && r.dev then
      (if ok then s.cmdAcked b (r.dest - 65536) else s.cmdFailed b (r.dest - 65536))
    else s
  if !r.isStat || !ok then s
  else
    let s := if r.dev || r.mute then s else s.emit (.hostWrite r.dest words)
    if covers address (words.length / 4) 0x11C then s.takeTestStat b (leAt words (0x11C - address) 4) else s

/-- A reply of a hub (R229): matched by its ctag; an unknown ctag raises FS004. -/
def State.takeReply (n : Nat) (isStat : Bool) (p : List Byte) (s : State) : State :=
  let b := n / 4
  let c := leAt p 4 2
  match s.link.reqs.find? (fun r => r.ctag = c && r.isStat = isStat && bitOf r.bars b) with
  | none => if (s.linkBar b).ctags.contains c then s else s.hubProto n
  | some r =>
    let ok := leAt p 1 1 = 0
    let words := (p.drop 12).take (p.length - 16)
    if bitOf (r.acked ||| r.naked) b then s
    else if isStat && ok && words.length ≠ 4 * leAt r.pkt 1 1 then s.hubProto n
    else
      let r := if ok then { r with acked := r.acked + 2 ^ b } else { r with naked := r.naked + 2 ^ b }
      let all := r.acked + r.naked = r.bars
      let s := s.onLink (fun l => { l with
        reqs := if all then l.reqs.filter (fun x => x.ctag ≠ c) else l.reqs.map (fun x => if x.ctag = c then r else x) })
      let s := s.replyEffect b r ok words
      if all then s.reqComplete r false else s

/-- An insertion that a row names arrives on an ACTIVE lane whose upstream does not sleep: its check (R224), then its effect. -/
def State.upPacket (n typ : Nat) (p : List Byte) (f : State → State) (s : State) : State :=
  if !s.isOn 6 || (s.lane n).tstate ≠ .active || (s.linkBar (n / 4)).us = .asleep then s
  else if pktOk p && upInsert p && leAt p 0 1 = typ then f s
  else s.hubProto n

/-- CFG_ACK_RECEIVE (R229, R252). -/
def execCfgAckReceive (dt : Nat) (lane : Fin 32) (pkt : List Byte) (s : State) : Res :=
  if s.down then .next s else
  .next ((s.elapse dt).upPacket lane.val 0x31 pkt (State.takeReply lane.val false pkt))

/-- STAT_DATA_RECEIVE (R229, R252). -/
def execStatDataReceive (dt : Nat) (lane : Fin 32) (pkt : List Byte) (s : State) : Res :=
  if s.down then .next s else
  .next ((s.elapse dt).upPacket lane.val 0x41 pkt (State.takeReply lane.val true pkt))

/-- A packet still waits on some lane for its insertion. -/
def State.queuedPkt (s : State) (p : List Byte) : Bool := s.link.lanes.any (fun l => l.ins.any (fun q => q.bytes = p))

/-- CFG_ACK_TIMEOUT (R252): cfg_timeout without a reply of a bar: once more, then HUB_TIMEOUT. -/
def execCfgAckTimeout (dt : Nat) (bar : Fin 8) (ctag : Nat) (s : State) : Res :=
  if s.down then .next s else
  let s := s.elapse dt
  if !s.isOn 6 then .next s else
  let b := bar.val
  let t := orIfZero (s.f Fld.LINK_GLOBAL_cfg_timeout) 1 * 1000
  match s.link.reqs.find? (fun r => r.ctag = ctag && bitOf r.bars b && !bitOf (r.acked ||| r.naked) b
      && !s.queuedPkt r.pkt && t ≤ s.now - r.since) with
  | none => .next s
  | some r =>
    if r.tries < 2 then
      let silent := (scopeBars r.bars).filter (fun b => !bitOf (r.acked ||| r.naked) b)
      let s := silent.foldl (fun s b => s.sendCtl b 3 r.pkt) s
      .next (s.onLink (fun l => { l with
        reqs := l.reqs.map (fun x => if x.ctag = ctag then { x with tries := 2, since := s.now } else x) }))
    else
      let s := s.onLink (fun l => { l with reqs := l.reqs.filter (fun x => x.ctag ≠ ctag) })
      let s := if r.dev && 65536 ≤ r.dest then s.cmdFailed b (r.dest - 65536) else s
      .next (s.reqComplete r true)

/-! ### Sleep and wake (R245 to R248) -/

/-- HUB_SLEEP_RECEIVE (R245, R248): the upstream direction sleeps; one that a later WAKE has crossed is already waking. -/
def execHubSleepReceive (dt : Nat) (lane : Fin 32) (pkt : List Byte) (s : State) : Res :=
  if s.down then .next s else
  let b := lane.val / 4
  .next ((s.elapse dt).upPacket lane.val 0x80 pkt (fun s =>
    ((s.onLinkBar b (fun l => { l with
      us := if l.us = .waking && !l.usPending then .waking else .asleep, usPending := false })).laneEv (4 * b) 102).settleSleeps))

/-- HUB_WAKE_RECEIVE (R246): a WAKE naming downstream. -/
def execHubWakeReceive (dt : Nat) (lane : Fin 32) (pkt : List Byte) (s : State) : Res :=
  if s.down then .next s else
  .next ((s.elapse dt).upPacket lane.val 0x90 pkt (fun s =>
    if bitOf (leAt pkt 1 1) 0 then s.wakeDown (lane.val / 4) else s))

/-- sleep_after of a bar in ns (R256). -/
def State.sleepAfter (s : State) (b : Nat) : Nat := orIfZero (s.f (Fld.LINK_BAR_AFTER_sleep_after b)) 1 * 1000

/-- DS_SLEEP_ENTER (R245, R246, R252): a condition of R246 has held for sleep_after. A control packet that still waits is a cause to wake, so
with one there the direction does not go to sleep. -/
def execDsSleepEnter (dt : Nat) (bar : Fin 8) (s : State) : Res :=
  if s.down then .next s else
  let s := s.elapse dt
  if !s.isOn 6 then .next s else
  let b := bar.val
  let l := s.linkBar b
  let held := ((s.bar b).fire = .disarmed && s.sleepAfter b ≤ s.now - l.offSince)
    || l.farSince.any (fun t => s.sleepAfter b ≤ s.now - t)
  .next (if s.fb (Fld.LINK_BAR_CTRL_ds_sleep_en b) && l.ds = .awake && !l.dsPending && !l.dsOver && s.quietDown b && held then
    s.sleepDown b else s)

/-- US_SLEEP_ENTER (R247): SLEEP naming upstream is sent; the hub then sleeps its upstream. -/
def execUsSleepEnter (dt : Nat) (bar : Fin 8) (s : State) : Res :=
  if s.down then .next s else
  let s := s.elapse dt
  if !s.isOn 6 then .next s else
  let b := bar.val
  let l := s.linkBar b
  .next (if s.fb (Fld.LINK_BAR_CTRL_us_sleep_en b) && (s.bar b).fire = .disarmed && l.us = .awake && !l.usPending
      && !l.usOver && s.sleepAfter b ≤ s.now - l.offSince then s.sendSleepUp b else s)

/-- WAKE_COMPLETE (R245); downstream the PRBS31 has gone out for 6 µs. -/
def execWakeComplete (dt : Nat) (bar : Fin 8) (upstream : Bool) (s : State) : Res :=
  if s.down then .next s else
  let s := s.elapse dt
  if !s.isOn 6 then .next s else
  let b := bar.val
  .next (if upstream then (if (s.linkBar b).us ≠ .awake then s.awakeUp b else s)
    else if (s.linkBar b).ds = .waking && 6000 ≤ s.now - (s.linkBar b).wakeSince then s.awakeDown b else s)

/-- WAKE_LATE (R245): 12 µs from the wake decision have passed; FS005, and the lane leaves its pair. -/
def execWakeLate (dt : Nat) (bar : Fin 8) (upstream : Bool) (lane : Fin 32) (s : State) : Res :=
  if s.down then .next s else
  let s := s.elapse dt
  if !s.isOn 6 then .next s else
  let b := bar.val
  let l := s.linkBar b
  let late := if upstream then l.us = .waking && 12000 < s.now - l.usWakeAt else l.ds = .waking && 12000 < s.now - l.wakeSince
  .next (if late && lane.val / 4 = b && (s.lane lane.val).inPair then (s.leavePair lane.val 11 false).laneFault 5 lane.val else s)

end Sys2Proof.Machine
end

