-- ==== Sys2Proof/Machine/JetCmd.lean ====
section
/-! DEFINITION. Scan-out and firing: the meanings of FIRE_TICK, BURST_TICK, FIRE_PULSE_END, DOT_SEND_START, BAR_ARM,
BAR_DISARM, HV_EN_WRITE, DRILL_REQUEST, DRILL_START, FIRE_REPAIR, FIRE_PAD_FAULT, ECHO_TIMEOUT, ECHO_RECEIVE and
FIRE_SELF_TEST (R164, R165, R189 to R208). -/

set_option Elab.async false

namespace Sys2Proof.Machine

/-- FIRE_TICK (R165): the next line of a bar has been reached, and no tick of a burst holds its tick back (R164). disagree says that the
bar's scan-out engines differ on it, stalled that they leave it in the line event FIFO (R195). -/
def execFireTick (dt : Nat) (bar : Fin 8) (found : TickCheck) (s : State) : Res :=
  if s.down then .next s else
  let s := s.elapse dt
  let b := bar.val
  let free := match (s.bar b).burstNext with
    | some t => decide (t < s.now)
    | none => true
  .next (if s.isOn 6 && free && s.lineDue b (s.nextTick b) then s.fireNext b false found.disagree found.stalled else s)

/-- BURST_TICK (R164): the burst spacing has elapsed and a tick is due; its operands are those of FIRE_TICK. -/
def execBurstTick (dt : Nat) (tick : BurstAt) (s : State) : Res :=
  if s.down then .next s else
  let s := s.elapse dt
  let b := tick.bar.val
  let due := match (s.bar b).burstNext with
    | some t => decide (t ≤ s.now)
    | none => false
  .next (if s.isOn 6 && due && s.lineDue b (s.nextTick b) then s.fireNext b true tick.found.disagree tick.found.stalled else s)

/-- FIRE_PULSE_END (R198): the pulse has lasted its width. -/
def execFirePulseEnd (dt : Nat) (bar : Fin 8) (s : State) : Res :=
  if s.down then .next s else
  let s := s.elapse dt
  .next (match (s.bar bar.val).pulse with
    | some p => if p.2 ≤ s.now then s.endPulse bar.val else s
    | none => s)

/-- ahead_lines (R212). -/
def State.aheadLines (s : State) : Nat := clampNat 1 8 (s.f Fld.JET_CTRL_ahead_lines)

/-- DOT_SEND_START (R192): the fire position has reached line m − ahead_lines of the next tick m whose packets are to be
sent. -/
def execDotSendStart (dt : Nat) (bar : Fin 8) (s : State) : Res :=
  if s.down then .next s else
  let s := s.elapse dt
  let b := bar.val
  let m := max ((s.bar b).nextSend.getD (s.nextTick b)) (s.nextTick b)
  .next (if s.isOn 6 && s.lineDue b (m - s.aheadLines) then s.sendTick b m else s)

/-- A half-bar of a bar that is armed has no lane in service (R255); in replay what the lanes do is in the record (R522). -/
def State.judgeHalves (b : Nat) (s : State) : State :=
  if s.replaying then s
  else [0, 1].foldl (fun s h => if s.halfUp b h then s else match s.halfLanes b h with
    | n :: _ => s.laneFault 1 n
    | [] => s.laneFault 1 (4 * b)) s

/-- BAR_ARM (R199, R200, R247): not while Crook is SAFE (R539) or Fold holds the bar (R206), and only a bar in use (R178). The
write wakes both directions; SYNC waits for the upstream. A half-bar without a lane raises FS001 (R255). -/
def execBarArm (dt : Nat) (bar : Fin 8) (s : State) : Res :=
  if s.down then .next s else
  let s := s.elapse dt
  if !s.writeOpen 1 (Reg.JET_BAR_CTRL bar.val).off then .next s else
  let s := s.noteWrite 1 (Reg.JET_BAR_CTRL bar.val).off (putBits (s.reg (Reg.JET_BAR_CTRL bar.val)) 31 31 1)
  let b := bar.val
  .next (
    if s.crook.state ≠ .clear || s.fold.held.getD b false || (!(s.bar b).inUse && (s.bar b).rings.isEmpty) || s.armed b then s
    else
      let s := s.setF (Fld.JET_BAR_CTRL_arm b) 1
      let s := s.onBar b (fun x => { x with
        fire := .activeStandby, activeB := s.fb (Fld.JET_BAR_CTRL_start_b b), awaiting := [], markPending := false,
        lastEcho := none, lastFired := [none, none, none, none] })
      let s := s.onNzBar b (fun z => { z with sweepAt := s.now, staleSaid := false })
      let s := s.abortImp b
      let s := (s.wakeDown b).wakeUp b
      let s := if (s.linkBar b).us = .awake then s.syncBar b else s.onLinkBar b (fun l => { l with syncWait := true })
      s.judgeHalves b)

/-- BAR_DISARM (R200). -/
def execBarDisarm (dt : Nat) (bar : Fin 8) (s : State) : Res :=
  if s.down then .next s else
  let s := s.elapse dt
  if !s.writeOpen 1 (Reg.JET_BAR_CTRL bar.val).off then .next s else
  let s := s.noteWrite 1 (Reg.JET_BAR_CTRL bar.val).off (putBits (s.reg (Reg.JET_BAR_CTRL bar.val)) 31 31 0)
  .next (if s.armed bar.val then s.barDisarm bar.val 3 else s)

/-- HV_EN_WRITE (R206, R539): in Crook's safe state a write has no effect; in replay the pin stays inactive (R521). -/
def execHvEnWrite (dt : Nat) (bar : Fin 8) (level : Bool) (s : State) : Res :=
  if s.down then .next s else
  let s := s.elapse dt
  if !s.writeOpen 1 (Reg.JET_BAR_CTRL bar.val).off then .next s else
  let s := s.noteWrite 1 (Reg.JET_BAR_CTRL bar.val).off (putBits (s.reg (Reg.JET_BAR_CTRL bar.val)) 30 30 (b2n level))
  let b := bar.val
  .next (
    if s.crook.state ≠ .clear then s
    else (s.setF (Fld.JET_BAR_CTRL_hv_en b) (b2n level)).onBar b (fun x => { x with hv := level && !s.replaying }))

/-- DRILL_REQUEST (R205). -/
def execDrillRequest (dt : Nat) (bar : Fin 8) (s : State) : Res :=
  if s.down then .next s else
  let s := s.elapse dt
  if !s.writeOpen 1 (Reg.JET_BAR_CTRL bar.val).off then .next s else
  let s := s.noteWrite 1 (Reg.JET_BAR_CTRL bar.val).off (putBits (s.reg (Reg.JET_BAR_CTRL bar.val)) 29 29 1)
  .next (s.setF (Fld.JET_BAR_CTRL_drill bar.val) 1)

/-- DRILL_START (R205): before the tick of gap line 8, SYNC names the standby line active. -/
def execDrillStart (dt : Nat) (bar : Fin 8) (s : State) : Res :=
  if s.down then .next s else
  let s := s.elapse dt
  let b := bar.val
  let x := s.bar b
  .next (match x.gapAt with
    | some g =>
      if x.drillDue && x.fire = .activeStandby && s.nextTick b = g.1 + 8 then
        (s.onBar b (fun x => { x with
          fire := .drill, activeB := !x.activeB, drillDue := false, drill := some ⟨0, false, x.activeB⟩ })).syncBar b
      else s
    | none => s)

/-- FIRE_REPAIR (R200, R204). -/
def execFireRepair (dt : Nat) (bar : Fin 8) (lineB : Bool) (s : State) : Res :=
  if s.down then .next s else
  let s := s.elapse dt
  if !s.writeOpen 1 (Reg.JET_BAR_CTRL bar.val).off then .next s else
  let s := s.noteWrite 1 (Reg.JET_BAR_CTRL bar.val).off (s.reg (Reg.JET_BAR_CTRL bar.val) ||| (if lineB then 0x4000000 else 0x8000000))
  let b := bar.val
  let x := s.bar b
  let clear := fun (x : Bar) =>
    { x with
      selfTest := if x.selfTest = some lineB then none else x.selfTest
      testing := if x.testing.any (fun (t : LineTest) => t.lineB = lineB) then none else x.testing }
  let tested := x.selfTest = some lineB || x.testing.any (fun (t : LineTest) => t.lineB = lineB)
  let drop := fun (s : State) => if tested then s.dropLineTest b else s
  .next (match x.fire with
    | .activeFailed =>
      if x.activeB ≠ lineB then
        ((drop s).onBar b (fun x => { clear x with fire := .activeStandby })).raiseEv 121
      else s
    | .bothFailed => ((drop s).onBar b (fun x => { clear x with fire := .activeFailed, activeB := lineB })).syncBar b
    | .disarmed => s
    | .activeStandby => s
    | .drill => s)

/-- The last pulse of the active line: its line is lost unless its report comes (R202). -/
def Bar.lastPulse (x : Bar) : Lost :=
  match (x.awaiting.filter (fun a => a.lineB = x.activeB)).getLast? with
  | some a => .report a.tick
  | none => .no

/-- FIRE_PAD_FAULT (R201, R204): the pad monitor finds a line's level wrong. Of a line at rest it examines nothing (R203). -/
def execFirePadFault (dt : Nat) (line : FireLine) (s : State) : Res :=
  if s.down then .next s else
  let s := s.elapse dt
  let b := line.bar.val
  .next (
    if (s.bar b).testing.any (fun (t : LineTest) => t.lineB = line.lineB) then s.testFailed b
    else if (s.bar b).activeB = line.lineB then s.lineFault 8 b .detector (s.bar b).lastPulse
    else s)

/-- ECHO_TIMEOUT (R201, R202): no report of the oldest pulse has come within echo_ns. -/
def execEchoTimeout (dt : Nat) (bar : Fin 8) (s : State) : Res :=
  if s.down then .next s else
  let s := s.elapse dt
  let b := bar.val
  let s := if (s.bar b).testing.any (fun (t : LineTest) => t.out.any (fun p => p + s.echoNs < s.now)) then s.testFailed b else s
  .next (match (s.bar b).awaiting with
    | [] => s
    | a :: rest =>
      if s.now ≤ a.at_ + s.echoNs then s
      else
        let s := s.onBar b (fun x => { x with awaiting := rest })
        if a.judge then s.lineLost b a.tick
        else if a.lineB = (s.bar b).activeB then s.lineFault 9 b .detector (.now a.tick)
        else s)

/-- A report that matches the pulse of a tick (R201, R205). -/
def State.echoMatch (b : Nat) (a : Awaiting) (s : State) : State :=
  let s := s.onBar b (fun x => { x with awaiting := x.awaiting.filter (· ≠ a), lastEcho := some (a.tick, a.lineB) })
  if a.judge then s
  else match (s.bar b).drill with
    | some d =>
      if (s.bar b).fire = .drill && a.lineB = (s.bar b).activeB then
        if d.matched + 1 ≥ 16 then s.endDrill b true
        else s.onBar b (fun x => { x with drill := some { d with matched := d.matched + 1 } })
      else s
    | none => s

/-- An ECHO packet of a bar (R201): each report comes once on every lane (R249), and copies of one already taken are passed
over. -/
def State.takeEcho (b lane : Nat) (p : List Byte) (s : State) : State :=
  let c := leAt p 4 4
  let lineB := bitOf (leAt p 8 1) 0
  let x := s.bar b
  match x.testing.filter (fun (t : LineTest) => t.lineB = lineB) with
  | some t => s.testEcho b lane t
  | none =>
  match x.awaiting.find? (fun a => a.lineB = lineB && toTwos 32 a.tick = c) with
  | some a => s.echoMatch b a
  | none =>
    if x.lastEcho.any (fun e => toTwos 32 e.1 = c && e.2 = lineB) then s
    else match x.awaiting.find? (fun a => a.lineB = lineB) with
      | some a =>
        let s := s.onBar b (fun x => { x with awaiting := x.awaiting.filter (· ≠ a) })
        if a.judge || a.lineB ≠ x.activeB then s else s.lineFault 9 b .detector .no
      | none => s

/-- ECHO_RECEIVE (R201, R228). -/
def execEchoReceive (dt : Nat) (lane : Fin 32) (pkt : List Byte) (s : State) : Res :=
  if s.down then .next s else
  let n := lane.val
  .next ((s.elapse dt).upPacket n 0x20 pkt (fun s =>
    if leAt pkt 1 1 = 8 then s.takeEcho (n / 4) (n % 4) pkt else s.hubProto n))

/-- FIRE_SELF_TEST (R204): in a gap of at least drill_min lines, the first of 16 pulses goes out on the failed line. -/
def execFireSelfTest (dt : Nat) (bar : Fin 8) (s : State) : Res :=
  if s.down then .next s else
  let s := s.elapse dt
  let b := bar.val
  let x := s.bar b
  .next (match x.selfTest with
    | some l =>
      if x.testDue && x.gapAt.isSome && x.fire = .activeFailed && !s.replaying && s.testMayRun 8 b && s.testMayRun 9 b then
        (s.onBar b (fun x => { x with
          selfTest := none, testDue := false, testing := some ⟨l, s.now, 1, [s.now], 0, [0, 0, 0, 0]⟩ })).testPulse b l
      else s
    | none => s)

end Sys2Proof.Machine
end

