-- ==== Sys2Proof/Machine/Mailbox.lean ====
section
/-! DEFINITION. Commands of the control cores, mailboxes and stiles (R450 to R467). -/

set_option Elab.async false

namespace Sys2Proof.Machine

/-- The domain of the core that an agent is (R450). -/
def coreDomain (agent : Nat) : Nat := if agent = 2 then 1 else if agent = 3 then 2 else if agent = 4 then 7 else 8

/-- Staging registers and last post of an agent (R453). -/
def State.stage (s : State) (agent : Nat) : Stage := s.mbx.stages.getD agent ⟨0, 0, 0, 0, 0⟩

/-- The bank of an agent, changed. -/
def State.onStage (agent : Nat) (f : Stage → Stage) (s : State) : State :=
  s.onMbx (fun x => { x with stages := x.stages.modify agent f })

/-- The receiver of a notice is told (R457): a core by its wake line, its domain being powered up; the host by EV232. -/
def State.tellReceiver (agent : Nat) (s : State) : State :=
  if agent = 1 then s.raiseEv 232
  else
    (s.wakeCore agent).wakeDomain (coreDomain agent)

/-- MBX_POST (R455, R456). -/
def execMbxPost (dt : Nat) (agent : Fin 7) (data : Word) (s : State) : Res :=
  if s.down then .next s else
  let s := s.elapse dt
  if !s.writeOpen agent.val Reg.MBX_POST.off then .next s else
  let s := s.noteWrite agent.val Reg.MBX_POST.off data.toNat
  let a := agent.val
  let m := data.toNat % 16
  if a = 0 then .next s
  else
    let done := fun (r : Nat) (s : State) => s.onStage a (fun x => { x with result := r, mailbox := m })
    if boxReceiver m = a then .next (done 3 s)
    else if (s.box m).state = .posted then .next (done 2 s)
    else
      let st := s.stage a
      let s := s.onBox m (fun _ => { Mailbox.reset with
        state := .posted, ptr := st.ptrLo + 2 ^ 32 * st.ptrHi, tag := st.tag, sender := a, postedAt := s.now })
      .next ((done 1 s).tellReceiver (boxReceiver m))

/-- MBX_ACK (R455, R458, R459): by the receiver; of an ORPHAN notice it is discarded. -/
def execMbxAck (dt : Nat) (agent : Fin 7) (box : Fin 16) (data : Word) (s : State) : Res :=
  if s.down then .next s else
  let s := s.elapse dt
  if !s.writeOpen agent.val (Reg.MBX_ACK box.val).off then .next s else
  let s := s.noteWrite agent.val (Reg.MBX_ACK box.val).off data.toNat
  let m := box.val
  let b := s.box m
  if agent.val ≠ boxReceiver m || b.state ≠ .posted then .next s
  else if b.orphan then .next (s.onBox m (fun _ => Mailbox.reset))
  else
    let s := s.onBox m (fun b => { b with state := .done, result := data.toNat % 65536, aborted := false })
    .next (s.tellSender b.sender false)

/-- MBX_CLEAR (R455): by the recorded sender. -/
def execMbxClear (dt : Nat) (agent : Fin 7) (box : Fin 16) (data : Word) (s : State) : Res :=
  if s.down then .next s else
  let s := s.elapse dt
  if !s.writeOpen agent.val (Reg.MBX_CLEAR box.val).off then .next s else
  let s := s.noteWrite agent.val (Reg.MBX_CLEAR box.val).off data.toNat
  let m := box.val
  if bitOf data.toNat 0 && (s.box m).state = .done && (s.box m).sender = agent.val then
    .next (s.onBox m (fun _ => Mailbox.reset))
  else .next s

/-- wake_limit in µs: 0 is taken as 40 (R467). -/
def State.wakeLimit (s : State) : Nat := orIfZero (s.f Fld.MBX_LIMITS_wake_limit) 40

/-- MBX_WAKE_LATE (R457): FS098, once per notice. -/
def execMbxWakeLate (dt : Nat) (box : Fin 16) (s : State) : Res :=
  if s.down then .next s else
  let s := s.elapse dt
  let m := box.val
  let b := s.box m
  if b.state = .posted && boxReceiver m ≠ 1 && !b.seen && !b.late && b.postedAt + s.wakeLimit * 1000 < s.now then
    .next ((s.onBox m (fun b => { b with late := true })).fault 98)
  else .next s

/-- An agent reads a stile (R462): it reads the owner, or 0 and becomes the owner. In replay a stile is won only as the record has
it (R510); until then the read waits. -/
def State.stileTake (n a : Nat) (s : State) : State :=
  let o := (s.stile n).owner
  let p := leBytes 4 n ++ leBytes 4 a
  if a = 0 then s
  else if o ≠ 0 then s.onHif (fun h => { h with readData := o })
  else if !s.replayAllows 0 p then s
  else
    let s := s.onMbx (fun x => { x with stiles := x.stiles.modify n (fun _ => ⟨a, s.now, false⟩) })
    (s.journal 0 p).onHif (fun h => { h with readData := 0 })

/-- STILE_READ (R462). -/
def execStileRead (dt : Nat) (agent : Fin 7) (stile : Fin 8) (s : State) : Res :=
  if s.down then .next s else
  let s := s.elapse dt
  .next (if s.answers (Reg.MBX_STILE stile.val).off then s.stileTake stile.val agent.val
    else s.onHif (fun h => { h with readData := 0 }))

/-- STILE_RELEASE (R463). -/
def execStileRelease (dt : Nat) (stile : Fin 8) (data : Word) (s : State) : Res :=
  if s.down then .next s else
  let s := s.elapse dt
  if !s.writeOpen (data.toNat % 16) (Reg.MBX_STILE stile.val).off then .next s else
  let s := s.noteWrite (data.toNat % 16) (Reg.MBX_STILE stile.val).off data.toNat
  let n := stile.val
  let o := (s.stile n).owner
  if o ≠ 0 && data.toNat % 16 = o then
    .next (s.onMbx (fun x => { x with stiles := x.stiles.modify n (fun _ => ⟨0, 0, false⟩) }))
  else .next s

/-- STILE_LONG (R463): FS099, once per holding; stile_max 0 is off. -/
def execStileLong (dt : Nat) (stile : Fin 8) (s : State) : Res :=
  if s.down then .next s else
  let s := s.elapse dt
  let n := stile.val
  let x := s.stile n
  let us := s.f Fld.MBX_LIMITS_stile_max
  if us ≠ 0 && x.owner ≠ 0 && !x.said && x.since + us * 1000 < s.now then
    .next ((s.onMbx (fun m => { m with stiles := m.stiles.modify n (fun x => { x with said := true }) })).fault 99)
  else .next s

/-- A core is reset (R452); it starts once its domain is ON and the cores have been verified. -/
def State.resetCore (core cause : Nat) (s : State) : State :=
  s.coreReset State.faultFor core cause (s.sys.cores && s.isOn (coreDomain (core + 2)))

/-- CORE_RESET_WRITE (R452): C1 to C3, with the key. -/
def execCoreResetWrite (dt : Nat) (data : Word) (s : State) : Res :=
  if s.down then .next s else
  let s := s.elapse dt
  if !s.writeOpen 1 Reg.MBX_CORE_CTRL.off then .next s else
  let s := s.noteWrite 1 Reg.MBX_CORE_CTRL.off data.toNat
  if bits data.toNat 31 16 ≠ 0xC0DE then .next s
  else .next ([1, 2, 3].foldl (fun s n => if bitOf data.toNat n then s.resetCore n 2 else s) s)

/-- WATCHDOG_EXPIRE (R452, R532): FS100 + n; the expiry of C0's resets the device. -/
def execWatchdogExpire (dt : Nat) (core : Fin 4) (s : State) : Res :=
  if s.down then .next s else
  let s := s.elapse dt
  let n := core.val
  if !(s.mbx.cores.getD n ⟨false, 0, 0, false⟩).run then .next s
  else
    let s := s.fault (100 + n)
    .next (if n = 0 then s.deviceReset 2 else s.resetCore n 1)

/-- FW_DROVER_REQUEST (R464): by C1 to C3; nothing while one of the core waits or is granted. -/
def execFwDroverRequest (dt : Nat) (core : Fin 4) (data : Word) (s : State) : Res :=
  if s.down then .next s else
  let s := s.elapse dt
  if !s.writeOpen (core.val + 2) Reg.DROVER_FW_REQ.off then .next s else
  let n := core.val
  if n ≠ 0 && bitOf data.toNat 31 then .next (s.droverAsk 7 (bits data.toNat 9 0) (.firmware n)) else .next s

/-- FW_DROVER_WITHDRAW (R464). -/
def execFwDroverWithdraw (dt : Nat) (core : Fin 4) (data : Word) (s : State) : Res :=
  if s.down then .next s else
  let s := s.elapse dt
  if !s.writeOpen (core.val + 2) Reg.DROVER_FW_REQ.off then .next s else
  let n := core.val
  if n ≠ 0 && bitOf data.toNat 30 then .next (s.droverDrop (.firmware n)) else .next s

end Sys2Proof.Machine
end

