-- ==== Sys2Proof/Machine/TableCmd.lean ====
section
/-! DEFINITION. Commands of tables and of the speed ceiling: TABLE_LOAD and TABLE_HELD, background verification, the pace meters
(R13, R21 to R23, R121 to R126, R143 to R145, R186 to R188, R329 to R331, R377). -/

set_option Elab.async false

namespace Sys2Proof.Machine

/-- The domain that holds the tables of a type. -/
def tableDomain (typ : Nat) : Nat := if typ < 0x10 then 5 else if typ < 0x20 then 7 else if typ < 0x30 then 6 else 9

/-- TABLE_LOAD (R121 to R123, R126): the load starts; its effect comes with TABLE_HELD. -/
def execTableLoad (dt : Nat) (ring : Fin 64) (slot : Nat) (s : State) : Res :=
  if s.down then .next s else
  let s := s.elapse dt
  match s.startable ring.val slot 0x20 with
  | none => .next s
  | some d =>
    if s.opening then .next s
    else if 1 ≤ d.byte 8 && d.byte 8 ≤ 4 && d.byte 9 = 4 then .next (s.complete d 0x15 0)
    else if !s.jobFits d then .next (s.complete d 0x21 0)
    else
      let s := s.wakeDomain (tableDomain (d.byte 8))
      if !s.isOn (tableDomain (d.byte 8)) then .next s
      else
        let s := s.start d
        .next (if s.lay.job.isSome then s.onLay (fun l => { l with loads := l.loads ++ [(d.order, .next)] }) else s)

/-- What a load is bound to: nothing when no job was open, or its job has ended. -/
def State.loadBind (s : State) (order : Nat) : Bind :=
  match s.lay.loads.find? (fun x => x.1 = order) with
  | some x => x.2
  | none => .free

/-- A load ends: it no longer waits to be held. -/
def State.endLoad (order : Nat) (s : State) : State :=
  s.onLay (fun l => { l with loads := l.loads.filter (fun x => x.1 ≠ order) })

/-- Sub-rows of a bar and its second strike, as a table check takes them (R178): of the job, else of the registers. -/
def State.subRowsOf (s : State) (b : Nat) : Nat :=
  if s.lay.job.isSome then (s.bar b).subRows else s.f (Fld.JET_BAR_CFG_sr_count b) + 1
def State.msOf (s : State) (b : Nat) : Bool :=
  if s.lay.job.isSome then (s.bar b).msCapable else s.fb (Fld.JET_BAR_CFG_ms_capable b)

/-- The checks of an interlace table (R187, R188): none when it passes, else the status. -/
def State.ilCheck (s : State) (b : Nat) (data : List Byte) : Option Nat :=
  if !interlaceOk (s.subRowsOf b) (s.msOf b) data then some 0x30
  else
    let il := interlaceOf data
    let x := s.bar b
    let fmax := s.f (Fld.BELL_FMAX_fmax_b b)
    if (x.left.tables ++ x.right.tables).any (fun r => !residueOk r il) then some 0x33
    else if fmax ≠ 0 && s.armed b && fmax * il.sMin < s.bell.lrate then some 0x32
    else if s.fb Fld.JET_CTRL_il_strict && fmax * il.sMin < s.bell.ceilLines then some 0x32
    else none

/-- The check of a table's content (R124, R187, R188, R330): none when it passes, else the status. -/
def State.tableCheck (s : State) (typ index sub : Nat) (data : List Byte) : Option Nat :=
  if typ = 0x20 then s.ilCheck index data
  else if (tablePieces typ index sub data).all (fun p => s.pieceOk p.1 p.2.2.2) then none
  else some 0x30

/-- A slot that a load covers already holds a table that waits (R125). -/
def State.tableBusy (s : State) (typ index sub : Nat) : Bool :=
  if typ = 0x20 then (s.bar index).ilWait.isSome
  else if typ = 0x30 then s.dfl.dictWait.any (fun w => w.2.1 = index)
  else if 0x10 ≤ typ then
    (tablePieces typ index sub []).any (fun p =>
      s.hold.measWait.any (fun w => w.2.typ = p.1 && w.2.index = p.2.1 && w.2.sub = p.2.2.1))
  else (tablePieces typ index sub []).any (fun p => (s.tslot p.1 p.2.1 p.2.2.1).any (fun t => t.shadow.isSome))

/-- A checked colour or screening table is held (R125, R126). -/
def State.holdInk (order : Nat) (b : Bind) (p : Nat × Nat × Nat × List Byte) (s : State) : State :=
  let h : Shadow := ⟨p.2.2.2, crc32c p.2.2.2, b, order⟩
  s.onSlot p.1 p.2.1 p.2.2.1 (fun t =>
    if b = .free then activate { t with shadow := some h } else { t with shadow := some h })

/-- A checked measurement table, HOLD_BASE or HOLD_CELLS is held (R331). -/
def State.holdMeas (b : Bind) (p : Nat × Nat × Nat × List Byte) (s : State) : State :=
  let m : MeasTable := ⟨p.1, p.2.1, p.2.2.1, p.2.2.2⟩
  s.onHold (fun h => if b = .free then takeMeas h m else { h with measWait := h.measWait ++ [(b, m)] })

/-- A checked interlace table is held (R186, R187). -/
def State.holdIl (bar : Nat) (b : Bind) (data : List Byte) (s : State) : State :=
  if b = .free then (s.onBar bar (fun x => { x with il := interlaceOf data })).limitsChanged
  else s.onBar bar (fun x => { x with ilWait := some (b, interlaceOf data) })

/-- A dictionary is held (R377): its DICTID is computed. -/
def State.holdDict (slot : Nat) (b : Bind) (data : List Byte) (s : State) : State :=
  let w : DictSlot := ⟨data, adler32 data⟩
  s.onDfl (fun d =>
    if b = .free then { d with dicts := (slot, w) :: d.dicts.filter (fun p => p.1 ≠ slot) }
    else { d with dictWait := d.dictWait ++ [(b, slot, w)] })

/-- A checked table is held, or takes effect at once (R125, R126). -/
def State.holdTable (order typ index sub : Nat) (b : Bind) (data : List Byte) (s : State) : State :=
  if typ = 0x20 then s.holdIl index b data
  else if typ = 0x30 then s.holdDict index b data
  else if 0x10 ≤ typ then (tablePieces typ index sub data).foldl (fun s p => s.holdMeas b p) s
  else (tablePieces typ index sub data).foldl (fun s p => s.holdInk order b p) s

/-- The table copy has ended (R124, R125). -/
def State.tableArrived (d : Desc) (data : List Byte) (s : State) : State :=
  let b := s.loadBind d.order
  let s := s.endLoad d.order
  match s.tableCheck (d.byte 8) (d.byte 9) (d.byte 10) data with
  | some st => s.complete d st 0
  | none =>
    if s.tableBusy (d.byte 8) (d.byte 9) (d.byte 10) then s.complete d 0x31 0
    else (s.holdTable d.order (d.byte 8) (d.byte 9) (d.byte 10) b data).complete d 0 0

/-- TABLE_HELD (R124 to R126, R187, R188, R330, R377, R557). -/
def execTableHeld (dt : Nat) (ring : Fin 64) (slot : Nat) (list : List PageEnt) (data : List Byte) (s : State) : Res :=
  if s.down then .next s else
  let s := s.elapse dt
  match s.liveAs ring.val slot (fun d => d.opcode = 0x20 && d.started) with
  | some d =>
    match d.hostIn list data with
    | none => .next s
    | some (st, bytes) =>
      let s := s.readHost d list
      .next (if st ≠ 0 then (s.endLoad d.order).complete d st 0 else s.tableArrived d bytes)
  | none => .next s

/-- The slot of a colour or screening table by its number: the kinds in the order of R127, CSP's tables with index 4, then index, then level
(DESIGN CHOICE 79: no rule numbers the tables). -/
def tableSlotOf (n : Nat) : Nat × Nat × Nat :=
  if n < 20 then (n / 5 + 1, n % 5, 0)
  else if n < 28 then (0x08, n - 20, 0)
  else if n < 84 then (0x09, (n - 28) / 7, (n - 28) % 7 + 1)
  else (0x0A, n - 84, 0)

/-- Bits of a byte change. -/
def flipByte (at_ mask : Nat) (bs : List Byte) : List Byte := bs.modify at_ (fun b => b ^^^ BitVec.ofNat 8 mask)

/-- Bits of an active table change (R145): it is used as it then stands. -/
def State.flipTable (s : State) (f : Nat × Nat × Nat) : State :=
  let t := tableSlotOf f.1
  let g := flipByte f.2.1 f.2.2
  if f.1 < 20 && t.2.1 = 4 then
    s.onInk (fun k => { k with csp := k.csp.map (fun c => match t.1 with
      | 1 => { c with header := g c.header }
      | 2 => { c with precurve := g c.precurve }
      | 3 => { c with separation := g c.separation }
      | _ => { c with palette := g c.palette }) })
  else s.onInk (fun k => { k with
    slots := k.slots.map (fun x => if (x.typ, x.index, x.sub) = t then { x with active := x.active.map g } else x) })

/-- The CRC-32C of an active table no longer agrees with the one computed when it was held (R145). A table that stands at its reset contents
has none. -/
def State.tableBad (s : State) (n : Nat) : Bool :=
  let t := tableSlotOf n
  if n < 20 && t.2.1 = 4 then s.ink.csp.any (fun c =>
    crc32c ([c.header, c.precurve, c.separation, c.palette].getD (t.1 - 1) []) ≠ c.crcs.getD (t.1 - 1) 0)
  else s.ink.slots.any (fun x => (x.typ, x.index, x.sub) = t && x.active.any (fun d => crc32c d ≠ x.crc))

/-- TABLE_VERIFY (R145): the bits that have changed in the table memories are changed, and every active table is checked: FS044 for each
that does not agree, and it stays in use. -/
def execTableVerify (dt : Nat) (flips : List (Nat × Nat × Nat)) (s : State) : Res :=
  if s.down then .next s else
  let s := s.elapse dt
  let s := flips.foldl State.flipTable s
  if !s.fb Fld.INK_CTRL_verify_en then .next s
  else .next (((List.range 92).filter s.tableBad).foldl (fun s n => s.faultAt 44 255 n) s)

/-- A pace meter after a microsecond: busy is the pixels of a busy microsecond, 0 for one that is not counted (R13). While the images
come from the repeat store, one without work leaves the meter as it was before (R23). -/
def Pace.sample (stored : Bool) (now busy : Nat) (p : Pace) : Pace :=
  let kept := p.samples.filter (fun x => now - x.2 < 1024000)
  let all := if busy = 0 then kept else (busy, now) :: kept
  if stored && busy = 0 then p
  else { p with
    samples := all
    last := if busy = 0 then p.last else busy
    low := match all with
      | [] => p.low
      | x :: xs => some (xs.foldl (fun m y => min m y.1) x.1) }

/-- The image in composition is taken from the repeat store (R99). -/
def State.fromStore (s : State) : Bool := s.lay.comp.any (fun c => c.fromStore)

/-- FS047 when the pace term's input of an engine falls below pace_floor, once per fall (R144). -/
def State.judgePace (s : State) (e : Nat) : State :=
  let floor := s.f Fld.INK_PACE_FLOOR_pace_floor
  let p := s.ink.pace.getD e Pace.reset
  let below := floor ≠ 0 && p.low.any (fun v => v < floor)
  let s := s.onInk (fun k => { k with pace := k.pace.modify e (fun x => { x with fell := below }) })
  if below && !p.fell then s.fault 47 else s

/-- PACE_SAMPLE (R13, R23, R144): for each of the 32 engines the pixels of the last microsecond. -/
def execPaceSample (dt : Nat) (busy : List Nat) (s : State) : Res :=
  if s.down then .next s else
  if busy.length = 32 then
    let s := s.elapse dt
    let s := s.onInk (fun k => { k with pace := (k.pace.zip busy).map (fun p => p.1.sample s.fromStore s.now p.2) })
    let s := s.onTherm (fun t => { t with
      busy := t.busy.mapIdx (fun q n => n + ((busy.drop (8 * q)).take 8).countP (· ≠ 0)) })
    .next ((List.range 32).foldl State.judgePace s)
  else .fault .illFormed

/-- CEILING_RECOMPUTE (R20 to R22, R171, R172). -/
def execCeilingRecompute (dt : Nat) (s : State) : Res := if s.down then .next s else .next (s.elapse dt).recomputeCeiling

end Sys2Proof.Machine
end

