-- ==== Sys2Proof/Machine/NozzleCmd.lean ====
section
/-! DEFINITION. Commands of nozzle health: NOZZLE_MAP, test reports, element checks, the snapshot (R182 to R184, R257 to R278). -/

set_option Elab.async false

namespace Sys2Proof.Machine

/-! ### NOZZLE_MAP -/

/-- A host-data NOZZLE_MAP starts: it waits for nothing before it, and what it loads is bound from now on (R78, R184). -/
def State.mapStart (d : Desc) (s : State) : State :=
  let s := s.start d
  if s.lay.job.isSome then s.onLay (fun l => { l with loads := l.loads ++ [(d.order, .next)] }) else s

/-- The checks of R183 on a remap table: none when it passes, else the status. -/
def State.remapCheck (s : State) (b h : Nat) (data : List Byte) (r : Remap) : Option Nat :=
  let n := leAt data 0 4
  let x := s.bar b
  let rows := (List.range 4).map (fun k => r.entries.countP (fun e => e.sub = k))
  if n = 0 || 229376 < n || data.length ≠ 16 + 4 * n || leAt data 4 1 ≠ b || leAt data 5 1 ≠ h
      || r.entries.any (fun e => 110592 ≤ e.pos || s.subRowsOf b ≤ e.sub) || rows.any (fun k => 57344 < k) then some 0x34
  else if 8192 < r.runs then some 0x35
  else if x.interlaces.any (fun il => !residueOk r il) then some 0x36
  else match x.ring with
    | some k => if k.oMax < r.oMax then some 0x37 else none
    | none => none

/-- A remap table of its bytes and the region of its copy (R182, R183). -/
def remapOf (region order : Nat) (data : List Byte) : Remap :=
  let es := (words32 (data.drop 16)).map remapEntryOf
  ⟨es, region, countRuns none es, order⟩

/-- The copy of a remap table is on the device (R183, R184). -/
def State.remapArrived (d : Desc) (region : Nat) (data : List Byte) (s : State) : State :=
  let b := d.byte 9
  let h := d.byte 10
  let bind := s.loadBind d.order
  let s := s.endLoad d.order
  let r := remapOf region d.order data
  match s.remapCheck b h data r with
  | some st => (s.padFree (.remap d.order)).complete d st 0
  | none =>
    let s := s.wroteBytes (.remap d.order) 0 data.length
    let s := s.onBar b (fun x => x.onHalf h (fun y => { y with remapWait := y.remapWait ++ [(bind, r)] }))
    let s := if bind = .free then s.takeFree b h else s
    s.complete d 0 0

/-- The copy of a remap table goes on where its Paddock has been granted (R183). -/
def State.remapCopy (d : Desc) (list : List PageEnt) (data : List Byte) (s : State) : State :=
  match s.padOf (.remap d.order), d.hostIn list data with
  | some r, some (st, bytes) =>
    let s := s.readHost d list
    if st ≠ 0 then ((s.endLoad d.order).padFree (.remap d.order)).complete d st 0 else s.remapArrived d r.id bytes
  | _, _ => s

/-- NOZZLE_MAP_REMAP (R183, R184, R557): the copy needs a Paddock of the remap quota. -/
def execNozzleMapRemap (dt : Nat) (ring : Fin 64) (slot : Nat) (list : List PageEnt) (data : List Byte) (s : State) : Res :=
  if s.down then .next s else
  let s := s.elapse dt
  match s.startOp ring.val slot 0x21 0 with
  | some d =>
    if s.opening then .next s
    else
      let s := s.wakeDomain 6
      if !s.isOn 6 then .next s else
      let s := (s.mapStart d).padAsk 3 (ceilDiv d.buf.length 2097152) (.remap d.order)
      if (s.padOf (.remap d.order)).isNone && s.stageWait = 0 then .next ((s.withdraw d).complete d 0x14 0)
      else .next (s.remapCopy d list data)
  | none =>
    match s.liveAs ring.val slot (fun d => d.opcode = 0x21 && d.byte 8 = 0 && d.started) with
    | some d => .next (s.remapCopy d list data)
    | none => .next s

/-- A status map of its bytes (R272); none where count or content is wrong for the tables of the half-bar. -/
def State.mapOf (s : State) (b h : Nat) (data : List Byte) : Option (List NzStat) :=
  let n := leAt data 0 4
  let bs := (data.drop 16).map (fun x => x.toNat)
  let fits := ((s.bar b).half h).tables.filter (fun r => r.entries.length = n)
  let okFor := fun (r : Remap) => (List.zip r.entries bs).all (fun p => p.2 % 4 ≠ 3 || p.1.spare)
  if data.length = 16 + n && leAt data 4 1 = b && leAt data 5 1 = h && (data.drop 6).take 10 = List.replicate 10 0
      && bs.all (fun x => x < 64) && fits.any okFor then
    some (bs.map (fun x => ⟨x % 4, x / 4⟩))
  else none

/-- NOZZLE_MAP_STATUS_LOAD (R272, R557). -/
def execNozzleMapStatusLoad (dt : Nat) (ring : Fin 64) (slot : Nat) (list : List PageEnt) (data : List Byte) (s : State) :
    Res :=
  if s.down then .next s else
  let s := s.elapse dt
  match s.startOp ring.val slot 0x21 1 with
  | none => .next s
  | some d =>
    if s.opening then .next s
    else
      let s := s.wakeDomain 6
      if !s.isOn 6 then .next s else
      match d.hostIn list data with
      | none => .next s
      | some (st, bytes) =>
        let s := s.readHost d list
        if st ≠ 0 then .next (s.complete d st 0)
        else
          let b := d.byte 9
          let h := d.byte 10
          match s.mapOf b h bytes with
          | none => .next (s.complete d 0x50 0)
          | some m =>
            let free := s.lay.job.isNone
            let s := s.onNzHalf b h (fun z => { z with wait := z.wait ++ [(if free then .free else .next, d.order, m)] })
            let s := if free then s.takeFree b h else s
            .next (s.complete d 0 0)

/-- The status map of a half-bar as STATUS_READ writes it (R272). -/
def State.mapBytes (s : State) (b h : Nat) : List Byte :=
  let m := (s.nzHalf (2 * b + h)).map
  leBytes 4 m.length ++ leBytes 1 b ++ leBytes 1 h ++ List.replicate 10 0
    ++ m.map (fun x => BitVec.ofNat 8 (x.status + 4 * x.lasting))

/-- NOZZLE_MAP_STATUS_READ (R272, R557). -/
def execNozzleMapStatusRead (dt : Nat) (ring : Fin 64) (slot : Nat) (list : List PageEnt) (s : State) : Res :=
  if s.down then .next s else
  let s := s.elapse dt
  match s.startOp ring.val slot 0x21 2 with
  | none => .next s
  | some d =>
    let s := s.wakeDomain 6
    if !s.isOn 6 then .next s
    else
      let bs := s.mapBytes (d.byte 9) (d.byte 10)
      match d.hostOut list with
      | none => .next s
      | some ok =>
        let s := s.readList d
        if !ok then .next (s.complete d 0x11 0)
        else if d.buf.length < bs.length then .next (s.complete d 0x50 0)
        else .next ((s.writeHost d (list.map (fun e => e.addr)) bs).complete d 0 0)

/-- SET is refused (R272). -/
def State.setRefused (s : State) (b h e status : Nat) : Bool :=
  match (s.entriesOf b h)[e]? with
  | none => true
  | some x => status = 3 && (!x.spare || (s.nozzlesOf b).any (fun p => p.2 && p.1.pos = x.pos && p.1.sub = x.sub))

/-- NOZZLE_MAP_SET (R259, R260, R272). -/
def execNozzleMapSet (dt : Nat) (ring : Fin 64) (slot : Nat) (s : State) : Res :=
  if s.down then .next s else
  let s := s.elapse dt
  match s.startOp ring.val slot 0x21 3 with
  | none => .next s
  | some d =>
    let s := s.wakeDomain 6
    if !s.isOn 6 then .next s
    else
      if s.setRefused (d.byte 9) (d.byte 10) (d.num 12 4) (d.byte 11) then .next (s.complete d 0x50 0)
      else .next ((s.changeStatus (d.byte 9) (d.byte 10) (d.num 12 4) (d.byte 11) 0 2).complete d 0 0)

/-- The entries that a RETEST covers (R271). -/
def State.retestCover (s : State) (b h e : Nat) : List Nat :=
  let m := (s.nzHalf (2 * b + h)).map
  if e = 0xFFFFFFFF then (List.range m.length).filter (fun i => let st := (m.getD i ⟨0, 0⟩).status; st = 1 || st = 2)
  else if e < m.length then [e] else []

/-- NOZZLE_MAP_RETEST (R267, R272). -/
def execNozzleMapRetest (dt : Nat) (ring : Fin 64) (slot : Nat) (s : State) : Res :=
  if s.down then .next s else
  let s := s.elapse dt
  match s.startOp ring.val slot 0x21 4 with
  | none => .next s
  | some d =>
    let s := s.wakeDomain 6
    if !s.isOn 6 then .next s
    else
      let b := d.byte 9
      let h := d.byte 10
      let e := d.num 12 4
      let es := s.retestCover b h e
      if e ≠ 0xFFFFFFFF && es.isEmpty then .next (s.complete d 0x50 0)
      else if es.isEmpty then .next (s.complete d 0 0)
      else
        let s := s.start d
        let s := s.onNozzle (fun z => { z with
          retests := z.retests ++ [⟨d.order, b, h, es.map (fun i => ⟨i, false, false, 0, true⟩), 0⟩] })
        .next (s.wantImp b (some d.order))

/-! ### Reports -/

/-- Packets of a test report on a lane in service, each checked as R224. -/
def State.reportPackets (n typ : Nat) (f : List Byte → State → Bool × State) (ev : Nat) (pkts : List (List Byte)) (s : State) :
    State :=
  if !s.isOn 6 || (s.lane n).tstate ≠ .active || (s.linkBar (n / 4)).us ≠ .awake then s
  else pkts.foldl (fun s p =>
    if pktOk p && upStream p && leAt p 0 1 / 2 * 2 = typ then
      let r := f p s
      if r.1 then r.2.laneEv n ev else r.2
    else s.hubProto n) s

/-- GATE_REPORT (R231, R265, R266): EV104 at the last packet of a batch. -/
def execGateReport (dt : Nat) (lane : Fin 32) (pkts : List (List Byte)) (s : State) : Res :=
  if s.down then .next s else
  .next ((s.elapse dt).reportPackets lane.val 0x50 (State.gatePacket (lane.val / 4)) 104 pkts)

/-- IMP_REPORT (R231, R267, R268): EV105 at the last packet of a batch. -/
def execImpReport (dt : Nat) (lane : Fin 32) (pkts : List (List Byte)) (s : State) : Res :=
  if s.down then .next s else
  .next ((s.elapse dt).reportPackets lane.val 0x60 (State.impPacket (lane.val / 4)) 105 pkts)

/-- The device has asked a bar's hub for its TEST_STAT, or for anything else by STAT, and awaits the reply. -/
def State.statAsked (s : State) (b : Nat) : Bool := s.link.reqs.any (fun r => r.isStat && r.dev && r.bars = 2 ^ b)

/-- IMP_REQUEST (R267, R268): an element check that is wanted is requested, while the bar is DISARMED and TEST_STAT[1], read since then,
says that it can measure; where it has not been read, it is read. What an aborted check has left to be measured once more is measured
by itself, unless all is measured anew. -/
def execImpRequest (dt : Nat) (bar : Fin 8) (s : State) : Res :=
  if s.down then .next s else
  let s := s.elapse dt
  let b := bar.val
  let z := s.nzBar b
  let idle := s.isOn 6 && (!z.impWant.isEmpty || !z.impRest.isEmpty) && z.imp.isNone && (s.bar b).fire = .disarmed && s.barUp b
  .next (
    if !idle then s
    else if !z.canMeasure then if s.statAsked b then s else s.readTestStat b
    else
      match z.impWant with
      | w :: ws => (s.onNzBar b (fun z => { z with impWant := ws, impRest := [] })).sendImp b [] ⟨0, false, [], [], [], [], [], false, false, w⟩
      | [] => (s.onNzBar b (fun z => { z with impRest := [] })).sendImp b (z.impRest.take 8) ⟨0, true, [], z.impRest, [], [], [], false, true, none⟩)

/-- NH_SNAPSHOT_WRITE (R274): changes are pending, and 10 s have passed since the last snapshot. -/
def execNhSnapshotWrite (dt : Nat) (s : State) : Res :=
  if s.down then .next s else
  let s := s.elapse dt
  .next (if s.nozzle.changed && 10000000000 ≤ s.now - s.nozzle.snapAt then s.writeStatusSnap else s)

/-- DD_STALE (R277): an armed bar has not completed a sweep within dd_max_age; FS110 once. -/
def execDdStale (dt : Nat) (bar : Fin 8) (s : State) : Res :=
  if s.down then .next s else
  let s := s.elapse dt
  let b := bar.val
  let age := s.f Fld.JET_NH_AGE_dd_max_age
  let z := s.nzBar b
  .next (if age ≠ 0 && s.armed b && !z.staleSaid && age * 1000000000 ≤ s.now - z.sweepAt then
    (s.onNzBar b (fun z => { z with staleSaid := true })).fault 110 else s)

end Sys2Proof.Machine
end

