-- ==== Sys2Proof/Machine/Therm.lean ====
section
/-! DEFINITION. Commands of the power monitors, the thermal model and VCORE (R402 to R414). -/

set_option Elab.async false

namespace Sys2Proof.Machine

/-- POWER_SAMPLE (R402, R419): mean power of each domain, mW; 0xFFFFFF or more from a monitor that has failed, which raises FS083 when
it begins to fail. -/
def execPowerSample (dt : Nat) (mw : List Nat) (s : State) : Res :=
  if s.down then .next s else
  if mw.length ≠ 10 then .fault .illFormed
  else
    let s := s.elapse dt
    let was := s.therm.power
    let now := mw.map (fun p => min p 0xFFFFFF)
    let s := s.onTherm (fun t => { t with power := now })
    let s := s.onTherm (fun t => { t with
      powSum := (List.range 10).map (fun d => t.powSum.getD d 0 + s.domainPower d), powN := t.powN + 1 })
    let s := (List.range 10).foldl (fun s d =>
      if now.getD d 0 = 0xFFFFFF && was.getD d 0 ≠ 0xFFFFFF then s.faultAt 83 255 d else s) s
    let above := s.budget * 125 < s.totalPower
    .next (s.onPower (fun p => { p with
      overSince := if above then some (p.overSince.getD s.now) else none, overSaid := p.overSaid && above }))

/-- The mean power of a domain since the last sample of the model (R404). -/
def State.meanPower (s : State) (d : Nat) : Rat :=
  if s.therm.powN = 0 then (s.domainPower d : Nat) else (s.therm.powSum.getD d 0 : Rat) / s.therm.powN

/-- A sample of the thermal model is taken (R403, R408 to R411); first: every node takes the temperature of the start. -/
def State.takeThermal (first : Bool) (s : State) : State :=
  let r := if first then (0, s) else s.free
  let s := r.2
  let start := s.refUsed + (if s.sys.straps.therm then 20 * 64 else 0)
  let nodes := if first then List.replicate 16 start
    else s.stepNodes (s.nodePower s.meanPower (r.1 % 65537)) s.sampleTicks
  let tj := hottest nodes
  let s := s.onTherm (fun t => { t with
    nodes := nodes, tj := tj.1, tjNode := tj.2, started := true
    sampleAt := if first then s.now else t.sampleAt + s.sampleTicks
    powSum := List.replicate 10 0, powN := 0, busy := [0, 0, 0, 0] })
  let s := s.onMemc (fun m => { m with channels := m.channels.map (fun c => { c with accesses := 0 }) })
  let s := s.setF Fld.THERM_TJ_MAX_value (if s.f Fld.THERM_TJ_MAX_value = 0 then toTwos 16 tj.1
    else toTwos 16 (max tj.1 (ofTwos 16 (s.f Fld.THERM_TJ_MAX_value))))
  let s :=
    if s.therm.recAt.all (fun t => t + 1000000 ≤ s.now) then
      (s.onTherm (fun t => { t with recAt := some s.now })).tallyEntry 0x40 0
        (leBytes 2 (toTwos 16 tj.1) ++ leBytes 2 (toTwos 16 s.refUsed) ++ leBytes 4 s.totalPower
          ++ leBytes 4 s.therm.commanded)
    else s
  s.takeCheck.judgeDram.judgeTj

/-- THERMAL_SAMPLE (R403, R404, R408 to R412, R341). The first sample sets every node. How the power of MEM divides where no
channel had an access is a free value. -/
def execThermalSample (dt : Nat) (s : State) : Res :=
  if s.down then .next s else
  let s := s.elapse dt
  let first := !s.therm.started
  if !first && s.now < s.therm.sampleAt + s.sampleTicks then .next s
  else .next (s.takeThermal first)

/-- VCORE_STEP_TIMER (R411): 10 ms since the last step. -/
def execVcoreStepTimer (dt : Nat) (s : State) : Res :=
  if s.down then .next s else
  let s := s.elapse dt
  if !s.therm.pmbOn || s.therm.step.isSome || s.now < s.therm.stepAt + 10000000 then .next s
  else match s.therm.throttle with
    | .normal => .next (s.stepVcore s.vset)
    | .throttle => .next (if s.vmin < s.therm.commanded then s.stepVcore s.vmin else s.judgeFloor)
    | .recover => .next (if s.therm.tj < 99 * 64 then (s.stepVcore s.vset).judgeRecovered else s)

/-- VCORE_STEP (R414): settle_us after the write. -/
def execVcoreStep (dt : Nat) (s : State) : Res :=
  if s.down then .next s else
  let s := s.elapse dt
  match s.therm.step with
  | none => .next s
  | some p =>
    if s.now < p.2 + s.f Fld.THERM_VCORE_CFG_settle_us * 1000 then .next s
    else
      let s := s.onTherm (fun t => { t with present := p.1, step := none })
      let s := (s.recomputeCeiling).raiseEv 202
      .next s.judgeFloor.judgeRecovered

/-- PMBUS (R414): a write of VOUT_COMMAND is not acknowledged, or times out; it is repeated up to twice. When it still fails VCORE is unchanged,
and the next step is tried 10 ms later. -/
def execPmbus (dt : Nat) (s : State) : Res :=
  if s.down then .next s else
  let s := s.elapse dt
  match s.therm.step with
  | none => .next s
  | some p =>
    if s.therm.tries < 2 then
      .next (s.onTherm (fun t => { t with tries := t.tries + 1, step := some (p.1, s.now) })).writeVout
    else
      let s := s.onTherm (fun t => { t with step := none, tries := 0, commanded := t.present, stepAt := s.now })
      .next ((s.fault 80).raiseEv 209)

/-- VOUT_READ (R414): READ_VOUT is read every 10 ms; the value in mV. -/
def execVoutRead (dt : Nat) (value : Nat) (s : State) : Res :=
  if s.down then .next s else
  let s := s.elapse dt
  if !s.therm.pmbOn || s.now < s.therm.voutAt + 10000000 then .next s
  else
    let s := (s.emit (.pmbusRead (s.f Fld.THERM_PMBUS_CFG_pm_addr) 0x8B)).onTherm (fun t => { t with
      readVout := min value 1023, voutAt := s.now })
    .next (if s.voutOff value then s.fault 85 else s)

/-- PMBUS_ENABLE (R413): pmb_en is written 1; mode is what VOUT_MODE reads, vout READ_VOUT in mV. -/
def execPmbusEnable (dt : Nat) (mode : Word) (vout : Nat) (s : State) : Res :=
  if s.down then .next s else
  let s := s.elapse dt
  if !s.writeOpen 1 Reg.THERM_PMBUS_CFG.off then .next s else
  let s := s.noteWrite 1 Reg.THERM_PMBUS_CFG.off (putBits (s.reg Reg.THERM_PMBUS_CFG) 31 31 1)
  if s.sys.lock || s.therm.pmbOn then .next s
  else
    let s := s.setF Fld.THERM_PMBUS_CFG_pmb_en 1
    let v := min vout 1023
    let s := if s.fb Fld.THERM_PMBUS_CFG_fmt then s.emit (.pmbusRead (s.f Fld.THERM_PMBUS_CFG_pm_addr) 0x20) else s
    let s := s.emit (.pmbusRead (s.f Fld.THERM_PMBUS_CFG_pm_addr) 0x8B)
    .next (s.onTherm (fun t => { t with
      pmbOn := true, commanded := v, present := v, readVout := v, step := none, tries := 0, stepAt := s.now, voutAt := s.now
      expo := ofTwos 5 (bits mode.toNat 4 0) }))

/-- THERM_REF_READ (R405): every 100 ms. Where ref_src is 0 two bytes of the sensor, which are signed in 1/256 °C; otherwise THERM_REF_HOST,
valid when the host has written it since the last reading. -/
def execThermRefRead (dt : Nat) (value : Int) (ok : Bool) (s : State) : Res :=
  if s.down then .next s else
  let s := s.elapse dt
  let host := s.fb Fld.THERM_CTRL_ref_src
  let valid := if host then s.therm.hostRef else ok
  let v := if host then ofTwos 16 (s.f Fld.THERM_REF_HOST_value) else ofTwos 16 (toTwos 16 value) / 4
  if s.therm.refRead.any (fun t => s.now < t + 100000000) then .next s else
  let s := if host then s else s.emit (.pmbusRead (s.f Fld.THERM_REF_CFG_ref_addr) (s.f Fld.THERM_REF_CFG_ref_reg))
  let s := s.onTherm (fun t => { t with refRead := some s.now })
  if !valid then .next s
  else
    let stale := s.therm.refStale
    let s := s.onTherm (fun t => { t with ref := v, refValid := true, refAt := s.now, refStale := false, hostRef := t.hostRef && !host })
    .next (if stale then s.raiseEv 204 else s)

/-- REF_STALE (R405). -/
def execRefStale (dt : Nat) (s : State) : Res :=
  if s.down then .next s else
  let s := s.elapse dt
  let ms := orIfZero (s.f Fld.THERM_REF_CFG_ref_timeout) 1
  if s.therm.refStale || s.now < s.therm.refAt + ms * 1000000 then .next s
  else .next (((s.onTherm (fun t => { t with refStale := true })).fault 75).raiseEv 204)

/-- MODEL_DIVERGE (R407): once for each time that the check sensor has differed for 100 ms. -/
def execModelDiverge (dt : Nat) (s : State) : Res :=
  if s.down then .next s else
  let s := s.elapse dt
  .next (if s.diverged && !s.therm.divergeSaid then (s.onTherm (fun t => { t with divergeSaid := true })).fault 74 else s)

/-- SHUT_RELEASE (R412): at 100 °C or above it is ignored; the domains for which work has waited come up (R398). -/
def execShutRelease (dt : Nat) (s : State) : Res :=
  if s.down then .next s else
  let s := s.elapse dt
  if !s.writeOpen 1 Reg.THERM_CTRL.off then .next s else
  let s := s.noteWrite 1 Reg.THERM_CTRL.off (putBits (s.reg Reg.THERM_CTRL) 3 3 1)
  if 100 * 64 ≤ s.therm.tj then .next (s.onTherm (fun t => { t with relRefused := true }))
  else
    let was := s.therm.shutdown
    let s := s.onTherm (fun t => { t with shutdown := false, relRefused := false })
    .next (if was then
      [4, 5, 6, 7, 8, 9].foldl (fun s d => if (s.domain d).waiting then s.wakeDomain d else s) (s.raiseEv 203) else s)

end Sys2Proof.Machine
end

