-- ==== Sys2Proof/Machine/RegView.lean ====
section
/-! DEFINITION. What the read-only fields of the register map show (R7): one function for each block, from the state that the
block holds, and the value that a read of BAR0 finds (R5, R9, R386, R398, R453, R475). -/

set_option Elab.async false

namespace Sys2Proof.Machine

/-- A value of w bits at bit lo. -/
def put (lo w v : Nat) : Nat := v % 2 ^ w * 2 ^ lo

/-- A Bool at a bit. -/
def flag (lo : Nat) (b : Bool) : Nat := b2n b * 2 ^ lo

/-- One bit for each of n units, from bit lo on. -/
def flags (lo n : Nat) (p : Nat → Bool) : Nat := ((List.range n).map (fun i => flag (lo + i) (p i))).sum

/-- A count that stops at the largest value of w bits. -/
def sat (w n : Nat) : Nat := min n (2 ^ w - 1)

/-- w bits at bit lo of a register that the state does not determine. -/
def State.freeBits (s : State) (off lo w : Nat) : Nat := put lo w (Config.freeView s.freeCount off / 2 ^ lo)

/-! ### Host interface, layers, ink -/

/-- No descriptor read is outstanding (HIF_STATUS.quiesced). -/
def State.noReadsOut (s : State) : Bool := s.hif.rings.all (fun r => r.fetched = r.count)

/-- HIF registers. -/
def State.viewHif (s : State) (r : RegId) (i : Nat) : Nat :=
  match r with
  | .HIF_STATUS =>
    flag 2 s.hif.slow + flag 1 (s.fb Fld.HIF_CTRL_quiesce && s.noReadsOut) + flag 0 s.hif.ready
  | .HIF_LINK_STAT => flag 8 s.hif.linkUp + put 4 4 s.hif.rate + put 0 4 s.hif.width
  | .HIF_RTT => put 0 16 s.hif.rttLast
  | .HIF_RING_CFG => flag 30 (s.ring i).halted
  | .HIF_RING_STAT =>
    let x := s.ring i
    let waits := if s.isCring i then s.hif.held.any (fun c => c.cring = i) else s.ringOn i && x.door ≠ x.count
    put 28 4 x.cause + flag 16 waits + put 0 16 (x.count % s.ringSize i)
  | .MSIX_PBA => flags 0 32 (fun k => s.hif.pba.contains (32 * i + k))
  | _ => 0

/-- LAYER registers. -/
def State.viewLayer (s : State) (r : RegId) (i : Nat) : Nat :=
  match r with
  | .LAYER_STATUS =>
    put 9 7 s.lay.commits.length + flag 3 s.lay.leadLow + flag 2 (s.lay.comp.any (fun c => c.length ≤ c.pos))
      + flag 1 s.lay.repeating + flag 0 s.lay.job.isSome
  | .LAYER_IMAGE => (s.lay.comp.map (fun c => c.image)).getD 0
  | .LAYER_NEXT => s.nextImage
  | .LAYER_POS => put 0 24 ((s.lay.comp.map (fun c => c.pos)).getD 0)
  | .LAYER_LEAD_NOW => sat 24 s.lead.toNat
  | .LAYER_FETCH => sat 32 s.lay.fetch
  | .LAYER_SIG => s.lay.sigs.getD i 0
  | _ => 0

/-- A table of a type, and of an index if one is given, waits in a shadow copy. -/
def State.shadowWaits (s : State) (typ : Nat) (index : Option Nat) : Bool :=
  s.ink.slots.any (fun t => t.typ = typ && t.shadow.isSome && (match index with | some i => t.index = i | none => true))

/-- The bytes of a table of the protected set, by its type. -/
def CspSet.table (c : CspSet) (typ : Nat) : List Byte :=
  match typ with
  | 1 => c.header
  | 2 => c.precurve
  | 3 => c.separation
  | _ => c.palette

/-- A table of the protected set (R117, R123) in the form of a slot. -/
def State.cspSlot (s : State) (typ : Nat) : TSlot :=
  { typ := typ, index := 4, sub := 0, active := s.ink.csp.map (fun c => c.table typ)
    crc := (s.ink.csp.map (fun c => c.crcs.getD (typ - 1) 0)).getD 0
    shadow := s.ink.cspWait.map (fun w => ⟨w.2.table typ, w.2.crcs.getD (typ - 1) 0, w.1, 0⟩) }

/-- The slot that INK_TSEL selects: of type 1 to 4 with index 4 one of CSP. What names no table selects none, and INK_TSTATE and the CRCs
then read 0 (DESIGN CHOICE, log entry 79: the spec does not say what they show). -/
def State.selSlot (s : State) : Option TSlot :=
  let typ := s.f Fld.INK_TSEL_type
  if 1 ≤ typ && typ ≤ 4 && s.f Fld.INK_TSEL_index = 4 then some (s.cspSlot typ)
  else s.tslot typ (s.f Fld.INK_TSEL_index) (s.f Fld.INK_TSEL_sub)

/-- INK registers. INK_TSTATE.dims is of the active copy, and INK_TCRC_ACT is the CRC-32C of the active copy as it was held, also where its memory has
been altered since (R145) (DESIGN CHOICE, log entry 79: the spec says neither). -/
def State.viewInk (s : State) (r : RegId) (i : Nat) : Nat :=
  match r with
  | .INK_STATUS =>
    flag 7 (s.shadowWaits 0x0A none) + flag 6 (s.shadowWaits 0x09 none) + flag 5 (s.shadowWaits 0x08 none)
      + flags 0 4 (fun n => [1, 2, 3, 4].any (fun t => s.shadowWaits t (some n)))
  | .INK_TSTATE =>
    match s.selSlot with
    | some t =>
      flag 2 (t.typ = 3 && t.active.any (fun d => d.length = 574992)) + flag 1 t.shadow.isSome + flag 0 t.active.isSome
    | none => 0
  | .INK_TCRC_ACT => (s.selSlot.map (fun t => if t.active.isSome then t.crc else 0)).getD 0
  | .INK_TCRC_SHD => ((s.selSlot.bind (fun t => t.shadow)).map (fun x => x.crc)).getD 0
  | .INK_PENNED_CNT => put 0 24 ((List.range 8).map (fun b => (pennedPairs (s.nozzlesOf b)).length)).sum
  | .INK_PACE =>
    let p := s.ink.pace.getD i Pace.reset
    put 16 16 (p.low.getD 0) + put 0 16 p.last
  | _ => 0

/-! ### Bellwether -/

/-- Code of a tracking state (BELL_STATUS.state). -/
def Track.code : Track → Nat
  | .still => 0 | .first => 1 | .run => 2 | .reversing => 3 | .coast => 4

/-- A position of 48 bits (R153). -/
def pos48 (p : Int) : Nat := toTwos 48 p

/-- BELL registers. -/
def State.viewBell (s : State) (r : RegId) (i : Nat) : Nat :=
  let b := s.bell
  let st := s.source.state
  match r with
  | .BELL_STATUS =>
    flag 10 b.pllLock + flag 9 b.slewing + flag 8 b.ceilLow + put 7 1 b.src + flag 6 (st = .coast)
      + flag 5 (st = .reversing) + flag 4 (st = .still) + flag 3 s.source.speedValid + st.code
  | .BELL_SPEED => toTwos 32 b.speed
  | .BELL_LRATE => sat 24 b.lrate
  | .BELL_POS_LO => pos48 (s.counted / 65536) % 2 ^ 32
  | .BELL_POS_HI => pos48 (s.counted / 65536) / 2 ^ 32
  | .BELL_FPOS_LO => pos48 (b.fire / 2 ^ 32) % 2 ^ 32
  | .BELL_FPOS_HI => pos48 (b.fire / 2 ^ 32) / 2 ^ 32
  | .BELL_HWM_LO => pos48 (b.hwm / 2 ^ 32) % 2 ^ 32
  | .BELL_HWM_HI => pos48 (b.hwm / 2 ^ 32) / 2 ^ 32
  | .BELL_CEILING => put 28 4 b.term + sat 28 b.ceilSpeed
  | .BELL_CEIL_LINES => put 24 5 b.ceilUnit + sat 24 b.ceilLines
  | .BELL_PHASE_ERR => toTwos 32 b.phaseErr
  | .BELL_W_STAT =>
    let w := s.wheel i
    flag 5 w.gapKnown + flag 4 w.armed + flag 3 w.speedValid + w.state.code
  | .BELL_W_IDXCNT => toTwos 32 (s.wheel i).idxCnt
  | .BELL_W_POS_LO => pos48 ((s.wheel i).pos / 65536) % 2 ^ 32
  | .BELL_W_POS_HI => pos48 ((s.wheel i).pos / 65536) / 2 ^ 32
  | .BELL_W_INTERVAL => sat 32 (s.wheel i).interval
  | _ => 0

/-! ### Scan-out, link, nozzles -/

/-- Code of a fire-line state (JET_BAR_STAT.fire_state). -/
def FireState.code : FireState → Nat
  | .disarmed => 0 | .activeStandby => 1 | .activeFailed => 2 | .drill => 3 | .bothFailed => 4

/-- The delay ring that a bar holds: that of the job, else the last one still under way. -/
def Bar.heldRing (b : Bar) : Option DelayRing := b.ring.or b.oldRings.getLast?

/-- JET registers. -/
def State.viewJet (s : State) (r : RegId) (i : Nat) : Nat :=
  let b := s.bar i
  let runs := fun (h : Half) => (h.remap.map (fun m => m.runs)).getD 0
  match r with
  | .JET_STATUS => flags 8 8 (fun k => (s.bar k).heldRing.isSome) + flags 0 8 s.armed
  | .JET_IMAGE => s.jet.image
  | .JET_FLIP_IMAGE => s.jet.flipImage
  | .JET_FLIP_TIME => s.jet.flipTime
  | .JET_BAR_STAT =>
    flag 29 (b.left.remap.isSome && b.right.remap.isSome) + flag 28 b.heldRing.isSome + put 24 4 b.fire.code
      + flag 23 b.activeB + flag 22 b.drillPass + flag 21 b.selfTest.isSome
  | .JET_BAR_IMAGE => b.image
  | .JET_BAR_LINE => flag 31 b.inGap + put 0 24 b.line
  | .JET_BAR_SWAPS => put 0 16 b.swaps
  | .JET_BAR_RING => put 0 24 ((b.heldRing.map (fun x => x.lines)).getD 0)
  | .JET_BAR_IL => put 24 7 b.il.entries.length + put 16 7 b.il.sMin + put 8 6 (b.residue 1) + put 0 6 (b.residue 0)
  | .JET_BAR_RUNS => put 16 14 (runs b.right) + put 0 14 (runs b.left)
  | .JET_BAR_PAGES => put 0 16 ((b.heldRing.map (fun x => x.pages)).getD 0)
  | _ => 0

/-- Code of a training state (LINK_STATUS.tstate). -/
def TState.code : TState → Nat
  | .off => 0 | .quiet => 1 | .eq => 2 | .lock => 3 | .negotiate => 4 | .align => 5 | .active => 6 | .failed => 7

/-- Code of a sleep state. -/
def Sleep.code : Sleep → Nat
  | .awake => 0 | .asleep => 1 | .waking => 2

/-- LINK registers. -/
def State.viewLink (s : State) (r : RegId) (i : Nat) : Nat :=
  let l := s.lane i
  match r with
  | .LINK_STATUS =>
    let b := s.linkBar (i / 4)
    put 28 4 l.tstate.code + put 26 2 l.rate + flag 25 l.preTx + flag 24 l.preRx + flag 23 l.inPair + flag 22 l.preferred
      + put 20 2 b.ds.code + put 18 2 b.us.code + put 8 4 l.cause + sat 8 l.tries
  | .LINK_HUB_FEC => put 16 16 l.hubCorr + put 0 8 l.hubUncorr
  | .LINK_SEQ => l.lastSeq
  | .LINK_HUB_ACC => l.hubQ
  | .LINK_SKEW => put 0 14 l.skew
  | .LINK_EQ => l.eqSet
  | .LINK_TRAIN_TIME => sat 16 l.trainTime
  | .LINK_BAR_STAT =>
    let b := s.linkBar i
    let role := fun (k : Nat) =>
      (barLanes i).any (fun n => (s.lane n).inPair && 2 * s.laneHalf n + s.laneMember n = k)
    put 14 2 b.us.code + put 12 2 b.ds.code + flag 9 (s.halfUp i 1) + flag 8 (s.halfUp i 0) + flags 0 4 role
  | _ => 0

/-- Entries of a bar with a status, both half-bars. -/
def State.nzCount (s : State) (b status : Nat) : Nat :=
  (s.nzHalf (2 * b)).map.countP (fun x => x.status = status) + (s.nzHalf (2 * b + 1)).map.countP (fun x => x.status = status)

/-- JET_NH registers. -/
def State.viewNozzle (s : State) (r : RegId) (i : Nat) : Nat :=
  match r with
  | .JET_NH_LAST => s.nozzle.last
  | .JET_NH_BAR_STAT => put 16 16 (sat 16 (s.nzCount i 1)) + sat 16 (s.nzCount i 2)
  | .JET_NH_BAR_SPARES => sat 18 (s.nzCount i 3)
  | .JET_NH_BAR_SWEEP => (s.nzBar i).sweepTime
  | .JET_NH_BAR_PROG =>
    put 28 2 (s.nzBar i).row + put 16 12 (s.nzBar i).subset + put 0 6 (s.nzBar i).queue.length
  | _ => 0

/-! ### Cameras and colour hold -/

/-- SEE registers. -/
def State.viewSee (s : State) (r : RegId) (i : Nat) : Nat :=
  let p := s.camPort i
  match r with
  | .SEE_STATUS => flags 8 6 (fun k => (s.camPort k).enabled) + flags 0 6 (fun k => (s.camPort k).inFrame)
  | .SEE_PORT_STAT =>
    flag 19 p.silent + flag 18 (!p.pendingGens.isEmpty) + flag 17 p.inFrame
      + (if p.enabled then s.freeBits (0x00E01008 + 256 * i) 16 1 else 0)
      + put 0 16 p.gen
  | .SEE_PORT_FSEQ => p.fseq
  | .SEE_PORT_FIFO => put 0 11 (ceilDiv p.level 256)
  | .SEE_PORT_TEMP => toTwos 16 p.temp
  | .SEE_PORT_UPL => p.upOff
  | .SEE_VP_STAT => put 16 1 (s.pipe i).ctx + sat 16 ((s.pipe i).slowest s.now)
  | _ => 0

/-- Code of HOLD_GRAZE_STAT. -/
def GrazeState.code : GrazeState → Nat
  | .idle => 0 | .awaitGrant => 1 | .running => 2 | .awaitSwap => 3

/-- HOLD registers. -/
def State.viewHold (s : State) (r : RegId) (_ : Nat) : Nat :=
  let h := s.hold
  let j := s.f Fld.HOLD_CELL_SEL_cell
  let k := 1728 * s.f Fld.HOLD_CELL_SEL_ink + j
  let ch := s.f Fld.HOLD_CELL_SEL_channel
  match r with
  | .HOLD_STATUS =>
    put 5 2 h.start + flag 4 (h.graze = .running) + flag 3 (h.shadow.isSome && !h.filling) + flag 2 h.history
      + flag 1 h.covOk + flag 0 (!h.ests.isEmpty)
  | .HOLD_DELAY => put 28 4 h.dMax + put 24 4 (h.delays.headD 0) + put 0 12 s.kEff
  | .HOLD_LAST_IMAGE => h.lastImage
  | .HOLD_SWAP_IMAGE => h.swapImage
  | .HOLD_GRAZE_STAT => put 30 2 h.graze.code + put 0 24 h.grazeLines
  | .HOLD_CELL_VAL => if 1728 ≤ j then 0 else put 16 16 (toTwos 16 (keyGet 0 k h.lastE)) + put 0 16 (keyGet 0x4000 k h.cells)
  | .HOLD_CELL_PAPER =>
    if 1728 ≤ j || 3 ≤ ch then 0 else put 0 16 (keyGet (h.paper0.getD ch 0) (1728 * ch + j) h.paper)
  | .HOLD_COV => put 0 16 h.covPages
  | _ => 0

/-! ### Memory, compression -/

/-- Code of a channel state (MEMC_STATUS.state). -/
def ChState.code : ChState → Nat
  | .off => 0 | .training => 1 | .active => 2 | .selfRefresh => 3 | .failed => 4

/-- A channel has been trained: it is ACTIVE or in self-refresh. -/
def State.chTrained (s : State) (c : Nat) : Bool := (s.channel c).state = .active || (s.channel c).state = .selfRefresh

/-- MEMC registers. -/
def State.viewMemc (s : State) (r : RegId) (i : Nat) : Nat :=
  let c := s.channel i
  let base := 0x00500000 + 0x10000 * i
  match r with
  | .MEMC_STATUS =>
    let recent := c.retryAt.any (fun t => s.now < t + 400)
    put 29 3 c.state.code + (if recent then s.freeBits base 9 1 else 0) + flag 8 c.hot + flag 7 (s.now < c.noPostUntil)
      + put 0 3 c.k
  | .MEMC_QUEUE => put 0 7 c.queue.length
  | .MEMC_REF => put 0 3 c.owed
  | .MEMC_TEMP => put 18 2 c.mpr + flag 16 (s.fb Fld.MEMC_CTRL_temp_src && !c.mprFailed && c.mprAt ≠ 0) + toTwos 16 s.boardTemp
  | .MEMC_ERR_ADDR_LO => c.errAddr % 2 ^ 32
  | .MEMC_ERR_ADDR_HI => flag 8 c.errUe + put 0 5 (c.errAddr / 2 ^ 32)
  | .MEMC_TRAIN => flag 31 c.seeded + put 0 16 c.trainMs
  | .MEMC_GSTATUS =>
    flag 17 s.memc.inSr + flag 16 s.memc.trained + put 8 4 s.memc.n + flags 0 8 s.chTrained
  | .MEMC_WIPE => flag 31 s.memc.wipeDone + put 0 17 s.memc.wiped
  | .PAD_TOTAL => put 0 17 s.padTotal
  | .PAD_FREE => put 0 17 (runsCount s.paddock.free)
  | .PAD_DIRTY => put 0 17 (s.pageCount - s.memc.wiped + runsCount s.paddock.dirty)
  | .PAD_REGIONS => put 0 13 s.paddock.regions.length
  | .PAD_RETIRED_N => put 0 7 s.paddock.retired.length
  | .PAD_Q_HELD => put 24 8 (sat 8 (s.paddock.waiting.countP (fun w => w.quota = i))) + put 0 17 (s.padHeld i)
  | .PAD_RETIRED_LIST =>
    match s.paddock.retired[i]? with
    | some x => flag 31 true + flag 30 x.2 + put 0 17 x.1
    | none => 0
  | _ => 0

/-- Code of a context state (DFL_CTX_STAT.state). -/
def CtxState.code : CtxState → Nat
  | .closed => 0 | .working => 1 | .waitIn => 2 | .waitOut => 3 | .evicted => 4 | .error => 5

/-- The context that a number shows (R380): nothing of one that is closed; Tally's stream has the entries of the open chunk. -/
def State.shownCtx (s : State) (n : Nat) : Option Ctx :=
  match s.dctx n with
  | some c =>
    if c.state = .closed then none else some (if n = 14 && c.own then { c with input := entriesBytes s.tally.opened } else c)
  | none => none

/-- The units that a deflate context has written so far (R374). -/
def Ctx.units (c : Ctx) : List (List Bool) :=
  deflateUnits c.wrap c.level c.dict c.input (c.flushes.map (fun f => (f.at_, f.final)))

/-- Output bytes of a context since it opened: what it has put out, or what the unit that feeds it has taken up. -/
def Ctx.outBytes (c : Ctx) : Nat := if c.own && c.deflate then c.units.flatten.length / 8 else c.given

/-- Pending bits of a context (R374, R375): a full buffer stops a deflate context with the rest of the unit it is in, else all units are in
the accumulator; what an inflate context keeps of its input the spec bounds by 63. -/
def State.pendingBits (s : State) (c : Ctx) : Nat :=
  if c.deflate then
    let n := 8 * c.outBytes
    (if (c.room = 0 || c.fresh) && !c.own then reachBits n c.units else c.units.flatten.length) - n
  else Config.freeView s.freeCount 0x00700020 % 64

def State.viewDfl (s : State) (r : RegId) (i : Nat) : Nat :=
  let sel := s.shownCtx (s.f Fld.DFL_CTX_SEL_value)
  let d := s.dfl
  match r with
  | .DFL_STATUS =>
    put 16 8 (d.ctxs.countP (fun c => c.2.isOpen))
      + put 8 5 (d.ctxs.countP (fun c => c.2.slot.isSome)) + flag 1 d.save + flag 0 (d.ctxs.any (fun c => c.2.state = .working))
  | .DFL_DEMAND => sat 32 d.demand
  | .DFL_PACE =>
    let least := fun (ps : List (Nat × Nat)) => match ps.filter (fun p => s.now - p.2 < 1024000) with
      | [] => 0
      | p :: ps => ps.foldl (fun m q => min m q.1) p.1
    put 16 16 (least d.inPaces) + put 0 16 (least d.outPaces)
  | .DFL_ERR => put 28 4 d.errCause + put 16 7 d.errCtx
  | .DFL_ERR_TIME => d.errTime
  | .DFL_CTX_STAT =>
    match sel with
    | some c =>
      put 29 3 c.state.code + put 27 2 c.wrap + (if c.deflate then put 23 4 c.level else 0) + flag 22 c.deflate
        + flag 21 c.dictSlot.isSome + put 17 4 (c.dictSlot.getD 0) + flag 16 c.tokens + put 0 6 (s.pendingBits c)
    | none => 0
  | .DFL_CTX_IN => (sel.map (fun c => c.input.length % 2 ^ 32)).getD 0
  | .DFL_CTX_OUT => (sel.map (fun c => c.outBytes % 2 ^ 32)).getD 0
  | .DFL_DICT_ID => ((d.dicts.find? (fun p => p.1 = i)).map (fun p => p.2.id)).getD 0
  | .DFL_DICT_LEN => put 0 17 (((d.dicts.find? (fun p => p.1 = i)).map (fun p => p.2.data.length)).getD 0)
  | _ => 0

/-! ### Time and network, power, faults -/

/-- Code of the servo state (NET_STATUS.state). -/
def Servo.code : Servo → Nat
  | .free => 0 | .acquire => 1 | .locked => 2 | .holdover => 3

/-- A signed value of 32 bits that saturates. -/
def satInt32 (x : Int) : Nat := toTwos 32 (max (-2147483648) (min 2147483647 x))

/-- NET registers. -/
def State.viewNet (s : State) (r : RegId) (i : Nat) : Nat :=
  let n := s.net
  match r with
  | .NET_STATUS => flag 5 n.target.isSome + flag 4 n.acquired + flag 3 n.stepped + n.servo.code
  | .NET_TIME_LO => s.net.ext % 2 ^ 32
  | .NET_TIME_HI => s.wraps
  | .NET_FREQ => toTwos 32 n.f
  | .NET_OFFSET_LAST => satInt32 n.lastOffset
  | .NET_SERVO_OFF_LO => n.offLo
  | .NET_SERVO_OFF_HI => n.offHi
  | .NET_SNAP_CTRL => flag 7 n.fUnlocked + flag 6 n.fStepped + flag 5 n.fSched + flag 4 n.fNow
  | .NET_SNAP_LAST_LO => n.lastStrobe % 2 ^ 32
  | .NET_SNAP_LAST_HI => n.lastStrobe / 2 ^ 32 % 2 ^ 32
  | .NET_CEIL_SEQ => if n.ceilSent then (n.ceilSeq + 2 ^ 32 - 1) % 2 ^ 32 else 0
  | .NET_PORT_STAT =>
    let p := n.ports.getD i Port.reset
    flag 2 p.anDone + flag 1 p.blockLock + flag 0 p.link
  | _ => 0

/-- SYS_PD_STAT of a domain: a domain on its way to ON, or with a request that waits, is changing. -/
def Domain.code (d : Domain) : Nat :=
  if d.want.isSome then 3
  else match d.state with
    | .on => 0 | .retain => 1 | .off => 2 | .up => 3

/-- Code of the throttle state. -/
def Throttle.code : Throttle → Nat
  | .normal => 0 | .throttle => 1 | .recover => 2

/-- SYS_STATUS.phase. -/
def State.phase (s : State) : Nat :=
  if !s.sys.sramWiped then 0
  else if s.sec.recovery then 5
  else if s.sys.halted then 6
  else if !s.sys.c0 then 1
  else if !s.sys.cores then 2
  else if !s.sys.ready then 3
  else 4

/-- SYS registers. -/
def State.viewSys (s : State) (r : RegId) (_ : Nat) : Nat :=
  let t := s.sys.straps
  match r with
  | .SYS_ID => 0x234000B0
  | .SYS_STRAP =>
    flag 9 t.test + flag 8 t.therm + flag 7 t.web + put 4 2 t.lane + put 2 2 t.pcie + put 0 2 t.boot
  | .SYS_STATUS =>
    put 28 4 s.phase + flag 8 s.sys.ready + flag 4 s.sys.records + flag 3 s.memc.wipeDone
      + flag 2 (s.memc.trained && 0 < s.memc.n) + flag 1 s.hif.ready + flag 0 s.sys.sramWiped
  | .SYS_RST_CAUSE => put 0 4 s.sys.cause
  | .SYS_BOOT_MS => sat 16 s.sys.bootMs
  | .SYS_LOCK => flag 0 s.sys.lock
  | .SYS_LC_VIEW => s.sec.lc.code
  | .SYS_PD_STAT => ((List.range 10).map (fun d => put (2 * d) 2 (s.domain d).code)).sum
  | .SYS_PD_REFUSE => put 28 4 s.power.refuseCause + put 0 4 s.power.refuseDomain
  | .SYS_SHELF_STAT => put 0 2 s.power.shelfEntry
  | _ => 0

/-- THERM and DROVER registers; DROVER_FW_REQ by the core that reads it (R464). -/
def State.viewTherm (s : State) (agent : Nat) (r : RegId) (i : Nat) : Nat :=
  let t := s.therm
  match r with
  | .THERM_STATUS =>
    flag 8 t.relRefused + flag 7 (t.started && s.f Fld.THERM_HS_hs_mkw = 0) + flag 6 (t.started && t.record.isNone) + flag 5 t.refStale
      + flag 4 s.fastSampling + flag 3 t.shutdown + flag 2 t.warn + t.throttle.code
  | .THERM_TJ => if t.started then put 16 4 t.tjNode + toTwos 16 t.tj else 0
  | .THERM_REF => toTwos 16 s.refUsed
  | .THERM_CHECK => toTwos 16 t.check
  | .THERM_NODE => if t.started then toTwos 16 (t.nodes.getD (s.f Fld.THERM_NODE_SEL_node) 0) else 0
  | .THERM_VCORE => if s.fb Fld.THERM_PMBUS_CFG_pmb_en then put 16 10 t.readVout + put 0 10 t.commanded else 0
  | .THERM_PWR => put 0 24 (t.power.getD i 0)
  | .THERM_PWR_TOTAL => sat 24 s.totalPower
  | .DROVER_STATUS =>
    flag 31 (!s.power.queue.isEmpty) + put 16 10 (s.lendable - s.tokensOut) + put 0 10 s.tokensOut
  | .DROVER_FW_REQ =>
    if 3 ≤ agent && agent ≤ 5 then
      flag 29 (s.droverHas (.firmware (agent - 2))) + flag 28 (s.power.queue.any (fun q => q.holder = .firmware (agent - 2)))
    else 0
  | .DROVER_HELD =>
    put 24 8 (sat 8 (s.power.queue.countP (fun q => q.cls = i)))
      + put 0 10 ((s.power.grants.filter (fun g => g.cls = i)).map (fun g => g.tokens)).sum
  | _ => 0

/-- Code of Crook's state. -/
def CrookState.code : CrookState → Nat
  | .clear => 0 | .safe => 1 | .safeOff => 2

/-- FOLD and CROOK registers. -/
def State.viewFold (s : State) (r : RegId) (_ : Nat) : Nat :=
  let line := fun (lineB : Bool) (b : Nat) => (s.bar b).pulse.any (fun p => p.1 = lineB)
  match r with
  | .FOLD_HELD => flags 0 8 (fun b => s.fold.held.getD b false)
  | .FOLD_LAST =>
    let l := s.fold.last
    put 29 3 l.sev + flag 28 l.escalated + flag 27 l.merged + flag 26 l.lasting + flag 25 l.forced + flag 24 l.injected
      + put 16 8 l.bars + put 0 7 l.source
  | .FOLD_ST => put 30 2 s.fold.stResult + put 16 8 (sat 8 s.fold.tests.length) + put 0 7 s.fold.stSource
  | .CROOK_STATUS =>
    put 30 2 s.crook.state.code + flag 29 s.crook.pressStop + flag 28 s.crook.releaseRefused + put 0 8 s.crook.cause
  | .CROOK_PADS =>
    flag 24 s.crook.pressStop + flags 16 8 (fun b => (s.bar b).hv) + flags 8 8 (line true) + flags 0 8 (line false)
  | _ => 0

/-! ### Mailboxes, security, records -/

/-- Code of a mailbox state. -/
def MbxState.code : MbxState → Nat
  | .empty => 0 | .posted => 1 | .done => 2

/-- MBX registers, banked by agent (R453). -/
def State.viewMbx (s : State) (agent : Nat) (r : RegId) (i : Nat) : Nat :=
  let b := s.box i
  let st := s.stage agent
  match r with
  | .MBX_STAGE_PTR_LO => st.ptrLo
  | .MBX_STAGE_PTR_HI => st.ptrHi
  | .MBX_STAGE_TAG => st.tag
  | .MBX_POST_STAT => put 30 2 st.result + put 0 4 st.mailbox
  | .MBX_CORE_STAT =>
    let core := fun (n : Nat) => s.mbx.cores.getD n ⟨false, 0, 0, false⟩
    put 12 4 (core 3).cause + put 8 4 (core 2).cause + put 4 4 (core 1).cause + flags 0 4 (fun n => (core n).run)
  | .MBX_PTR_LO => b.ptr % 2 ^ 32
  | .MBX_PTR_HI => b.ptr / 2 ^ 32 % 2 ^ 32
  | .MBX_TAG => b.tag
  | .MBX_STATE => put 30 2 b.state.code + flag 29 b.orphan + put 4 4 (boxReceiver i) + put 0 4 b.sender
  | .MBX_RESULT => flag 16 b.aborted + put 0 16 b.result
  | .MBX_STILE => put 0 4 (s.stile i).owner
  | .MBX_STILE_OWNER =>
    let x := s.stile i
    if x.owner = 0 then 0 else put 4 24 (sat 24 ((s.now - x.since) / 1000)) + put 0 4 x.owner
  | _ => 0

/-- The debug scope open: a token's, or that of BLANK (R482). -/
def State.scopeOpen (s : State) : Nat := if s.sec.lc = .blank then 7 else s.sec.scope

/-- SEC registers. -/
def State.viewSec (s : State) (r : RegId) (i : Nat) : Nat :=
  let x := s.sec
  match r with
  | .SEC_LC =>
    flag 7 x.tamper + flag 6 x.pendingLc.isSome + put 3 3 ((x.pendingLc.map Lc.code).getD 0) + put 0 3 x.lc.code
  | .SEC_BOOT =>
    put 28 4 x.rejCause + put 26 2 x.rejComp + flag 25 x.recovery + flags 4 4 (fun c => x.slotB.getD c false && x.accepted.getD c false)
      + flags 0 4 (fun c => x.accepted.getD c false)
  | .SEC_DEVICE_ID_LO => Config.deviceId % 2 ^ 32
  | .SEC_DEVICE_ID_HI => Config.deviceId / 2 ^ 32 % 2 ^ 32
  | .SEC_SVN => put 0 8 (s.svn i)
  | .SEC_NONCE => leAt x.nonce (4 * i) 4
  | .SEC_TOKEN_STAT => flag 31 x.busy + put 8 3 x.step + put 0 8 x.status
  | .SEC_DBG_STAT => put 16 3 s.scopeOpen + sat 16 ((x.scopeEnd - s.now) / 1000000000)
  | .SEC_LYP_STAT => put 16 7 x.lyp.length
  | _ => 0

/-- Code of a record slot. -/
def SlotState.code : SlotState → Nat
  | .empty => 0 | .valid => 1 | .bad => 2

/-- Code of a calibration run. -/
def RunState.code : RunState → Nat
  | .idle => 0 | .pending => 1 | .awaiting => 2 | .measuring => 3

/-- CAL registers. -/
def State.viewCal (s : State) (r : RegId) (i : Nat) : Nat :=
  let m := s.mrec (s.f Fld.CAL_REC_SEL_type) (s.f Fld.CAL_REC_SEL_selector)
  let p := s.calPort i
  match r with
  | .CAL_STATUS =>
    flag 31 (s.cal.writes.any (fun w => w.deferred.isNone)) + flag 30 (s.cal.writes.any (fun w => w.deferred.isSome))
      + flags 0 4 (fun k => s.cal.partBad.getD k false)
  | .CAL_REC_STAT =>
    put 30 2 m.code + put 28 2 m.a.state.code + put 26 2 m.b.state.code + flag 25 (m.inUse.isSome && m.inUse ≠ some m.a)
  | .CAL_REC_GEN => (m.inUse.map (fun x => x.gen)).getD 0
  | .CAL_PORT_STAT => put 29 3 p.run.code + flag 28 p.traced + flag 27 p.tile + put 20 4 (sat 4 p.tries)
  | .CAL_PORT_KC_RG => put 16 16 (p.kc.getD 1 0) + put 0 16 (p.kc.getD 0 0)
  | .CAL_PORT_KC_B => put 0 16 (p.kc.getD 2 0)
  | .CAL_PORT_REF => toTwos 16 p.refTemp
  | _ => 0

/-! ### What a read finds -/

/-- The block that a BAR0 offset lies in, as its read-only fields are shown. -/
def State.viewBlock (s : State) (agent off : Nat) (r : RegId) (i : Nat) : Nat :=
  if off < 0x200000 then if off < 0x100000 then s.viewSys r i else s.viewHif r i
  else if off < 0x300000 then s.viewMbx agent r i
  else if off < 0x400000 then s.viewFold r i
  else if off < 0x500000 then s.viewTherm agent r i
  else if off < 0x700000 then s.viewMemc r i
  else if off < 0x800000 then s.viewDfl r i
  else if off < 0x900000 then s.viewLayer r i
  else if off < 0xA00000 then s.viewInk r i
  else if off < 0xB00000 then s.viewHold r i
  else if off < 0xC00000 then s.viewBell r i
  else if off < 0xC01000 then s.viewJet r i
  else if off < 0xD00000 then s.viewNozzle r i
  else if off < 0xE00000 then s.viewLink r i
  else if off < 0xF00000 then s.viewSee r i
  else if off < 0x1000000 then s.viewNet r i
  else if off < 0x1200000 then s.viewCal r i
  else s.viewSec r i

/-- The bits of a register that the register file holds: the fields that are neither RO nor WO. -/
def heldMask (fs : List FieldSpec) : Nat :=
  ((fs.filter (fun f => f.acc ≠ .ro && f.acc ≠ .wo)).map FieldSpec.mask).foldl (· ||| ·) 0

/-- The mask of the fields of a register with given access codes. -/
def accMask (p : Access → Bool) (fs : List FieldSpec) : Nat :=
  ((fs.filter (fun f => p f.acc)).map FieldSpec.mask).foldl (· ||| ·) 0

/-- The value of a register of a row, as an agent reads it, the block answering. -/
def State.rowValue (s : State) (view : Nat) (x : RegSpec) (i : Nat) : Nat :=
  (s.reg ⟨x.base + x.stride * i, x.rst i⟩ &&& heldMask x.fields) ||| view

end Sys2Proof.Machine
end

