-- ==== Sys2Proof/Machine/RegSet.lean ====
section
/-! DEFINITION. Sets of registers: the three signatures of R512, the snapshot set and the strobe that latches it (R389, R517),
the TALLY registers as they are shown (R529), and the value of any register. -/

set_option Elab.async false

namespace Sys2Proof.Machine

/-- One register of the map: its offset, its row and its index in the row. -/
abbrev RegAt : Type := Nat × RegSpec × Nat

/-- The registers of a row. -/
def RegSpec.all (x : RegSpec) : List RegAt := (List.range x.count).map (fun i => (x.base + x.stride * i, x, i))

/-- Registers that a test picks, in ascending offset. -/
def pickRegs (p : RegSpec → Bool) : List RegAt :=
  ((regSpecs.filter p).flatMap RegSpec.all).mergeSort (fun a b => a.1 ≤ b.1)

/-! ### Signatures (R512) -/

/-- Fields of the set-up: RW and RWL. -/
def setupAcc (a : Access) : Bool := a = .rw || a = .rwl

/-- The set-up signature: the RW and RWL fields of every register outside the TALLY block, all other bits taken as 0; banked
registers as the host reads them. -/
def State.setupSig (s : State) : Nat :=
  let rs := pickRegs (fun x => !inTally x.base && x.fields.any (fun f => setupAcc f.acc))
  crc32c (rs.flatMap (fun x =>
    leBytes 4 (s.rowValue (s.viewBlock 1 x.1 x.2.1.id x.2.2) x.2.1 x.2.2 &&& accMask setupAcc x.2.1.fields)))

/-- Tables in force that have been loaded: type, index, sub and CRC-32C. -/
def State.loadedTables (s : State) : List (Nat × Nat × Nat × Nat) :=
  s.ink.slots.filterMap (fun t => if t.active.isSome then some (t.typ, t.index, t.sub, t.crc) else none)
    ++ s.hold.meas.map (fun m => (m.typ, m.index, m.sub, crc32c m.data))
    ++ s.hold.base.map (fun p => (0x13, p.1, 0, crc32c p.2))
    ++ s.jet.bars.zipIdx.filterMap (fun p => if p.1.il = Interlace.reset then none else some (0x20, p.2, 0, p.1.il.crc))
    ++ s.dfl.dicts.map (fun p => (0x30, p.1, 0, crc32c p.2.data))

/-- The table signature: the CRC-32C of the loaded tables in ascending order of type, index and sub. -/
def State.tableSig (s : State) : Nat :=
  let key := fun (t : Nat × Nat × Nat × Nat) => (t.1 * 256 + t.2.1) * 256 + t.2.2.1
  crc32c ((s.loadedTables.mergeSort (fun a b => key a ≤ key b)).flatMap (fun t => leBytes 4 t.2.2.2))

/-- The status signature: the status maps of every half-bar, bar 0 left first. -/
def State.statusSig (s : State) : Nat := crc32c ((List.range 16).flatMap (fun k => s.mapBytes (k / 2) (k % 2)))

/-! ### The snapshot set (R517) -/

/-- Rows of the snapshot set: every row with an RC field, and the registers that R517 names. -/
def inSnapSet (x : RegSpec) : Bool :=
  x.fields.any (fun f => f.acc = .rc)
    || [RegId.BELL_POS_LO, .BELL_POS_HI, .BELL_FPOS_LO, .BELL_FPOS_HI, .BELL_HWM_LO, .BELL_HWM_HI, .BELL_SPEED,
        .LAYER_IMAGE, .LAYER_POS, .JET_IMAGE, .JET_BAR_IMAGE, .JET_BAR_LINE, .PAD_Q_HELD, .THERM_TJ, .NET_TIME_LO,
        .NET_TIME_HI].contains x.id

/-- Number of registers in the snapshot set. -/
def snapCount : Nat := ((regSpecs.filter inSnapSet).map (fun x => x.count)).sum

/-- Code of TALLY_STATUS.state: a replay is halted while its clock is. -/
def State.tallyCode (s : State) : Nat :=
  match s.tally.state with
  | .idle => 0
  | .recording => 1
  | .replay => if s.replayBlocked then 3 else 2

/-- The bank that software holds: TALLY_SNAP_CTRL.hold. -/
def State.heldBank (s : State) : Bank := s.tally.banks.getD (b2n s.tally.held) ⟨0, []⟩

/-- TALLY registers. -/
def State.viewTally (s : State) (r : RegId) : Nat :=
  let t := s.tally
  match r with
  | .TALLY_STATUS =>
    put 29 3 s.tallyCode + flag 28 t.camFull + flag 27 t.wrapped + flag 26 t.gap + flag 25 s.sec.session.isSome + put 0 17 t.pages
  | .TALLY_CHUNKS => t.nextChunk
  | .TALLY_EXPORTED => t.exported
  | .TALLY_SETUP => s.setupSig
  | .TALLY_TABLE_SIG => s.tableSig
  | .TALLY_STATUS_SIG => s.statusSig
  | .TALLY_REPLAY_TIME => t.clock % 2 ^ 32
  | .TALLY_DIV_CAUSE => put 28 4 t.div.cause + put 8 3 t.div.ink + put 0 8 t.div.unit
  | .TALLY_DIV_IMAGE => t.div.image
  | .TALLY_DIV_LINE => put 0 24 t.div.line
  | .TALLY_DIV_REC => t.div.was
  | .TALLY_DIV_NOW => t.div.now
  | .TALLY_SNAP_CTRL => flag 1 (t.newest = 1) + flag 0 t.held
  | .TALLY_SNAP_VAL => (rfGet s.heldBank.vals (4 * s.f Fld.TALLY_SNAP_SEL_offset)).getD 0
  | .TALLY_SNAP_N => snapCount
  | _ => 0

/-- The value of a register of the map, as an agent reads it: 0 where its block does not answer (R398, R475). -/
def State.valueOf (s : State) (agent : Nat) (x : RegAt) : Nat :=
  if s.answers x.1 then
    s.rowValue (if inTally x.1 then s.viewTally x.2.1.id else s.viewBlock agent x.1 x.2.1.id x.2.2) x.2.1 x.2.2
  else 0

/-- The value of the register at an offset; an address that holds none reads 0 (R5). -/
def State.regValue (s : State) (agent off : Nat) : Nat :=
  match regAt off with
  | some p => s.valueOf agent (off, p.1, p.2)
  | none => 0

/-- The values of the snapshot set, in ascending offset. -/
def State.snapValues (s : State) : List (Nat × Nat) := (pickRegs inSnapSet).map (fun x => (x.1, s.valueOf 1 x))

/-- A strobe (R389, R517): the set goes into the bank that software does not hold; its time and flags are stored, EV228, a SNAP
entry. -/
def State.strobe (byNow bySched byStep : Bool) (s : State) : State :=
  let k := 1 - b2n s.tally.held
  let bank : Bank := ⟨s.net.ext, s.snapValues⟩
  let s := { s with freeCount := s.freeCount + 1 }
  let s := s.onTally (fun t => { t with banks := t.banks.set k bank, newest := k })
  let s := s.onNet (fun n => { n with
    lastStrobe := n.ext, fUnlocked := n.servo ≠ .locked, fStepped := byStep, fSched := bySched, fNow := byNow
    target := if bySched then none else n.target })
  let s := if bySched then s.setF Fld.NET_SNAP_CTRL_arm 0 else s
  (s.raiseEv 228).tallyEntry 0x03 0 (leBytes 4 s.wraps)

end Sys2Proof.Machine
end

