-- ==== Sys2Proof/Machine/Net.lean ====
section
/-! DEFINITION. Commands of device time and the network ports: the servo, snapshots, frames and the ceiling message (R381 to
R391). -/

set_option Elab.async false

namespace Sys2Proof.Machine

/-! ### The servo (R387, R388) -/

/-- The servo moves to a state: EV226 where it changes. -/
def State.servoTo (x : Servo) (s : State) : State :=
  if s.net.servo = x then s else (s.onNet (fun n => { n with servo := x })).raiseEv 226

/-- freq_max in ppb: above 200,000 taken as 200,000 (R394). -/
def State.freqMax (s : State) : Int := (min 200000 (s.f Fld.NET_FREQ_MAX_freq_max) : Nat)

/-- The update of R387: I, then F, with division rounding toward 0. -/
def State.servoUpdate (o : Int) (s : State) : State :=
  let m := s.freqMax
  let i := clampInt (-m) m (s.net.i + Int.tdiv (o * s.f Fld.NET_SERVO_CFG_ki) 256)
  let f := -1024 * clampInt (-m) m (Int.tdiv (o * s.f Fld.NET_SERVO_CFG_kp) 256 + i)
  s.onNet (fun n => { n with i := i, f := f })

/-- An accepted offset is counted: the runs of offsets within lock_ns, and beyond it. -/
def State.noteOffset (o : Int) (s : State) : State :=
  let near := o.natAbs ≤ s.f Fld.NET_LOCK_lock_ns
  s.onNet (fun n => { n with
    acquired := true, lastOffset := o
    good := if near then n.good + 1 else 0, bad := if near then 0 else n.bad + 1 })

/-- The time is stepped by an offset (R388, R390): a target that the step passes gives its strobe on the tick of the step. -/
def State.stepTime (o : Int) (s : State) : State :=
  let was := s.net.ext
  let ext := ((was : Int) - o) % 2 ^ 64 |>.toNat
  let passed := s.net.target.any (fun t => was < t && t ≤ ext)
  let s := s.onNet (fun n => { n with ext := ext, i := 0, f := 0, stepped := true, servo := .acquire })
  let s := s.raiseEv 227
  if passed then s.strobe false true true else s

/-- An offset is refused (R388). -/
def State.refuseOffset (s : State) : State :=
  ((s.raiseEv 225).fault 113).bump Fld.NET_REFUSE_CNT_value 1

/-- An offset is judged by the table of R388. -/
def State.judgeOffset (o : Int) (s : State) : State :=
  let near := (s.noteOffset o).servoUpdate o
  if s.f Fld.NET_STEP_MAX_step_max < o.natAbs then
    if s.net.servo = .free then (s.noteOffset o).stepTime o else s.refuseOffset
  else
    match s.net.servo with
    | .free => near.servoTo .acquire
    | .holdover => near.servoTo .acquire
    | .acquire => if 8 ≤ near.net.good then near.servoTo .locked else near
    | .locked => if 8 ≤ near.net.bad then near.servoTo .acquire else near

/-- SERVO_OFFSET (R387, R388): C3 writes NET_SERVO_OFF_LO; in replay offsets are ignored (R521). -/
def execServoOffset (dt : Nat) (lo : Word) (s : State) : Res :=
  if s.down then .next s else
  let s := s.elapse dt
  if !s.writeOpen 5 Reg.NET_SERVO_OFF_LO.off then .next s else
  if !s.isOn 8 || s.replaying then .next s
  else
    let s := s.onNet (fun n => { n with offLo := lo.toNat, offsetAt := s.now })
    let raw := s.net.offHi * 2 ^ 32 + lo.toNat
    let o := ofTwos 64 raw
    let refused := s.net.servo ≠ .free && s.f Fld.NET_STEP_MAX_step_max < o.natAbs
    let s := s.tallyEntry 0x41 (b2n refused) (leBytes 8 raw)
    .next (s.judgeOffset o)

/-- SERVO_HOLDOVER (R388): no offset for hold_ms, F being held. -/
def execServoHoldover (dt : Nat) (s : State) : Res :=
  if s.down then .next s else
  let s := s.elapse dt
  let tracking := s.net.servo = .acquire || s.net.servo = .locked
  if tracking && s.net.offsetAt + orIfZero (s.f Fld.NET_LOCK_hold_ms) 1 * 1000000 ≤ s.now then
    .next ((s.servoTo .holdover).fault 112)
  else .next s

/-- SERVO_RESTART (R388, R394): to FREE, I and F to 0; a step is allowed again. -/
def execServoRestart (dt : Nat) (s : State) : Res :=
  if s.down then .next s else
  let s := s.elapse dt
  if !s.writeOpen 1 Reg.NET_CTRL.off then .next s else
  let s := s.noteWrite 1 Reg.NET_CTRL.off 1
  if !s.isOn 8 then .next s
  else
    .next ((s.onNet (fun n => { n with i := 0, f := 0, acquired := false, stepped := false, good := 0, bad := 0 })).servoTo .free)

/-! ### Wraps and snapshots (R385, R389, R390) -/

/-- TIME_WRAP (R385): time passes up to the next wrap of device time, and EV224 is raised there. -/
def execTimeWrap (dt : Nat) (s : State) : Res :=
  if s.down then .next s else
  let s := s.elapse dt
  .next (s.elapse (2 ^ 32 - s.net.ext % 2 ^ 32))

/-- SNAP_NOW (R389): the strobe comes on the tick after the write, and serves a target reached on that tick as well. -/
def execSnapNow (dt : Nat) (s : State) : Res :=
  if s.down then .next s else
  let s := s.elapse dt
  if !s.writeOpen 1 Reg.NET_SNAP_CTRL.off then .next s else
  let s := s.noteWrite 1 Reg.NET_SNAP_CTRL.off (putBits (s.reg Reg.NET_SNAP_CTRL) 0 0 1)
  if !s.isOn 8 then .next s
  else
    let s := s.elapse 1
    .next (s.strobe true (s.net.target.any (· ≤ s.net.ext)) false)

/-- SNAP_ARM (R390): the target is armed in place of an earlier one, or is missed: FS114 and EV229. -/
def execSnapArm (dt : Nat) (s : State) : Res :=
  if s.down then .next s else
  let s := s.elapse dt
  if !s.writeOpen 1 Reg.NET_SNAP_CTRL.off then .next s else
  let s := s.noteWrite 1 Reg.NET_SNAP_CTRL.off (putBits (s.reg Reg.NET_SNAP_CTRL) 1 1 1)
  let t := s.reg Reg.NET_SNAP_AT_HI * 2 ^ 32 + s.reg Reg.NET_SNAP_AT_LO
  if !s.isOn 8 then .next s
  else if t ≤ s.net.ext then
    let s := (s.onNet (fun n => { n with target := none })).setF Fld.NET_SNAP_CTRL_arm 0
    .next ((s.fault 114).raiseEv 229)
  else .next ((s.onNet (fun n => { n with target := some t })).setF Fld.NET_SNAP_CTRL_arm 1)

/-- SNAP_SCHEDULED (R389): within the time that passes the extended time reaches the target; the strobe comes on that tick. -/
def execSnapScheduled (dt : Nat) (s : State) : Res :=
  if s.down then .next s else
  match s.net.target with
  | some t =>
    if s.net.ext + dt < t then .next (s.elapse dt)
    else
      let d := t - s.net.ext
      .next (((s.elapse d).strobe false true false).elapse (dt - d))
  | none => .next (s.elapse dt)

/-! ### Frames (R382 to R384) -/

/-- A port, changed. -/
def State.onNetPort (p : Nat) (f : Port → Port) (s : State) : State :=
  s.onNet (fun n => { n with ports := n.ports.modify p f })

def State.netPort (s : State) (p : Nat) : Port := s.net.ports.getD p Port.reset

/-- Big-endian number of k octets at a place in a frame. -/
def octets (bs : List Byte) (at_ k : Nat) : Nat := leNat ((bs.drop at_).take k).reverse

/-- A frame without its single VLAN tag; none where a second tag follows (R382). -/
def untag (bs : List Byte) : Option (List Byte) :=
  if octets bs 12 2 = 0x8100 then
    let r := bs.take 12 ++ bs.drop 16
    if octets r 12 2 = 0x8100 || octets r 12 2 = 0x88A8 then none else some r
  else some bs

/-- Multicast addresses of PTP: of the IEEE 802.3 mapping, and of UDP over IPv4. -/
def ptpMulticast : List Nat := [0x011B19000000, 0x0180C200000E, 0x01005E000181, 0x01005E00006B]

/-- The MAC address of a port. -/
def State.portMac (s : State) (p : Nat) : Nat :=
  s.f (Fld.NET_PORT_MAC_HI_value p) * 2 ^ 32 + s.f (Fld.NET_PORT_MAC_LO_value p)

/-- A frame with its FCS passes the filter of R382; the frame without tag and FCS. -/
def State.keepFrame (s : State) (p : Nat) (bs : List Byte) : Option (List Byte) :=
  let body := bs.take (bs.length - 4)
  let dst := octets bs 0 6
  if bs.length < 18 || 1522 < bs.length || leNat (bs.drop (bs.length - 4)) ≠ crc32 body then none
  else if dst ≠ s.portMac p && !ptpMulticast.contains dst && dst ≠ 2 ^ 48 - 1 then none
  else untag body

/-- Where the PTP header of a frame stands (R383): under the IEEE 802.3 mapping, or as a UDP event message over IPv4. -/
def ptpAt (bs : List Byte) : Option Nat :=
  if octets bs 12 2 = 0x88F7 then some 14
  else if octets bs 12 2 = 0x0800 && octets bs 23 1 = 17 then
    let udp := 14 + 4 * (octets bs 14 1 % 16)
    if octets bs (udp + 2) 2 = 319 then some (udp + 8) else none
  else none

/-- The identity of a PTP event message: type, domain number, sequenceId. -/
def ptpEvent (bs : List Byte) : Option (Nat × Nat × Nat) :=
  match ptpAt bs with
  | some h =>
    let t := octets bs h 1 % 16
    if t ≤ 3 && h + 34 ≤ bs.length then some (t, octets bs (h + 4) 1, octets bs (h + 30) 2) else none
  | none => none

/-- The timestamp of this instant with a compensation (R383). -/
def State.stampTime (s : State) (comp : Nat) : Nat := toTwos 32 ((s.net.ext : Int) + ofTwos 16 comp)

/-- A timestamp joins a queue of 16, or is lost (R384). C3 may have collected any number of those that stand in a full queue. -/
def State.queueStamp (p : Nat) (tx : Bool) (x : Stamp) (s : State) : State :=
  let q := if tx then (s.netPort p).tx else (s.netPort p).rx
  let r := if q.length < 16 then (0, s) else s.free
  let s := r.2
  let q := q.drop (r.1 % (q.length + 1))
  if q.length < 16 then
    s.onNetPort p (fun n => if tx then { n with tx := q ++ [x] } else { n with rx := q ++ [x] })
  else (s.bump (Fld.NET_PORT_TS_LOST_value p) 1).fault 116

/-- A port is in use, with its link up. -/
def State.portUp (s : State) (p : Nat) : Bool := s.isOn 8 && s.fb (Fld.NET_PORT_CFG_enable p) && (s.netPort p).link

/-- NET_FRAME_RECEIVE (R382 to R384): the octets from the destination to the FCS. -/
def execNetFrameReceive (dt : Nat) (port : Fin 2) (frame : List Byte) (s : State) : Res :=
  if s.down then .next s else
  let s := s.elapse dt
  let p := port.val
  if !s.portUp p then .next s
  else match s.keepFrame p frame with
    | none => .next (s.bump (Fld.NET_PORT_DROP_CNT_value p) 1)
    | some bs =>
      let s := s.bump (Fld.NET_PORT_RX_CNT_value p) 1
      let s := s.onNetPort p (fun n => { n with inbox := n.inbox ++ [bs] })
      match ptpEvent bs with
      | some e =>
        .next (s.queueStamp p false ⟨s.stampTime (s.f (Fld.NET_PORT_LAT_ingress p)), e.1, e.2.1, e.2.2⟩)
      | none => .next s

/-- PTP_EVENT_SEND (R383, R384): a PTP event message of C3 leaves a port. -/
def execPtpEventSend (dt : Nat) (port : Fin 2) (frame : List Byte) (s : State) : Res :=
  if s.down then .next s else
  let s := s.elapse dt
  let p := port.val
  if !s.portUp p then .next s
  else match (untag frame).bind ptpEvent with
    | some e =>
      let s := s.emit (.frame p frame)
      .next (s.queueStamp p true ⟨s.stampTime (s.f (Fld.NET_PORT_LAT_egress p)), e.1, e.2.1, e.2.2⟩)
    | none => .next s

/-- A link comes up or goes down: EV230; FS115 when a port in use loses it (R392, R393). -/
def State.setLink (p : Nat) (up : Bool) (s : State) : State :=
  if (s.netPort p).link = up then s
  else
    let an := up && s.fb (Fld.NET_PORT_CFG_mode p) && s.fb (Fld.NET_PORT_CFG_an_en p)
    let s := s.onNetPort p (fun n => { n with link := up, blockLock := up, anDone := an })
    let s := s.raiseEv 230
    if !up && s.fb (Fld.NET_PORT_CFG_enable p) then s.fault 115 else s

/-- NET_LINK (R381, R392, R393): a port that is not in use has no link. -/
def execNetLink (dt : Nat) (port : Fin 2) (up : Bool) (s : State) : Res :=
  if s.down then .next s else
  let s := s.elapse dt
  if !s.isOn 8 || (up && !s.fb (Fld.NET_PORT_CFG_enable port.val)) then .next s else .next (s.setLink port.val up)

/-! ### The ceiling message (R391) -/

/-- The 48 bytes of the payload. -/
def State.ceilPayload (s : State) (cause : Bool) : List Byte :=
  let b := s.bell
  let fl := b2n b.ceilLow + 2 * b2n (s.source.state = .still) + 4 * b2n (s.net.servo = .locked) + 8 * b2n cause
  let body := beBytes 2 0x4A43 ++ beBytes 1 1 ++ beBytes 1 fl ++ beBytes 4 s.net.ceilSeq ++ beBytes 4 s.devTime
    ++ beBytes 4 b.ceilSpeed ++ beBytes 4 b.ceilLines ++ beBytes 1 b.term ++ beBytes 1 b.ceilUnit ++ beBytes 2 0
    ++ beBytes 4 (toTwos 32 b.speed) ++ beBytes 4 (sat 24 b.lrate) ++ beBytes 4 s.jet.image ++ beBytes 4 (s.reg Reg.NET_CEIL_NODE)
    ++ beBytes 4 0
  body ++ beBytes 4 (crc32c body)

/-- The frame on a port, its FCS last. -/
def State.ceilFrame (s : State) (p : Nat) (cause : Bool) : List Byte :=
  let dst := s.f Fld.NET_CEIL_DST_HI_value * 2 ^ 32 + s.f Fld.NET_CEIL_DST_LO_value
  let tag := if s.fb Fld.NET_CEIL_CFG_vlan_en then beBytes 2 0x8100 ++ beBytes 2 (s.reg Reg.NET_CEIL_VLAN) else []
  let body := beBytes 6 dst ++ beBytes 6 (s.portMac p) ++ tag ++ beBytes 2 0x88B5 ++ s.ceilPayload cause
  body ++ leBytes 4 (crc32 body)

/-- One frame is sent on every port selected; one number serves both. -/
def State.sendCeil (cause : Bool) (s : State) : State :=
  let s := s.ceilPorts.foldl (fun t p => t.emit (.frame p (s.ceilFrame p cause))) s
  s.onNet (fun n => { n with ceilSeq := (n.ceilSeq + 1) % 2 ^ 32, ceilSent := true, ceilLastAt := s.now })

/-- CEIL_MSG_PERIODIC (R391). -/
def execCeilMsgPeriodic (dt : Nat) (s : State) : Res :=
  if s.down then .next s else
  let s := s.elapse dt
  let ms := s.f Fld.NET_CEIL_CFG_ceil_period
  if s.ceilPorts.isEmpty || ms = 0 || s.now < s.net.ceilLastAt + ms * 1000000 then .next s else .next (s.sendCeil false)

/-- CEIL_MSG_CAUSE (R391): 25 µs after the last frame for a cause at the earliest. -/
def execCeilMsgCause (dt : Nat) (s : State) : Res :=
  if s.down then .next s else
  let s := s.elapse dt
  let spaced := s.net.ceilCauseAt.all (fun t => t + 25000 ≤ s.now)
  if s.net.ceilWait.isNone || !spaced then .next s
  else if s.ceilPorts.isEmpty then .next (s.onNet (fun n => { n with ceilWait := none }))
  else .next ((s.sendCeil true).onNet (fun n => { n with ceilWait := none, ceilCauseAt := some s.now }))

end Sys2Proof.Machine
end

