-- ==== Sys2Proof/Machine/Fold.lean ====
section
/-! DEFINITION. Fault collection and the safe state: the meanings of FOLD_FORCE, FAULT_INJECT, CLASS_ACKNOWLEDGE, STICKY_CLEAR,
SELF_TEST, SRAM_ERROR, CROOK_ENTER and CROOK_RELEASE (R425 to R449). -/

set_option Elab.async false

namespace Sys2Proof.Machine

/-- Sources that exist; the others are reserved and never set (R446). -/
def sourceExists (n : Nat) : Bool :=
  n ≤ 6 || (8 ≤ n && n ≤ 22) || (24 ≤ n && n ≤ 27) || (32 ≤ n && n ≤ 37) || (40 ≤ n && n ≤ 53) || (56 ≤ n && n ≤ 61)
    || (64 ≤ n && n ≤ 69) || (72 ≤ n && n ≤ 77) || (80 ≤ n && n ≤ 85) || (88 ≤ n && n ≤ 116) || (120 ≤ n && n ≤ 127)

/-- Sources that a word of 32 bits names. -/
def wordSources (word data : Nat) : List Nat :=
  ((List.range 32).filter (fun n => bitOf data n)).map (fun n => 32 * word + n)

/-- FOLD_FORCE (R444): one occurrence of each source whose bit is 1, in ascending order (R426), with all eight bars. -/
def execFoldForce (dt : Nat) (word : Fin 4) (data : Word) (s : State) : Res :=
  if s.down then .next s else
  let s := s.elapse dt
  if !s.writeOpen 1 (Reg.FOLD_FORCE word.val).off then .next s else
  let s := s.noteWrite 1 (Reg.FOLD_FORCE word.val).off data.toNat
  .next (((wordSources word.val data.toNat).filter sourceExists).foldl (fun s n => s.faultAs n 255 0 (s.sevOf n) .forced) s)

/-- The last occurrence of a source is marked as injected (R445), and so is its test. -/
def State.markInjected (src : Nat) (s : State) : State :=
  s.onFold (fun f => { f with
    last := if f.last.source = src then { f.last with injected := true } else f.last
    tests := f.tests.map (fun t => if t.source = src then { t with injected := true } else t) })

/-- How the unit of an occurrence without its detector is found, among n of its kind. -/
abbrev UnitOf : Type := Nat → State → Nat × State

/-- The bar, lane or other unit that an injection names: FOLD_INJECT gives the source only, so the unit is a free value. -/
def anyUnit : UnitOf := fun n s =>
  let r := s.free
  (r.1 % max 1 n, r.2)

/-- The unit that a recorded bar scope names (R509, R522): its first bar, or a lane of it, which the record does not say. -/
def scopeUnit (bars : Nat) : UnitOf := fun n s =>
  let b := (scopeBars bars).headD 0
  if n = 8 then (b, s)
  else if n = 32 then
    let r := s.free
    (4 * b + r.1 % 4, r.2)
  else anyUnit n s

/-- The event that the unit of a source raises with it, by the rule that sets the source. -/
def eventOf (src : Nat) : Option Nat :=
  ([(16, 74), (24, 160), (26, 161), (40, 34), (43, 36), (48, 141), (49, 142), (52, 143), (58, 129), (60, 134), (67, 19), (75, 204),
    (77, 200), (80, 209), (81, 208), (88, 249), (90, 250), (91, 250), (93, 253), (94, 254), (108, 155), (114, 229)].find?
      (fun p => p.1 = src)).map (fun p => p.2)

/-- A detector reports as if its condition had arisen, and the rules of its unit follow (R445); all is the scope of a source
that has no unit. -/
def State.injectAs (unit : UnitOf) (all src : Nat) (s : State) : State :=
  let plain := fun (s : State) =>
    let s := s.faultAs src all 0 (s.sevOf src) .injected
    match eventOf src with
    | some e => s.raiseEv e
    | none => s
  match src with
  | 0 =>
    let r := unit 32 s
    (r.2.leavePair r.1 6 false).markInjected 0
  | 1 =>
    let r := unit 8 s
    ((r.2.laneEv (4 * r.1) 99).faultBar 1 r.1).markInjected 1
  | 2 =>
    let r := unit 32 s
    ((r.2.laneEv r.1 100).laneFault 2 r.1).markInjected 2
  | 5 =>
    let r := unit 32 s
    ((r.2.leavePair r.1 11 false).laneFault 5 r.1).markInjected 5
  | 8 | 9 =>
    let r := unit 8 s
    (r.2.lineFault src r.1 .detector (r.2.bar r.1).lastPulse).markInjected src
  | 10 =>
    let r := unit 8 s
    (((r.2.dropLineTest r.1).onBar r.1 (fun x => { x with fire := .bothFailed, testing := none })).faultBar 10 r.1).markInjected 10
  | 14 =>
    let r := unit 8 s
    ((r.2.barDisarm r.1 3).faultBar 14 r.1).markInjected 14
  | 17 => (plain (s.bump Fld.BELL_SLIP_CNT_value 1)).raiseEv 69
  | 18 => (s.leaveRun s.bell.src).markInjected 18
  | 22 => plain (s.onBell (fun b => { b with pllLock := false }))
  | 66 =>
    let r := unit 64 s
    plain (r.2.haltRing r.1 1)
  | 72 => plain (s.onTherm (fun t => { t with shutdown := true }))
  | 75 => plain (s.onTherm (fun t => { t with refStale := true }))
  | 77 => plain (s.onTherm (fun t => { t with warn := true }))
  | 82 =>
    let r := unit 6 s
    let d := 4 + r.1 % 6
    (r.2.setDomain State.faultFor d .off).faultAs 82 all d (s.sevOf 82) .injected
  | 93 => plain (s.onSec (fun x => { x with tamper := true }))
  | 101 => (plain s).resetCore 1 1
  | 102 => (plain s).resetCore 2 1
  | 103 => (plain s).resetCore 3 1
  | 112 => plain (s.servoTo .holdover)
  | 113 => plain ((s.raiseEv 225).bump Fld.NET_REFUSE_CNT_value 1)
  | 115 =>
    let r := unit 2 s
    plain ((r.2.onNetPort r.1 (fun n => { n with link := false, blockLock := false, anDone := false })).raiseEv 230)
  | 116 =>
    let r := unit 2 s
    plain (r.2.bump (Fld.NET_PORT_TS_LOST_value r.1) 1)
  | _ =>
    if src ≤ 6 || (8 ≤ src && src ≤ 15) || src = 41 || src = 122 then
      let r := unit (if src ≤ 6 then 32 else 8) s
      let b := if src ≤ 6 then r.1 / 4 else r.1
      r.2.faultAs src (2 ^ b) r.1 (s.sevOf src) .injected
    else plain s

/-- Factory injection of a source (R445). -/
def State.inject (src : Nat) (s : State) : State := s.injectAs anyUnit 255 src

/-- A recorded FAULT in replay (R522): an injected occurrence of its scope, with no self-test. -/
def State.replayFault (src bars : Nat) (s : State) : State :=
  let had := s.fold.tests.any (fun t => t.source = src)
  let s := s.injectAs (scopeUnit bars) bars src
  if had then s else s.onFold (fun f => { f with tests := f.tests.filter (fun t => t.source ≠ src) })

/-- FAULT_INJECT (R445): only with STRAP_TEST 1 and in FACTORY. -/
def execFaultInject (dt : Nat) (data : Word) (s : State) : Res :=
  if s.down then .next s else
  let s := s.elapse dt
  if !s.writeOpen 1 Reg.FOLD_INJECT.off then .next s else
  let s := s.noteWrite 1 Reg.FOLD_INJECT.off data.toNat
  let src := bits data.toNat 6 0
  .next (if bitOf data.toNat 31 && s.sys.straps.test && s.sec.lc = .factory && sourceExists src then s.inject src else s)

/-- CLASS_ACKNOWLEDGE (R432): the classes named are closed. -/
def execClassAcknowledge (dt : Nat) (data : Word) (s : State) : Res :=
  if s.down then .next s else
  let s := s.elapse dt
  if !s.writeOpen 1 Reg.FOLD_OPEN.off then .next s else
  let s := s.noteWrite 1 Reg.FOLD_OPEN.off data.toNat
  .next (s.wipe Reg.FOLD_OPEN (data.toNat % 2 ^ 16))

/-- A source's sticky or LASTING bit is set. -/
def State.srcSet (s : State) (n : Nat) : Bool :=
  s.fb ⟨Reg.FOLD_STICKY (n / 32), n % 32, n % 32⟩ || s.fb ⟨Reg.FOLD_LASTING (n / 32), n % 32, n % 32⟩

/-- A bar's hold ends once no source that held it has a bit set (R430): EV198. -/
def State.endHold (s : State) (b : Nat) : State :=
  if s.fold.held.getD b false && !(s.fold.heldBy.getD b []).any (fun n => s.srcSet n) then
    (s.onFold (fun f => { f with held := f.held.set b false, heldBy := f.heldBy.set b [] })).raiseEv 198
  else s

/-- The condition that a source reports lasts, for the sources whose condition is a state of the device and not an event (R430). -/
def State.persists (s : State) (src : Nat) : Bool :=
  match src with
  | 10 => s.jet.bars.any (fun x => x.fire = .bothFailed)
  | 20 => s.overPolicy = 2 && s.jet.bars.any (fun x => x.above)
  | 22 => !s.bell.pllLock
  | 24 =>
    let lim := s.f Fld.MEMC_CE_LIMIT_value
    lim ≠ 0 && s.memc.channels.any (fun c => lim < c.ceAt.countP (fun t => s.now < t + 1000000000))
  | 25 => s.memc.scrubLate
  | 37 => s.memc.over95
  | 60 => s.see.ports.any (fun p => p.silent)
  | 68 => !s.hif.linkUp && s.jet.bars.any (fun x => x.hv)
  | 69 => s.hif.linkUp && (s.hif.rate < 3 || s.hif.width < s.strapWidth)
  | 72 => s.therm.shutdown && 112 * 64 ≤ s.therm.tj
  | 74 => s.diverged
  | 75 => s.therm.refStale
  | 76 => s.therm.started && s.therm.record.isNone
  | 77 => s.therm.warn
  | 81 => s.power.overSaid
  | 83 => s.therm.power.any (· = 0xFFFFFF)
  | 84 => s.power.grants.any (fun g => g.longSaid)
  | 85 => s.therm.pmbOn && s.voutOff s.therm.readVout
  | 94 => s.sec.trngFail
  | 99 => s.mbx.stiles.any (fun x => x.owner ≠ 0 && x.said)
  | 108 => s.nozzle.halves.any (fun z => z.penSaid)
  | 110 => s.nozzle.bars.any (fun z => z.staleSaid)
  | 112 => s.net.servo = .holdover
  | 120 =>
    let lim := s.f Fld.FOLD_CTRL_sram_ce_limit
    lim ≠ 0 && lim < s.fold.sramCe.countP (fun t => s.now < t + 1000000000)
  | 115 => (List.range 2).any (fun p => s.fb (Fld.NET_PORT_CFG_enable p) && !(s.netPort p).link)
  | _ => false

/-- A condition that persists sets its bit again at once (R430). -/
def State.setAgain (src : Nat) (s : State) : State :=
  if !s.persists src then s
  else if src = 10 then ((List.range 8).filter (fun b => (s.bar b).fire = .bothFailed)).foldl (fun s b => s.faultBar 10 b) s
  else if src = 83 then s.faultAt 83 255 (s.therm.power.findIdx (· = 0xFFFFFF))
  else s.fault src

/-- Bits of FOLD_STICKY or FOLD_LASTING are cleared (R430), but for those set in the same instant (R8); each change of FOLD_STICKY is recorded (R509), a clearing with bar
scope 0; a condition that persists sets its bit again before a hold could end. -/
def State.clearSticky (word : Nat) (lasting : Bool) (data : Nat) (s : State) : State :=
  let s := (wordSources word data).foldl (fun s n =>
    let x : Field := if lasting then ⟨Reg.FOLD_LASTING word, n % 32, n % 32⟩ else ⟨Reg.FOLD_STICKY word, n % 32, n % 32⟩
    if s.f x = 0 || !bitOf (s.earlier x.reg) (n % 32) || bitOf (s.raisedBits x.reg) (n % 32) then s
    else
      let s := s.wipe x.reg (2 ^ (n % 32))
      if lasting then s else (s.tallyEntry 0x50 n (leBytes 4 0)).setAgain n) s
  (List.range 8).foldl State.endHold s

/-- STICKY_CLEAR (R430). -/
def execStickyClear (dt : Nat) (word : Fin 4) (lasting : Bool) (data : Word) (s : State) : Res :=
  if s.down then .next s else
  let s := s.elapse dt
  if !s.writeOpen 1 (if lasting then Reg.FOLD_LASTING word.val else Reg.FOLD_STICKY word.val).off then .next s else
  let s := s.noteWrite 1 (if lasting then Reg.FOLD_LASTING word.val else Reg.FOLD_STICKY word.val).off data.toNat
  .next (s.clearSticky word.val lasting data.toNat)

/-- SELF_TEST (R416, R440, R441): the result of the test of a source on a unit, which the Drover has granted its tokens. A retraining (FS000), a DRAM word test (FS026) and the 16 pulses on a
fire line (FS008, FS009) give theirs by their own commands. The test of FS082 leaves the domain ON or OFF. -/
def execSelfTest (dt : Nat) (source : Fin 128) (target : Nat) (lasting : Bool) (s : State) : Res :=
  if s.down then .next s else
  let s := s.elapse dt
  let src := source.val
  let pending := s.testPending src target
  .next (
    if src = 0 || src = 26 then s
    else if src = 8 || src = 9 then s
    else if !pending || !s.testMayRun src target then s
    else if src = 82 && s.therm.shutdown then s
    else if src = 82 then
      let s := (s.setDomain State.faultFor target .off)
      let s := if lasting then s else s.domainIsOn target
      s.testResult src lasting
    else s.testResult src lasting)

/-- A correctable error of an on-chip memory is counted among those of the last second (R443). -/
def State.sramCount (s : State) : State :=
  let s := s.bump ⟨Reg.FOLD_SRAM_CE, 31, 0⟩ 1
  s.onFold (fun f => { f with sramCe := s.now :: f.sramCe.filter (fun t => s.now < t + 1000000000) })

/-- More correctable errors than the limit in a second: FS120, once until the count has been within the limit (R443). -/
def State.sramJudge (s : State) : State :=
  let lim := s.f Fld.FOLD_CTRL_sram_ce_limit
  let above := lim ≠ 0 && lim < s.fold.sramCe.length
  let said := s.fold.sramCeSaid
  let s := s.onFold (fun f => { f with sramCeSaid := above })
  if above && !said then s.fault 120 else s

/-- SRAM_ERROR (R443): store is the region, 0 to 6 for FS121 to FS127, plus 8 times the word. Of FS122 the word is the bar, plus 8 where it
lies in a run store, whose failed check also raises FS013 (R210). -/
def execSramError (dt : Nat) (store : Nat) (uncorrectable : Bool) (s : State) : Res :=
  if s.down then .next s else
  let s := s.elapse dt
  let r := store % 8
  let word := store / 8
  .next (
    if r = 7 then s
    else if uncorrectable then
      if r = 1 then
        let s := if bitOf word 3 then s.faultBar 13 (word % 8) else s
        s.faultAt 122 (2 ^ (word % 8)) word
      else s.faultAt (121 + r) 255 word
    else s.sramCount.sramJudge)

/-- CROOK_ENTER (R434): with the key; as HALT, with cause SOFTWARE. -/
def execCrookEnter (dt : Nat) (data : Word) (s : State) : Res :=
  if s.down then .next s else
  let s := s.elapse dt
  if !s.writeOpen 1 Reg.CROOK_CTRL.off then .next s else
  let s := s.noteWrite 1 Reg.CROOK_CTRL.off data.toNat
  .next (if bits data.toNat 31 16 = 0x3C5A && bitOf data.toNat 1 then s.crookEnter 0x81 else s)

/-- The conditions of a release (R439). -/
def State.mayRelease (s : State) : Bool :=
  !s.therm.shutdown && !s.fold.stopSources.any (fun n => s.srcSet n) && s.fold.stopAt ≠ some s.now

/-- CROOK_RELEASE (R439): with the key and without enter; nothing while CLEAR. In replay PRESS_STOP stays asserted (R521). -/
def execCrookRelease (dt : Nat) (data : Word) (s : State) : Res :=
  if s.down then .next s else
  let s := s.elapse dt
  if !s.writeOpen 1 Reg.CROOK_CTRL.off then .next s else
  let s := s.noteWrite 1 Reg.CROOK_CTRL.off data.toNat
  let asked := bits data.toNat 31 16 = 0x3C5A && bitOf data.toNat 0 && !bitOf data.toNat 1
  .next (
    if !asked || s.crook.state = .clear then s
    else if s.mayRelease then
      (s.onCrook (fun c => { c with state := .clear, pressStop := s.replaying, releaseRefused := false })).raiseEv 195
    else (s.onCrook (fun c => { c with releaseRefused := true })).raiseEv 199)

end Sys2Proof.Machine
end

