-- ==== Sys2Proof/Machine/HoldCmd.lean ====
section
/-! DEFINITION. Commands of the colour hold loop: the end of a fill, Graze, the snapshot, restart (R310, R324 to R328). -/

set_option Elab.async false

namespace Sys2Proof.Machine

/-- HOLD_FILL_DONE (R310): the fill is complete; composition that waits for it starts its image. -/
def execHoldFillDone (dt : Nat) (s : State) : Res :=
  if s.down then .next s else
  let s := s.elapse dt
  if !s.hold.filling then .next s
  else
    let wait := s.hold.waitFill
    let s := s.onHold (fun h => { h with filling := false, waitFill := false })
    match s.lay.job with
    | some j => if wait && s.allOn [5, 6] then .next (s.composeStep j) else .next s
    | none => .next s

/-- The stored image re-screened, band by band (R138, R325): its codes, what screening counted in each band, and its coverage (R313). -/
def State.rescreen (s : State) (j : Job) (x : Store) : Store × List (Screened × Nat) × List CovRow :=
  let use := s.jet.bars.map (fun b => b.inUse)
  let image := (s.lay.comp.map (fun c => c.image)).getD 0
  let vs := s.lay.inForce.filterMap (Option.map (fun c => (⟨c, (s.layerData c image none).1⟩ : View)))
  let lines := ((List.range x.length).map (fun i => s.composeLine s.hold.active vs none j.width i)).zipIdx
  let band := fun (r : BarCodes × List EngAcc × List (Screened × Nat)) (i : Nat) =>
    let t := ((lines.drop (64 * i)).take 64).foldl
      (fun q l => s.screenLine use x.ils j.codeBits j.width (x.line0 + l.2) x.line0 l.1 q) (r.1, ⟨r.2.1, List.replicate 32 0, 0, false⟩, 0)
    (t.1, t.2.1.acc, r.2.2 ++ [t.2])
  let start : BarCodes × List EngAcc × List (Screened × Nat) := (List.replicate 8 ([], []), [], [])
  let bands := List.range (ceilDiv x.length 64)
  let r := bands.foldl band start
  let cov : List CovLine := lines.map (fun l => ⟨x.line0 + l.2, some image, l.2, l.1⟩)
  let first := x.line0 / 8
  let last := (x.line0 + x.length - 1) / 8
  ({ x with
      code0 := r.1.map (fun c => c.1), code1 := r.1.map (fun c => c.2), full := true
      nz := (List.range 8).map (fun b => bands.map (fun _ => s.barStatuses b)) },
    r.2.2,
    (List.range (last + 1 - first)).map (fun q => 
      let ls := cov.filter (fun l => l.line / 8 = first + q)
      covRowOf use j.width (8 * (first + q)) (ls.length = 8) ls))

/-- GRAZE_START (R325): the grant has come; a second copy is taken, with one of the coverage where the camera quota holds it (R313), or FS053 is raised, Graze is given up and the repeat ends at the next
image (R99). -/
def execGrazeStart (dt : Nat) (s : State) : Res :=
  if s.down then .next s else
  let s := s.elapse dt
  match s.lay.job, s.lay.store with
  | some j, some x =>
    if s.hold.graze ≠ .awaitGrant || !s.droverHas .graze then .next s
    else
      let s := (s.wakeDomain 5).callDram
      if !s.isOn 5 || !s.dramUp then .next s else
      let n := s.storePages j x.length
      let s := s.padRejudge
      if s.padMay 1 n && s.padFirst 1 then
        let s := (s.padGive 1 n .grazeCopy).wroteHolder .grazeCopy
        let c := covPagesOf x.length j.width
        let s := if s.padMay 4 c && s.padFirst 4 then (s.padGive 4 c .grazeCov).wroteHolder .grazeCov else s
        let s := s.raiseEv 138
        let r := s.rescreen j x
        let s := r.2.1.foldl (fun s k => s.countBand k.1 k.2) s
        .next (s.onHold (fun h => { h with
          graze := .running, grazeLines := 0, grazeStore := some r.1, grazeFill := some h.active
          grazeCov := r.2.2 }))
      else
        let image := (s.lay.comp.map (fun c => imgAdd c.image 1)).getD 0
        .next (((s.fault 53).dropGraze image).onLay (fun l => { l with leaving := true }))
  | _, _ => .next s

/-- GRAZE_COMPLETE (R326): the new copy awaits the next start of an image; a trigger that came meanwhile makes the next latch point
fill. -/
def execGrazeComplete (dt : Nat) (s : State) : Res :=
  if s.down then .next s else
  let s := s.elapse dt
  if s.hold.graze ≠ .running then .next s
  else
    let n := (s.hold.grazeStore.map (fun x => x.length)).getD 0
    let s := s.onHold (fun h => { h with
      graze := .awaitSwap, grazeLines := n, dirty := h.dirty || h.grazeWant, grazeWant := false })
    .next (s.droverDrop .graze)

/-- HOLD_SNAPSHOT (R328): at most once every snap_s seconds while the gains have changed. -/
def execHoldSnapshot (dt : Nat) (s : State) : Res :=
  if s.down then .next s else
  let s := s.elapse dt
  let gap := orIfZero (s.f Fld.HOLD_SNAP_snap_s) 1 * 1000000000
  if s.isOn 7 && s.hold.changed && s.hold.snapAt + gap ≤ s.now then .next s.writeHoldSnap else .next s

/-- HOLD_RESTART (R327): the history is emptied; gains and paper stay until the next JOB_OPEN loads them. -/
def execHoldRestart (dt : Nat) (s : State) : Res :=
  if s.down then .next s else
  let s := s.elapse dt
  if !s.writeOpen 1 Reg.HOLD_CTRL.off then .next s else
  let s := s.noteWrite 1 Reg.HOLD_CTRL.off (putBits (s.reg Reg.HOLD_CTRL) 4 4 1)
  if s.isOn 7 then .next (s.onHold (fun h => { h with history := false, start := 0, kept := true })) else .next s

end Sys2Proof.Machine
end

