-- ==== Sys2Proof/Machine/Power.lean ====
section
/-! DEFINITION. Commands of the power domains and of Shelf (R395 to R401). -/

set_option Elab.async false

namespace Sys2Proof.Machine

/-- DOMAIN_REQUEST (R396, R397): 3 is taken as ON. -/
def execDomainRequest (dt : Nat) (domain : Fin 10) (data : Word) (s : State) : Res :=
  if s.down then .next s else
  let s := s.elapse dt
  if !s.writeOpen 1 (Reg.SYS_PD_CTRL domain.val).off then .next s else
  let s := s.noteWrite 1 (Reg.SYS_PD_CTRL domain.val).off data.toNat
  let d := domain.val
  let v := data.toNat % 4
  let s := s.setReg (Reg.SYS_PD_CTRL d) v
  if v = 1 || v = 2 then
    let p := if v = 1 then PState.retain else PState.off
    if (s.domain d).state = p then .next (s.onDomain d (fun x => { x with want := none }))
    else
      let cause := s.pdForbidden d
      .next (if cause ≠ 0 then s.refuseDomain cause d else s.onDomain d (fun x => { x with want := some p }))
  else
    let s := s.onDomain d (fun x => { x with want := none })
    if (s.domain d).state = .retain || (s.domain d).state = .off then .next (s.wakeDomain d) else .next s

/-- DOMAIN_CHANGE (R395, R397): with no work in flight, and with nothing against it that has come since. -/
def execDomainChange (dt : Nat) (domain : Fin 10) (s : State) : Res :=
  if s.down then .next s else
  let s := s.elapse dt
  let d := domain.val
  match (s.domain d).want with
  | none => .next s
  | some p =>
    if (s.domain d).state = .up || s.pdForbidden d ≠ 0 || s.pdBusy d then .next s
    else .next (s.setDomain State.faultFor d p)

/-- DOMAIN_POWER_UP (R397, R398). -/
def execDomainPowerUp (dt : Nat) (domain : Fin 10) (s : State) : Res := if s.down then .next s else .next ((s.elapse dt).wakeDomain domain.val)

/-- DOMAIN_ON (R399). -/
def execDomainOn (dt : Nat) (domain : Fin 10) (s : State) : Res :=
  if s.down then .next s else
  let s := s.elapse dt
  if (s.domain domain.val).state = .up then .next (s.domainIsOn domain.val) else .next s

/-- DOMAIN_UP_TIMEOUT (R399): 30 µs, for MEM 200 µs; FS082, and the work that has waited fails. The domain is OFF, with its contents lost, until
work or a request wakes it again. -/
def execDomainUpTimeout (dt : Nat) (domain : Fin 10) (s : State) : Res :=
  if s.down then .next s else
  let s := s.elapse dt
  let d := domain.val
  let bound := if d = 4 then 200000 else 30000
  if (s.domain d).state = .up && (s.domain d).since + bound ≤ s.now then
    let s := (s.setDomain State.faultFor d .off).onDomain d (fun x => { x with waiting := false })
    .next ((s.failWaiting d).faultAt 82 255 d)
  else .next s

/-- SHELF_ENTER (R400): refused while a bar has HV_EN asserted; else the pending record writes come first. -/
def execShelfEnter (dt : Nat) (data : Word) (s : State) : Res :=
  if s.down then .next s else
  let s := s.elapse dt
  if !s.writeOpen 1 Reg.SYS_SHELF.off then .next s else
  let s := s.noteWrite 1 Reg.SYS_SHELF.off data.toNat
  if bits data.toNat 15 0 ≠ 0x5E1F then .next s
  else if s.anyHv then .next (s.refuseDomain 2 0)
  else
    let s := s.onPower (fun p => { p with shelfWait := true })
    let s := s.onCal (fun c => { c with writes := c.writes.map (fun w => { w with deferred := none }) })
    .next s.settleShelf

/-- MAIN_RAIL_LOSS (R400): however it comes about, the device is in Shelf. -/
def execMainRailLoss (dt : Nat) (s : State) : Res :=
  if s.power.inShelf then .next s
  else .next ((if s.down then s else s.elapse dt).enterShelf 2)

/-- SHELF_WAKE (R401): PWR_ON goes high; start-up follows the rise of PORST_N. -/
def execShelfWake (_dt : Nat) (s : State) : Res :=
  .next (if s.power.inShelf then s.onPower (fun p => { p with inShelf := false, pwrOn := true }) else s)

end Sys2Proof.Machine
end

