-- ==== Sys2Proof/Machine/Read.lean ====
section
/-! DEFINITION. Register reads: the value, the RC fields that it clears, and the capture of quantities that span two registers
(R5 to R8, R457, R462). -/

set_option Elab.async false

namespace Sys2Proof.Machine

/-- The quantities that span two registers (R6): the lower word of each, whose upper word stands 4 higher. The address of an entry of
the MSI-X table is none of them: the table has the format of PCIe, whose two words of an address are read each for itself (DESIGN CHOICE, log
entry 8). -/
def wideLow : List RegId :=
  [.HIF_DB_ADDR_LO, .HIF_RING_BASE_LO, .BELL_POS_LO, .BELL_FPOS_LO, .BELL_HWM_LO, .BELL_W_POS_LO, .BELL_OFF_LO, .MEMC_ERR_ADDR_LO,
    .NET_TIME_LO, .NET_SERVO_OFF_LO, .NET_SNAP_AT_LO, .NET_SNAP_LAST_LO, .NET_CEIL_DST_LO, .NET_PORT_MAC_LO, .MBX_STAGE_PTR_LO,
    .MBX_PTR_LO, .SEC_DEVICE_ID_LO, .SEC_TOKEN_ADDR_LO, .SEC_LOAD_ADDR_LO]

/-- The upper words of those quantities. -/
def wideHigh : List RegId :=
  [.HIF_DB_ADDR_HI, .HIF_RING_BASE_HI, .BELL_POS_HI, .BELL_FPOS_HI, .BELL_HWM_HI, .BELL_W_POS_HI, .BELL_OFF_HI, .MEMC_ERR_ADDR_HI,
    .NET_TIME_HI, .NET_SERVO_OFF_HI, .NET_SNAP_AT_HI, .NET_SNAP_LAST_HI, .NET_CEIL_DST_HI, .NET_PORT_MAC_HI, .MBX_STAGE_PTR_HI,
    .MBX_PTR_HI, .SEC_DEVICE_ID_HI, .SEC_TOKEN_ADDR_HI, .SEC_LOAD_ADDR_HI]

/-- Where the upper part of a quantity is captured: its upper word, and of a banked quantity that of the agent (R454). -/
def captureKey (agent off : Nat) : Nat := if 0x200000 ≤ off && off < 0x200010 then off + agent * 2 ^ 32 else off

/-- The upper part last captured for a register; before any capture, its reset value, which for the device's identity is the identity
itself. -/
def State.captured (s : State) (agent off : Nat) (x : RegSpec) (i : Nat) : Nat :=
  (rfGet s.hif.captures (captureKey agent off)).getD
    (if x.id = .SEC_DEVICE_ID_HI then s.valueOf agent (off, x, i) else x.rst i)

/-- RC fields that hold a largest value, not a count: what is greater in the same instant is the whole of what is left. -/
def peakReg (id : RegId) : Bool :=
  [RegId.HIF_RTT, .SEE_PORT_FIFO, .MEMC_QUEUE, .MEMC_SCAN_LAT, .PAD_Q_PEAK, .THERM_TJ_MAX, .DROVER_WAIT_MAX].contains id

/-- The level that the highest level since the last read starts anew from at a read: the level is there in the instant of the read too
(R8, log entry 70). -/
def State.levelNow (s : State) (x : RegSpec) (i : Nat) : Nat :=
  match x.id with
  | .SEE_PORT_FIFO => put 16 11 (ceilDiv (s.camPort i).level 256)
  | .MEMC_QUEUE => put 16 7 (s.channel i).queue.length
  | .PAD_Q_PEAK => put 0 17 (s.padHeld i)
  | .THERM_TJ_MAX => if s.therm.started then toTwos 16 s.therm.tj else 0
  | _ => 0

/-- What a read leaves in an RC field that held `was` before the present tick and holds `now_`: what the hardware has set in the same
instant (R8), of a highest level at least the present one. A single bit is left set where the hardware has set it, though it was set. -/
def leftOver (peak : Bool) (width level again was now_ : Nat) : Nat :=
  if peak then (if now_ = was then level else now_)
  else if width = 1 then now_ - was ||| again
  else now_ - was

/-- The word of a register after its RC fields have been read. -/
def afterRead (peak : Bool) (fs : List FieldSpec) (level again was now_ : Nat) : Nat :=
  fs.foldl (fun v f =>
    let of := fun (w : Nat) => bits w f.hi f.lo
    if f.acc = .rc then putBits v f.hi f.lo (leftOver peak (f.hi + 1 - f.lo) (of level) (of again) (of was) (of now_)) else v) now_

/-- The value that a read returns: in W1C and RC fields, what they held before a set of the same instant (R8). -/
def State.readValue (s : State) (agent off : Nat) (x : RegSpec) (i : Nat) : Nat :=
  let v := s.valueOf agent (off, x, i)
  let m := accMask (fun a => a = .rc || a = .w1c) x.fields
  if m = 0 then v else (v ^^^ (v &&& m)) ||| (s.earlier (x.regOf i) &&& m)

/-- What the read of a register changes beside what it returns: a capture, RC fields cleared, a notice seen by its receiver. -/
def State.readEffect (agent off : Nat) (x : RegSpec) (i : Nat) (s : State) : State :=
  let hi := s.regValue agent (off + 4)
  let s := if wideLow.contains x.id then s.onHif (fun h => { h with captures := rfPut h.captures (captureKey agent (off + 4)) hi }) else s
  let r := x.regOf i
  let rc := accMask (fun a => a = .rc) x.fields
  let was := s.earlier r
  let s := if rc = 0 then s else (s.setReg r (afterRead (peakReg x.id) x.fields (s.levelNow x i) (s.raisedBits r) was (s.reg r))).setEarlier r
    ((was ^^^ (was &&& rc)) ||| (s.levelNow x i &&& rc))
  if x.id = .MBX_STATE && agent = boxReceiver i then s.onBox i (fun b => { b with seen := true }) else s

/-- A register is read: the value goes to the reader. What the spec leaves open in one read it leaves open anew in the next. -/
def State.readReg (agent off : Nat) (s : State) : State :=
  let give := fun (v : Nat) (s : State) => (s.onHif (fun h => { h with readData := v }))
  if agent = 0 then s
  else if !s.answers off then give 0 s
  else match regAt off with
    | none => give 0 s
    | some p =>
      if p.1.id = .MBX_STILE then s.stileTake p.2 agent
      else
        let v := if wideHigh.contains p.1.id then s.captured agent off p.1 p.2 else s.readValue agent off p.1 p.2
        let s := (give v s).readEffect agent off p.1 p.2
        { s with freeCount := s.freeCount + 1 }

/-- RC_FIELD_READ (R7, R8). -/
def execRcFieldRead (dt : Nat) (agent : Fin 7) (off : Nat) (s : State) : Res :=
  if s.down then .next s else
  .next ((s.elapse dt).readReg agent.val off)

/-- WIDE_QUANTITY_READ (R6). -/
def execWideQuantityRead (dt : Nat) (agent : Fin 7) (off : Nat) (s : State) : Res :=
  if s.down then .next s else
  .next ((s.elapse dt).readReg agent.val off)

end Sys2Proof.Machine
end

