-- ==== Sys2Proof/Machine/Sec.lean ====
section
/-! DEFINITION. Commands of the security functions: tokens, tamper, the TRNG, debug sessions, life-cycle transitions, mark packages
(R468 to R487). -/

set_option Elab.async false

namespace Sys2Proof.Machine

/-- C0 runs (R534). -/
def State.c0Runs (s : State) : Bool := s.sys.c0

/-- TOKEN_SUBMIT (R473, R477): C0 reads the 384 bytes; refused with BUSY while the TRNG tests are failing. -/
def execTokenSubmit (dt : Nat) (data : Word) (s : State) : Res :=
  if s.down then .next s else
  let s := s.elapse dt
  if !s.writeOpen 1 Reg.SEC_TOKEN_CTRL.off then .next s else
  let s := s.noteWrite 1 Reg.SEC_TOKEN_CTRL.off data.toNat
  if !bitOf data.toNat 0 || s.sec.busy || !s.c0Runs then .next s
  else if s.sec.trngFail then .next (s.onSec (fun x => { x with status := 0x76, step := 0 }))
  else
    let s := s.onSec (fun x => { x with busy := true, readDue := true, readLost := false })
    .next (if s.hif.mute then s else s.readToken)

/-- Some bar has HV_EN asserted or is armed (R470). -/
def State.anyBarLive (s : State) : Bool := s.anyHv || (List.range 8).any s.armed

/-- A transition is committed (R470): the owner fields are written, the target and the pending mark go into the latch, EV248; the
reset follows within 10 ms. -/
def State.commitLc (t : List Byte) (target : Lc) (s : State) : State :=
  let s :=
    if s.sec.lc = .factory && target = .provisioned then
      (s.putRecord 0x02 0 (cut t 64 48 ++ leBytes 4 0) true).putRecord 0x03 0 (cut t 224 40) true
    else s
  let s := s.onSec (fun x => { x with pendingLc := some target })
  let s := s.onSys (fun x => { x with lcReset := some (s.now + 10000000) })
  s.raiseEv 248

/-- What an accepted token does (R469 to R471, R482, R519): the status, and the state. -/
def State.actOn (t : List Byte) (s : State) : Nat × State :=
  let ends := s.now + leAt t 48 4 * 1000000000
  match leAt t 4 1 with
  | 1 => if s.anyBarLive then (0x75, s) else (0, s.commitLc t ((lcOf (leAt t 5 1)).getD s.sec.lc))
  | 2 => (0, s.onSec (fun x => { x with tamper := false }))
  | 3 => (0, (s.onSec (fun x => { x with scope := leAt t 5 1, scopeEnd := ends })).raiseEv 252)
  | _ => (0, s.onSec (fun x => { x with session := some ends }))

/-- TOKEN_DONE (R472, R473, R477). -/
def execTokenDone (dt : Nat) (token nonce : List Byte) (s : State) : Res :=
  if s.down then .next s else
  if token.length ≠ 384 || nonce.length ≠ 32 then .fault .illFormed
  else
    let s := s.elapse dt
    if !s.sec.busy || s.sec.readDue then .next s
    else
      let s := s.onSec (fun x => { x with busy := false })
      if s.sec.trngFail then .next ((s.onSec (fun x => { x with status := 0x76, step := 0 })).raiseEv 251)
      else
        let step := if s.sec.readLost then 1 else s.tokenStep token
        let r := if step = 0 then s.actOn token else (0x15, s.fault (if !s.sec.readLost && leAt token 4 1 = 3 then 92 else 88))
        let s := r.2.onSec (fun x => { x with status := r.1, step := step, nonce := nonce })
        .next (s.raiseEv 251)

/-- TAMPER (R471): the VSTBY island watches in every state; FS093 and EV253 while the main rails are up. -/
def execTamper (dt : Nat) (s : State) : Res :=
  let up := !s.down
  let s := if up then s.elapse dt else s
  let s := s.onSec (fun x => { x with tamper := true })
  .next (if up then (s.fault 93).raiseEv 253 else s)

/-- RECOVERY_LOAD (R475, R487): in recovery mode only. -/
def execRecoveryLoad (dt : Nat) (data : Word) (s : State) : Res :=
  if s.down then .next s else
  let s := s.elapse dt
  if !s.writeOpen 1 Reg.SEC_LOAD_ADDR_HI.off then .next s else
  let s := s.noteWrite 1 Reg.SEC_LOAD_ADDR_HI.off data.toNat
  if !s.sec.recovery || s.sec.loading then .next s
  else
    let s := s.setReg Reg.SEC_LOAD_ADDR_HI data.toNat
    let s := s.onSec (fun x => { x with loading := true })
    .next (s.emit (.hostRead (s.reg Reg.SEC_LOAD_ADDR_LO + 2 ^ 32 * data.toNat) 512 false))

/-- TRNG_HEALTH (R477): a test fails, or the tests no longer fail. -/
def execTrngHealth (dt : Nat) (failing : Bool) (s : State) : Res :=
  if s.down then .next s else
  let s := s.elapse dt
  let s := s.onSec (fun x => { x with trngFail := failing })
  .next (if failing then (s.fault 94).raiseEv 254 else s)

/-- DEBUG_SESSION_EXPIRE (R482). -/
def execDebugSessionExpire (dt : Nat) (s : State) : Res :=
  if s.down then .next s else
  let s := s.elapse dt
  if s.sec.scope ≠ 0 && s.sec.scopeEnd ≤ s.now then .next (s.onSec (fun x => { x with scope := 0, scopeEnd := 0 }))
  else .next s

/-- LC_TRANSITION_RESET (R470, R532). -/
def execLcTransitionReset (dt : Nat) (s : State) : Res :=
  if s.down then .next s else
  let s := s.elapse dt
  if s.sec.pendingLc.isSome && s.sys.lcReset.isSome then .next (s.deviceReset 3) else .next s

/-! ### Mark packages -/

/-- The descriptor and the package of a MARK_PKG of a kind (R478): the header's kind byte says which; a package of none of the
three kinds goes with CONTENT. -/
def State.markDesc (s : State) (ring slot kind : Nat) (list : List PageEnt) (data : List Byte) :
    Option (Desc × Nat × List Byte) :=
  match s.startable ring slot 0x50 with
  | none => none
  | some d =>
    match d.hostIn list data with
    | none => none
    | some (st, p) =>
      let k := leAt p 4 1
      if (if kind = 0 then k ≠ 1 && k ≠ 2 else k = kind) then some (d, st, p) else none

/-- A package is refused (R479): a wrong tag raises FS090 and EV250. -/
def State.markRefuse (d : Desc) (st : Nat) (s : State) : State :=
  let s := if st = 0x70 then (s.fault 90).raiseEv 250 else s
  s.complete d st 0

/-- MARK_PKG_CONTENT (R478 to R480). -/
def execMarkPkgContent (dt : Nat) (ring : Fin 64) (slot : Nat) (list : List PageEnt) (data : List Byte) (s : State) : Res :=
  if s.down then .next s else
  let s := s.elapse dt
  match s.markDesc ring.val slot 0 list data with
  | none => .next s
  | some (d, st, p) =>
    let s := s.readHost d list
    if st ≠ 0 then .next (s.complete d st 0)
    else match s.markOpen p with
    | .inl st => .next (s.markRefuse d st)
    | .inr plain =>
      match s.lypPlace p with
      | .inl st => .next (s.complete d st 0)
      | .inr n =>
        let l : LypSlot :=
          { slot := n, image := leAt p 8 4, count := leAt p 12 4, x0 := leAt p 16 4, y0 := leAt p 20 4, w := leAt p 24 2,
            h := leAt p 26 2, marginX := leAt p 28 1, marginY := leAt p 29 1, keep := leAt p 30 1, format := leAt p 6 1,
            spot := leAt p 31 1 % 8, data := plain, owned := s.lay.job.isSome, ended := [] }
        .next ((s.lypStore l).complete d 0 l.count)

/-- The tables of a CSP package in the order in which they stand in it, with the CRC-32C of each (R145, R479). -/
def cspOf (plain : List Byte) : CspSet :=
  let sep := plain.length - 64 - 32768 - 4096
  let parts := [plain.take 64, cut plain 64 32768, cut plain 32832 sep, plain.drop (32832 + sep)]
  ⟨parts.getD 0 [], parts.getD 1 [], parts.getD 2 [], parts.getD 3 [], parts.map crc32c⟩

/-- MARK_PKG_CSP (R117, R126, R479): the four tables, bound to the next commit; with no job open installed at once. -/
def execMarkPkgCsp (dt : Nat) (ring : Fin 64) (slot : Nat) (list : List PageEnt) (data : List Byte) (s : State) : Res :=
  if s.down then .next s else
  let s := s.elapse dt
  match s.markDesc ring.val slot 1 list data with
  | none => .next s
  | some (d, st, p) =>
    let s := s.readHost d list
    if st ≠ 0 then .next (s.complete d st 0)
    else match s.markOpen p with
    | .inl st => .next (s.markRefuse d st)
    | .inr plain =>
      let s := s.onInk (fun k =>
        if s.lay.job.isNone then { k with csp := some (cspOf plain) } else { k with cspWait := some (.next, cspOf plain) })
      .next (s.complete d 0 0)

/-- MARK_PKG_KEY (R479, R495): the mark key slot holds the key, and its record is written. -/
def execMarkPkgKey (dt : Nat) (ring : Fin 64) (slot : Nat) (list : List PageEnt) (data : List Byte) (s : State) : Res :=
  if s.down then .next s else
  let s := s.elapse dt
  match s.markDesc ring.val slot 2 list data with
  | none => .next s
  | some (d, st, p) =>
    let s := s.readHost d list
    if st ≠ 0 then .next (s.complete d st 0)
    else match s.markOpen p with
    | .inl st => .next (s.markRefuse d st)
    | .inr plain =>
      let n := leAt p 7 1
      let s := s.onSec (fun x => { x with markKeys := (n, plain) :: x.markKeys.filter (fun k => k.1 ≠ n) })
      let s := s.writeRecord 0x04 n (keyWrap (beBytes 32 Config.deviceKey) plain) none
      .next (s.complete d 0 0)

end Sys2Proof.Machine
end

