-- ==== Sys2Proof/Machine/Tally.lean ====
section
/-! DEFINITION. Commands of Tally: recording, export, snapshots, and the start and the waits of replay (R509 to R529). Its journal
region comes from Paddock, whose grants stand here too (R357, R511). -/

set_option Elab.async false

namespace Sys2Proof.Machine

/-! ### Recording (R511 to R515) -/

/-- The START payload (R512). -/
def State.startPayload (s : State) (fl : Nat) : List Byte :=
  leBytes 4 0x234000B0 ++ leBytes 4 s.sec.lc.code ++ leBytes 4 s.setupSig ++ leBytes 4 s.tableSig ++ leBytes 4 s.statusSig
    ++ leBytes 4 fl ++ s.hold.snapshot

/-- Recording begins in the region just granted (R511): the START entry, the completion, EV240. -/
def State.beginRecording (d : Desc) (r : Region) (s : State) : State :=
  let wrap := bitOf (d.byte 9) 0
  let full := bitOf (d.byte 9) 1
  let payload := s.startPayload (b2n full + 2 * b2n wrap)
  let s := s.onTally (fun t => { t with
    state := .recording, camFull := full, wrap := wrap, wrapped := false, gap := false, region := r.id
    pages := runsCount r.runs, chunks := [], nextChunk := 0, exported := 0, opened := [], lost := 0 })
  let s := s.tallyEntry 0x01 0 payload
  (s.raiseEv 240).complete d 0 0

/-- The TALLY_CTL START that waits for its journal region. -/
def State.startWaiting (s : State) : Option Desc :=
  s.hif.inflight.find? (fun d => d.opcode = 0x40 && d.byte 8 = 0 && d.started && !d.retired)

/-- A START whose region has been granted begins to record. -/
def State.tallySettle (s : State) : State :=
  match s.startWaiting, s.padOf .tally with
  | some d, some r => s.beginRecording d r
  | _, _ => s

/-- TALLY_START (R511). The region of the recording before is freed (R516). -/
def execTallyStart (dt : Nat) (ring : Fin 64) (slot : Nat) (s : State) : Res :=
  if s.down then .next s else
  let s := s.elapse dt
  match s.startOp ring.val slot 0x40 0 with
  | none => .next s
  | some d =>
    let s := s.wakeDomain 9
    if !s.isOn 9 then .next s
    else
      if s.lay.job.isSome || s.tally.state ≠ .idle || !s.tally.late.isEmpty || s.startWaiting.isSome then .next (s.complete d 0x68 0)
      else
        let s := (s.padFree .tally).onTally (fun t => { t with chunks := [], region := 0, pages := 0 })
        let s := ((s.start d).padAsk 5 (d.num 12 4) .tally).tallySettle
        .next (if (s.padOf .tally).isNone && s.stageWait = 0 then (s.withdraw d).complete d 0x14 0 else s)

/-- PADDOCK_GRANT (R354, R357, R511). -/
def execPaddockGrant (dt : Nat) (s : State) : Res :=
  if s.down then .next s else
  let s := s.elapse dt
  .next ((padJudge s.paddock.waiting [] s).padSettle).tallySettle

/-- TALLY_STOP (R513). -/
def execTallyStop (dt : Nat) (ring : Fin 64) (slot : Nat) (s : State) : Res :=
  if s.down then .next s else
  let s := s.elapse dt
  match s.startOp ring.val slot 0x40 1 with
  | none => .next s
  | some d =>
    let s := s.wakeDomain 9
    if !s.isOn 9 then .next s
    else
      if s.tally.state ≠ .recording then .next (s.complete d 0x68 0)
      else .next ((s.endRecording 0).complete d 0 0)

/-- CHUNK (R514, R529): chunk_ms since the first entry of the open chunk; 0 is taken as 1. -/
def execChunk (dt : Nat) (s : State) : Res :=
  if s.down then .next s else
  let s := s.elapse dt
  let ms := orIfZero (s.f Fld.TALLY_CHUNK_CFG_chunk_ms) 1
  if s.tally.state = .recording && !s.tally.opened.isEmpty && s.tally.openedAt + ms * 1000000 ≤ s.now then .next s.sealChunk
  else .next s

/-- LOST (R515): entries that found no room; EV243 once per loss. -/
def execLost (dt n : Nat) (s : State) : Res :=
  if s.down then .next s else
  let s := s.elapse dt
  if s.tally.state ≠ .recording || n = 0 then .next s
  else
    let first := s.tally.lost = 0
    let s := (s.onTally (fun t => { t with lost := t.lost + n })).bump ⟨Reg.TALLY_LOST, 31, 0⟩ n
    .next (if first then s.raiseEv 243 else s)

/-! ### Export (R516) -/

/-- Chunks copied in order while they fit and are sound: their bytes, the last number copied, and whether one was poisoned. -/
def exportChunks : Nat → List Chunk → List Byte × Option Nat × Bool
  | _, [] => ([], none, false)
  | room, c :: cs =>
    if room < c.bytes.length then ([], none, false)
    else if c.poisoned then ([], none, true)
    else
      let r := exportChunks (room - c.bytes.length) cs
      (c.bytes ++ r.1, some (r.2.1.getD c.num), r.2.2)

/-- TALLY_EXPORT (R516, R557). -/
def execTallyExport (dt : Nat) (ring : Fin 64) (slot : Nat) (list : List PageEnt) (s : State) : Res :=
  if s.down then .next s else
  let s := s.elapse dt
  match s.startOp ring.val slot 0x40 2 with
  | none => .next s
  | some d =>
    let s := s.wakeDomain 9
    if !s.isOn 9 then .next s
    else
      match d.hostOut list with
        | none => .next s
        | some ok =>
          let s := s.readList d
          let first := if d.num 16 4 = 0xFFFFFFFF then s.tally.exported else d.num 16 4
          let cs := s.tally.chunks.filter (fun c => first ≤ c.num)
          if !ok then .next (s.complete d 0x11 0)
          else if cs.isEmpty then .next (s.complete d 0x6B 0)
          else
            let r := exportChunks d.buf.length cs
            let s := s.writeHost d (list.map (fun e => e.addr)) r.1
            let s := match r.2.1 with
              | some n => s.onTally (fun t => { t with exported := n + 1 })
              | none => s
            .next (s.complete d (if r.2.2 then 0x6A else 0) r.1.length)

/-! ### Snapshots (R518) -/

/-- SNAP_HOLD (R518, R529): hold names the bank that software holds. -/
def execSnapHold (dt : Nat) (data : Word) (s : State) : Res :=
  if s.down then .next s else
  let s := s.elapse dt
  if !s.writeOpen 1 Reg.TALLY_SNAP_CTRL.off then .next s else
  let s := s.noteWrite 1 Reg.TALLY_SNAP_CTRL.off data.toNat
  if s.isOn 9 then .next (s.onTally (fun t => { t with held := bitOf data.toNat 0 })) else .next s

/-- A bank as it is dumped: its time, then offset and value of each register. -/
def Bank.bytes (b : Bank) : List Byte := leBytes 8 b.time ++ b.vals.flatMap (fun p => leBytes 4 p.1 ++ leBytes 4 p.2)

/-- TALLY_SNAP_DUMP (R518, R557): no more than the buffer holds; EV247. -/
def execTallySnapDump (dt : Nat) (ring : Fin 64) (slot : Nat) (list : List PageEnt) (s : State) : Res :=
  if s.down then .next s else
  let s := s.elapse dt
  match s.startOp ring.val slot 0x40 4 with
  | none => .next s
  | some d =>
    let s := s.wakeDomain 9
    if !s.isOn 9 then .next s
    else
      match d.hostOut list with
        | none => .next s
        | some ok =>
          let s := s.readList d
          if !ok then .next (s.complete d 0x11 0)
          else
            let bank := s.tally.banks.getD (d.byte 9 % 2) ⟨0, []⟩
            let s := s.writeHost d (list.map (fun e => e.addr)) (bank.bytes.take d.buf.length)
            .next ((s.complete d 0 0).raiseEv 247)

/-! ### Reading a record (R509, R514) -/

/-- The entries of raw bytes; none where they do not end with an entry. -/
def parseEntries : Nat → List Byte → Option (List Entry)
  | 0, _ => none
  | fuel + 1, bs =>
    if bs.isEmpty then some []
    else
      let n := 8 + 4 * leAt bs 2 2
      if bs.length < n then none
      else (parseEntries fuel (bs.drop n)).map
        (fun es => ⟨leAt bs 0 1, leAt bs 1 1, leAt bs 4 4, (bs.take n).drop 8⟩ :: es)

/-- A chunk of stored bytes: its wrap count, its entries, the bytes behind it; or the code of R376 with which its inflation fails, 0 where
its check word or its layout does. -/
def parseChunk (bs : List Byte) : Except Nat (Nat × List Entry × List Byte) :=
  let clen := leAt bs 8 4
  let comp := (bs.drop 32).take clen
  if bs.length < 32 + clen || leAt bs 0 4 ≠ 0x51544C59 || leAt bs 28 4 ≠ crc32c (bs.take 28 ++ comp) then .error 0
  else
    let r := inflate 0 [] (fun _ => none) comp
    let n := leAt bs 12 4
    if r.status = 2 then .error r.code
    else if r.status = 0 || r.out.length < n then .error 10
    else if !r.trailing.isEmpty then .error 9
    else if n < r.out.length then .error 11
    else match parseEntries (r.out.length + 1) r.out with
      | some es => .ok (leAt bs 16 4, es, bs.drop (32 + clen))
      | none => .error 0

/-- The sound chunks at the front of exported bytes, wrap count and entries of each, and the code of the chunk that ends them. -/
def parseChunks : Nat → List Byte → List (Nat × List Entry) × Nat
  | 0, _ => ([], 0)
  | fuel + 1, bs =>
    if bs.isEmpty then ([], 0)
    else match parseChunk bs with
      | .ok c =>
        let r := parseChunks fuel c.2.2
        ((c.1, c.2.1) :: r.1, r.2)
      | .error e => ([], e)

/-- The sound chunks at the front of the journal, and POISON where a poisoned one ends them (R376). -/
def soundChunks (cs : List Chunk) : List (Nat × List Entry) × Nat :=
  ((cs.takeWhile (fun c => !c.poisoned)).map (fun c => (c.wraps, c.entries)), if cs.any (fun c => c.poisoned) then 12 else 0)

/-- Context 15 meets an error (R376): code 0 is none. -/
def State.replayError (code : Nat) (s : State) : State := if code = 0 then s else s.dflError 15 code

/-! ### Replay (R519 to R524) -/

/-- REPLAY is permitted (R519). -/
def State.replayPermitted (s : State) : Bool :=
  match s.sec.lc with
  | .factory => true
  | .rma => true
  | .provisioned => s.sec.session.any (s.now < ·)
  | .field => s.sec.session.any (s.now < ·)
  | .blank => false
  | .scrap => false

/-- The outputs are held (R521): HOLD with reason 4 on every lane, no DOT packet, REJECT and ENC_OUT inactive, PRESS_STOP
asserted. -/
def State.holdOutputs (s : State) : State :=
  let s := (List.range 8).foldl (fun s b => s.sendHold b 4) s
  let s := s.onLink (fun l => { l with lanes := l.lanes.map (fun x => { x with fifo := [] }) })
  let s := if s.lay.rejectEnd.isSome then (s.onLay (fun l => { l with rejectEnd := none })).emit (.rejectEnd (!s.rejectHigh)) else s
  let s := s.onBell (fun b => { b with encEnd := none, encNext := none, encWait := 0 })
  let s := (List.range 6).foldl (fun s n => s.dropUpload n) s
  let s := s.onSee (fun x => { x with ports := x.ports.map (fun p => { p with inFrame := false, fifo := [], history := [] }) })
  s.onCrook (fun c => { c with pressStop := true })

/-- The signature of R512 that does not match the START payload: its code and the two values. -/
def State.setupClash (s : State) (p : List Byte) : Option (Nat × Nat × Nat) :=
  if leAt p 8 4 ≠ s.setupSig then some (0, leAt p 8 4, s.setupSig)
  else if leAt p 12 4 ≠ s.tableSig then some (1, leAt p 12 4, s.tableSig)
  else if leAt p 16 4 ≠ s.statusSig then some (2, leAt p 16 4, s.statusSig)
  else none

/-- Gains and paper densities of a START payload become those of the loop (R520): JOB_OPEN carries them over. -/
def State.loadStart (p : List Byte) (s : State) : State :=
  let h := p.drop 24
  s.onHold (fun x => { x.putCells (cellsOf h) with
    paper := (List.range 5184).map (fun k => (1728 * (k % 3) + k / 3, entry16 (h.drop 27648) k))
    start := 1 })

/-- Replay begins (R520, R521, R522): the clock at the time of START, the entries behind it to be presented. -/
def State.beginReplay (wraps : Nat) (e : Entry) (rest : List Entry) (stopOnDiv : Bool) (s : State) : State :=
  let s := s.holdOutputs.loadStart e.payload
  let named := (rest.filter (fun x => x.kind = 0x20 || x.kind = 0x21)).map (fun x => x.sub)
  let s := s.onTally (fun t => { t with
    state := .replay, camFull := bitOf (leAt e.payload 20 4) 0, play := rest, clock := wraps * 2 ^ 32 + e.time
    playAt := wraps * 2 ^ 32 + e.time, haltedAt := s.now
    haltSaid := false, expected := [], stopOnDiv := stopOnDiv, rings := named.eraseDups, div := ⟨0, 0, 0, 0, 0, 0, 0⟩
    diverged := false })
  s.raiseEv 244

/-- REPLAY with the sound chunks of its record, and the code of the one that ends them (R520): it begins only if the first holds START and the
signatures match. -/
def State.replayFrom (d : Desc) (r : List (Nat × List Entry) × Nat) (s : State) : State :=
  let cs := r.1
  let s := if cs.isEmpty then s.replayError r.2 else s.onTally (fun t => { t with playErr := r.2 })
  let first := (cs.head?.map (fun c => c.2)).getD []
  match (first.dropWhile (fun e => e.kind ≠ 0x01)) with
  | [] => (s.onTally (fun t => { t with div := ⟨7, 0, 0, 0, 0, 0, 0⟩ })).complete d 0x6A 0
  | e :: rest =>
    match s.setupClash e.payload with
    | some x => (s.onTally (fun t => { t with div := ⟨8, 0, x.1, 0, 0, x.2.1, x.2.2⟩ })).complete d 0x69 0
    | none =>
      let wraps := (cs.head?.map (fun c => c.1)).getD 0
      let s := s.complete d 0 0
      s.beginReplay wraps e (rest ++ (cs.drop 1).flatMap (fun c => c.2)) (bitOf (d.byte 9) 0)

/-- TALLY_REPLAY (R519, R520, R557): from the journal, or from exported chunks in the host buffer. -/
def execTallyReplay (dt : Nat) (ring : Fin 64) (slot : Nat) (list : List PageEnt) (data : List Byte) (s : State) : Res :=
  if s.down then .next s else
  let s := s.elapse dt
  match s.startOp ring.val slot 0x40 3 with
  | none => .next s
  | some d =>
    let s := s.wakeDomain 9
    if !s.isOn 9 then .next s
    else
      if !s.replayPermitted then .next (s.complete d 0x15 0)
      else if s.lay.job.isSome || s.anyBarLive || s.tally.state ≠ .idle then .next (s.complete d 0x68 0)
      else if bitOf (d.byte 9) 1 then
        match d.hostIn list data with
        | none => .next s
        | some (st, bytes) =>
          let s := s.readHost d list
          .next (if st ≠ 0 then s.complete d st 0 else s.replayFrom d (parseChunks (bytes.length + 1) bytes))
      else .next (s.replayFrom d (soundChunks s.tally.chunks))

/-- replay_wait in ns (R529): 0 is taken as 1 ms. -/
def State.replayWait (s : State) : Nat := orIfZero (s.f Fld.TALLY_REPLAY_WAIT_replay_wait) 1 * 1000000

/-- REPLAY_HALT (R528): EV246, once per halt. -/
def execReplayHalt (dt : Nat) (s : State) : Res :=
  if s.down then .next s else
  let s := s.elapse dt
  if s.replayBlocked && !s.tally.haltSaid && s.tally.haltedAt + s.replayWait / 2 ≤ s.now then
    .next ((s.onTally (fun t => { t with haltSaid := true })).raiseEv 246)
  else .next s

/-- REPLAY_WAIT_TIMEOUT (R523): the requester of a recorded decision has not asked: a DECISION divergence, and the decision is
passed over. -/
def execReplayWaitTimeout (dt : Nat) (s : State) : Res :=
  if s.down then .next s else
  let s := s.elapse dt
  match s.tally.expected.find? (fun e => e.kind = 0x60) with
  | some e =>
    if s.replayBlocked && s.tally.haltedAt + s.replayWait ≤ s.now then
      let s := s.onTally (fun t => { t with expected := t.expected.erase e, haltedAt := s.now, haltSaid := false })
      .next (s.diverge ⟨6, 0, e.sub, 0, 0, 0, 0⟩)
    else .next s
  | none => .next s

/-- REPLAY_STOP (R524). -/
def execReplayStop (dt : Nat) (s : State) : Res :=
  if s.down then .next s else
  let s := s.elapse dt
  if !s.writeOpen 1 Reg.TALLY_CTRL.off then .next s else
  let s := s.noteWrite 1 Reg.TALLY_CTRL.off (putBits (s.reg Reg.TALLY_CTRL) 31 31 1)
  if s.replaying && s.isOn 9 then .next s.replayEnd else .next s

/-- REPLAY_SESSION_EXPIRE (R519, R524): the session ends, and with it a replay that it permits. -/
def execReplaySessionExpire (dt : Nat) (s : State) : Res :=
  if s.down then .next s else
  let s := s.elapse dt
  if s.sec.session.any (· ≤ s.now) then
    let s := s.onSec (fun x => { x with session := none })
    .next (if s.replaying && (s.sec.lc = .provisioned || s.sec.lc = .field) then s.replayEnd else s)
  else .next s

end Sys2Proof.Machine
end

