-- ==== Sys2Proof/Machine/Wheel.lean ====
section
/-! DEFINITION. Web position, speed and line clock: the meanings of WHEEL_ENABLE, WHEEL_INPUT_CHANGE, WHEEL_TRANSITION_ACCEPT,
STILL_TIMEOUT, COAST_END, ENC_PULSE_END, TICK_PLL_UNLOCK, TICK_PLL_LOCK and LINE_CLOCK_BOUNDARY (R150 to R175). -/

set_option Elab.async false

namespace Sys2Proof.Machine

/-- WHEEL_ENABLE (R151, R152): a write of BELL_W_CFG with enable 1. The field is RWL: under the set-up lock the write is
discarded. -/
def execWheelEnable (dt : Nat) (wheel : Fin 2) (cfg : Word) (s : State) : Res :=
  if s.down then .next s else
  let s := s.elapse dt
  if !s.writeOpen 1 (Reg.BELL_W_CFG wheel.val).off then .next s else
  let s := s.noteWrite 1 (Reg.BELL_W_CFG wheel.val).off cfg.toNat
  let w := wheel.val
  .next (
    if s.sys.lock || !bitOf cfg.toNat 31 then s
    else
      let s := s.setReg (Reg.BELL_W_CFG w) (cfg.toNat &&& 0x803BFFFF)
      if s.f (Fld.BELL_W_CFG_pitches w) < 16 then s.setF (Fld.BELL_W_CFG_enable w) 0
      else
        s.onWheel w (fun x => { x with
          a := { x.a with lvl := x.a.raw != s.inverted w false, change := none },
          b := { x.b with lvl := x.b.raw != s.inverted w true, change := none }, bAt := none }))

/-- A change of an input's level (R151): it starts the filter; a return before the filter's time rejects the pulse and counts
it; a change that had stood for its time is taken first. -/
def State.inputChange (w : Nat) (inputB level : Bool) (s : State) : State :=
  let x := s.wheel w
  let i := if inputB then x.b else x.a
  if i.raw = level then s
  else
    let put := fun (c : Option Nat) (s : State) => s.onInput w inputB (fun i => { i with raw := level, change := c })
    if !s.fb (Fld.BELL_W_CFG_enable w) || s.replaying then put none s
    else match i.change with
      | none => put (some s.now) s
      | some t =>
        if s.now - t < s.filterNs w then put none (s.bump Fld.BELL_GLITCH_CNT_value 1)
        else put (some s.now) (s.takeTransition w inputB (i.raw != s.inverted w inputB) t)

/-- WHEEL_INPUT_CHANGE (R151). The pin follows its input even while nothing works. -/
def execWheelInputChange (dt : Nat) (wheel : Fin 2) (inputB : Bool) (level : Bool) (s : State) : Res :=
  .next ((if s.down then s else s.elapse dt).inputChange wheel.val inputB level)

/-- WHEEL_TRANSITION_ACCEPT (R150, R151). -/
def execWheelTransitionAccept (dt : Nat) (wheel : Fin 2) (inputB : Bool) (s : State) : Res :=
  if s.down then .next s else
  let s := s.elapse dt
  let w := wheel.val
  let i := if inputB then (s.wheel w).b else (s.wheel w).a
  .next (match i.change with
    | some t =>
      if s.fb (Fld.BELL_W_CFG_enable w) && !s.replaying && s.filterNs w ≤ s.now - t then
        s.takeTransition w inputB (i.raw != s.inverted w inputB) t
      else s
    | none => s)

/-- still_timeout in ns (R175). -/
def State.stillNs (s : State) : Nat := 1000000 * clampNat 1 1000 (s.f Fld.BELL_STILL_still_timeout)

/-- STILL_TIMEOUT (R156). -/
def execStillTimeout (dt : Nat) (wheel : Fin 2) (s : State) : Res :=
  if s.down then .next s else
  let s := s.elapse dt
  let w := wheel.val
  let x := s.wheel w
  .next (
    if (x.state = .first || x.state = .run || x.state = .reversing) && s.stillNs ≤ s.now - x.edgeAt then
      let s := s.onWheel w (fun x => { x with state := .still, speedValid := false, hist := [], fwdInterval := 0 })
      if s.bell.src = w then
        let s := s.onBell (fun b => { b with backRun := none })
        let s := s.segment s.bell.fire 0 none s.now
        (s.raiseEv 66).setSpeed 0
      else s
    else s)

/-- The COAST of a wheel ends (R160): FS019, EV070, and its check is disarmed; of the source, the counted position goes on from the
coasted value. -/
def State.endCoast (w : Nat) (s : State) : State :=
  let x := s.wheel w
  if x.state = .coast && s.coastUntil x ≤ s.now then
    let pos := s.coasted x
    let s := s.onWheel w (fun x => { x with state := .first, speedValid := false, armed := false, hist := [] })
    let isSrc := s.bell.src = w
    let s := if isSrc then
        let s := s.onBell (fun b => { b with offset := pos - s.source.pos })
        s.segment s.bell.fire 0 none s.now
      else s
    let s := (s.fault 19).raiseEv 70
    if isSrc then s.setSpeed 0 else s
  else s

/-- COAST_END (R160). -/
def execCoastEnd (dt : Nat) (s : State) : Res :=
  if s.down then .next s else
  .next (((s.elapse dt).endCoast 0).endCoast 1)

/-- ENC_PULSE_END (R168): the active pulse ends; a pulse that waits starts enc_width later, and at least 20 ns later
(R554). -/
def execEncPulseEnd (dt : Nat) (s : State) : Res :=
  if s.down then .next s else
  let s := s.elapse dt
  let ended := match s.bell.encEnd with
    | some t =>
      if t ≤ s.now then
        s.onBell (fun b => { b with
          encEnd := none, encLast := some t,
          encNext := (if b.encWait = 0 then none else some (t + max 20 s.encWidth)) })
      else s
    | none => s
  .next (match ended.bell.encNext with
    | some t =>
      if t ≤ ended.now then
        (ended.onBell (fun b => { b with
          encNext := none, encWait := b.encWait - 1, encEnd := some (t + ended.encWidth) })).emit (.encPulse (!ended.fb Fld.BELL_ENC_CFG_enc_pol) ended.encWidth)
      else ended
    | none => ended)

/-- TICK_PLL_UNLOCK (R174): FS022. -/
def execTickPllUnlock (dt : Nat) (s : State) : Res :=
  if s.down then .next s else
  let s := s.elapse dt
  .next (if s.bell.pllLock then (s.onBell (fun b => { b with pllLock := false })).fault 22 else s)

/-- TICK_PLL_LOCK (R175). -/
def execTickPllLock (dt : Nat) (s : State) : Res :=
  if s.down then .next s else
  .next ((s.elapse dt).onBell (fun b => { b with pllLock := true }))

/-- LINE_CLOCK_BOUNDARY (R168): the next line boundary of the fire position above the last one counted. -/
def execLineClockBoundary (dt : Nat) (s : State) : Res :=
  if s.down then .next s else
  let s := s.elapse dt
  let reached := s.bell.hwm / 2 ^ 48
  .next (
    if s.encSrc ≠ 2 then s.onBell (fun b => { b with encLine := reached })
    else if ahead 32 (reached * 2 ^ 48) (s.bell.encLine * 2 ^ 48) then (s.onBell (fun b => { b with encLine := b.encLine + 1 })).encCount
    else s)

end Sys2Proof.Machine
end

