-- ==== Sys2Proof/Machine/Write.lean ====
section
/-! DEFINITION. Register writes: what a write does to each field by its access code (R7, R10), and to the units whose registers act
when they are written. A field that has a command of its own acts as that command does. -/

set_option Elab.async false

namespace Sys2Proof.Machine

/-- A word without the bits of a mask. -/
def clearBits (v m : Nat) : Nat := v ^^^ (v &&& m)

/-- The value of a register after a write by the access codes of R7, but for W1C: RW is set, RWL is set while the set-up lock is
open, W1S is set by ones; the rest is kept. -/
def writtenWord (lock : Bool) (fs : List FieldSpec) (was data : Nat) : Nat :=
  let m := accMask (fun a => a = .rw || (a = .rwl && !lock)) fs
  let v := clearBits was m ||| (data &&& m)
  v ||| (data &&& accMask (fun a => a = .w1s) fs)

/-- A write by access codes alone, of the bits that are not in a mask; ones clear W1C bits as R8 says. -/
def State.putWord (x : RegSpec) (i data keep : Nat) (s : State) : State :=
  let r := x.regOf i
  let was := s.reg r
  let v := writtenWord s.sys.lock x.fields was data
  let s := s.setReg r (clearBits v keep ||| (was &&& keep))
  let m := clearBits (data &&& accMask (fun a => a = .w1c) x.fields) keep
  if m = 0 then s else s.wipe r m

/-- A command in no time, where it gives a next state. -/
def State.thenDo (c : State → Res) (s : State) : State :=
  match c s with
  | .next t => t
  | .fault _ => s
  | .refused _ => s

/-- HIF registers that act when they are written (R34, R35, R40, R65). -/
def State.writeHif (x : RegSpec) (i data : Nat) (s : State) : State :=
  let w : Word := BitVec.ofNat 32 data
  let ring := Fin.ofNat 64 i
  match x.id with
  | .HIF_DB_KICK => s.thenDo (execDbKick 0)
  | .HIF_RING_BASE_LO => if s.ringOn i then s else s.putWord x i data 0
  | .HIF_RING_BASE_HI => if s.ringOn i then s else s.putWord x i data 0
  | .HIF_RING_CFG => s.thenDo (if bitOf data 31 then execRingEnable 0 ring w else execRingDisable 0 ring w)
  | .MSIX_VCTRL => if bitOf data 0 then s.putWord x i data 0 else s.thenDo (execMsixUnmask 0 (Fin.ofNat 256 i))
  | _ => s.putWord x i data 0

/-- BELL registers (R151, R163, R167, R168): a change of src waits for the next edge of the new source; a new offset rebases the
ticks of its bar. -/
def State.writeBell (x : RegSpec) (i data : Nat) (s : State) : State :=
  match x.id with
  | .BELL_CTRL =>
    let was := s.f Fld.BELL_CTRL_src
    let s := s.putWord x i data 0
    let w := s.f Fld.BELL_CTRL_src
    if w = was then s else s.onBell (fun b => { b with srcWait := if w = b.src then none else some w })
  | .BELL_ENC_CFG => (s.putWord x i data 0).onBell (fun b => { b with encLine := b.hwm / 2 ^ 48 })
  | .BELL_FMAX => (s.putWord x i data 0).recomputeCeiling.rateChanged
  | .BELL_OFF_LO => (s.putWord x i data 0).rebaseTick i
  | .BELL_OFF_HI => (s.putWord x i data 0).rebaseTick i
  | .BELL_W_CFG =>
    if bitOf data 31 then s.thenDo (execWheelEnable 0 (Fin.ofNat 2 i) (BitVec.ofNat 32 data)) else s.putWord x i data 0
  | _ => s.putWord x i data 0

/-- JET_BAR_CTRL (R199, R200, R205, R206): swap_keep, start_b and ev_en are held; the other fields act. -/
def State.writeBarCtrl (x : RegSpec) (i data : Nat) (s : State) : State :=
  let b := Fin.ofNat 8 i
  let s := s.putWord x i data 0xEC000000
  let s := s.thenDo (execHvEnWrite 0 b (bitOf data 30))
  let s := if bitOf data 27 then s.thenDo (execFireRepair 0 b false) else s
  let s := if bitOf data 26 then s.thenDo (execFireRepair 0 b true) else s
  let s := if bitOf data 29 then s.thenDo (execDrillRequest 0 b) else s
  if bitOf data 31 then s.thenDo (execBarArm 0 b) else s.thenDo (execBarDisarm 0 b)

/-- LINK registers (R235, R241, R247). -/
def State.writeLink (x : RegSpec) (i data : Nat) (s : State) : State :=
  match x.id with
  | .LINK_CTRL =>
    let n := Fin.ofNat 32 i
    let was := s.setShows i
    let s := (s.putWord x i data 0x08000000).renewSet i was
    let s := if bitOf data 27 || s.fb (Fld.LINK_CTRL_oos i) then s.thenDo (execLaneOos 0 n (bitOf data 27)) else s
    if bitOf data 31 then s.thenDo (execLaneTrain 0 n) else s
  | .LINK_ROLE => (s.putWord x i data 0).rolesMoved i ([0, 1].filter (s.halfUp (i / 4)))
  | .LINK_BAR_CTRL =>
    let was := s.fb (Fld.LINK_BAR_CTRL_us_sleep_en i)
    let s := s.putWord x i data 0
    if was && !s.fb (Fld.LINK_BAR_CTRL_us_sleep_en i) then s.wakeUp i else s
  | _ => s.putWord x i data 0

/-- JET_NH_LIMITS: every half-bar is judged by the new pen_limit (R270). -/
def State.writeNhLimits (x : RegSpec) (i data : Nat) (s : State) : State :=
  (List.range 16).foldl (fun s k => s.penJudge (k / 2) (k % 2)) (s.putWord x i data 0)

/-- SEE_PORT_CFG (R280): the configuration is held while the port is enabled; enable 0 stops it, and estimates wait for the port no longer
(R317). -/
def State.writePortCfg (x : RegSpec) (i data : Nat) (s : State) : State :=
  if bitOf data 31 then s.thenDo (execPortEnable 0 (Fin.ofNat 6 i) (BitVec.ofNat 32 data))
  else if (s.camPort i).enabled then
    ((s.setF (Fld.SEE_PORT_CFG_enable i) 0).dropUpload i |>.onPort i (fun p => { p with enabled := false, inFrame := false, fifo := [] })).closeEsts
  else s.putWord x i data 0

/-- HOLD registers (R317, R320, R327): the paper registers give every paper value until a job is opened, and estimates wait for the contexts
of HOLD_CTX alone. -/
def State.writeHold (x : RegSpec) (i data : Nat) (s : State) : State :=
  let paper := fun (s : State) =>
    if s.hold.start = 0 && !s.hold.kept then
      s.onHold (fun h => { h with paper0 := [s.f Fld.HOLD_PAPER_RG_R, s.f Fld.HOLD_PAPER_RG_G, s.f Fld.HOLD_PAPER_B_B] })
    else s
  match x.id with
  | .HOLD_CTRL =>
    let s := s.putWord x i data 0
    if bitOf data 4 then s.thenDo (execHoldRestart 0) else s
  | .HOLD_PAPER_RG => paper (s.putWord x i data 0)
  | .HOLD_PAPER_B => paper (s.putWord x i data 0)
  | .HOLD_CTX => (s.putWord x i data 0).closeEsts
  | _ => s.putWord x i data 0

/-- MEMC and PAD registers (R349, R356, R358, R536): quota 8 belongs to C0, and its registers take no host write. -/
def State.writeMem (x : RegSpec) (i agent data : Nat) (s : State) : State :=
  let w : Word := BitVec.ofNat 32 data
  let quota := fun (s : State) => if i = 8 && agent ≠ 2 then s else s.putWord x i data 0
  match x.id with
  | .MEMC_GEOM => s.thenDo (execMemcGeomWrite 0 w)
  | .MEMC_SCRUB =>
    let off := s.f Fld.MEMC_SCRUB_scrub_h = 0
    let s := s.putWord x i data 0
    let s := if off && s.f Fld.MEMC_SCRUB_scrub_h ≠ 0 then
        s.onMemc (fun m => { m with scrubPage := 0, scrubSince := s.now, scrubLate := false })
      else s
    if s.f Fld.MEMC_SCRUB_scrub_h = 0 then s.droverDrop .scrub
    else if s.droverHas .scrub then s
    else s.scrubAsk
  | .PAD_RETIRE => s.thenDo (execPadRetire 0 w)
  | .PAD_Q_LIMIT => if i = 8 then (quota s).setF (Fld.PAD_Q_LIMIT_zero 8) 1 else quota s
  | .PAD_Q_RESERVE => quota s
  | _ => s.putWord x i data 0

/-- NET registers (R387 to R390, R392): the offset registers are C3's; arm 0 gives the target up. -/
def State.writeNet (x : RegSpec) (i agent data : Nat) (s : State) : State :=
  match x.id with
  | .NET_CTRL => if bitOf data 0 then s.thenDo (execServoRestart 0) else s
  | .NET_SERVO_OFF_LO => if agent = 5 then s.thenDo (execServoOffset 0 (BitVec.ofNat 32 data)) else s
  | .NET_SERVO_OFF_HI => if agent = 5 then s.onNet (fun n => { n with offHi := data }) else s
  | .NET_SNAP_CTRL =>
    let s :=
      if bitOf data 1 then s.thenDo (execSnapArm 0)
      else (s.onNet (fun n => { n with target := none })).setF Fld.NET_SNAP_CTRL_arm 0
    if bitOf data 0 then s.thenDo (execSnapNow 0) else s
  | .NET_PORT_CFG =>
    let s := s.putWord x i data 0
    if s.fb (Fld.NET_PORT_CFG_enable i) then s else s.setLink i false
  | _ => s.putWord x i data 0

/-- THERM and DROVER registers (R405, R411 to R413, R464): pmb_en is set by its own command, which reads the regulator. -/
def State.writeTherm (x : RegSpec) (i agent data : Nat) (s : State) : State :=
  let w : Word := BitVec.ofNat 32 data
  match x.id with
  | .THERM_CTRL =>
    let s := s.putWord x i data 0
    let s := if s.fb Fld.THERM_CTRL_throttle_en then s else s.throttleOff
    if bitOf data 3 then s.thenDo (execShutRelease 0) else s
  | .THERM_REF_HOST => (s.putWord x i data 0).onTherm (fun t => { t with hostRef := true })
  | .THERM_PMBUS_CFG =>
    let s := s.putWord x i data 0
    if s.fb Fld.THERM_PMBUS_CFG_pmb_en then s else s.onTherm (fun t => { t with pmbOn := false })
  | .DROVER_FW_REQ =>
    if 3 ≤ agent && agent ≤ 5 then
      let core := Fin.ofNat 4 (agent - 2)
      let s := if bitOf data 30 then s.thenDo (execFwDroverWithdraw 0 core w) else s
      if bitOf data 31 then s.thenDo (execFwDroverRequest 0 core w) else s
    else s
  | _ => s.putWord x i data 0

/-- FOLD and CROOK registers (R427, R430, R432, R434, R439, R444, R445): FS072 stays enabled, and the severities of FS072 and FS043
stay as they are. -/
def State.writeFold (x : RegSpec) (i data : Nat) (s : State) : State :=
  let w : Word := BitVec.ofNat 32 data
  let word := Fin.ofNat 4 i
  match x.id with
  | .FOLD_STICKY => s.thenDo (execStickyClear 0 word false w)
  | .FOLD_LASTING => s.thenDo (execStickyClear 0 word true w)
  | .FOLD_FORCE => s.thenDo (execFoldForce 0 word w)
  | .FOLD_INJECT => s.thenDo (execFaultInject 0 w)
  | .FOLD_OPEN => s.thenDo (execClassAcknowledge 0 w)
  | .FOLD_ENABLE => s.putWord x i data (if i = 2 then 0x100 else 0)
  | .FOLD_SEV => s.putWord x i data (if i = 9 then 0x7 else if i = 5 then 0xE00 else 0)
  | .CROOK_CTRL => (s.thenDo (execCrookEnter 0 w)).thenDo (execCrookRelease 0 w)
  | _ => s.putWord x i data 0

/-- MBX registers, banked by agent (R452 to R455, R463). -/
def State.writeMbx (x : RegSpec) (i agent data : Nat) (s : State) : State :=
  let w : Word := BitVec.ofNat 32 data
  let a := Fin.ofNat 7 agent
  let box := Fin.ofNat 16 i
  match x.id with
  | .MBX_STAGE_PTR_LO => s.onStage agent (fun g => { g with ptrLo := data })
  | .MBX_STAGE_PTR_HI => s.onStage agent (fun g => { g with ptrHi := data })
  | .MBX_STAGE_TAG => s.onStage agent (fun g => { g with tag := data })
  | .MBX_POST => s.thenDo (execMbxPost 0 a w)
  | .MBX_ACK => s.thenDo (execMbxAck 0 a box w)
  | .MBX_CLEAR => s.thenDo (execMbxClear 0 a box w)
  | .MBX_STILE => s.thenDo (execStileRelease 0 (Fin.ofNat 8 i) w)
  | .MBX_CORE_CTRL => s.thenDo (execCoreResetWrite 0 w)
  | _ => s.putWord x i data 0

/-- SYS registers (R396, R400, R533, R538). -/
def State.writeSys (x : RegSpec) (i data : Nat) (s : State) : State :=
  let w : Word := BitVec.ofNat 32 data
  match x.id with
  | .SYS_PD_CTRL => s.thenDo (execDomainRequest 0 (Fin.ofNat 10 i) w)
  | .SYS_SHELF => s.thenDo (execShelfEnter 0 w)
  | .SYS_RST => s.thenDo (execSysReset 0 w)
  | .SYS_LOCK => if bitOf data 0 then s.thenDo (execSetupLock 0) else s
  | _ => s.putWord x i data 0

/-- CAL, SEC and TALLY registers (R473, R475, R497, R518, R524). -/
def State.writeTop (x : RegSpec) (i data : Nat) (s : State) : State :=
  let w : Word := BitVec.ofNat 32 data
  match x.id with
  | .CAL_CTRL =>
    let s := (List.range 6).foldl (fun s p => s.calByTemp p) (s.putWord x i (clearBits data 0x40000000) 0)
    if bitOf data 30 then s.thenDo (execSpliceSet 0) else s
  | .CAL_DT => (List.range 6).foldl (fun s p => s.calByTemp p) (s.putWord x i data 0)
  | .SEC_TOKEN_CTRL => s.thenDo (execTokenSubmit 0 w)
  | .SEC_LOAD_ADDR_HI => (s.putWord x i data 0).thenDo (execRecoveryLoad 0 w)
  | .TALLY_CTRL =>
    let s := s.putWord x i data 0
    if bitOf data 31 then s.thenDo (execReplayStop 0) else s
  | .TALLY_SNAP_CTRL => s.thenDo (execSnapHold 0 w)
  | _ => s.putWord x i data 0

/-- The effect of a write of a word to a register. -/
def State.writeAt (x : RegSpec) (i agent data off : Nat) (s : State) : State :=
  if off < 0x100000 then s.writeSys x i data
  else if off < 0x200000 then s.writeHif x i data
  else if off < 0x300000 then s.writeMbx x i agent data
  else if off < 0x400000 then s.writeFold x i data
  else if off < 0x500000 then s.writeTherm x i agent data
  else if off < 0x700000 then s.writeMem x i agent data
  else if 0xA00000 ≤ off && off < 0xB00000 then s.writeHold x i data
  else if 0xB00000 ≤ off && off < 0xC00000 then s.writeBell x i data
  else if 0xD00000 ≤ off && off < 0xE00000 then s.writeLink x i data
  else if 0xF00000 ≤ off && off < 0x1000000 then s.writeNet x i agent data
  else if 0x1000000 ≤ off then s.writeTop x i data
  else if x.id = .JET_BAR_CTRL then s.writeBarCtrl x i data
  else if x.id = .SEE_PORT_CFG then s.writePortCfg x i data
  else if x.id = .JET_NH_LIMITS then s.writeNhLimits x i data
  else s.putWord x i data 0

/-- A write that has been taken: the commands that it stands for ask no more whether it is, and do not record it again. -/
def State.writeReg (agent off data : Nat) (s : State) : State :=
  match regAt off with
  | some p =>
    ((s.onTally (fun t => { t with applying := true })).writeAt p.1 p.2 agent data off).onTally
      (fun t => { t with applying := false })
  | none => s

/-- REGISTER_WRITE (R4, R5, R7): a write without all byte enables is discarded, and so is one to an address without a register.
Agent 0 is no one, and agent 6 writes only what replay applies (R521). -/
def execRegisterWrite (dt : Nat) (agent : Fin 7) (off : Nat) (be : BitVec 4) (data : Word) (s : State) : Res :=
  if s.down then .next s else
  let s := s.elapse dt
  let a := agent.val
  if be.toNat ≠ 15 || a = 0 || a = 6 || !s.writeOpen a off || (regAt off).isNone then .next s
  else .next ((s.noteWrite a off data.toNat).writeReg a off data.toNat)

end Sys2Proof.Machine
end

