-- ==== Sys2Proof/Machine/Replay.lean ====
section
/-! DEFINITION. The presentation of recorded entries in replay (R521 to R524). -/

set_option Elab.async false

namespace Sys2Proof.Machine

/-- Replay ends, if it is still in progress. -/
def State.replayOver (s : State) : State := if s.replaying then s.replayEnd else s

/-- The record is at its end, or broken: a divergence of cause RECORD, and replay ends (R524). -/
def State.replayBroken (s : State) : State := (s.diverge ⟨7, 0, 0, 0, 0, 0, 0⟩).replayOver

/-- An entry is held until replay produces or asks for what it records (R522, R523); one that the clock waits for halts it. -/
def State.expect (e : Entry) (s : State) : State :=
  s.onTally (fun t => { t with
    expected := t.expected ++ [e], haltedAt := if e.waits then s.now else t.haltedAt
    haltSaid := if e.waits then false else t.haltSaid })

/-- An EDGE at the output of the input filter, at its own time (R522). -/
def State.replayEdge (e : Entry) (s : State) : State :=
  let ts := s.now - diff32 (s.tally.clock % 2 ^ 32) e.time
  s.takeTransition (e.sub % 2) (bitOf e.sub 1) (bitOf e.sub 2) ts

/-- A FRAME in place of the pipeline's record: its sequence number and generation (R522). -/
def State.replayFrame (port : Nat) (p : List Byte) (s : State) : State :=
  (s.onPort port (fun x => { x with fseq := leAt p 0 4, gen := leAt p 4 4 })).raiseEv 128

/-- The streaks of a statistics record (R294): ink, frames seen, first and last position. -/
def recStreaks (p : List Byte) : List (Nat × Nat × Nat × Nat) :=
  (List.range (min 32 (leAt p 28 2))).map (fun k =>
    let o := 252224 + 8 * k
    (leAt p o 1, leAt p (o + 1) 1, leAt p (o + 2) 3, leAt p (o + 5) 3))

/-- A STATS in place of the pipeline's record (R522): it goes into the statistics ring and does what a record does (R295 to R297). -/
def State.replayStats (port : Nat) (p : List Byte) (s : State) : State :=
  let x := if 8 ≤ (s.camPort port).stats.length then s.free else (0, s)
  let s := x.2
  let kept := (s.camPort port).stats.drop (x.1 % ((s.camPort port).stats.length + 1))
  let room := kept.length < 8 && (s.padOf (.stats port)).isSome
  let s := s.onPort port (fun q => { q with
    fseq := leAt p 4 4, gen := leAt p 2 2, stats := if room then kept ++ [p] else kept })
  if room then s.presentRec (0 < leAt p 26 2) (recStreaks p)
  else (s.bumpSat (Fld.SEE_VP_STAT_lost (pipeOf port)) 1).fault 61

/-- Faults that replay takes from the record (R522): those of FC00, FC03, FC04, FC07, FC09, FC10, FC14 and FC15, FS008 and FS009. -/
def replayedSource (src : Nat) : Bool := [0, 3, 4, 7, 9, 10, 14, 15].contains (src / 8) || src = 8 || src = 9

/-- One entry is presented (R522). A self-test asks for no tokens in replay, so what the Drover granted one is passed over (DESIGN CHOICE 82). -/
def State.present (e : Entry) (s : State) : State :=
  let p := e.payload
  match e.kind with
  | 0x7F => s.replayOver
  | 0x7E => s.replayBroken
  | 0x10 => s.replayEdge e
  | 0x20 => s.takeDoorbell e.sub (leAt p 0 4)
  | 0x22 => s.writeReg 6 (leAt p 0 4) (leAt p 4 4)
  | 0x30 => if s.tally.camFull then s else s.replayFrame e.sub p
  | 0x31 => if s.tally.camFull then s.replayStats e.sub p else s
  | 0x50 => if replayedSource e.sub && !(p.all (· = 0)) then s.replayFault e.sub (leAt p 1 1) else s
  | 0x52 =>
    if s.lay.job.isSome && diff32 s.nextBandLine (leAt p 4 4) ≥ 2 ^ 31 then s.expect e else s.applyNozzle e
  | 0x11 => s.expect e
  | 0x21 => s.expect e
  | 0x60 => if e.sub = 1 && leAt p 0 4 = 1 then s else s.expect e
  | 0x61 => s.expect e
  | 0x70 => s.expect e
  | 0x71 => s.expect e
  | _ => s

/-- Extended time of the next entry: entries follow one another within a wrap (R509), and one that stands ahead of its place by the
time of an input filter is a little earlier. -/
def State.entryAt (e : Entry) (s : State) : Nat :=
  let d := diff32 e.time (s.tally.playAt % 2 ^ 32)
  if 2 ^ 32 - 2 ^ 24 ≤ d then s.tally.playAt + d - 2 ^ 32 else s.tally.playAt + d

/-- REPLAY_ENTRY (R522, R524): the replay clock has reached the time of the next entry. -/
def execReplayEntry (dt : Nat) (s : State) : Res :=
  if s.down then .next s else
  let s := s.elapse dt
  if !s.replaying || s.replayBlocked then .next s
  else match s.tally.play with
    | [] => .next (s.replayError s.tally.playErr).replayBroken
    | e :: es =>
      let at_ := s.entryAt e
      if s.tally.clock < at_ then .next s
      else .next ((s.onTally (fun t => { t with play := es, playAt := max t.playAt at_ })).present e)

end Sys2Proof.Machine
end

