-- ==== Sys2Proof/Machine/Dispatch.lean ====
section
/-! DEFINITION. One arm per command of the table. -/

namespace Sys2Proof.Machine

/-- The effect of a command on everything but the queue. -/
def exec (i : Instr) (s : State) : Host.Outcome State Fault Refusal :=
  match i with
  | .registerWrite dt agent off be data => Sys2Proof.Machine.execRegisterWrite dt agent off be data s
  | .rcFieldRead dt agent off => Sys2Proof.Machine.execRcFieldRead dt agent off s
  | .wideQuantityRead dt agent off => Sys2Proof.Machine.execWideQuantityRead dt agent off s
  | .configRequest dt => Sys2Proof.Machine.execConfigRequest dt s
  | .functionLevelReset dt => Sys2Proof.Machine.execFunctionLevelReset dt s
  | .pcieReset dt => Sys2Proof.Machine.execPcieReset dt s
  | .hifReady dt => Sys2Proof.Machine.execHifReady dt s
  | .pcieLinkTrained dt rate width => Sys2Proof.Machine.execPcieLinkTrained dt rate width s
  | .pcieLinkDown dt => Sys2Proof.Machine.execPcieLinkDown dt s
  | .ringEnable dt ring cfg => Sys2Proof.Machine.execRingEnable dt ring cfg s
  | .ringDisable dt ring cfg => Sys2Proof.Machine.execRingDisable dt ring cfg s
  | .doorbellPoll dt => Sys2Proof.Machine.execDoorbellPoll dt s
  | .doorbellReadDone dt bells => Sys2Proof.Machine.execDoorbellReadDone dt bells s
  | .doorbellReadFail dt => Sys2Proof.Machine.execDoorbellReadFail dt s
  | .dbBackoff dt => Sys2Proof.Machine.execDbBackoff dt s
  | .dbKick dt => Sys2Proof.Machine.execDbKick dt s
  | .descriptorFetch dt => Sys2Proof.Machine.execDescriptorFetch dt s
  | .descriptorArrive dt ring bytes => Sys2Proof.Machine.execDescriptorArrive dt ring bytes s
  | .descriptorReadFail dt ring n => Sys2Proof.Machine.execDescriptorReadFail dt ring n s
  | .hostReadFail dt ring slot pages => Sys2Proof.Machine.execHostReadFail dt ring slot pages s
  | .completionWrite dt => Sys2Proof.Machine.execCompletionWrite dt s
  | .completionDrain dt ring => Sys2Proof.Machine.execCompletionDrain dt ring s
  | .completionModTimeout dt ring => Sys2Proof.Machine.execCompletionModTimeout dt ring s
  | .msixUnmask dt vector => Sys2Proof.Machine.execMsixUnmask dt vector s
  | .jobOpen dt ring slot => Sys2Proof.Machine.execJobOpen dt ring slot s
  | .jobClose dt ring slot => Sys2Proof.Machine.execJobClose dt ring slot s
  | .layerSet dt ring slot list => Sys2Proof.Machine.execLayerSet dt ring slot list s
  | .layerFree dt ring slot => Sys2Proof.Machine.execLayerFree dt ring slot s
  | .imageCommit dt ring slot => Sys2Proof.Machine.execImageCommit dt ring slot s
  | .tableLoad dt ring slot => Sys2Proof.Machine.execTableLoad dt ring slot s
  | .tableHeld dt ring slot list data => Sys2Proof.Machine.execTableHeld dt ring slot list data s
  | .nozzleMapRemap dt ring slot list data => Sys2Proof.Machine.execNozzleMapRemap dt ring slot list data s
  | .nozzleMapStatusLoad dt ring slot list data => Sys2Proof.Machine.execNozzleMapStatusLoad dt ring slot list data s
  | .nozzleMapStatusRead dt ring slot list => Sys2Proof.Machine.execNozzleMapStatusRead dt ring slot list s
  | .nozzleMapSet dt ring slot => Sys2Proof.Machine.execNozzleMapSet dt ring slot s
  | .nozzleMapRetest dt ring slot => Sys2Proof.Machine.execNozzleMapRetest dt ring slot s
  | .barCfgTrain dt ring slot => Sys2Proof.Machine.execBarCfgTrain dt ring slot s
  | .barCfgWrite dt ring slot => Sys2Proof.Machine.execBarCfgWrite dt ring slot s
  | .barCfgRead dt ring slot => Sys2Proof.Machine.execBarCfgRead dt ring slot s
  | .barCfgSleep dt ring slot => Sys2Proof.Machine.execBarCfgSleep dt ring slot s
  | .barCfgWake dt ring slot => Sys2Proof.Machine.execBarCfgWake dt ring slot s
  | .calRunTile dt ring slot => Sys2Proof.Machine.execCalRunTile dt ring slot s
  | .calRunStrip dt ring slot => Sys2Proof.Machine.execCalRunStrip dt ring slot s
  | .calRunRead dt ring slot read => Sys2Proof.Machine.execCalRunRead dt ring slot read s
  | .calRunWrite dt ring slot list data => Sys2Proof.Machine.execCalRunWrite dt ring slot list data s
  | .camCfgContext dt ring slot list data => Sys2Proof.Machine.execCamCfgContext dt ring slot list data s
  | .camCfgDefect dt ring slot list data => Sys2Proof.Machine.execCamCfgDefect dt ring slot list data s
  | .camCfgShading dt ring slot list data => Sys2Proof.Machine.execCamCfgShading dt ring slot list data s
  | .camCfgUpload dt ring slot list => Sys2Proof.Machine.execCamCfgUpload dt ring slot list s
  | .exposeSet dt ring slot => Sys2Proof.Machine.execExposeSet dt ring slot s
  | .i2cWriteDone dt bus outcome => Sys2Proof.Machine.execI2cWriteDone dt bus outcome s
  | .tallyStart dt ring slot => Sys2Proof.Machine.execTallyStart dt ring slot s
  | .tallyStop dt ring slot => Sys2Proof.Machine.execTallyStop dt ring slot s
  | .tallyExport dt ring slot list => Sys2Proof.Machine.execTallyExport dt ring slot list s
  | .tallyReplay dt ring slot list data => Sys2Proof.Machine.execTallyReplay dt ring slot list data s
  | .tallySnapDump dt ring slot list => Sys2Proof.Machine.execTallySnapDump dt ring slot list s
  | .markPkgContent dt ring slot list data => Sys2Proof.Machine.execMarkPkgContent dt ring slot list data s
  | .markPkgCsp dt ring slot list data => Sys2Proof.Machine.execMarkPkgCsp dt ring slot list data s
  | .markPkgKey dt ring slot list data => Sys2Proof.Machine.execMarkPkgKey dt ring slot list data s
  | .fence dt ring slot => Sys2Proof.Machine.execFence dt ring slot s
  | .fenceRelease dt ring slot => Sys2Proof.Machine.execFenceRelease dt ring slot s
  | .abort dt ring slot => Sys2Proof.Machine.execAbort dt ring slot s
  | .stagingComplete dt ring slot data => Sys2Proof.Machine.execStagingComplete dt ring slot data s
  | .stageWaitTimeout dt ring slot => Sys2Proof.Machine.execStageWaitTimeout dt ring slot s
  | .streamedPageArrive dt ring slot page data => Sys2Proof.Machine.execStreamedPageArrive dt ring slot page data s
  | .compositionBandStart dt => Sys2Proof.Machine.execCompositionBandStart dt s
  | .bandComplete dt => Sys2Proof.Machine.execBandComplete dt s
  | .compositionResume dt => Sys2Proof.Machine.execCompositionResume dt s
  | .rejectDue dt => Sys2Proof.Machine.execRejectDue dt s
  | .rejectEnd dt => Sys2Proof.Machine.execRejectEnd dt s
  | .paceSample dt busy => Sys2Proof.Machine.execPaceSample dt busy s
  | .ceilingRecompute dt => Sys2Proof.Machine.execCeilingRecompute dt s
  | .tableVerify dt bad => Sys2Proof.Machine.execTableVerify dt bad s
  | .wheelEnable dt wheel cfg => Sys2Proof.Machine.execWheelEnable dt wheel cfg s
  | .wheelInputChange dt wheel inputB level => Sys2Proof.Machine.execWheelInputChange dt wheel inputB level s
  | .wheelTransitionAccept dt wheel inputB => Sys2Proof.Machine.execWheelTransitionAccept dt wheel inputB s
  | .stillTimeout dt wheel => Sys2Proof.Machine.execStillTimeout dt wheel s
  | .coastEnd dt => Sys2Proof.Machine.execCoastEnd dt s
  | .fireTick dt bar found => Sys2Proof.Machine.execFireTick dt bar found s
  | .burstTick dt tick => Sys2Proof.Machine.execBurstTick dt tick s
  | .firePulseEnd dt bar => Sys2Proof.Machine.execFirePulseEnd dt bar s
  | .encPulseEnd dt => Sys2Proof.Machine.execEncPulseEnd dt s
  | .tickPllUnlock dt => Sys2Proof.Machine.execTickPllUnlock dt s
  | .dotSendStart dt bar => Sys2Proof.Machine.execDotSendStart dt bar s
  | .barArm dt bar => Sys2Proof.Machine.execBarArm dt bar s
  | .barDisarm dt bar => Sys2Proof.Machine.execBarDisarm dt bar s
  | .hvEnWrite dt bar level => Sys2Proof.Machine.execHvEnWrite dt bar level s
  | .drillRequest dt bar => Sys2Proof.Machine.execDrillRequest dt bar s
  | .drillStart dt bar => Sys2Proof.Machine.execDrillStart dt bar s
  | .fireRepair dt bar lineB => Sys2Proof.Machine.execFireRepair dt bar lineB s
  | .firePadFault dt line => Sys2Proof.Machine.execFirePadFault dt line s
  | .echoTimeout dt bar => Sys2Proof.Machine.execEchoTimeout dt bar s
  | .echoReceive dt lane pkt => Sys2Proof.Machine.execEchoReceive dt lane pkt s
  | .fireSelfTest dt bar => Sys2Proof.Machine.execFireSelfTest dt bar s
  | .laneTrain dt lane => Sys2Proof.Machine.execLaneTrain dt lane s
  | .laneOos dt lane out => Sys2Proof.Machine.execLaneOos dt lane out s
  | .laneQuietDone dt lane => Sys2Proof.Machine.execLaneQuietDone dt lane s
  | .laneEqAdapted dt lane eq => Sys2Proof.Machine.execLaneEqAdapted dt lane eq s
  | .laneEqTimeout dt lane => Sys2Proof.Machine.execLaneEqTimeout dt lane s
  | .laneLockTimeout dt lane => Sys2Proof.Machine.execLaneLockTimeout dt lane s
  | .trainingSetReceive dt lane bytes => Sys2Proof.Machine.execTrainingSetReceive dt lane bytes s
  | .markerReceive dt lane word => Sys2Proof.Machine.execMarkerReceive dt lane word s
  | .markerMissing dt lane => Sys2Proof.Machine.execMarkerMissing dt lane s
  | .codewordReceive dt lane symbols => Sys2Proof.Machine.execCodewordReceive dt lane symbols s
  | .laneSignalLoss dt lane => Sys2Proof.Machine.execLaneSignalLoss dt lane s
  | .fecWarn dt lane => Sys2Proof.Machine.execFecWarn dt lane s
  | .cfgAckReceive dt lane pkt => Sys2Proof.Machine.execCfgAckReceive dt lane pkt s
  | .statDataReceive dt lane pkt => Sys2Proof.Machine.execStatDataReceive dt lane pkt s
  | .cfgAckTimeout dt bar ctag => Sys2Proof.Machine.execCfgAckTimeout dt bar ctag s
  | .hubSleepReceive dt lane pkt => Sys2Proof.Machine.execHubSleepReceive dt lane pkt s
  | .hubWakeReceive dt lane pkt => Sys2Proof.Machine.execHubWakeReceive dt lane pkt s
  | .dsSleepEnter dt bar => Sys2Proof.Machine.execDsSleepEnter dt bar s
  | .usSleepEnter dt bar => Sys2Proof.Machine.execUsSleepEnter dt bar s
  | .wakeComplete dt bar upstream => Sys2Proof.Machine.execWakeComplete dt bar upstream s
  | .wakeLate dt bar upstream lane => Sys2Proof.Machine.execWakeLate dt bar upstream lane s
  | .gateReport dt lane pkts => Sys2Proof.Machine.execGateReport dt lane pkts s
  | .impReport dt lane pkts => Sys2Proof.Machine.execImpReport dt lane pkts s
  | .impRequest dt bar => Sys2Proof.Machine.execImpRequest dt bar s
  | .nhSnapshotWrite dt => Sys2Proof.Machine.execNhSnapshotWrite dt s
  | .ddStale dt bar => Sys2Proof.Machine.execDdStale dt bar s
  | .portEnable dt port cfg => Sys2Proof.Machine.execPortEnable dt port cfg s
  | .csiFrameStart dt port => Sys2Proof.Machine.execCsiFrameStart dt port s
  | .csiLine dt port data => Sys2Proof.Machine.execCsiLine dt port data s
  | .csiFrameEnd dt port => Sys2Proof.Machine.execCsiFrameEnd dt port s
  | .portSilent dt port => Sys2Proof.Machine.execPortSilent dt port s
  | .vpLine dt pipe => Sys2Proof.Machine.execVpLine dt pipe s
  | .sensorTempRead dt port value ok => Sys2Proof.Machine.execSensorTempRead dt port value ok s
  | .holdFillDone dt => Sys2Proof.Machine.execHoldFillDone dt s
  | .grazeStart dt => Sys2Proof.Machine.execGrazeStart dt s
  | .grazeComplete dt => Sys2Proof.Machine.execGrazeComplete dt s
  | .holdSnapshot dt => Sys2Proof.Machine.execHoldSnapshot dt s
  | .holdRestart dt => Sys2Proof.Machine.execHoldRestart dt s
  | .refDue dt channel => Sys2Proof.Machine.execRefDue dt channel s
  | .mprTempRead dt channel range ok => Sys2Proof.Machine.execMprTempRead dt channel range ok s
  | .zqCal dt channel => Sys2Proof.Machine.execZqCal dt channel s
  | .caParityAlert dt alert => Sys2Proof.Machine.execCaParityAlert dt alert s
  | .dramReadReturn dt channel addr errors => Sys2Proof.Machine.execDramReadReturn dt channel addr errors s
  | .dramWordTest dt addr lasting => Sys2Proof.Machine.execDramWordTest dt addr lasting s
  | .scrubPage dt errors uncorrectable => Sys2Proof.Machine.execScrubPage dt errors uncorrectable s
  | .selfRefreshEntry dt => Sys2Proof.Machine.execSelfRefreshEntry dt s
  | .selfRefreshExit dt => Sys2Proof.Machine.execSelfRefreshExit dt s
  | .trained dt ok => Sys2Proof.Machine.execTrained dt ok s
  | .wipeDone dt => Sys2Proof.Machine.execWipeDone dt s
  | .memcGeomWrite dt data => Sys2Proof.Machine.execMemcGeomWrite dt data s
  | .paddockGrant dt => Sys2Proof.Machine.execPaddockGrant dt s
  | .paddockFree dt region => Sys2Proof.Machine.execPaddockFree dt region s
  | .pageZeroDone dt page => Sys2Proof.Machine.execPageZeroDone dt page s
  | .padRetire dt data => Sys2Proof.Machine.execPadRetire dt data s
  | .dflContextOpen dt ctx wrap level deflate expect => Sys2Proof.Machine.execDflContextOpen dt ctx wrap level deflate expect s
  | .dflInputArrive dt ctx data flush => Sys2Proof.Machine.execDflInputArrive dt ctx data flush s
  | .dflOutputBuffer dt ctx room => Sys2Proof.Machine.execDflOutputBuffer dt ctx room s
  | .saveArea dt => Sys2Proof.Machine.execSaveArea dt s
  | .netFrameReceive dt port frame => Sys2Proof.Machine.execNetFrameReceive dt port frame s
  | .netLink dt port up => Sys2Proof.Machine.execNetLink dt port up s
  | .servoOffset dt lo => Sys2Proof.Machine.execServoOffset dt lo s
  | .servoHoldover dt => Sys2Proof.Machine.execServoHoldover dt s
  | .servoRestart dt => Sys2Proof.Machine.execServoRestart dt s
  | .timeWrap dt => Sys2Proof.Machine.execTimeWrap dt s
  | .snapNow dt => Sys2Proof.Machine.execSnapNow dt s
  | .snapArm dt => Sys2Proof.Machine.execSnapArm dt s
  | .snapScheduled dt => Sys2Proof.Machine.execSnapScheduled dt s
  | .ceilMsgPeriodic dt => Sys2Proof.Machine.execCeilMsgPeriodic dt s
  | .ceilMsgCause dt => Sys2Proof.Machine.execCeilMsgCause dt s
  | .domainRequest dt domain data => Sys2Proof.Machine.execDomainRequest dt domain data s
  | .domainChange dt domain => Sys2Proof.Machine.execDomainChange dt domain s
  | .domainPowerUp dt domain => Sys2Proof.Machine.execDomainPowerUp dt domain s
  | .domainOn dt domain => Sys2Proof.Machine.execDomainOn dt domain s
  | .domainUpTimeout dt domain => Sys2Proof.Machine.execDomainUpTimeout dt domain s
  | .shelfEnter dt data => Sys2Proof.Machine.execShelfEnter dt data s
  | .mainRailLoss dt => Sys2Proof.Machine.execMainRailLoss dt s
  | .shelfWake dt => Sys2Proof.Machine.execShelfWake dt s
  | .powerSample dt mw => Sys2Proof.Machine.execPowerSample dt mw s
  | .thermalSample dt => Sys2Proof.Machine.execThermalSample dt s
  | .vcoreStepTimer dt => Sys2Proof.Machine.execVcoreStepTimer dt s
  | .vcoreStep dt => Sys2Proof.Machine.execVcoreStep dt s
  | .pmbus dt => Sys2Proof.Machine.execPmbus dt s
  | .voutRead dt value => Sys2Proof.Machine.execVoutRead dt value s
  | .pmbusEnable dt mode vout => Sys2Proof.Machine.execPmbusEnable dt mode vout s
  | .thermRefRead dt value ok => Sys2Proof.Machine.execThermRefRead dt value ok s
  | .refStale dt => Sys2Proof.Machine.execRefStale dt s
  | .modelDiverge dt => Sys2Proof.Machine.execModelDiverge dt s
  | .shutRelease dt => Sys2Proof.Machine.execShutRelease dt s
  | .droverGrant dt => Sys2Proof.Machine.execDroverGrant dt s
  | .droverReturn dt cls index => Sys2Proof.Machine.execDroverReturn dt cls index s
  | .holdLong dt index => Sys2Proof.Machine.execHoldLong dt index s
  | .droverWait dt index => Sys2Proof.Machine.execDroverWait dt index s
  | .budgetOver dt => Sys2Proof.Machine.execBudgetOver dt s
  | .foldForce dt word data => Sys2Proof.Machine.execFoldForce dt word data s
  | .faultInject dt data => Sys2Proof.Machine.execFaultInject dt data s
  | .classAcknowledge dt data => Sys2Proof.Machine.execClassAcknowledge dt data s
  | .stickyClear dt word lasting data => Sys2Proof.Machine.execStickyClear dt word lasting data s
  | .selfTest dt source target lasting => Sys2Proof.Machine.execSelfTest dt source target lasting s
  | .sramError dt store uncorrectable => Sys2Proof.Machine.execSramError dt store uncorrectable s
  | .crookEnter dt data => Sys2Proof.Machine.execCrookEnter dt data s
  | .crookRelease dt data => Sys2Proof.Machine.execCrookRelease dt data s
  | .mbxPost dt agent data => Sys2Proof.Machine.execMbxPost dt agent data s
  | .mbxAck dt agent box data => Sys2Proof.Machine.execMbxAck dt agent box data s
  | .mbxClear dt agent box data => Sys2Proof.Machine.execMbxClear dt agent box data s
  | .mbxWakeLate dt box => Sys2Proof.Machine.execMbxWakeLate dt box s
  | .stileRead dt agent stile => Sys2Proof.Machine.execStileRead dt agent stile s
  | .stileRelease dt stile data => Sys2Proof.Machine.execStileRelease dt stile data s
  | .stileLong dt stile => Sys2Proof.Machine.execStileLong dt stile s
  | .coreResetWrite dt data => Sys2Proof.Machine.execCoreResetWrite dt data s
  | .watchdogExpire dt core => Sys2Proof.Machine.execWatchdogExpire dt core s
  | .fwDroverRequest dt core data => Sys2Proof.Machine.execFwDroverRequest dt core data s
  | .fwDroverWithdraw dt core data => Sys2Proof.Machine.execFwDroverWithdraw dt core data s
  | .tokenSubmit dt data => Sys2Proof.Machine.execTokenSubmit dt data s
  | .tokenDone dt token nonce => Sys2Proof.Machine.execTokenDone dt token nonce s
  | .tamper dt => Sys2Proof.Machine.execTamper dt s
  | .recoveryLoad dt data => Sys2Proof.Machine.execRecoveryLoad dt data s
  | .trngHealth dt failing => Sys2Proof.Machine.execTrngHealth dt failing s
  | .debugSessionExpire dt => Sys2Proof.Machine.execDebugSessionExpire dt s
  | .mramWriteDone dt back => Sys2Proof.Machine.execMramWriteDone dt back s
  | .mramDeferredWrite dt typ sel => Sys2Proof.Machine.execMramDeferredWrite dt typ sel s
  | .spliceSet dt => Sys2Proof.Machine.execSpliceSet dt s
  | .spliceExpire dt => Sys2Proof.Machine.execSpliceExpire dt s
  | .chunk dt => Sys2Proof.Machine.execChunk dt s
  | .lost dt n => Sys2Proof.Machine.execLost dt n s
  | .replayEntry dt => Sys2Proof.Machine.execReplayEntry dt s
  | .replayHalt dt => Sys2Proof.Machine.execReplayHalt dt s
  | .replayWaitTimeout dt => Sys2Proof.Machine.execReplayWaitTimeout dt s
  | .replayStop dt => Sys2Proof.Machine.execReplayStop dt s
  | .snapHold dt data => Sys2Proof.Machine.execSnapHold dt data s
  | .porstFall dt => Sys2Proof.Machine.execPorstFall dt s
  | .porstRise dt straps => Sys2Proof.Machine.execPorstRise dt straps s
  | .sysReset dt data => Sys2Proof.Machine.execSysReset dt data s
  | .deviceReady dt => Sys2Proof.Machine.execDeviceReady dt s
  | .setupLock dt => Sys2Proof.Machine.execSetupLock dt s
  | .replaySessionExpire dt => Sys2Proof.Machine.execReplaySessionExpire dt s
  | .scrubLate dt => Sys2Proof.Machine.execScrubLate dt s
  | .tickPllLock dt => Sys2Proof.Machine.execTickPllLock dt s
  | .lineClockBoundary dt => Sys2Proof.Machine.execLineClockBoundary dt s
  | .ptpEventSend dt port frame => Sys2Proof.Machine.execPtpEventSend dt port frame s
  | .lcTransitionReset dt => Sys2Proof.Machine.execLcTransitionReset dt s
  | .sramWipeDone dt => Sys2Proof.Machine.execSramWipeDone dt s
  | .c0ImageVerified dt image slotB => Sys2Proof.Machine.execC0ImageVerified dt image slotB s
  | .coresStarted dt images => Sys2Proof.Machine.execCoresStarted dt images s

end Sys2Proof.Machine
end

