-- ==== Sys2Proof/Machine/Step.lean ====
section
/-! DEFINITION. One step of the block: the command at the front of the queue, or one tick of time. -/

set_option Elab.async false

namespace Sys2Proof.Machine

/-- The state with the front command taken off: what stands behind it waits on. -/
def State.withPending (q : List Instr) (s : State) : State := { s with pending := q }

/-- One step: the command at the front of the queue runs; with no command waiting, one tick of the 1 GHz tick passes. -/
def step (s : State) : Host.Outcome State Fault Refusal :=
  match s.pending with
  | [] => .next (s.elapse 1)
  | c :: cs => exec c (s.withPending cs)

/-- The state with the command that a word spells put in front; unchanged where it spells none. -/
def State.withFetchWord (s : State) (nbits w : Nat) : State :=
  match decodeTableWord nbits w with
  | some c => s.withPending (c :: s.pending)
  | none => s

end Sys2Proof.Machine
end

