-- ==== Sys2Proof/Safety.lean ====
section
/-! DEFINITION. What the statements call sound: the life-cycle transitions of R469, the canonical form of the register file, and
the bounds that R43 sets on descriptors in flight. -/

set_option Elab.async false

namespace Sys2Proof.Machine

/-- The life-cycle transitions that exist (R469). -/
def lcEdge : Lc → Lc → Bool
  | .blank, .factory => true
  | .factory, .provisioned => true
  | .provisioned, .field => true
  | .field, .rma => true
  | .scrap, _ => false
  | _, .scrap => true
  | _, _ => false

/-- A pending mark in the life-cycle latch names a transition of R469 from the state in the latch. -/
def LcSound (s : State) : Prop := ∀ t, s.sec.pendingLc = some t → lcEdge s.sec.lc t = true

/-- Between two states the latch stayed, or it moved along one transition of R469. -/
def LcMoves (s t : State) : Prop := t.sec.lc = s.sec.lc ∨ lcEdge s.sec.lc t.sec.lc = true

end Sys2Proof.Machine
end

