-- ==== Sys2Proof/WellFormed.lean ====
section
/-! DEFINITION. When a command is one that the device can be given: its operands lie where the spec bounds them. A
command with an operand list of a fixed length is the only kind whose meaning asks for it (Fault.illFormed); the other
bounds are of commands that no part of the device could be given, which the meanings still take. -/

set_option Elab.async false

namespace Sys2Proof

/-- An offset in the 64 MiB window of BAR0 (R4). -/
def inWindow (off : Nat) : Bool := decide (off < 2 ^ 26)

/-- A slot of a ring of at most 2^16 slots (R34). -/
def slotInRing (slot : Nat) : Bool := decide (slot < 2 ^ 16)

/-- A wrapper of the DFLATE engine: 0 none, 1 zlib, 2 gzip (R363). -/
def wrapCode (wrap : Nat) : Bool := decide (wrap ≤ 2)

/-- The 2,720 PAM4 levels of one codeword, each an index 0 to 3 (R216, R218). -/
def pam4 (xs : List Nat) : Bool := xs.length == 2720 && xs.all (fun x => decide (x < 4))

/-- The addresses of 64-bit words of DRAM (R349). -/
def wordAddrs (xs : List Nat) : Bool := xs.all (fun a => a % 8 == 0)

/-- The octets of an Ethernet frame: at least one is given (R382). -/
def frameGiven (bs : List Byte) : Bool := !bs.isEmpty

/-- A command of the device. -/
def Instr.wf : Instr → Bool
  | .registerWrite _ _ off _ _ => inWindow off
  | .rcFieldRead _ _ off => inWindow off
  | .wideQuantityRead _ _ off => inWindow off
  | .configRequest _ => true
  | .functionLevelReset _ => true
  | .pcieReset _ => true
  | .hifReady _ => true
  | .pcieLinkTrained _ _ _ => true
  | .pcieLinkDown _ => true
  | .ringEnable _ _ _ => true
  | .ringDisable _ _ _ => true
  | .doorbellPoll _ => true
  | .doorbellReadDone _ bells => bells.length == 64
  | .doorbellReadFail _ => true
  | .dbBackoff _ => true
  | .dbKick _ => true
  | .descriptorFetch _ => true
  | .descriptorArrive _ _ bytes => bytes.length == 64
  | .descriptorReadFail _ _ _ => true
  | .hostReadFail _ _ slot _ => slotInRing slot
  | .completionWrite _ => true
  | .completionDrain _ _ => true
  | .completionModTimeout _ _ => true
  | .msixUnmask _ _ => true
  | .jobOpen _ _ slot => slotInRing slot
  | .jobClose _ _ slot => slotInRing slot
  | .layerSet _ _ slot _ => slotInRing slot
  | .layerFree _ _ slot => slotInRing slot
  | .imageCommit _ _ slot => slotInRing slot
  | .tableLoad _ _ slot => slotInRing slot
  | .tableHeld _ _ slot _ _ => slotInRing slot
  | .nozzleMapRemap _ _ slot _ _ => slotInRing slot
  | .nozzleMapStatusLoad _ _ slot _ _ => slotInRing slot
  | .nozzleMapStatusRead _ _ slot _ => slotInRing slot
  | .nozzleMapSet _ _ slot => slotInRing slot
  | .nozzleMapRetest _ _ slot => slotInRing slot
  | .barCfgTrain _ _ slot => slotInRing slot
  | .barCfgWrite _ _ slot => slotInRing slot
  | .barCfgRead _ _ slot => slotInRing slot
  | .barCfgSleep _ _ slot => slotInRing slot
  | .barCfgWake _ _ slot => slotInRing slot
  | .calRunTile _ _ slot => slotInRing slot
  | .calRunStrip _ _ slot => slotInRing slot
  | .calRunRead _ _ slot _ => slotInRing slot
  | .calRunWrite _ _ slot _ _ => slotInRing slot
  | .camCfgContext _ _ slot _ _ => slotInRing slot
  | .camCfgDefect _ _ slot _ _ => slotInRing slot
  | .camCfgShading _ _ slot _ _ => slotInRing slot
  | .camCfgUpload _ _ slot _ => slotInRing slot
  | .exposeSet _ _ slot => slotInRing slot
  | .i2cWriteDone _ _ _ => true
  | .tallyStart _ _ slot => slotInRing slot
  | .tallyStop _ _ slot => slotInRing slot
  | .tallyExport _ _ slot _ => slotInRing slot
  | .tallyReplay _ _ slot _ _ => slotInRing slot
  | .tallySnapDump _ _ slot _ => slotInRing slot
  | .markPkgContent _ _ slot _ _ => slotInRing slot
  | .markPkgCsp _ _ slot _ _ => slotInRing slot
  | .markPkgKey _ _ slot _ _ => slotInRing slot
  | .fence _ _ slot => slotInRing slot
  | .fenceRelease _ _ slot => slotInRing slot
  | .abort _ _ slot => slotInRing slot
  | .stagingComplete _ _ slot _ => slotInRing slot
  | .stageWaitTimeout _ _ slot => slotInRing slot
  | .streamedPageArrive _ _ slot _ _ => slotInRing slot
  | .compositionBandStart _ => true
  | .bandComplete _ => true
  | .compositionResume _ => true
  | .rejectDue _ => true
  | .rejectEnd _ => true
  | .paceSample _ busy => busy.length == 32
  | .ceilingRecompute _ => true
  | .tableVerify _ _ => true
  | .wheelEnable _ _ _ => true
  | .wheelInputChange _ _ _ _ => true
  | .wheelTransitionAccept _ _ _ => true
  | .stillTimeout _ _ => true
  | .coastEnd _ => true
  | .fireTick _ _ _ => true
  | .burstTick _ _ => true
  | .firePulseEnd _ _ => true
  | .encPulseEnd _ => true
  | .tickPllUnlock _ => true
  | .dotSendStart _ _ => true
  | .barArm _ _ => true
  | .barDisarm _ _ => true
  | .hvEnWrite _ _ _ => true
  | .drillRequest _ _ => true
  | .drillStart _ _ => true
  | .fireRepair _ _ _ => true
  | .firePadFault _ _ => true
  | .echoTimeout _ _ => true
  | .echoReceive _ _ _ => true
  | .fireSelfTest _ _ => true
  | .laneTrain _ _ => true
  | .laneOos _ _ _ => true
  | .laneQuietDone _ _ => true
  | .laneEqAdapted _ _ _ => true
  | .laneEqTimeout _ _ => true
  | .laneLockTimeout _ _ => true
  | .trainingSetReceive _ _ _ => true
  | .markerReceive _ _ _ => true
  | .markerMissing _ _ => true
  | .codewordReceive _ _ symbols => pam4 symbols
  | .laneSignalLoss _ _ => true
  | .fecWarn _ _ => true
  | .cfgAckReceive _ _ _ => true
  | .statDataReceive _ _ _ => true
  | .cfgAckTimeout _ _ _ => true
  | .hubSleepReceive _ _ _ => true
  | .hubWakeReceive _ _ _ => true
  | .dsSleepEnter _ _ => true
  | .usSleepEnter _ _ => true
  | .wakeComplete _ _ _ => true
  | .wakeLate _ _ _ _ => true
  | .gateReport _ _ _ => true
  | .impReport _ _ _ => true
  | .impRequest _ _ => true
  | .nhSnapshotWrite _ => true
  | .ddStale _ _ => true
  | .portEnable _ _ _ => true
  | .csiFrameStart _ _ => true
  | .csiLine _ _ _ => true
  | .csiFrameEnd _ _ => true
  | .portSilent _ _ => true
  | .vpLine _ _ => true
  | .sensorTempRead _ _ _ _ => true
  | .holdFillDone _ => true
  | .grazeStart _ => true
  | .grazeComplete _ => true
  | .holdSnapshot _ => true
  | .holdRestart _ => true
  | .refDue _ _ => true
  | .mprTempRead _ _ _ _ => true
  | .zqCal _ _ => true
  | .caParityAlert _ _ => true
  | .dramReadReturn _ _ _ _ => true
  | .dramWordTest _ _ _ => true
  | .scrubPage _ errors uncorrectable => wordAddrs errors && wordAddrs uncorrectable
  | .selfRefreshEntry _ => true
  | .selfRefreshExit _ => true
  | .trained _ ok => ok.length == 8
  | .wipeDone _ => true
  | .memcGeomWrite _ _ => true
  | .paddockGrant _ => true
  | .paddockFree _ _ => true
  | .pageZeroDone _ _ => true
  | .padRetire _ _ => true
  | .dflContextOpen _ _ wrap _ _ _ => wrapCode wrap
  | .dflInputArrive _ _ _ _ => true
  | .dflOutputBuffer _ _ _ => true
  | .saveArea _ => true
  | .netFrameReceive _ _ frame => frameGiven frame
  | .netLink _ _ _ => true
  | .servoOffset _ _ => true
  | .servoHoldover _ => true
  | .servoRestart _ => true
  | .timeWrap _ => true
  | .snapNow _ => true
  | .snapArm _ => true
  | .snapScheduled _ => true
  | .ceilMsgPeriodic _ => true
  | .ceilMsgCause _ => true
  | .domainRequest _ _ _ => true
  | .domainChange _ _ => true
  | .domainPowerUp _ _ => true
  | .domainOn _ _ => true
  | .domainUpTimeout _ _ => true
  | .shelfEnter _ _ => true
  | .mainRailLoss _ => true
  | .shelfWake _ => true
  | .powerSample _ mw => mw.length == 10
  | .thermalSample _ => true
  | .vcoreStepTimer _ => true
  | .vcoreStep _ => true
  | .pmbus _ => true
  | .voutRead _ _ => true
  | .pmbusEnable _ _ _ => true
  | .thermRefRead _ _ _ => true
  | .refStale _ => true
  | .modelDiverge _ => true
  | .shutRelease _ => true
  | .droverGrant _ => true
  | .droverReturn _ _ _ => true
  | .holdLong _ _ => true
  | .droverWait _ _ => true
  | .budgetOver _ => true
  | .foldForce _ _ _ => true
  | .faultInject _ _ => true
  | .classAcknowledge _ _ => true
  | .stickyClear _ _ _ _ => true
  | .selfTest _ _ _ _ => true
  | .sramError _ _ _ => true
  | .crookEnter _ _ => true
  | .crookRelease _ _ => true
  | .mbxPost _ _ _ => true
  | .mbxAck _ _ _ _ => true
  | .mbxClear _ _ _ _ => true
  | .mbxWakeLate _ _ => true
  | .stileRead _ _ _ => true
  | .stileRelease _ _ _ => true
  | .stileLong _ _ => true
  | .coreResetWrite _ _ => true
  | .watchdogExpire _ _ => true
  | .fwDroverRequest _ _ _ => true
  | .fwDroverWithdraw _ _ _ => true
  | .tokenSubmit _ _ => true
  | .tokenDone _ token nonce => token.length == 384 && nonce.length == 32
  | .tamper _ => true
  | .recoveryLoad _ _ => true
  | .trngHealth _ _ => true
  | .debugSessionExpire _ => true
  | .mramWriteDone _ back => back.lost = 0 || 0 < back.mismatches.val
  | .mramDeferredWrite _ _ _ => true
  | .spliceSet _ => true
  | .spliceExpire _ => true
  | .chunk _ => true
  | .lost _ _ => true
  | .replayEntry _ => true
  | .replayHalt _ => true
  | .replayWaitTimeout _ => true
  | .replayStop _ => true
  | .snapHold _ _ => true
  | .porstFall _ => true
  | .porstRise _ _ => true
  | .sysReset _ _ => true
  | .deviceReady _ => true
  | .setupLock _ => true
  | .replaySessionExpire _ => true
  | .scrubLate _ => true
  | .tickPllLock _ => true
  | .lineClockBoundary _ => true
  | .ptpEventSend _ _ frame => frameGiven frame
  | .lcTransitionReset _ => true
  | .sramWipeDone _ => true
  | .c0ImageVerified _ _ _ => true
  | .coresStarted _ images => images.length == 3

end Sys2Proof
end

