-- ==== Sys2Proof/Certificates/Slice0/Obligations.lean ====
section
/-! DEFINITION. The statements for the provers. Forty of them say, command by command, under which conditions it answers a next state
and which one; the others state rules of the whole block: the queue, reset, the registers, the life cycle, the set-up lock, the
straps, the domains and the limits that the block keeps. -/

open Sys2Proof Sys2Proof.Machine

/-- The reset and start-up commands complete (R25, R435, R474, R475, R532, R533, R534, R537, R538). In every state and for all
operands that meet the hypotheses of its clause, each of these commands answers the next state written there: PORST_FALL,
PORST_RISE, SYS_RESET, SRAM_WIPE_DONE, C0_IMAGE_VERIFIED, CORES_STARTED, DEVICE_READY, SETUP_LOCK. A clause gives that whole
state as the command's effect on u, the state after the ticks dt have passed, so what it does not name stays as in u. The
clauses also follow the model's readings of log entries 1, 3, 10, 57, 58, 61. -/
def Obligations.StartUpCommandsComplete : Prop :=
  (∀ (s : State) (dt : Nat),
      s.down = false →
      exec (.porstFall dt) s = .next ((s.deviceReset 0).onSys (fun x => { x with porst := true }))) ∧
  (∀ (s : State) (dt : Nat) (straps : BitVec 10),
      s.sys.porst = true →
      s.power.inShelf = false →
      exec (.porstRise dt straps) s = .next ((s.reboot (strapsOf straps.toNat) 0).romWipes)) ∧
  (∀ (s u : State) (dt : Nat) (data : Word),
      s.down = false →
      u = s.elapse dt →
      u.writeOpen 1 Reg.SYS_RST.off = true →
      bits data.toNat 31 16 = 0xD1E5 →
      bitOf data.toNat 0 = true →
      exec (.sysReset dt data) s = .next ((u.noteWrite 1 Reg.SYS_RST.off data.toNat).deviceReset 1)) ∧
  (∀ (s u : State) (dt : Nat),
      s.down = false →
      u = s.elapse dt →
      u.sys.sramWiped = false →
      ¬ (u.bootSource = 1 ∧ u.sec.lc ≠ .scrap) →
      exec (.sramWipeDone dt) s = .next ({ u with sys := { u.sys with sramWiped := true } })) ∧
  (∀ (s u : State) (dt : Nat) (image : List Byte) (slotB : Bool) (v : State),
      s.down = false →
      u = s.elapse dt →
      u.sys.sramWiped = true →
      u.sys.c0 = false →
      u.sec.lc ≠ .scrap →
      u.sec.recovery = false →
      v = u.readKeys →
      exec (.c0ImageVerified dt image slotB) s = .next (if v.fwCause 0 image = 0 then (v.fwAccept 0 (leAt image 8 4) (v.sec.loading || (slotB && decide (v.bootSource = 0)))).startC0 else (v.fwReject 0 (v.fwCause 0 image)).onSec (fun x => { x with recovery := x.recovery || (slotB && decide ((v.fwReject 0 (v.fwCause 0 image)).bootSource = 0)), loading := false }))) ∧
  (∀ (s u : State) (dt : Nat) (images : List (List Byte)) (v : State),
      s.down = false →
      u = s.elapse dt →
      images.length = 3 →
      u.sys.c0 = true →
      u.sys.cores = false →
      v = [1, 2, 3].foldl (fun s c => s.startCore (c, images.getD (c - 1) [])) u →
      v.sec.accepted.all (fun a => a) = true →
      exec (.coresStarted dt images) s = .next (({ v with sys := { v.sys with cores := true } }.seedGeom.startTraining.readRecords).askSaveArea)) ∧
  (∀ (s u : State) (dt : Nat),
      s.down = false →
      u = s.elapse dt →
      u.sys.ready = false →
      u.readyHolds = true →
      exec (.deviceReady dt) s = .next ((List.range 4).foldl State.raiseSvn ({ u with sys := { u.sys with ready := true, bootMs := (u.now - u.sys.edgeAt) / 1000000 }, memc := { u.memc with wipeAt := some u.now } }.askCores))) ∧
  (∀ (s u : State) (dt : Nat),
      s.down = false →
      u = s.elapse dt →
      u.writeOpen 1 Reg.SYS_LOCK.off = true →
      exec (.setupLock dt) s = .next ((u.noteWrite 1 Reg.SYS_LOCK.off 1).onSys (fun x => { x with lock := true })))

/-- The endpoint commands complete (R30, R31, R32, R67). In every state and for all operands that meet the hypotheses of its
clause, each of these commands answers the next state written there: CONFIG_REQUEST, FUNCTION_LEVEL_RESET, PCIE_RESET,
HIF_READY, PCIE_LINK_TRAINED, PCIE_LINK_DOWN. A clause gives that whole state as the command's effect on u, the state after
the ticks dt have passed, so what it does not name stays as in u. The clauses also follow the model's readings of log entries
2, 6, 77. -/
def Obligations.EndpointCommandsComplete : Prop :=
  (∀ (s u : State) (dt : Nat),
      s.down = false →
      u = s.elapse dt →
      exec (.configRequest dt) s = .next ({ u with out := u.out ++ [.configReply (if u.hif.ready then some (Caps.ofWidth u.strapWidth) else none)] })) ∧
  (∀ (s u : State) (dt : Nat),
      s.down = false →
      u = s.elapse dt →
      exec (.functionLevelReset dt) s = .next (u.hifReset)) ∧
  (∀ (s u : State) (dt : Nat) (v : State),
      s.down = false →
      u = s.elapse dt →
      v = u.hifReset.onHif (fun h => { h with linkUp := false, rate := 0, width := 0 }) →
      exec (.pcieReset dt) s = .next (if u.hif.linkUp && u.jet.bars.any (fun b => b.hv) then v.fault 68 else v)) ∧
  (∀ (s u : State) (dt : Nat),
      s.down = false →
      u = s.elapse dt →
      exec (.hifReady dt) s = .next ({ u with hif := { u.hif with ready := true, resetting := false } })) ∧
  (∀ (s u : State) (dt rate width : Nat) (v : State),
      s.down = false →
      u = s.elapse dt →
      v = { u with hif := { u.hif with linkUp := true, rate := rate, width := width } } →
      exec (.pcieLinkTrained dt rate width) s = .next ((if rate < 3 ∨ width < v.strapWidth then v.fault 69 else v).raiseEv 20)) ∧
  (∀ (s u : State) (dt : Nat) (v : State),
      s.down = false →
      u = s.elapse dt →
      v = { u with hif := { u.hif with linkUp := false } } →
      exec (.pcieLinkDown dt) s = .next (if v.jet.bars.any (fun b => b.hv) then v.fault 68 else v))

/-- Register reads and writes complete (R5, R6, R7, R8). In every state and for all operands that meet the hypotheses of its
clause, each of these commands answers the next state written there: RC_FIELD_READ, WIDE_QUANTITY_READ, REGISTER_WRITE. A
clause gives that whole state as the command's effect on u, the state after the ticks dt have passed, so what it does not
name stays as in u. The clauses also follow the model's readings of log entries 4, 5, 7, 8, 9, 70, 72. -/
def Obligations.RegisterAccessesComplete : Prop :=
  (∀ (s u : State) (dt : Nat) (agent : Fin 7) (off : Nat),
      s.down = false →
      u = s.elapse dt →
      exec (.rcFieldRead dt agent off) s = .next (u.readReg agent.val off)) ∧
  (∀ (s u : State) (dt : Nat) (agent : Fin 7) (off : Nat),
      s.down = false →
      u = s.elapse dt →
      exec (.wideQuantityRead dt agent off) s = .next (u.readReg agent.val off)) ∧
  (∀ (s u : State) (dt : Nat) (agent : Fin 7) (off : Nat) (be : BitVec 4) (data : Word),
      s.down = false →
      u = s.elapse dt →
      be.toNat = 15 →
      agent.val ≠ 0 →
      agent.val ≠ 6 →
      u.writeOpen agent.val off = true →
      (regAt off).isSome = true →
      exec (.registerWrite dt agent off be data) s = .next ((u.noteWrite agent.val off data.toNat).writeReg agent.val off data.toNat))

/-- Enabling and disabling rings, the kick and the unmask complete (R35, R36, R40, R51, R65). In every state and for all operands
that meet the hypotheses of its clause, each of these commands answers the next state written there: RING_ENABLE,
RING_DISABLE, DB_KICK, MSIX_UNMASK. A clause gives that whole state as the command's effect on u, the state after the ticks
dt have passed, so what it does not name stays as in u. The clauses also follow the model's readings of log entries 4, 6, 16,
77. -/
def Obligations.RingSwitchesComplete : Prop :=
  (∀ (s u : State) (dt : Nat) (ring : Fin 64) (cfg : Word) (v : State),
      s.down = false →
      u = s.elapse dt →
      u.writeOpen 1 (Reg.HIF_RING_CFG ring.val).off = true →
      (u.noteWrite 1 (Reg.HIF_RING_CFG ring.val).off cfg.toNat).sys.ready = true →
      (u.noteWrite 1 (Reg.HIF_RING_CFG ring.val).off cfg.toNat).ringOn ring.val = false →
      v = (u.noteWrite 1 (Reg.HIF_RING_CFG ring.val).off cfg.toNat).setReg (Reg.HIF_RING_CFG ring.val) ((cfg.toNat &&& ringCfgMask) % 2 ^ 31) →
      6 ≤ v.f (Fld.HIF_RING_CFG_size_log2 ring.val) →
      v.f (Fld.HIF_RING_CFG_size_log2 ring.val) ≤ 16 →
      (v.isCring ring.val = true ∨ (v.ringOn (v.f (Fld.HIF_RING_CFG_cring ring.val)) = true ∧ v.isCring (v.f (Fld.HIF_RING_CFG_cring ring.val)) = true)) →
      exec (.ringEnable dt ring cfg) s = .next ((((v.setF (Fld.HIF_RING_CFG_enable ring.val) 1).onRing ring.val (fun r => { Ring.reset with lost := r.lost })).onHif (fun h => { h with mute := false })).readToken.drainRing ring.val)) ∧
  (∀ (s u : State) (dt : Nat) (ring : Fin 64) (cfg : Word) (v : State),
      s.down = false →
      u = s.elapse dt →
      u.writeOpen 1 (Reg.HIF_RING_CFG ring.val).off = true →
      v = u.noteWrite 1 (Reg.HIF_RING_CFG ring.val).off cfg.toNat →
      exec (.ringDisable dt ring cfg) s = .next ((if v.ringOn ring.val then v.setF (Fld.HIF_RING_CFG_enable ring.val) 0 else v.setReg (Reg.HIF_RING_CFG ring.val) ((cfg.toNat &&& ringCfgMask) % 2 ^ 31)).onRing ring.val (fun r => { r.drop with halted := false }))) ∧
  (∀ (s u : State) (dt : Nat) (v : State),
      s.down = false →
      u = s.elapse dt →
      u.writeOpen 1 Reg.HIF_DB_KICK.off = true →
      v = (u.noteWrite 1 Reg.HIF_DB_KICK.off 1).leaveBackoff →
      v.readsOut < 512 →
      v.hif.ready = true →
      v.hif.mute = false →
      exec (.dbKick dt) s = .next (v.poll)) ∧
  (∀ (s u : State) (dt : Nat) (vector : Fin 256) (v : State),
      s.down = false →
      u = s.elapse dt →
      u.writeOpen 1 (Reg.MSIX_VCTRL vector.val).off = true →
      v = (u.noteWrite 1 (Reg.MSIX_VCTRL vector.val).off 0).setF ⟨Reg.MSIX_VCTRL vector.val, 0, 0⟩ 0 →
      v.hif.pba.contains vector.val = true →
      exec (.msixUnmask dt vector) s = .next ({ v with hif := { v.hif with pba := v.hif.pba.filter (fun w => w ≠ vector.val) }, out := v.out ++ [.msi vector.val] }))

/-- Doorbell polls, their returns and the back-off complete (R39, R40, R41, R42). In every state and for all operands that meet
the hypotheses of its clause, each of these commands answers the next state written there: DOORBELL_POLL, DOORBELL_READ_DONE,
DOORBELL_READ_FAIL, DB_BACKOFF. A clause gives that whole state as the command's effect on u, the state after the ticks dt
have passed, so what it does not name stays as in u. The clauses also follow the model's readings of log entries 2, 15, 77. -/
def Obligations.DoorbellCommandsComplete : Prop :=
  (∀ (s u : State) (dt : Nat),
      s.down = false →
      u = s.elapse dt →
      u.readsOut < 512 →
      u.fb Fld.HIF_CTRL_db_enable = true →
      u.hif.ready = true →
      u.hif.mute = false →
      u.hif.pollAt.all (fun t => decide (t + u.pollEvery ≤ u.now)) = true →
      exec (.doorbellPoll dt) s = .next (u.poll)) ∧
  (∀ (s u : State) (dt : Nat) (bells : List Word) (t : Nat) (ts : List Nat) (v w : State),
      s.down = false →
      u = s.elapse dt →
      bells.length = 64 →
      u.hif.polls = t :: ts →
      v = { u with hif := { u.hif with polls := ts, failRun := 0, rttLast := min 65535 (u.now - t) } } →
      w = (List.range 64).foldl (fun s n => s.actDoorbell n (bells.getD n 0).toNat) (v.setF Fld.HIF_RTT_max (max (min 65535 (u.now - t)) (v.f Fld.HIF_RTT_max))) →
      exec (.doorbellReadDone dt bells) s = .next (if w.hif.rings.map (fun r => r.door) = u.hif.rings.map (fun r => r.door) then w else w.leaveBackoff)) ∧
  (∀ (s u : State) (dt : Nat) (t : Nat) (ts : List Nat) (v : State),
      s.down = false →
      u = s.elapse dt →
      u.hif.polls = t :: ts →
      v = { u with hif := { u.hif with polls := ts, failRun := u.hif.failRun + 1 } } →
      exec (.doorbellReadFail dt) s = .next (if v.hif.failRun = 3 then v.fault 65 else v)) ∧
  (∀ (s u : State) (dt : Nat),
      s.down = false →
      u = s.elapse dt →
      u.fb Fld.HIF_CTRL_db_enable = true →
      u.hif.ready = true →
      u.fb Fld.HIF_DB_CFG_backoff_en = true →
      u.hif.slow = false →
      u.hif.lastChange + 10000000 ≤ u.now →
      exec (.dbBackoff dt) s = .next ({ u with hif := { u.hif with slow := true } }.raiseEv 18))

/-- Fetching, taking, failing, fencing and aborting descriptors complete (R43, R45, R54, R55, R62, R68, R556). In every state and
for all operands that meet the hypotheses of its clause, each of these commands answers the next state written there:
DESCRIPTOR_FETCH, DESCRIPTOR_ARRIVE, DESCRIPTOR_READ_FAIL, HOST_READ_FAIL, FENCE, FENCE_RELEASE, ABORT. A clause gives that
whole state as the command's effect on u, the state after the ticks dt have passed, so what it does not name stays as in u.
The clauses also follow the model's readings of log entries 15, 17, 77. -/
def Obligations.DescriptorTrafficCompletes : Prop :=
  (∀ (s u : State) (dt : Nat) (r n : Nat) (rs : List (Nat × Nat)),
      s.down = false →
      u = s.elapse dt →
      u.fb Fld.HIF_CTRL_quiesce = false →
      u.sys.ready = true →
      u.hif.ready = true →
      u.hif.mute = false →
      u.nextRing = some r →
      n = min (min 16 (u.fetchable r)) (1024 - u.inFlight) →
      0 < n →
      u.readsOut ≤ 510 →
      rs = u.slotReads r n →
      exec (.descriptorFetch dt) s = .next (({ u with out := u.out ++ rs.map (fun (p : Nat × Nat) => Out.hostRead (u.ringBase r + p.1 * 64) (p.2 * 64) false) }.onRing r (fun x => { x with fetched := (x.fetched + n) % 2 ^ 32, reads := x.reads ++ rs.map (fun (p : Nat × Nat) => (p.2, p.2)) })).onHif (fun h => { h with lastServed := r }))) ∧
  (∀ (s u : State) (dt : Nat) (ring : Fin 64) (bytes : List Byte) (d : Desc) (v : State),
      s.down = false →
      u = s.elapse dt →
      bytes.length = 64 →
      u.ringOn ring.val = true →
      u.isCring ring.val = false →
      diff32 (u.ring ring.val).fetched (u.ring ring.val).count ≠ 0 →
      (u.ring ring.val).skips.contains (u.ring ring.val).count = false →
      d = ⟨ring.val, (u.ring ring.val).count % u.ringSize ring.val, bytes, u.hif.nextOrder, u.f (Fld.HIF_RING_CFG_cring ring.val), false, false, false⟩ →
      v = ({ u with hif := { u.hif with inflight := u.hif.inflight ++ [d], nextOrder := u.hif.nextOrder + 1 } }.countRead ring.val).observe 0x21 ring.val (leBytes 4 d.slot ++ leBytes 4 (crc32c bytes)) →
      v.checkDesc d = none →
      v.replaying = false →
      exec (.descriptorArrive dt ring bytes) s = .next (v)) ∧
  (∀ (s u : State) (dt : Nat) (ring : Fin 64) (n : Nat),
      s.down = false →
      u = s.elapse dt →
      (u.ring ring.val).reads.contains (n, n) = true →
      exec (.descriptorReadFail dt ring n) s = .next ((((u.onRing ring.val (fun r => { r with reads := r.reads.erase (n, n) }.drop)).haltRing ring.val 3).fault 64).fault 66)) ∧
  (∀ (s u : State) (dt : Nat) (ring : Fin 64) (slot : Nat) (pages : List Nat) (d : Desc),
      s.down = false →
      u = s.elapse dt →
      pages = [] →
      u.liveAs ring.val slot Desc.readsHost = some d →
      exec (.hostReadFail dt ring slot pages) s = .next ((((u.fault 64).withdraw d).complete d 0x13 0).onHif (fun h => { h with dataReads := h.dataReads.filter (fun r => !(decide (r.ring = d.ring) && decide (r.slot = d.slot))) ++ [⟨d.ring, d.slot, d.buf.used⟩] }))) ∧
  (∀ (s u : State) (dt : Nat) (ring : Fin 64) (slot : Nat) (d : Desc),
      s.down = false →
      u = s.elapse dt →
      u.startable ring.val slot 0x7E = some d →
      exec (.fence dt ring slot) s = .next ({ u with hif := { u.hif with inflight := u.hif.inflight.map (fun e => if e.order = d.order then { e with started := true } else e) } })) ∧
  (∀ (s u : State) (dt : Nat) (ring : Fin 64) (slot : Nat) (d : Desc),
      s.down = false →
      u = s.elapse dt →
      u.liveAs ring.val slot (fun d => decide (d.opcode = 0x7E) && d.started) = some d →
      u.hif.inflight.any (fenceWaits d) = false →
      u.hif.held.any (abortWaits d) = false →
      exec (.fenceRelease dt ring slot) s = .next (u.complete d 0 0)) ∧
  (∀ (s u : State) (dt : Nat) (ring : Fin 64) (slot : Nat) (d : Desc),
      s.down = false →
      u = s.elapse dt →
      u.startable ring.val slot 0x7F = some d →
      exec (.abort dt ring slot) s = .next (u.decideAbort d))

/-- Completions are written, drained and signalled (R48, R50, R51, R55). In every state and for all operands that meet the
hypotheses of its clause, each of these commands answers the next state written there: COMPLETION_WRITE, COMPLETION_DRAIN,
COMPLETION_MOD_TIMEOUT. A clause gives that whole state as the command's effect on u, the state after the ticks dt have
passed, so what it does not name stays as in u. The clauses also follow the model's readings of log entries 16. -/
def Obligations.CompletionTrafficCompletes : Prop :=
  (∀ (s u : State) (dt : Nat) (c : Completion),
      s.down = false →
      u = s.elapse dt →
      u.hif.held.find? u.writable = some c →
      exec (.completionWrite dt) s = .next ({ u with hif := { u.hif with held := u.hif.held.erase c } }.writeCompletion c)) ∧
  (∀ (s u : State) (dt : Nat) (ring : Fin 64),
      s.down = false →
      u = s.elapse dt →
      exec (.completionDrain dt ring) s = .next (u.drainRing ring.val)) ∧
  (∀ (s u : State) (dt : Nat) (ring : Fin 64),
      s.down = false →
      u = s.elapse dt →
      u.ringOn ring.val = true →
      u.f (Fld.HIF_RING_MOD_mod_time ring.val) ≠ 0 →
      (u.ring ring.val).unsig ≠ 0 →
      (u.ring ring.val).unsigSince + u.f (Fld.HIF_RING_MOD_mod_time ring.val) * 100 ≤ u.now →
      exec (.completionModTimeout dt ring) s = .next (u.signalRing ring.val))

/-- JOB_OPEN and JOB_CLOSE complete (R70, R71, R176, R179). In every state and for all operands that meet the hypotheses of its
clause, each of these commands answers the next state written there: JOB_OPEN, JOB_CLOSE. A clause gives that whole state as
the command's effect on u, the state after the ticks dt have passed, so what it does not name stays as in u. The clauses also
follow the model's readings of log entries 20, 21, 22, 78, 81. -/
def Obligations.JobCommandsComplete : Prop :=
  (∀ (s u : State) (dt : Nat) (ring : Fin 64) (slot : Nat) (d : Desc) (v w : State),
      s.down = false →
      u = s.elapse dt →
      u.startable ring.val slot 0x01 = some d →
      u.opening = false →
      u.lay.job = none →
      d.job ≠ 0 →
      v = u.wakeAll [4, 5, 6, 7] →
      v.allOn [4, 5, 6, 7] = true →
      (List.range 8).any (fun b => v.fb (Fld.JET_BAR_CFG_en b) && v.offB b < v.offB 0) = false →
      w = v.openAsk d →
      ¬ (w.opening = true ∧ w.stageWait = 0) →
      exec (.jobOpen dt ring slot) s = .next (w)) ∧
  (∀ (s u : State) (dt : Nat) (ring : Fin 64) (slot : Nat) (d : Desc) (j : Job) (last : Nat) (v w x : State),
      s.down = false →
      u = s.elapse dt →
      u.startable ring.val slot 0x02 = some d →
      u.opening = false →
      u.lay.job = some j →
      u.jobFits d = true →
      j.closed = false →
      (last = if d.num 8 4 = 0 ∨ imgLe (imgAdd u.nextImage (2 ^ 32 - 1)) (d.num 8 4) = false then imgAdd u.nextImage (2 ^ 32 - 1) else d.num 8 4) →
      v = { u with lay := { u.lay with job := some { j with closed := true, last := last } } }.complete d 0 last →
      (w = if v.hold.changed then v.writeHoldSnap else v) →
      (x = if w.nozzle.changed then w.writeStatusSnap else w) →
      exec (.jobClose dt ring slot) s = .next (if j.accepted = false ∨ (x.lay.comp = none ∧ imgLe (x.imageToStart j) last = false) then x.jobEnd else x))

/-- Layer and commit descriptors complete (R59, R60, R62, R76, R78, R79, R90). In every state and for all operands that meet the
hypotheses of its clause, each of these commands answers the next state written there: LAYER_SET, LAYER_FREE, IMAGE_COMMIT,
STAGING_COMPLETE, STAGE_WAIT_TIMEOUT, STREAMED_PAGE_ARRIVE. A clause gives that whole state as the command's effect on u, the
state after the ticks dt have passed, so what it does not name stays as in u. The clauses also follow the model's readings of
log entries 18, 68, 78. -/
def Obligations.LayerCommandsComplete : Prop :=
  (∀ (s u : State) (dt : Nat) (ring : Fin 64) (slot : Nat) (list : List PageEnt) (d : Desc) (v : State),
      s.down = false →
      u = s.elapse dt →
      u.startable ring.val slot 0x10 = some d →
      u.opening = false →
      list.length = d.buf.used →
      layerCheck d = none →
      d.buf.entsOk list = true →
      (u.readList d).jobFits d = true →
      ((u.readList d).lay.waiting.getD (d.byte 8) []).length < 16 →
      v = (u.readList d).wakeAll [4] →
      v.allOn [4] = true →
      exec (.layerSet dt ring slot list) s = .next (v.admitLayer d (d.content list))) ∧
  (∀ (s u : State) (dt : Nat) (ring : Fin 64) (slot : Nat) (d : Desc) (v : State),
      s.down = false →
      u = s.elapse dt →
      u.startable ring.val slot 0x11 = some d →
      u.opening = false →
      u.jobFits d = true →
      (u.lay.waiting.getD (d.byte 8) []).length < 16 →
      v = (u.start d).addBinding (d.byte 8) d.order none →
      exec (.layerFree dt ring slot) s = .next (if u.lay.job = none then (v.takeBinding (d.byte 8) d.order).complete d 0 0 else v)) ∧
  (∀ (s u : State) (dt : Nat) (ring : Fin 64) (slot : Nat) (d : Desc) (j : Job) (ask : Nat),
      s.down = false →
      u = s.elapse dt →
      u.startable ring.val slot 0x12 = some d →
      u.opening = false →
      u.lay.job = some j →
      u.jobFits d = true →
      j.closed = false →
      j.latchLines < d.num 16 3 →
      (ask = if bitOf (d.byte 12) 0 then d.num 8 4 else u.nextImage) →
      ¬ (2 ^ 31 ≤ diff32 ask u.nextImage ∧ behind j.first u.nextImage ask = false) →
      u.lay.commits.length < 64 →
      exec (.imageCommit dt ring slot) s = .next (u.acceptCommit d j ask)) ∧
  (∀ (s u : State) (dt : Nat) (ring : Fin 64) (slot : Nat) (data : List Byte) (d : Desc) (v w : State),
      s.down = false →
      u = s.elapse dt →
      u.liveAs ring.val slot (fun d => decide (d.opcode = 0x10) && d.started && (u.padOf (.stage d.order)).isSome && decide (data.length = d.buf.taken)) = some d →
      u.dramUp = true →
      v = u.readPages d (u.stageEnts d.order) →
      (d.buf.tags ≠ 1 ∨ tagsHold (pageBytes d.buf.pageSize) (v.stageEnts d.order) data = true) →
      w = ((v.onWaiting d.order (fun c => { c with staged := true, data := data.take c.length })).wroteHolder (.stage d.order)).complete d 0x01 0 →
      exec (.stagingComplete dt ring slot data) s = .next (match w.waitingOf d.order with | some p => if p.2.bind = .free then w.takeBinding p.1 d.order else w | none => (w.padFree (.stage d.order)).onLay (fun l => { l with gone := l.gone.filter (fun c => c.order ≠ d.order) }))) ∧
  (∀ (s u : State) (dt : Nat) (ring : Fin 64) (slot : Nat) (d : Desc),
      s.down = false →
      u = s.elapse dt →
      u.liveAs ring.val slot (fun d => d.started && u.paddock.waiting.any (fun w => w.ofDesc d && decide (u.now - w.at_ ≥ u.stageWait))) = some d →
      exec (.stageWaitTimeout dt ring slot) s = .next (u.stageTimeout d)) ∧
  (∀ (s u : State) (dt : Nat) (ring : Fin 64) (slot page : Nat) (data : List Byte) (o : Nat) (c : Content),
      s.down = false →
      u = s.elapse dt →
      u.readerOf ring.val slot [page] = some o →
      u.contentOf o = some c →
      data.length = pageBytes c.pageSize →
      (c.tags = false ∨ crc32c data = (c.ents.map (fun e => e.tag.toNat)).getD page 0) →
      exec (.streamedPageArrive dt ring slot page data) s = .next (((u.wroteBytes (.landing o) (c.landAt (page * pageBytes c.pageSize)) (c.landAt (page * pageBytes c.pageSize) + data.length)).endPage o (.here data) page).fetchAhead))

/-- Table loads, their arrival and check, pace samples and the ceiling complete (R13, R20, R22, R121, R125, R145). In every state
and for all operands that meet the hypotheses of its clause, each of these commands answers the next state written there:
TABLE_LOAD, TABLE_HELD, TABLE_VERIFY, PACE_SAMPLE, CEILING_RECOMPUTE. A clause gives that whole state as the command's effect
on u, the state after the ticks dt have passed, so what it does not name stays as in u. The clauses also follow the model's
readings of log entries 23, 68, 71, 79. -/
def Obligations.TableCommandsComplete : Prop :=
  (∀ (s u : State) (dt : Nat) (ring : Fin 64) (slot : Nat) (d : Desc) (v w : State),
      s.down = false →
      u = s.elapse dt →
      u.startable ring.val slot 0x20 = some d →
      u.opening = false →
      ¬ (1 ≤ d.byte 8 ∧ d.byte 8 ≤ 4 ∧ d.byte 9 = 4) →
      u.jobFits d = true →
      v = u.wakeDomain (tableDomain (d.byte 8)) →
      v.isOn (tableDomain (d.byte 8)) = true →
      w = v.start d →
      exec (.tableLoad dt ring slot) s = .next (if w.lay.job.isSome then { w with lay := { w.lay with loads := w.lay.loads ++ [(d.order, .next)] } } else w)) ∧
  (∀ (s u : State) (dt : Nat) (ring : Fin 64) (slot : Nat) (list : List PageEnt) (data : List Byte) (d : Desc) (b : List Byte) (v : State),
      s.down = false →
      u = s.elapse dt →
      u.liveAs ring.val slot (fun d => decide (d.opcode = 0x20) && d.started) = some d →
      d.hostIn list data = some (0, b) →
      v = u.readHost d list →
      (v.endLoad d.order).tableCheck (d.byte 8) (d.byte 9) (d.byte 10) b = none →
      (v.endLoad d.order).tableBusy (d.byte 8) (d.byte 9) (d.byte 10) = false →
      exec (.tableHeld dt ring slot list data) s = .next (((v.endLoad d.order).holdTable d.order (d.byte 8) (d.byte 9) (d.byte 10) (v.loadBind d.order) b).complete d 0 0)) ∧
  (∀ (s u : State) (dt : Nat) (flips : List (Nat × Nat × Nat)) (v : State),
      s.down = false →
      u = s.elapse dt →
      v = flips.foldl State.flipTable u →
      v.fb Fld.INK_CTRL_verify_en = true →
      exec (.tableVerify dt flips) s = .next (((List.range 92).filter v.tableBad).foldl (fun s n => s.faultAt 44 255 n) v)) ∧
  (∀ (s u : State) (dt : Nat) (busy : List Nat) (v : State),
      s.down = false →
      u = s.elapse dt →
      busy.length = 32 →
      v = { u with ink := { u.ink with pace := (u.ink.pace.zip busy).map (fun p => p.1.sample u.fromStore u.now p.2) } } →
      exec (.paceSample dt busy) s = .next ((List.range 32).foldl State.judgePace { v with therm := { v.therm with busy := v.therm.busy.mapIdx (fun q n => n + ((busy.drop (8 * q)).take 8).countP (fun k => k ≠ 0)) } })) ∧
  (∀ (s u : State) (dt : Nat),
      s.down = false →
      u = s.elapse dt →
      exec (.ceilingRecompute dt) s = .next (u.recomputeCeiling))

/-- Composition and the REJECT pulse complete (R72, R73, R92, R93, R97, R181). In every state and for all operands that meet the
hypotheses of its clause, each of these commands answers the next state written there: COMPOSITION_BAND_START, BAND_COMPLETE,
COMPOSITION_RESUME, REJECT_DUE, REJECT_END. A clause gives that whole state as the command's effect on u, the state after the
ticks dt have passed, so what it does not name stays as in u. The clauses also follow the model's readings of log entries 19,
20, 22, 74, 76, 79. -/
def Obligations.CompositionCommandsComplete : Prop :=
  (∀ (s u : State) (dt : Nat) (j : Job) (live : Bool) (needs : List Nat) (v : State),
      s.down = false →
      u = s.elapse dt →
      u.lay.job = some j →
      j.accepted = true →
      u.lay.comp.any (fun c => c.band.isSome) = false →
      u.lay.stopped = false →
      live = (u.atBoundary || u.lay.comp.any (fun c => !c.fromStore)) →
      needs = [6] ++ (if live then [5] else []) ++ (if live && u.inflates j then [9] else []) →
      v = (u.wakeAll needs).callDram →
      needs.all v.isOn = true →
      v.dramUp = true →
      exec (.compositionBandStart dt) s = .next (v.composeStep j)) ∧
  (∀ (s u : State) (dt : Nat) (j : Job) (k k' : Comp) (first n : Nat) (v w x : State),
      s.down = false →
      u = s.elapse dt →
      u.lay.job = some j →
      u.lay.comp = some k →
      k.band = some (first, n) →
      k' = { k with pos := first + n, band := none } →
      v = (if first < k.length then u.markComplete j k first else u).onLay (fun l => { l with comp := some k' }) →
      (w = if !k.latched && decide (k.length ≤ first + n + j.latchLines) then v.passLatch j k' else v) →
      (x = if decide (k.pos < k.length) && decide (first + n = k.length) then w.imageComposed k' else w) →
      exec (.bandComplete dt) s = .next (if j.closed && decide (k.image = j.last) && decide (first + n = k.length + k.gap) then x.jobEnd else (x.onLay (fun l => { l with stopped := decide (x.leadLimit ≤ x.lead) })).leadBack.fetchAhead)) ∧
  (∀ (s u : State) (dt : Nat),
      s.down = false →
      u = s.elapse dt →
      u.lay.stopped = true →
      u.lead < u.leadLimit →
      exec (.compositionResume dt) s = .next ({ u with lay := { u.lay with stopped := false } })) ∧
  (∀ (s u : State) (dt : Nat) (r : Nat × Int),
      s.down = false →
      u = s.elapse dt →
      u.lay.rejects.find? (fun r => u.passed (u.rejectAt r.2)) = some r →
      exec (.rejectDue dt) s = .next ({ u with lay := { u.lay with rejects := u.lay.rejects.erase r } }.rejectNow)) ∧
  (∀ (s u : State) (dt : Nat) (t : Nat),
      s.down = false →
      u = s.elapse dt →
      u.lay.rejectEnd = some t →
      t ≤ u.now →
      exec (.rejectEnd dt) s = .next ({ u with lay := { u.lay with rejectEnd := none }, out := u.out ++ [.rejectEnd (!u.rejectHigh)] }))

/-- The NOZZLE_MAP descriptors complete (R183, R184, R272, R274, R277). In every state and for all operands that meet the
hypotheses of its clause, each of these commands answers the next state written there: NOZZLE_MAP_REMAP,
NOZZLE_MAP_STATUS_LOAD, NOZZLE_MAP_STATUS_READ, NOZZLE_MAP_SET, NOZZLE_MAP_RETEST. A clause gives that whole state as the
command's effect on u, the state after the ticks dt have passed, so what it does not name stays as in u. The clauses also
follow the model's readings of log entries 35, 68, 73. -/
def Obligations.NozzleMapCommandsComplete : Prop :=
  (∀ (s u : State) (dt : Nat) (ring : Fin 64) (slot : Nat) (list : List PageEnt) (data : List Byte) (y : State) (d : Desc) (g : Region) (b : List Byte) (v : State),
      s.down = false →
      u = s.elapse dt →
      u.startOp ring.val slot 0x21 0 = some d →
      u.opening = false →
      y = u.wakeDomain 6 →
      y.isOn 6 = true →
      v = (y.mapStart d).padAsk 3 (ceilDiv d.buf.length 2097152) (.remap d.order) →
      v.padOf (.remap d.order) = some g →
      d.hostIn list data = some (0, b) →
      exec (.nozzleMapRemap dt ring slot list data) s = .next ((v.readHost d list).remapArrived d g.id b)) ∧
  (∀ (s u : State) (dt : Nat) (ring : Fin 64) (slot : Nat) (list : List PageEnt) (data : List Byte) (y : State) (d : Desc) (b : List Byte) (m : List NzStat) (v w : State),
      s.down = false →
      u = s.elapse dt →
      u.startOp ring.val slot 0x21 1 = some d →
      u.opening = false →
      y = u.wakeDomain 6 →
      y.isOn 6 = true →
      d.hostIn list data = some (0, b) →
      v = y.readHost d list →
      v.mapOf (d.byte 9) (d.byte 10) b = some m →
      w = v.onNzHalf (d.byte 9) (d.byte 10) (fun z => { z with wait := z.wait ++ [(if v.lay.job = none then .free else .next, d.order, m)] }) →
      exec (.nozzleMapStatusLoad dt ring slot list data) s = .next ((if v.lay.job = none then w.takeFree (d.byte 9) (d.byte 10) else w).complete d 0 0)) ∧
  (∀ (s u : State) (dt : Nat) (ring : Fin 64) (slot : Nat) (list : List PageEnt) (y : State) (d : Desc),
      s.down = false →
      u = s.elapse dt →
      u.startOp ring.val slot 0x21 2 = some d →
      y = u.wakeDomain 6 →
      y.isOn 6 = true →
      d.hostOut list = some true →
      (y.mapBytes (d.byte 9) (d.byte 10)).length ≤ d.buf.length →
      exec (.nozzleMapStatusRead dt ring slot list) s = .next (((y.readList d).writeHost d (list.map (fun e => e.addr)) (y.mapBytes (d.byte 9) (d.byte 10))).complete d 0 0)) ∧
  (∀ (s u : State) (dt : Nat) (ring : Fin 64) (slot : Nat) (y : State) (d : Desc),
      s.down = false →
      u = s.elapse dt →
      u.startOp ring.val slot 0x21 3 = some d →
      y = u.wakeDomain 6 →
      y.isOn 6 = true →
      y.setRefused (d.byte 9) (d.byte 10) (d.num 12 4) (d.byte 11) = false →
      exec (.nozzleMapSet dt ring slot) s = .next ((y.changeStatus (d.byte 9) (d.byte 10) (d.num 12 4) (d.byte 11) 0 2).complete d 0 0)) ∧
  (∀ (s u : State) (dt : Nat) (ring : Fin 64) (slot : Nat) (y : State) (d : Desc),
      s.down = false →
      u = s.elapse dt →
      u.startOp ring.val slot 0x21 4 = some d →
      y = u.wakeDomain 6 →
      y.isOn 6 = true →
      y.retestCover (d.byte 9) (d.byte 10) (d.num 12 4) ≠ [] →
      exec (.nozzleMapRetest dt ring slot) s = .next (((y.start d).onNozzle (fun z => { z with retests := z.retests ++ [⟨d.order, d.byte 9, d.byte 10, (y.retestCover (d.byte 9) (d.byte 10) (d.num 12 4)).map (fun i => ⟨i, false, false, 0, true⟩), 0⟩] })).wantImp (d.byte 9) (some d.order)))

/-- Reports, element checks, snapshots and stale sweeps complete (R231, R265, R266, R267, R268, R274, R277). In every state and
for all operands that meet the hypotheses of its clause, each of these commands answers the next state written there:
GATE_REPORT, IMP_REPORT, IMP_REQUEST, NH_SNAPSHOT_WRITE, DD_STALE. A clause gives that whole state as the command's effect on
u, the state after the ticks dt have passed, so what it does not name stays as in u. The clauses also follow the model's
readings of log entries 35, 36, 73. -/
def Obligations.NozzleTestCommandsComplete : Prop :=
  (∀ (s u : State) (dt : Nat) (lane : Fin 32) (pkts : List (List Byte)),
      s.down = false →
      u = s.elapse dt →
      exec (.gateReport dt lane pkts) s = .next (u.reportPackets lane.val 0x50 (State.gatePacket (lane.val / 4)) 104 pkts)) ∧
  (∀ (s u : State) (dt : Nat) (lane : Fin 32) (pkts : List (List Byte)),
      s.down = false →
      u = s.elapse dt →
      exec (.impReport dt lane pkts) s = .next (u.reportPackets lane.val 0x60 (State.impPacket (lane.val / 4)) 105 pkts)) ∧
  (∀ (s u : State) (dt : Nat) (bar : Fin 8) (w : Option Nat) (ws : List (Option Nat)),
      s.down = false →
      u = s.elapse dt →
      u.isOn 6 = true →
      (u.nzBar bar.val).impWant = w :: ws →
      (u.nzBar bar.val).imp = none →
      (u.nzBar bar.val).canMeasure = true →
      (u.bar bar.val).fire = .disarmed →
      u.barUp bar.val = true →
      exec (.impRequest dt bar) s = .next ((u.onNzBar bar.val (fun z => { z with impWant := ws, impRest := [] })).sendImp bar.val [] ⟨0, false, [], [], [], [], [], false, false, w⟩)) ∧
  (∀ (s u : State) (dt : Nat),
      s.down = false →
      u = s.elapse dt →
      u.nozzle.changed = true →
      10000000000 ≤ u.now - u.nozzle.snapAt →
      exec (.nhSnapshotWrite dt) s = .next (u.writeStatusSnap)) ∧
  (∀ (s u : State) (dt : Nat) (bar : Fin 8),
      s.down = false →
      u = s.elapse dt →
      u.f Fld.JET_NH_AGE_dd_max_age ≠ 0 →
      u.armed bar.val = true →
      (u.nzBar bar.val).staleSaid = false →
      u.f Fld.JET_NH_AGE_dd_max_age * 1000000000 ≤ u.now - (u.nzBar bar.val).sweepAt →
      exec (.ddStale dt bar) s = .next ((u.onNzBar bar.val (fun z => { z with staleSaid := true })).fault 110))

/-- Calibration runs, records and splice complete (R492, R493, R497, R499, R500, R505, R508). In every state and for all operands
that meet the hypotheses of its clause, each of these commands answers the next state written there: CAL_RUN_TILE,
CAL_RUN_STRIP, CAL_RUN_READ, CAL_RUN_WRITE, MRAM_WRITE_DONE, MRAM_DEFERRED_WRITE, SPLICE_SET, SPLICE_EXPIRE. A clause gives
that whole state as the command's effect on u, the state after the ticks dt have passed, so what it does not name stays as in
u. The clauses also follow the model's readings of log entries 37, 47, 68. -/
def Obligations.CalibrationCommandsComplete : Prop :=
  (∀ (s u : State) (dt : Nat) (ring : Fin 64) (slot : Nat) (d : Desc) (v : State),
      s.down = false →
      u = s.elapse dt →
      u.calStart ring.val slot 0 = some d →
      u.source.state = .still →
      (u.calPort (d.byte 9)).tile = false →
      v = u.noteRead 0x23 (d.byte 9) →
      (v.record 0x23 (d.byte 9)).isSome = true →
      exec (.calRunTile dt ring slot) s = .next (((v.droverDrop (.cal (d.byte 9))).onCalPort (d.byte 9) (fun c => { c with tile := true, run := .pending, attempts := 0, meas := Meas.none, first := none, started := false })).joinRun d)) ∧
  (∀ (s u : State) (dt : Nat) (ring : Fin 64) (slot : Nat) (d : Desc),
      s.down = false →
      u = s.elapse dt →
      u.calStart ring.val slot 1 = some d →
      (u.calPort (d.byte 9)).traced = true →
      exec (.calRunStrip dt ring slot) s = .next (u.joinRun d)) ∧
  (∀ (s u : State) (dt : Nat) (ring : Fin 64) (slot : Nat) (read : RunRead) (d : Desc) (x : RecSlot) (v : State),
      s.down = false →
      u = s.elapse dt →
      u.calStart ring.val slot 2 = some d →
      d.hostOut read.list = some true →
      0x20 ≤ d.num 10 2 →
      v = ((u.readList d).readErrs (d.num 10 2) (d.byte 12) read.errs).noteRead (d.num 10 2) (d.byte 12) →
      (v.mrec (d.num 10 2) (d.byte 12)).inUse = some x →
      (x.header (d.num 10 2) (d.byte 12) ++ x.payload).length ≤ d.buf.length →
      exec (.calRunRead dt ring slot read) s = .next ((v.writeHost d (read.list.map (fun e => e.addr)) (x.header (d.num 10 2) (d.byte 12) ++ x.payload)).complete d 0 0)) ∧
  (∀ (s u : State) (dt : Nat) (ring : Fin 64) (slot : Nat) (list : List PageEnt) (data : List Byte) (d : Desc) (b : List Byte) (v : State),
      s.down = false →
      u = s.elapse dt →
      u.calStart ring.val slot 3 = some d →
      d.hostIn list data = some (0, b) →
      v = u.readHost d list →
      v.mayWrite (d.num 10 2) = true →
      recordFits (d.num 10 2) (d.byte 12) b = true →
      exec (.calRunWrite dt ring slot list data) s = .next ((v.start d).writeRecord (d.num 10 2) (d.byte 12) b (some d.order))) ∧
  (∀ (s u : State) (dt : Nat) (back : Readback) (w : MWrite) (v : State),
      s.down = false →
      u = s.elapse dt →
      u.cal.writes.find? (fun w => w.deferred.isNone) = some w →
      v = ({ u with cal := { u.cal with writes := u.cal.writes.erase w } }.countEcc back.corrected back.lost).putRecord w.typ w.sel w.payload (decide (back.mismatches.val < 2)) →
      exec (.mramWriteDone dt back) s = .next (State.settleShelf (w.descs.foldl (fun s o => s.completeAt o (if back.mismatches.val < 2 then 0 else 0x7C) 0) (v.redefer w.typ w.sel)))) ∧
  (∀ (s u : State) (dt typ sel : Nat),
      s.down = false →
      u = s.elapse dt →
      exec (.mramDeferredWrite dt typ sel) s = .next ({ u with cal := { u.cal with writes := u.cal.writes.map (fun w => if w.typ = typ ∧ w.sel = sel ∧ w.deferred.any (fun t => decide (t ≤ u.now)) then { w with deferred := none } else w) } })) ∧
  (∀ (s u : State) (dt : Nat) (v : State),
      s.down = false →
      u = s.elapse dt →
      u.writeOpen 1 Reg.CAL_CTRL.off = true →
      v = (u.noteWrite 1 Reg.CAL_CTRL.off (putBits (u.reg Reg.CAL_CTRL) 30 30 1)).setF Fld.CAL_CTRL_splice 1 →
      exec (.spliceSet dt) s = .next ({ v with cal := { v.cal with spliceAt := v.now } })) ∧
  (∀ (s u : State) (dt : Nat),
      s.down = false →
      u = s.elapse dt →
      u.fb Fld.CAL_CTRL_splice = true →
      u.cal.spliceAt + orIfZero (u.f Fld.CAL_CTRL_splice_ms) 1 * 1000000 ≤ u.now →
      exec (.spliceExpire dt) s = .next (u.setF Fld.CAL_CTRL_splice 0))

/-- Recording, sealing, losing, exporting and snapshots complete (R511, R513, R514, R515, R516, R518). In every state and for all
operands that meet the hypotheses of its clause, each of these commands answers the next state written there: TALLY_START,
TALLY_STOP, CHUNK, LOST, TALLY_EXPORT, SNAP_HOLD, TALLY_SNAP_DUMP. A clause gives that whole state as the command's effect on
u, the state after the ticks dt have passed, so what it does not name stays as in u. The clauses also follow the model's
readings of log entries 25, 28, 29. -/
def Obligations.TallyRecordingCommandsComplete : Prop :=
  (∀ (s u : State) (dt : Nat) (ring : Fin 64) (slot : Nat) (y : State) (d : Desc) (v : State),
      s.down = false →
      u = s.elapse dt →
      u.startOp ring.val slot 0x40 0 = some d →
      y = u.wakeDomain 9 →
      y.isOn 9 = true →
      y.lay.job = none →
      y.tally.state = .idle →
      y.tally.late = [] →
      y.startWaiting = none →
      v = ((((y.padFree .tally).onTally (fun t => { t with chunks := [], region := 0, pages := 0 })).start d).padAsk 5 (d.num 12 4) .tally).tallySettle →
      ((v.padOf .tally).isSome = true ∨ v.stageWait ≠ 0) →
      exec (.tallyStart dt ring slot) s = .next (v)) ∧
  (∀ (s u : State) (dt : Nat) (ring : Fin 64) (slot : Nat) (y : State) (d : Desc),
      s.down = false →
      u = s.elapse dt →
      u.startOp ring.val slot 0x40 1 = some d →
      y = u.wakeDomain 9 →
      y.isOn 9 = true →
      y.tally.state = .recording →
      exec (.tallyStop dt ring slot) s = .next ((y.endRecording 0).complete d 0 0)) ∧
  (∀ (s u : State) (dt : Nat),
      s.down = false →
      u = s.elapse dt →
      u.tally.state = .recording →
      u.tally.opened ≠ [] →
      u.tally.openedAt + orIfZero (u.f Fld.TALLY_CHUNK_CFG_chunk_ms) 1 * 1000000 ≤ u.now →
      exec (.chunk dt) s = .next (u.sealChunk)) ∧
  (∀ (s u : State) (dt n : Nat) (v : State),
      s.down = false →
      u = s.elapse dt →
      u.tally.state = .recording →
      0 < n →
      v = { u with tally := { u.tally with lost := u.tally.lost + n } }.bump ⟨Reg.TALLY_LOST, 31, 0⟩ n →
      exec (.lost dt n) s = .next (if u.tally.lost = 0 then v.raiseEv 243 else v)) ∧
  (∀ (s u : State) (dt : Nat) (ring : Fin 64) (slot : Nat) (list : List PageEnt) (y : State) (d : Desc) (cs : List Chunk) (r : List Byte × Option Nat × Bool) (v w : State),
      s.down = false →
      u = s.elapse dt →
      u.startOp ring.val slot 0x40 2 = some d →
      y = u.wakeDomain 9 →
      y.isOn 9 = true →
      d.hostOut list = some true →
      cs = y.tally.chunks.filter (fun c => decide ((if d.num 16 4 = 0xFFFFFFFF then y.tally.exported else d.num 16 4) ≤ c.num)) →
      cs ≠ [] →
      r = exportChunks d.buf.length cs →
      v = (y.readList d).writeHost d (list.map (fun e => e.addr)) r.1 →
      (w = match r.2.1 with | some n => v.onTally (fun t => { t with exported := n + 1 }) | none => v) →
      exec (.tallyExport dt ring slot list) s = .next (w.complete d (if r.2.2 then 0x6A else 0) r.1.length)) ∧
  (∀ (s u : State) (dt : Nat) (data : Word) (v : State),
      s.down = false →
      u = s.elapse dt →
      u.writeOpen 1 Reg.TALLY_SNAP_CTRL.off = true →
      v = u.noteWrite 1 Reg.TALLY_SNAP_CTRL.off data.toNat →
      v.isOn 9 = true →
      exec (.snapHold dt data) s = .next ({ v with tally := { v.tally with held := bitOf data.toNat 0 } })) ∧
  (∀ (s u : State) (dt : Nat) (ring : Fin 64) (slot : Nat) (list : List PageEnt) (y : State) (d : Desc),
      s.down = false →
      u = s.elapse dt →
      u.startOp ring.val slot 0x40 4 = some d →
      y = u.wakeDomain 9 →
      y.isOn 9 = true →
      d.hostOut list = some true →
      exec (.tallySnapDump dt ring slot list) s = .next ((((y.readList d).writeHost d (list.map (fun e => e.addr)) ((y.tally.banks.getD (d.byte 9 % 2) ⟨0, []⟩).bytes.take d.buf.length)).complete d 0 0).raiseEv 247))

/-- The commands of replay complete (R519, R520, R522, R523, R524, R528). In every state and for all operands that meet the
hypotheses of its clause, each of these commands answers the next state written there: TALLY_REPLAY, REPLAY_ENTRY,
REPLAY_HALT, REPLAY_WAIT_TIMEOUT, REPLAY_STOP, REPLAY_SESSION_EXPIRE, PADDOCK_GRANT. A clause gives that whole state as the
command's effect on u, the state after the ticks dt have passed, so what it does not name stays as in u. The clauses also
follow the model's readings of log entries 26, 29, 30, 31. -/
def Obligations.ReplayCommandsComplete : Prop :=
  (∀ (s u : State) (dt : Nat) (ring : Fin 64) (slot : Nat) (list : List PageEnt) (data : List Byte) (y : State) (d : Desc) (b : List Byte),
      s.down = false →
      u = s.elapse dt →
      u.startOp ring.val slot 0x40 3 = some d →
      y = u.wakeDomain 9 →
      y.isOn 9 = true →
      y.replayPermitted = true →
      y.lay.job = none →
      y.anyBarLive = false →
      y.tally.state = .idle →
      (bitOf (d.byte 9) 1 = true → d.hostIn list data = some (0, b)) →
      exec (.tallyReplay dt ring slot list data) s = .next (if bitOf (d.byte 9) 1 then (y.readHost d list).replayFrom d (parseChunks (b.length + 1) b) else y.replayFrom d (soundChunks y.tally.chunks))) ∧
  (∀ (s u : State) (dt : Nat) (e : Entry) (es : List Entry),
      s.down = false →
      u = s.elapse dt →
      u.replaying = true →
      u.replayBlocked = false →
      u.tally.play = e :: es →
      u.entryAt e ≤ u.tally.clock →
      exec (.replayEntry dt) s = .next ({ u with tally := { u.tally with play := es, playAt := max u.tally.playAt (u.entryAt e) } }.present e)) ∧
  (∀ (s u : State) (dt : Nat),
      s.down = false →
      u = s.elapse dt →
      u.replayBlocked = true →
      u.tally.haltSaid = false →
      u.tally.haltedAt + u.replayWait / 2 ≤ u.now →
      exec (.replayHalt dt) s = .next ({ u with tally := { u.tally with haltSaid := true } }.raiseEv 246)) ∧
  (∀ (s u : State) (dt : Nat) (e : Entry),
      s.down = false →
      u = s.elapse dt →
      u.tally.expected.find? (fun e => decide (e.kind = 0x60)) = some e →
      u.replayBlocked = true →
      u.tally.haltedAt + u.replayWait ≤ u.now →
      exec (.replayWaitTimeout dt) s = .next ({ u with tally := { u.tally with expected := u.tally.expected.erase e, haltedAt := u.now, haltSaid := false } }.diverge ⟨6, 0, e.sub, 0, 0, 0, 0⟩)) ∧
  (∀ (s u : State) (dt : Nat) (v : State),
      s.down = false →
      u = s.elapse dt →
      u.writeOpen 1 Reg.TALLY_CTRL.off = true →
      v = u.noteWrite 1 Reg.TALLY_CTRL.off (putBits (u.reg Reg.TALLY_CTRL) 31 31 1) →
      v.replaying = true →
      v.isOn 9 = true →
      exec (.replayStop dt) s = .next (v.replayEnd)) ∧
  (∀ (s u : State) (dt : Nat),
      s.down = false →
      u = s.elapse dt →
      u.sec.session.any (fun t => decide (t ≤ u.now)) = true →
      u.replaying = true →
      (u.sec.lc = .provisioned ∨ u.sec.lc = .field) →
      exec (.replaySessionExpire dt) s = .next ({ u with sec := { u.sec with session := none } }.replayEnd)) ∧
  (∀ (s u : State) (dt : Nat),
      s.down = false →
      u = s.elapse dt →
      exec (.paddockGrant dt) s = .next (((padJudge u.paddock.waiting [] u).padSettle).tallySettle))

/-- The wheel commands complete (R150, R151, R152, R156, R160). In every state and for all operands that meet the hypotheses of
its clause, each of these commands answers the next state written there: WHEEL_ENABLE, WHEEL_INPUT_CHANGE,
WHEEL_TRANSITION_ACCEPT, STILL_TIMEOUT, COAST_END. A clause gives that whole state as the command's effect on u, the state
after the ticks dt have passed, so what it does not name stays as in u. The clauses also follow the model's readings of log
entries 3, 40. -/
def Obligations.WheelCommandsComplete : Prop :=
  (∀ (s u : State) (dt : Nat) (wheel : Fin 2) (cfg : Word) (v : State),
      s.down = false →
      u = s.elapse dt →
      u.writeOpen 1 (Reg.BELL_W_CFG wheel.val).off = true →
      v = u.noteWrite 1 (Reg.BELL_W_CFG wheel.val).off cfg.toNat →
      v.sys.lock = false →
      bitOf cfg.toNat 31 = true →
      16 ≤ (v.setReg (Reg.BELL_W_CFG wheel.val) (cfg.toNat &&& 0x803BFFFF)).f (Fld.BELL_W_CFG_pitches wheel.val) →
      exec (.wheelEnable dt wheel cfg) s = .next ((v.setReg (Reg.BELL_W_CFG wheel.val) (cfg.toNat &&& 0x803BFFFF)).onWheel wheel.val (fun x => { x with a := { x.a with lvl := x.a.raw != (v.setReg (Reg.BELL_W_CFG wheel.val) (cfg.toNat &&& 0x803BFFFF)).inverted wheel.val false, change := none }, b := { x.b with lvl := x.b.raw != (v.setReg (Reg.BELL_W_CFG wheel.val) (cfg.toNat &&& 0x803BFFFF)).inverted wheel.val true, change := none }, bAt := none }))) ∧
  (∀ (s u : State) (dt : Nat) (wheel : Fin 2) (inputB level : Bool),
      u = s.elapse dt →
      exec (.wheelInputChange dt wheel inputB level) s = .next ((if s.down then s else u).inputChange wheel.val inputB level)) ∧
  (∀ (s u : State) (dt : Nat) (wheel : Fin 2) (inputB : Bool) (i : WInput) (t : Nat),
      s.down = false →
      u = s.elapse dt →
      i = (if inputB then (u.wheel wheel.val).b else (u.wheel wheel.val).a) →
      i.change = some t →
      u.fb (Fld.BELL_W_CFG_enable wheel.val) = true →
      u.replaying = false →
      u.filterNs wheel.val ≤ u.now - t →
      exec (.wheelTransitionAccept dt wheel inputB) s = .next (u.takeTransition wheel.val inputB (i.raw != u.inverted wheel.val inputB) t)) ∧
  (∀ (s u : State) (dt : Nat) (wheel : Fin 2) (v w : State),
      s.down = false →
      u = s.elapse dt →
      ((u.wheel wheel.val).state = .first ∨ (u.wheel wheel.val).state = .run ∨ (u.wheel wheel.val).state = .reversing) →
      u.stillNs ≤ u.now - (u.wheel wheel.val).edgeAt →
      v = u.onWheel wheel.val (fun x => { x with state := .still, speedValid := false, hist := [], fwdInterval := 0 }) →
      w = (v.onBell (fun b => { b with backRun := none })).segment v.bell.fire 0 none v.now →
      exec (.stillTimeout dt wheel) s = .next (if u.bell.src = wheel.val then (w.raiseEv 66).setSpeed 0 else v)) ∧
  (∀ (s u : State) (dt : Nat),
      s.down = false →
      u = s.elapse dt →
      exec (.coastEnd dt) s = .next ((u.endCoast 0).endCoast 1))

/-- ENC_OUT, line clock and tick PLL commands complete (R168, R174, R175). In every state and for all operands that meet the
hypotheses of its clause, each of these commands answers the next state written there: ENC_PULSE_END, TICK_PLL_UNLOCK,
TICK_PLL_LOCK, LINE_CLOCK_BOUNDARY. A clause gives that whole state as the command's effect on u, the state after the ticks
dt have passed, so what it does not name stays as in u. The clauses also follow the model's readings of log entries 40. -/
def Obligations.ClockAndEncoderCommandsComplete : Prop :=
  (∀ (s u : State) (dt : Nat) (t : Nat),
      s.down = false →
      u = s.elapse dt →
      u.bell.encEnd = some t →
      t ≤ u.now →
      u.bell.encWait = 0 →
      exec (.encPulseEnd dt) s = .next ({ u with bell := { u.bell with encEnd := none, encLast := some t, encNext := none } })) ∧
  (∀ (s u : State) (dt : Nat),
      s.down = false →
      u = s.elapse dt →
      u.bell.pllLock = true →
      exec (.tickPllUnlock dt) s = .next ({ u with bell := { u.bell with pllLock := false } }.fault 22)) ∧
  (∀ (s u : State) (dt : Nat),
      s.down = false →
      u = s.elapse dt →
      exec (.tickPllLock dt) s = .next ({ u with bell := { u.bell with pllLock := true } })) ∧
  (∀ (s u : State) (dt : Nat) (k : Int),
      s.down = false →
      u = s.elapse dt →
      u.encSrc = 2 →
      k = u.bell.hwm / 2 ^ 48 →
      ahead 32 (k * 2 ^ 48) (u.bell.encLine * 2 ^ 48) = true →
      exec (.lineClockBoundary dt) s = .next ({ u with bell := { u.bell with encLine := u.bell.encLine + 1 } }.encCount))

/-- Ticks, pulses, arming, disarming and HV_EN complete (R164, R165, R192, R198, R199, R200, R206). In every state and for all
operands that meet the hypotheses of its clause, each of these commands answers the next state written there: FIRE_TICK,
BURST_TICK, FIRE_PULSE_END, DOT_SEND_START, BAR_ARM, BAR_DISARM, HV_EN_WRITE. A clause gives that whole state as the
command's effect on u, the state after the ticks dt have passed, so what it does not name stays as in u. The clauses also
follow the model's readings of log entries 41, 75. -/
def Obligations.FiringCommandsComplete : Prop :=
  (∀ (s u : State) (dt : Nat) (bar : Fin 8) (found : TickCheck),
      s.down = false →
      u = s.elapse dt →
      u.isOn 6 = true →
      (u.bar bar.val).burstNext = none →
      u.lineDue bar.val (u.nextTick bar.val) = true →
      exec (.fireTick dt bar found) s = .next (u.fireNext bar.val false found.disagree found.stalled)) ∧
  (∀ (s u : State) (dt : Nat) (tick : BurstAt) (t : Nat),
      s.down = false →
      u = s.elapse dt →
      u.isOn 6 = true →
      (u.bar tick.bar.val).burstNext = some t →
      t ≤ u.now →
      u.lineDue tick.bar.val (u.nextTick tick.bar.val) = true →
      exec (.burstTick dt tick) s = .next (u.fireNext tick.bar.val true tick.found.disagree tick.found.stalled)) ∧
  (∀ (s u : State) (dt : Nat) (bar : Fin 8) (p : Bool × Nat),
      s.down = false →
      u = s.elapse dt →
      (u.bar bar.val).pulse = some p →
      p.2 ≤ u.now →
      exec (.firePulseEnd dt bar) s = .next (u.endPulse bar.val)) ∧
  (∀ (s u : State) (dt : Nat) (bar : Fin 8) (m : Nat),
      s.down = false →
      u = s.elapse dt →
      u.isOn 6 = true →
      m = max ((u.bar bar.val).nextSend.getD (u.nextTick bar.val)) (u.nextTick bar.val) →
      u.lineDue bar.val (m - u.aheadLines) = true →
      exec (.dotSendStart dt bar) s = .next (u.sendTick bar.val m)) ∧
  (∀ (s u : State) (dt : Nat) (bar : Fin 8) (v w x y : State),
      s.down = false →
      u = s.elapse dt →
      u.writeOpen 1 (Reg.JET_BAR_CTRL bar.val).off = true →
      v = u.noteWrite 1 (Reg.JET_BAR_CTRL bar.val).off (putBits (u.reg (Reg.JET_BAR_CTRL bar.val)) 31 31 1) →
      v.crook.state = .clear →
      v.fold.held.getD bar.val false = false →
      ((v.bar bar.val).inUse = true ∨ (v.bar bar.val).rings ≠ []) →
      v.armed bar.val = false →
      w = (v.setF (Fld.JET_BAR_CTRL_arm bar.val) 1).onBar bar.val (fun y => { y with fire := .activeStandby, activeB := (v.setF (Fld.JET_BAR_CTRL_arm bar.val) 1).fb (Fld.JET_BAR_CTRL_start_b bar.val), awaiting := [], markPending := false, lastEcho := none, lastFired := [none, none, none, none] }) →
      x = (((w.onNzBar bar.val (fun z => { z with sweepAt := w.now, staleSaid := false })).abortImp bar.val).wakeDown bar.val).wakeUp bar.val →
      (y = if (x.linkBar bar.val).us = .awake then x.syncBar bar.val else x.onLinkBar bar.val (fun l => { l with syncWait := true })) →
      exec (.barArm dt bar) s = .next (y.judgeHalves bar.val)) ∧
  (∀ (s u : State) (dt : Nat) (bar : Fin 8) (v : State),
      s.down = false →
      u = s.elapse dt →
      u.writeOpen 1 (Reg.JET_BAR_CTRL bar.val).off = true →
      v = u.noteWrite 1 (Reg.JET_BAR_CTRL bar.val).off (putBits (u.reg (Reg.JET_BAR_CTRL bar.val)) 31 31 0) →
      v.armed bar.val = true →
      exec (.barDisarm dt bar) s = .next (v.barDisarm bar.val 3)) ∧
  (∀ (s u : State) (dt : Nat) (bar : Fin 8) (level : Bool) (v : State),
      s.down = false →
      u = s.elapse dt →
      u.writeOpen 1 (Reg.JET_BAR_CTRL bar.val).off = true →
      v = u.noteWrite 1 (Reg.JET_BAR_CTRL bar.val).off (putBits (u.reg (Reg.JET_BAR_CTRL bar.val)) 30 30 (b2n level)) →
      v.crook.state = .clear →
      v.replaying = false →
      exec (.hvEnWrite dt bar level) s = .next ((v.setF (Fld.JET_BAR_CTRL_hv_en bar.val) (b2n level)).onBar bar.val (fun x => { x with hv := level })))

/-- Drills, repairs, line faults, reports and the self-test of a fire line complete (R201, R204, R205, R228). In every state and
for all operands that meet the hypotheses of its clause, each of these commands answers the next state written there:
DRILL_REQUEST, DRILL_START, FIRE_REPAIR, FIRE_PAD_FAULT, ECHO_TIMEOUT, ECHO_RECEIVE, FIRE_SELF_TEST. A clause gives that
whole state as the command's effect on u, the state after the ticks dt have passed, so what it does not name stays as in u.
The clauses also follow the model's readings of log entries 41, 75, 82. -/
def Obligations.FireLineCommandsComplete : Prop :=
  (∀ (s u : State) (dt : Nat) (bar : Fin 8),
      s.down = false →
      u = s.elapse dt →
      u.writeOpen 1 (Reg.JET_BAR_CTRL bar.val).off = true →
      exec (.drillRequest dt bar) s = .next ((u.noteWrite 1 (Reg.JET_BAR_CTRL bar.val).off (putBits (u.reg (Reg.JET_BAR_CTRL bar.val)) 29 29 1)).setF (Fld.JET_BAR_CTRL_drill bar.val) 1)) ∧
  (∀ (s u : State) (dt : Nat) (bar : Fin 8) (g : Int × Int),
      s.down = false →
      u = s.elapse dt →
      (u.bar bar.val).gapAt = some g →
      (u.bar bar.val).drillDue = true →
      (u.bar bar.val).fire = .activeStandby →
      u.nextTick bar.val = g.1 + 8 →
      exec (.drillStart dt bar) s = .next ((u.onBar bar.val (fun x => { x with fire := .drill, activeB := !x.activeB, drillDue := false, drill := some ⟨0, false, x.activeB⟩ })).syncBar bar.val)) ∧
  (∀ (s u : State) (dt : Nat) (bar : Fin 8) (lineB : Bool) (v w : State),
      s.down = false →
      u = s.elapse dt →
      u.writeOpen 1 (Reg.JET_BAR_CTRL bar.val).off = true →
      v = u.noteWrite 1 (Reg.JET_BAR_CTRL bar.val).off (u.reg (Reg.JET_BAR_CTRL bar.val) ||| (if lineB then 0x4000000 else 0x8000000)) →
      (v.bar bar.val).fire = .activeFailed →
      (v.bar bar.val).activeB ≠ lineB →
      (w = (if (v.bar bar.val).selfTest = some lineB ∨ (v.bar bar.val).testing.any (fun t => decide (t.lineB = lineB)) = true then v.dropLineTest bar.val else v)) →
      exec (.fireRepair dt bar lineB) s = .next ((w.onBar bar.val (fun x => { x with selfTest := (if x.selfTest = some lineB then none else x.selfTest), testing := (if x.testing.any (fun t => t.lineB = lineB) then none else x.testing), fire := .activeStandby })).raiseEv 121)) ∧
  (∀ (s u : State) (dt : Nat) (line : FireLine) (b : Nat),
      s.down = false →
      u = s.elapse dt →
      b = line.bar.val →
      exec (.firePadFault dt line) s = .next (if (u.bar b).testing.any (fun t => decide (t.lineB = line.lineB)) then u.testFailed b else if (u.bar b).activeB = line.lineB then u.lineFault 8 b .detector (u.bar b).lastPulse else u)) ∧
  (∀ (s u : State) (dt : Nat) (bar : Fin 8) (a : Awaiting) (rest : List Awaiting) (v w : State),
      s.down = false →
      u = s.elapse dt →
      (v = if (u.bar bar.val).testing.any (fun t => t.out.any (fun p => decide (p + u.echoNs < u.now))) then u.testFailed bar.val else u) →
      (v.bar bar.val).awaiting = a :: rest →
      a.at_ + v.echoNs < v.now →
      w = v.onBar bar.val (fun x => { x with awaiting := rest }) →
      exec (.echoTimeout dt bar) s = .next (if a.judge then w.lineLost bar.val a.tick else if a.lineB = (w.bar bar.val).activeB then w.lineFault 9 bar.val .detector (.now a.tick) else w)) ∧
  (∀ (s u : State) (dt : Nat) (lane : Fin 32) (pkt : List Byte),
      s.down = false →
      u = s.elapse dt →
      exec (.echoReceive dt lane pkt) s = .next (u.upPacket lane.val 0x20 pkt (fun s => if leAt pkt 1 1 = 8 then s.takeEcho (lane.val / 4) (lane.val % 4) pkt else s.hubProto lane.val))) ∧
  (∀ (s u : State) (dt : Nat) (bar : Fin 8) (l : Bool) (v : State),
      s.down = false →
      u = s.elapse dt →
      u.testMayRun 8 bar.val = true →
      u.testMayRun 9 bar.val = true →
      (u.bar bar.val).selfTest = some l →
      (u.bar bar.val).testDue = true →
      (u.bar bar.val).gapAt.isSome = true →
      (u.bar bar.val).fire = .activeFailed →
      u.replaying = false →
      v = u.onBar bar.val (fun x => { x with selfTest := none, testDue := false, testing := some ⟨l, u.now, 1, [u.now], 0, [0, 0, 0, 0]⟩ }) →
      exec (.fireSelfTest dt bar) s = .next ({ v with out := v.out ++ [Out.pulse bar.val l (min 1900 v.fireWidth), Out.pulseEnd bar.val l] }))

/-- The commands of lane training complete (R235, R236, R241, R242, R243, R244). In every state and for all operands that meet
the hypotheses of its clause, each of these commands answers the next state written there: LANE_TRAIN, LANE_OOS,
LANE_QUIET_DONE, LANE_EQ_ADAPTED, LANE_EQ_TIMEOUT, LANE_LOCK_TIMEOUT, TRAINING_SET_RECEIVE. A clause gives that whole state
as the command's effect on u, the state after the ticks dt have passed, so what it does not name stays as in u. The clauses
also follow the model's readings of log entries 38, 75. -/
def Obligations.LaneTrainingCommandsComplete : Prop :=
  (∀ (s u : State) (dt : Nat) (lane : Fin 32) (v : State),
      s.down = false →
      u = s.elapse dt →
      u.writeOpen 1 (Reg.LINK_CTRL lane.val).off = true →
      v = u.noteWrite 1 (Reg.LINK_CTRL lane.val).off (putBits (u.reg (Reg.LINK_CTRL lane.val)) 31 31 1) →
      v.fb (Fld.LINK_CTRL_oos lane.val) = false →
      v.isOn 6 = true →
      (v.lane lane.val).awaiting = false →
      (v.lane lane.val).tstate = .off →
      exec (.laneTrain dt lane) s = .next (v.askTrain lane.val (v.rateWanted lane.val 0))) ∧
  (∀ (s u : State) (dt : Nat) (lane : Fin 32) (out : Bool) (v : State),
      s.down = false →
      u = s.elapse dt →
      u.writeOpen 1 (Reg.LINK_CTRL lane.val).off = true →
      v = u.noteWrite 1 (Reg.LINK_CTRL lane.val).off (putBits (u.reg (Reg.LINK_CTRL lane.val)) 27 27 (b2n out)) →
      v.isOn 6 = true →
      out = true →
      exec (.laneOos dt lane out) s = .next (((v.setF (Fld.LINK_CTRL_oos lane.val) 1).leavePair lane.val 0 true).stopTraining lane.val)) ∧
  (∀ (s u : State) (dt : Nat) (lane : Fin 32),
      s.down = false →
      u = s.elapse dt →
      u.isOn 6 = true →
      (u.lane lane.val).tstate = .quiet →
      10000 ≤ u.now - (u.lane lane.val).since →
      exec (.laneQuietDone dt lane) s = .next (((u.loadSeed lane.val).onLane lane.val (fun l => { l with tstate := .eq, since := u.now })).putLane lane.val (.prbs (u.lane lane.val).rate))) ∧
  (∀ (s u : State) (dt : Nat) (lane : Fin 32) (eq : Word),
      s.down = false →
      u = s.elapse dt →
      u.isOn 6 = true →
      (u.lane lane.val).tstate = .eq →
      100000 ≤ u.now - (u.lane lane.val).since →
      exec (.laneEqAdapted dt lane eq) s = .next ((u.onLane lane.val (fun l => { l with tstate := .lock, since := u.now, eqSet := eq.toNat, goodMarkers := 0, farLocked := false, rxMarkerKnown := false, epoch := u.now / codewordTime l.rate + 1, base := u.now / codewordTime l.rate, txMarker := (l.txMarker + 1) % 65536 })).putSet lane.val)) ∧
  (∀ (s u : State) (dt : Nat) (lane : Fin 32),
      s.down = false →
      u = s.elapse dt →
      u.isOn 6 = true →
      (u.lane lane.val).tstate = .eq →
      (if (u.lane lane.val).seeded then 2000000 else 20000000) ≤ u.now - (u.lane lane.val).since →
      exec (.laneEqTimeout dt lane) s = .next (u.trainFail lane.val 1)) ∧
  (∀ (s u : State) (dt : Nat) (lane : Fin 32),
      s.down = false →
      u = s.elapse dt →
      u.isOn 6 = true →
      (u.lane lane.val).tstate = .lock →
      2000000 ≤ u.now - (u.lane lane.val).since →
      exec (.laneLockTimeout dt lane) s = .next (u.trainFail lane.val 2)) ∧
  (∀ (s u : State) (dt : Nat) (lane : Fin 32) (bytes : List Byte) (corr : Nat) (p v : State),
      s.down = false →
      u = s.elapse dt →
      u.isOn 6 = true →
      16 ≤ bytes.length →
      ((u.lane lane.val).tstate = .lock ∨ (u.lane lane.val).tstate = .negotiate ∨ (u.lane lane.val).tstate = .align) →
      ((u.lane lane.val).tstate = .lock → leAt bytes 1 1 % 32 = lane.val) →
      u.free = (corr, p) →
      v = ((p.countCorr lane.val (corr % 16)).onLane lane.val (fun l => { l with farAsk := bitOf (leAt bytes 3 1) 0, farWill := bitOf (leAt bytes 3 1) 1 })).renewSet lane.val (u.setShows lane.val) →
      exec (.trainingSetReceive dt lane bytes) s = .next (match (u.lane lane.val).tstate with | .lock => ((v.serveFir lane.val (leAt bytes 4 1)).onLane lane.val (fun l => { l with farLocked := bitOf (leAt bytes 0 1) 7 })).lockDone lane.val | .negotiate => v.negotiate lane.val (leAt bytes 2 1) | _ => if leAt bytes 0 1 % 128 = 5 then ((v.onLane lane.val (fun l => { l with preRx := bitOf (leAt bytes 3 1) 1 })).onLane lane.val (fun l => { l with trainQ := leAt bytes 8 4, qKnown := true })).alignDone lane.val else v.onLane lane.val (fun l => { l with preRx := bitOf (leAt bytes 3 1) 1 })))

/-- Markers, codewords and their losses complete (R222, R223, R235, R254). In every state and for all operands that meet the
hypotheses of its clause, each of these commands answers the next state written there: MARKER_RECEIVE, MARKER_MISSING,
CODEWORD_RECEIVE, LANE_SIGNAL_LOSS, FEC_WARN. A clause gives that whole state as the command's effect on u, the state after
the ticks dt have passed, so what it does not name stays as in u. The clauses also follow the model's readings of log entries
39, 75. -/
def Obligations.LaneTrafficCommandsComplete : Prop :=
  (∀ (s u : State) (dt : Nat) (lane : Fin 32) (word : MarkerWord) (k : Nat) (v : State),
      s.down = false →
      u = s.elapse dt →
      u.isOn 6 = true →
      word.fec = some k →
      (u.lane lane.val).tstate = .active →
      (u.linkBar (lane.val / 4)).us = .awake →
      (u.lane lane.val).markerGood lane.val word.bytes = true →
      v = u.markerFec lane.val word.fec →
      (v.lane lane.val).inPair = true →
      exec (.markerReceive dt lane word) s = .next (v.serveMarker lane.val word.bytes)) ∧
  (∀ (s u : State) (dt : Nat) (lane : Fin 32),
      s.down = false →
      u = s.elapse dt →
      u.isOn 6 = true →
      (u.lane lane.val).tstate = .active →
      (u.linkBar (lane.val / 4)).us = .awake →
      exec (.markerMissing dt lane) s = .next (u.leavePair lane.val 7 false)) ∧
  (∀ (s u : State) (dt : Nat) (lane : Fin 32) (symbols : List Nat) (idx : List Nat) (r : Option (Nat × List Byte × Nat) × Nat) (v : State),
      s.down = false →
      u = s.elapse dt →
      u.isOn 6 = true →
      (u.lane lane.val).tstate = .active →
      (u.linkBar (lane.val / 4)).us ≠ .asleep →
      symbols.length = 2720 →
      idx = symbols.map (fun x => x % 4) →
      r = decodeCodeword (u.lane lane.val).preRx (u.lane lane.val).rxPrev (u.lane lane.val).rxS idx →
      v = u.onLane lane.val (fun l => { l with rxS := r.2, rxPrev := idx.getLastD 0 }) →
      exec (.codewordReceive dt lane symbols) s = .next (match r.1 with | none => (v.onLane lane.val (fun l => { l with rxBuf := [], rxResync := true })).badCodeword lane.val | some (k, b, c) => v.goodCodeword lane.val k b c)) ∧
  (∀ (s u : State) (dt : Nat) (lane : Fin 32),
      s.down = false →
      u = s.elapse dt →
      u.isOn 6 = true →
      (u.linkBar (lane.val / 4)).us = .awake →
      exec (.laneSignalLoss dt lane) s = .next (u.leavePair lane.val 6 false)) ∧
  (∀ (s u : State) (dt : Nat) (lane : Fin 32),
      s.down = false →
      u = s.elapse dt →
      u.isOn 6 = true →
      u.f Fld.LINK_FEC_WARN_fec_warn ≠ 0 →
      u.f Fld.LINK_FEC_WARN_fec_warn < (u.lane lane.val).corrMs u.now →
      (u.lane lane.val).fecWarned = false →
      exec (.fecWarn dt lane) s = .next ((u.onLane lane.val (fun l => { l with fecWarned := true })).laneEv lane.val 106))

/-- The BAR_CFG descriptors and their replies complete (R229, R252). In every state and for all operands that meet the hypotheses
of its clause, each of these commands answers the next state written there: BAR_CFG_TRAIN, BAR_CFG_WRITE, BAR_CFG_READ,
BAR_CFG_SLEEP, BAR_CFG_WAKE, CFG_ACK_RECEIVE, STAT_DATA_RECEIVE, CFG_ACK_TIMEOUT. A clause gives that whole state as the
command's effect on u, the state after the ticks dt have passed, so what it does not name stays as in u. The clauses also
follow the model's readings of log entries 38, 39, 75. -/
def Obligations.BarCfgCommandsComplete : Prop :=
  (∀ (s u : State) (dt : Nat) (ring : Fin 64) (slot : Nat) (y : State) (d : Desc) (v : State),
      s.down = false →
      u = s.elapse dt →
      u.startOp ring.val slot 0x22 0 = some d →
      y = u.wakeDomain 6 →
      y.isOn 6 = true →
      (scopeBars (d.byte 9)).any (fun b => y.armed b) = false →
      (scopeBars (d.byte 9)).any (fun b => y.outOfService b) = false →
      v = (scopeBars (d.byte 9)).foldl (fun s b => s.trainBar (d.byte 10) b) (y.start d) →
      exec (.barCfgTrain dt ring slot) s = .next (((v.onLink (fun l => { l with trains := l.trains ++ [⟨d.order, d.byte 9⟩] })).recomputeCeiling).settleTrains)) ∧
  (∀ (s u : State) (dt : Nat) (ring : Fin 64) (slot : Nat) (y : State) (d : Desc) (v : State),
      s.down = false →
      u = s.elapse dt →
      u.startOp ring.val slot 0x22 1 = some d →
      y = u.wakeDomain 6 →
      y.isOn 6 = true →
      v = y.barRequest d false (fun c => cfgPkt c (d.num 12 4) ((d.bytes.drop 24).take (4 * d.byte 11))) →
      exec (.barCfgWrite dt ring slot) s = .next (if covers (d.num 12 4) (d.byte 11) 0x100 then (scopeBars (d.byte 9)).foldl (fun s b => s.wantImp b none) v else v)) ∧
  (∀ (s u : State) (dt : Nat) (ring : Fin 64) (slot : Nat) (y : State) (d : Desc),
      s.down = false →
      u = s.elapse dt →
      u.startOp ring.val slot 0x22 2 = some d →
      y = u.wakeDomain 6 →
      y.isOn 6 = true →
      exec (.barCfgRead dt ring slot) s = .next (y.barRequest d true (fun c => statPkt c (d.num 12 4) (d.byte 11)))) ∧
  (∀ (s u : State) (dt : Nat) (ring : Fin 64) (slot : Nat) (y : State) (d : Desc) (f : State → Nat → State) (v : State),
      s.down = false →
      u = s.elapse dt →
      u.startOp ring.val slot 0x22 3 = some d →
      y = u.wakeDomain 6 →
      y.isOn 6 = true →
      (f = fun s b => if bitOf (d.byte 10) 1 = false then s.wakeUp b else if (s.linkBar b).us = .asleep then s else if s.barUp b then s.sendSleepUp b else (s.onLinkBar b (fun l => { l with us := .asleep })).laneEv (4 * b) 102) →
      v = (y.start d).onLink (fun l => { l with sleeps := l.sleeps ++ [⟨d.order, d.byte 9, d.byte 10, false⟩] }) →
      exec (.barCfgSleep dt ring slot) s = .next (((scopeBars (d.byte 9)).foldl (fun s b => if bitOf (d.byte 10) 0 && ((f s b).linkBar b).ds ≠ .asleep then (f s b).sleepDown b else f s b) v).settleSleeps)) ∧
  (∀ (s u : State) (dt : Nat) (ring : Fin 64) (slot : Nat) (y : State) (d : Desc) (v : State),
      s.down = false →
      u = s.elapse dt →
      u.startOp ring.val slot 0x22 4 = some d →
      y = u.wakeDomain 6 →
      y.isOn 6 = true →
      v = (if bitOf (d.byte 10) 0 then (y.start d).retire d else y.start d).onLink (fun l => { l with sleeps := l.sleeps ++ [⟨d.order, d.byte 9, d.byte 10, true⟩] }) →
      exec (.barCfgWake dt ring slot) s = .next (((scopeBars (d.byte 9)).foldl (fun s b => ((fun (s : State) => if bitOf (d.byte 10) 0 then s.wakeDown b else s) (s.onLinkBar b (fun l => { l with dsOver := l.dsOver || bitOf (d.byte 10) 0, usOver := l.usOver || bitOf (d.byte 10) 1 }))).wakeUp b) v).settleSleeps)) ∧
  (∀ (s u : State) (dt : Nat) (lane : Fin 32) (pkt : List Byte),
      s.down = false →
      u = s.elapse dt →
      exec (.cfgAckReceive dt lane pkt) s = .next (u.upPacket lane.val 0x31 pkt (State.takeReply lane.val false pkt))) ∧
  (∀ (s u : State) (dt : Nat) (lane : Fin 32) (pkt : List Byte),
      s.down = false →
      u = s.elapse dt →
      exec (.statDataReceive dt lane pkt) s = .next (u.upPacket lane.val 0x41 pkt (State.takeReply lane.val true pkt))) ∧
  (∀ (s u : State) (dt : Nat) (bar : Fin 8) (ctag : Nat) (r : HubReq) (v : State),
      s.down = false →
      u = s.elapse dt →
      u.isOn 6 = true →
      u.link.reqs.find? (fun r => decide (r.ctag = ctag) && bitOf r.bars bar.val && !bitOf (r.acked ||| r.naked) bar.val && !u.queuedPkt r.pkt && decide (orIfZero (u.f Fld.LINK_GLOBAL_cfg_timeout) 1 * 1000 ≤ u.now - r.since)) = some r →
      r.tries < 2 →
      v = ((scopeBars r.bars).filter (fun b => !bitOf (r.acked ||| r.naked) b)).foldl (fun s b => s.sendCtl b 3 r.pkt) u →
      exec (.cfgAckTimeout dt bar ctag) s = .next (v.onLink (fun l => { l with reqs := l.reqs.map (fun x => if x.ctag = ctag then { x with tries := 2, since := v.now } else x) })))

/-- Sleeping and waking of a bar's directions complete (R245, R246, R247, R248). In every state and for all operands that meet
the hypotheses of its clause, each of these commands answers the next state written there: HUB_SLEEP_RECEIVE,
HUB_WAKE_RECEIVE, DS_SLEEP_ENTER, US_SLEEP_ENTER, WAKE_COMPLETE, WAKE_LATE. A clause gives that whole state as the command's
effect on u, the state after the ticks dt have passed, so what it does not name stays as in u. The clauses also follow the
model's readings of log entries 39, 75. -/
def Obligations.SleepCommandsComplete : Prop :=
  (∀ (s u : State) (dt : Nat) (lane : Fin 32) (pkt : List Byte),
      s.down = false →
      u = s.elapse dt →
      exec (.hubSleepReceive dt lane pkt) s = .next (u.upPacket lane.val 0x80 pkt (fun s => ((s.onLinkBar (lane.val / 4) (fun l => { l with us := if l.us = .waking && !l.usPending then .waking else .asleep, usPending := false })).laneEv (4 * (lane.val / 4)) 102).settleSleeps))) ∧
  (∀ (s u : State) (dt : Nat) (lane : Fin 32) (pkt : List Byte),
      s.down = false →
      u = s.elapse dt →
      exec (.hubWakeReceive dt lane pkt) s = .next (u.upPacket lane.val 0x90 pkt (fun s => if bitOf (leAt pkt 1 1) 0 then s.wakeDown (lane.val / 4) else s))) ∧
  (∀ (s u : State) (dt : Nat) (bar : Fin 8),
      s.down = false →
      u = s.elapse dt →
      u.isOn 6 = true →
      u.fb (Fld.LINK_BAR_CTRL_ds_sleep_en bar.val) = true →
      (((u.bar bar.val).fire = .disarmed ∧ u.sleepAfter bar.val ≤ u.now - (u.linkBar bar.val).offSince) ∨ (u.linkBar bar.val).farSince.any (fun t => decide (u.sleepAfter bar.val ≤ u.now - t)) = true) →
      (u.linkBar bar.val).ds = .awake →
      (u.linkBar bar.val).dsPending = false →
      (u.linkBar bar.val).dsOver = false →
      u.quietDown bar.val = true →
      exec (.dsSleepEnter dt bar) s = .next (u.sleepDown bar.val)) ∧
  (∀ (s u : State) (dt : Nat) (bar : Fin 8),
      s.down = false →
      u = s.elapse dt →
      u.isOn 6 = true →
      u.fb (Fld.LINK_BAR_CTRL_us_sleep_en bar.val) = true →
      (u.bar bar.val).fire = .disarmed →
      (u.linkBar bar.val).us = .awake →
      (u.linkBar bar.val).usPending = false →
      (u.linkBar bar.val).usOver = false →
      u.sleepAfter bar.val ≤ u.now - (u.linkBar bar.val).offSince →
      exec (.usSleepEnter dt bar) s = .next (u.sendSleepUp bar.val)) ∧
  (∀ (s u : State) (dt : Nat) (bar : Fin 8) (upstream : Bool),
      s.down = false →
      u = s.elapse dt →
      u.isOn 6 = true →
      (if upstream then (u.linkBar bar.val).us ≠ .awake else (u.linkBar bar.val).ds = .waking ∧ 6000 ≤ u.now - (u.linkBar bar.val).wakeSince) →
      exec (.wakeComplete dt bar upstream) s = .next (if upstream then u.awakeUp bar.val else u.awakeDown bar.val)) ∧
  (∀ (s u : State) (dt : Nat) (bar : Fin 8) (upstream : Bool) (lane : Fin 32),
      s.down = false →
      u = s.elapse dt →
      (u.lane lane.val).inPair = true →
      u.isOn 6 = true →
      lane.val / 4 = bar.val →
      (if upstream then (u.linkBar bar.val).us = .waking ∧ 12000 < u.now - (u.linkBar bar.val).usWakeAt else (u.linkBar bar.val).ds = .waking ∧ 12000 < u.now - (u.linkBar bar.val).wakeSince) →
      exec (.wakeLate dt bar upstream lane) s = .next ((u.leavePair lane.val 11 false).laneFault 5 lane.val))

/-- The camera descriptors complete (R285, R286, R299, R301). In every state and for all operands that meet the hypotheses of its
clause, each of these commands answers the next state written there: CAM_CFG_CONTEXT, CAM_CFG_DEFECT, CAM_CFG_SHADING,
CAM_CFG_UPLOAD, EXPOSE_SET, I2C_WRITE_DONE. A clause gives that whole state as the command's effect on u, the state after the
ticks dt have passed, so what it does not name stays as in u. The clauses also follow the model's readings of log entries 45,
68, 80. -/
def Obligations.CameraDescriptorsComplete : Prop :=
  (∀ (s u : State) (dt : Nat) (ring : Fin 64) (slot : Nat) (list : List PageEnt) (data : List Byte) (y : State) (d : Desc) (b : List Byte) (v : State),
      s.down = false →
      u = s.elapse dt →
      u.camStart ring.val slot 0 = some d →
      y = u.wakeDomain 7 →
      y.isOn 7 = true →
      d.hostIn list data = some (0, b) →
      v = y.readHost d list →
      contextOk (v.camPort (d.byte 9)).columns b = true →
      exec (.camCfgContext dt ring slot list data) s = .next ((v.onPort (d.byte 9) (fun p => { p with blockWait := joinShadow (v.now, b) p.blockWait })).complete d 0 0)) ∧
  (∀ (s u : State) (dt : Nat) (ring : Fin 64) (slot : Nat) (list : List PageEnt) (data : List Byte) (y : State) (d : Desc) (b : List Byte) (v : State),
      s.down = false →
      u = s.elapse dt →
      u.camStart ring.val slot 1 = some d →
      y = u.wakeDomain 7 →
      y.isOn 7 = true →
      d.hostIn list data = some (0, b) →
      v = y.readHost d list →
      defectOk b = true →
      exec (.camCfgDefect dt ring slot list data) s = .next ((v.onPort (d.byte 9) (fun p => { p with defectWait := joinShadow (v.now, b) p.defectWait })).complete d 0 0)) ∧
  (∀ (s u : State) (dt : Nat) (ring : Fin 64) (slot : Nat) (list : List PageEnt) (data : List Byte) (y : State) (d : Desc) (b : List Byte) (v : State),
      s.down = false →
      u = s.elapse dt →
      u.camStart ring.val slot 2 = some d →
      y = u.wakeDomain 7 →
      y.isOn 7 = true →
      d.hostIn list data = some (0, b) →
      v = y.readHost d list →
      shadingOk b = true →
      exec (.camCfgShading dt ring slot list data) s = .next ((v.onPort (d.byte 9) (fun p => { p with shadingWait := joinShadow (v.now, b) p.shadingWait })).complete d 0 0)) ∧
  (∀ (s u : State) (dt : Nat) (ring : Fin 64) (slot : Nat) (list : List PageEnt) (y : State) (d : Desc),
      s.down = false →
      u = s.elapse dt →
      u.camStart ring.val slot 3 = some d →
      y = u.wakeDomain 7 →
      y.isOn 7 = true →
      d.hostOut list = some true →
      exec (.camCfgUpload dt ring slot list) s = .next (((((y.readList d).dropUpload (d.byte 9)).onPort (d.byte 9) (fun p => { p with upPages := list.map (fun e => e.addr), upSize := d.buf.pageSize, upLen := d.buf.length, upOff := 0, upTake := (if p.inFrame then some false else none), upData := [], upWait := [] })).droverDrop (.upload (d.byte 9))).complete d 0 0)) ∧
  (∀ (s u : State) (dt : Nat) (ring : Fin 64) (slot : Nat) (y : State) (d : Desc),
      s.down = false →
      u = s.elapse dt →
      u.startable ring.val slot 0x32 = some d →
      y = u.wakeDomain 7 →
      y.isOn 7 = true →
      (y.camPort (d.byte 8)).enabled = true →
      exec (.exposeSet dt ring slot) s = .next (((y.start d).onSee (fun x => { x with buses := x.buses.modify (y.camPort (d.byte 8)).bus (fun b => { b with queue := insertRising d.order b.queue }) })).i2cNext (y.camPort (d.byte 8)).bus)) ∧
  (∀ (s u : State) (dt : Nat) (bus : Fin 2) (outcome : Fin 3) (o : Nat) (d : Desc) (v : State),
      s.down = false →
      u = s.elapse dt →
      (u.see.buses.getD bus.val ⟨[], none⟩).busy = some o →
      v = { u with see := { u.see with buses := u.see.buses.modify bus.val (fun b => { b with busy := none }) } } →
      v.descAt o = some d →
      outcome.val = 0 →
      exec (.i2cWriteDone dt bus outcome) s = .next (((v.onPort (d.byte 8) (fun p => if p.enabled then { p with pendingGens := ⟨d.num 10 2, d.num 12 4, v.now⟩ :: p.pendingGens } else p)).complete d 0 (d.num 10 2)).i2cNext bus.val))

/-- Ports, frames, lines, pipelines and sensor temperatures complete (R279, R280, R281, R283, R284, R285, R287, R294). In every
state and for all operands that meet the hypotheses of its clause, each of these commands answers the next state written
there: PORT_ENABLE, CSI_FRAME_START, CSI_LINE, CSI_FRAME_END, PORT_SILENT, VP_LINE, SENSOR_TEMP_READ. A clause gives that
whole state as the command's effect on u, the state after the ticks dt have passed, so what it does not name stays as in u.
The clauses also follow the model's readings of log entries 44, 45, 80. -/
def Obligations.CameraCommandsComplete : Prop :=
  (∀ (s u : State) (dt : Nat) (port : Fin 6) (cfg : Word) (v w x : State),
      s.down = false →
      u = s.elapse dt →
      u.writeOpen 1 (Reg.SEE_PORT_CFG port.val).off = true →
      v = u.noteWrite 1 (Reg.SEE_PORT_CFG port.val).off cfg.toNat →
      v.isOn 7 = true →
      bitOf cfg.toNat 31 = true →
      (v.camPort port.val).enabled = false →
      portCfgOk port.val (bits cfg.toNat 14 12) (bits cfg.toNat 21 16) (v.reg (Reg.SEE_PORT_GEOM port.val) % 65536) = true →
      w = (((((v.setF (Fld.SEE_PORT_CFG_vc port.val) (bits cfg.toNat 27 24)).setF (Fld.SEE_PORT_CFG_dt port.val) (bits cfg.toNat 21 16)).setF (Fld.SEE_PORT_CFG_lanes port.val) (bits cfg.toNat 14 12)).setF (Fld.SEE_PORT_CFG_i2c_bus port.val) (bits cfg.toNat 11 11)).setF (Fld.SEE_PORT_CFG_i2c_addr port.val) (bits cfg.toNat 10 4)).setF (Fld.SEE_PORT_CFG_enable port.val) 1 →
      x = (w.dropUpload port.val).onPort port.val (fun p => { p with enabled := true, lanes := bits cfg.toNat 14 12, dtype := bits cfg.toNat 21 16, vc := bits cfg.toNat 27 24, columns := v.reg (Reg.SEE_PORT_GEOM port.val) % 65536, frameLines := v.reg (Reg.SEE_PORT_GEOM port.val) / 65536, bus := bits cfg.toNat 11 11, addr := bits cfg.toNat 10 4, gen := 0, pendingGens := [], inFrame := false, truncated := false, lineErr := false, fsAt := w.now, silent := false, lineNo := 0, fifo := [], history := [], record := Rec.empty, candidates := [], stats := [] }) →
      exec (.portEnable dt port cfg) s = .next (if (x.padOf (.stats port.val)).isSome || x.paddock.waiting.any (fun q => q.holder = .stats port.val) then x else x.padAsk 4 1 (.stats port.val))) ∧
  (∀ (s u : State) (dt : Nat) (port : Fin 6),
      s.down = false →
      u = s.elapse dt →
      u.portLive port.val = true →
      (u.camPort port.val).inFrame = false →
      exec (.csiFrameStart dt port) s = .next (u.startFrame port.val)) ∧
  (∀ (s u : State) (dt : Nat) (port : Fin 6) (data : List Byte) (k : CsiPkt),
      s.down = false →
      u = s.elapse dt →
      u.portLive port.val = true →
      csiParse data = some (k, false) →
      k.vc = (u.camPort port.val).vc →
      k.dtype = (u.camPort port.val).dtype →
      (u.camPort port.val).inFrame = true →
      exec (.csiLine dt port data) s = .next (u.putLine port.val k)) ∧
  (∀ (s u : State) (dt : Nat) (port : Fin 6),
      s.down = false →
      u = s.elapse dt →
      u.portLive port.val = true →
      (u.camPort port.val).inFrame = true →
      (u.camPort port.val).frameLines ≤ (u.camPort port.val).lineNo →
      exec (.csiFrameEnd dt port) s = .next (u.closeFrame port.val)) ∧
  (∀ (s u : State) (dt : Nat) (port : Fin 6),
      s.down = false →
      u = s.elapse dt →
      u.portLive port.val = true →
      (u.camPort port.val).silent = false →
      u.f (Fld.SEE_PORT_TIMEOUT_frame_timeout port.val) ≠ 0 →
      u.source.state ≠ .still →
      max (u.camPort port.val).fsAt u.bell.moveAt + u.f (Fld.SEE_PORT_TIMEOUT_frame_timeout port.val) * 1000000 ≤ u.now →
      exec (.portSilent dt port) s = .next ((((u.onPort port.val (fun p => { p with silent := true })).fault 60).raiseEv 134).closeEsts)) ∧
  (∀ (s u : State) (dt : Nat) (pipe : Fin 4) (c : Nat),
      s.down = false →
      u = s.elapse dt →
      u.isOn 7 = true →
      ((u.camPort pipe.val).fifo ≠ [] ∧ c = 0 ∨ (u.camPort pipe.val).fifo = [] ∧ 2 ≤ pipe.val ∧ (u.camPort (pipe.val + 2)).fifo ≠ [] ∧ c = 1) →
      exec (.vpLine dt pipe) s = .next (u.pipeTakes pipe.val c)) ∧
  (∀ (s u : State) (dt : Nat) (port : Fin 6) (value : Word) (ok : Bool) (v : State),
      s.down = false →
      u = s.elapse dt →
      u.isOn 7 = true →
      (u.camPort port.val).enabled = true →
      u.fb (Fld.SEE_PORT_TEMPCFG_temp_en port.val) = true →
      (u.see.buses.getD (u.camPort port.val).bus ⟨[], none⟩).busy = none →
      v = { u with out := u.out ++ [.i2cRead (u.camPort port.val).bus (u.camPort port.val).addr (u.f (Fld.SEE_PORT_TEMPCFG_reg_addr port.val)) 2] } →
      exec (.sensorTempRead dt port value ok) s = .next (if ok then (v.onPort port.val (fun p => { p with temp := ofTwos 16 value.toNat, tempAt := v.now })).calByTemp port.val else v.fault 59))

/-- Fills, re-screening, snapshots and the restart of the colour hold complete (R310, R325, R326, R327, R328). In every state and
for all operands that meet the hypotheses of its clause, each of these commands answers the next state written there:
HOLD_FILL_DONE, GRAZE_START, GRAZE_COMPLETE, HOLD_SNAPSHOT, HOLD_RESTART. A clause gives that whole state as the command's
effect on u, the state after the ticks dt have passed, so what it does not name stays as in u. The clauses also follow the
model's readings of log entries 46. -/
def Obligations.HoldCommandsComplete : Prop :=
  (∀ (s u : State) (dt : Nat),
      s.down = false →
      u = s.elapse dt →
      u.hold.filling = true →
      u.hold.waitFill = false →
      exec (.holdFillDone dt) s = .next ({ u with hold := { u.hold with filling := false, waitFill := false } })) ∧
  (∀ (s u : State) (dt : Nat) (j : Job) (x : Store) (n c : Nat) (r : Store × List (Screened × Nat) × List CovRow) (y p q v w : State),
      s.down = false →
      u = s.elapse dt →
      u.lay.job = some j →
      u.lay.store = some x →
      u.hold.graze = .awaitGrant →
      u.droverHas .graze = true →
      y = (u.wakeDomain 5).callDram →
      y.isOn 5 = true →
      y.dramUp = true →
      n = y.storePages j x.length →
      p = y.padRejudge →
      p.padMay 1 n = true →
      p.padFirst 1 = true →
      q = (p.padGive 1 n .grazeCopy).wroteHolder .grazeCopy →
      c = covPagesOf x.length j.width →
      v = (if q.padMay 4 c = true ∧ q.padFirst 4 = true then (q.padGive 4 c .grazeCov).wroteHolder .grazeCov else q).raiseEv 138 →
      r = v.rescreen j x →
      w = r.2.1.foldl (fun s k => s.countBand k.1 k.2) v →
      exec (.grazeStart dt) s = .next (w.onHold (fun h => { h with graze := .running, grazeLines := 0, grazeStore := some r.1, grazeFill := some h.active, grazeCov := r.2.2 }))) ∧
  (∀ (s u : State) (dt : Nat),
      s.down = false →
      u = s.elapse dt →
      u.hold.graze = .running →
      exec (.grazeComplete dt) s = .next (State.droverDrop .graze { u with hold := { u.hold with graze := .awaitSwap, grazeLines := (u.hold.grazeStore.map (fun x => x.length)).getD 0, dirty := u.hold.dirty || u.hold.grazeWant, grazeWant := false } })) ∧
  (∀ (s u : State) (dt : Nat),
      s.down = false →
      u = s.elapse dt →
      u.isOn 7 = true →
      u.hold.changed = true →
      u.hold.snapAt + orIfZero (u.f Fld.HOLD_SNAP_snap_s) 1 * 1000000000 ≤ u.now →
      exec (.holdSnapshot dt) s = .next (u.writeHoldSnap)) ∧
  (∀ (s u : State) (dt : Nat) (v : State),
      s.down = false →
      u = s.elapse dt →
      u.writeOpen 1 Reg.HOLD_CTRL.off = true →
      v = u.noteWrite 1 Reg.HOLD_CTRL.off (putBits (u.reg Reg.HOLD_CTRL) 4 4 1) →
      v.isOn 7 = true →
      exec (.holdRestart dt) s = .next ({ v with hold := { v.hold with history := false, start := 0, kept := true } }))

/-- Refresh, temperature, calibration, parity retries and self-refresh complete (R340, R341, R342, R344, R345, R350, R351). In
every state and for all operands that meet the hypotheses of its clause, each of these commands answers the next state
written there: REF_DUE, MPR_TEMP_READ, ZQ_CAL, CA_PARITY_ALERT, SELF_REFRESH_ENTRY, SELF_REFRESH_EXIT. A clause gives that
whole state as the command's effect on u, the state after the ticks dt have passed, so what it does not name stays as in u.
The clauses also follow the model's readings of log entries 48, 76. -/
def Obligations.DramUpkeepCommandsComplete : Prop :=
  (∀ (s u : State) (dt : Nat) (channel : Fin 8) (v : State),
      s.down = false →
      u = s.elapse dt →
      u.chActive channel.val = true →
      (u.channel channel.val).refAt ≤ u.now →
      v = u.onChannel channel.val (fun c => { c with refAt := c.refAt + c.trefi }) →
      exec (.refDue dt channel) s = .next (if decide ((u.channel channel.val).owed < 4) && u.fb Fld.MEMC_CTRL_postpone_en && decide ((u.channel channel.val).noPostUntil ≤ u.now) && u.deadlineQueued channel.val then (v.onChannel channel.val (fun c => { c with owed := c.owed + 1, single := false })).bumpSat (Fld.MEMC_REF_postponed channel.val) 1 else (v.onChannel channel.val (fun c => { c with owed := c.owed - (if u.deadlineQueued channel.val then 0 else (u.channel channel.val).owed), single := decide ((if u.deadlineQueued channel.val then 0 else (u.channel channel.val).owed) = 0) })).refresh channel.val (1 + (if u.deadlineQueued channel.val then 0 else (u.channel channel.val).owed)) v.now)) ∧
  (∀ (s u : State) (dt : Nat) (channel : Fin 8) (range : Nat) (ok : Bool) (v w : State),
      s.down = false →
      u = s.elapse dt →
      u.fb Fld.MEMC_CTRL_temp_src = true →
      u.afterRef channel.val = true →
      ((u.channel channel.val).mprAt = 0 ∨ (u.channel channel.val).mprAt + 1000000 ≤ u.now) →
      (v = (u.onChannel channel.val (fun c => { c with mprAt := u.now, mprFailed := !ok, mpr := if ok then min 2 range else c.mpr })).joinRef channel.val .mprRead "MPR2") →
      (w = if ok then v else v.fault 34) →
      exec (.mprTempRead dt channel range ok) s = .next ((w.judgeHot channel.val).judgeDramHot)) ∧
  (∀ (s u : State) (dt : Nat) (channel : Fin 8),
      s.down = false →
      u = s.elapse dt →
      u.afterRef channel.val = true →
      (u.channel channel.val).zqAt + 128000000 ≤ u.now →
      exec (.zqCal dt channel) s = .next ((u.onChannel channel.val (fun c => { c with zqAt := u.now })).joinRef channel.val .zqcs "ZQCS")) ∧
  (∀ (s u : State) (dt : Nat) (alert : ParityAlert) (n : Nat) (v : State),
      s.down = false →
      u = s.elapse dt →
      n = alert.channel.val →
      u.chActive n = true →
      v = u.parityError n →
      exec (.caParityAlert dt alert) s = .next (match alert.read with | some a => (if u.onChan n a && !(u.channel n).issued.contains (.column false (a / 64 * 64)) then (u.poisonRead n (a / 8 * 8)).parityError n else (v.discarded n alert.read).2.replayCommands n (v.discarded n alert.read).1) | none => (v.discarded n none).2.replayCommands n (v.discarded n none).1)) ∧
  (∀ (s u : State) (dt : Nat) (r : Nat) (v w : State),
      s.down = false →
      u = s.elapse dt →
      u.dramIdle = true →
      u.memc.srAt = none →
      u.memc.idleSince + orIfZero (u.f Fld.MEMC_SR_IDLE_sr_idle) 1 * 1000 ≤ u.now →
      v = u.payAll u.now →
      v.free = (r, w) →
      exec (.selfRefreshEntry dt) s = .next (w.onMemc (fun m => { m with srAt := some (w.memc.channels.foldl (fun m c => max m c.stallTo) w.now + r % 1001) }))) ∧
  (∀ (s u : State) (dt : Nat),
      s.down = false →
      u = s.elapse dt →
      u.isOn 4 = true →
      exec (.selfRefreshExit dt) s = .next (u.exitSelfRefresh))

/-- Reads, tests, scrubbing, training, the wipe and the geometry complete (R346, R347, R348, R349, R353, R354, R536). In every
state and for all operands that meet the hypotheses of its clause, each of these commands answers the next state written
there: DRAM_READ_RETURN, DRAM_WORD_TEST, SCRUB_PAGE, SCRUB_LATE, TRAINED, WIPE_DONE, MEMC_GEOM_WRITE. A clause gives that
whole state as the command's effect on u, the state after the ticks dt have passed, so what it does not name stays as in u.
The clauses also follow the model's readings of log entries 48, 49, 76, 82. -/
def Obligations.DramContentCommandsComplete : Prop :=
  (∀ (s u : State) (dt : Nat) (channel : Fin 8) (addr errors : Nat) (v : State),
      s.down = false →
      u = s.elapse dt →
      u.chActive channel.val = true →
      u.onChan channel.val (addr / 8 * 8) = true →
      v = ((u.returnColumn channel.val (addr / 8 * 8)).readWord channel.val (addr / 8 * 8) errors).touchDram →
      exec (.dramReadReturn dt channel addr errors) s = .next (match u.badWord (addr / 8 * 8) errors with | some a => v.spoil a | none => v)) ∧
  (∀ (s u : State) (dt addr : Nat) (lasting : Bool) (v w : State),
      s.down = false →
      u = s.elapse dt →
      u.testMayRun 26 0 = true →
      addr / 8 * 8 ∈ u.memc.wordTests →
      v = ({ u with memc := { u.memc with wordTests := u.memc.wordTests.filter (fun w => w ≠ addr / 8 * 8) } }).touchDram →
      w = [false, false, true, false, true, false, true].foldl (fun s x => s.dramAsk .maint x none (addr / 8 * 8) (addr / 8 * 8 + 8)) v →
      lasting = false →
      exec (.dramWordTest dt addr lasting) s = .next (w.wordTested false)) ∧
  (∀ (s u : State) (dt : Nat) (errors uncorrectable : List Nat) (here : List Nat → List Nat) (bad : List Nat) (v w x : State),
      s.down = false →
      u = s.elapse dt →
      u.dramUp = true →
      u.f Fld.MEMC_SCRUB_scrub_h ≠ 0 →
      u.droverHas .scrub = true →
      (here = fun ws => (ws.map (fun a => a / 8 * 8)).filter (fun a => decide (a / 2097152 = u.memc.scrubPage))) →
      bad = here uncorrectable ++ u.memc.poisoned.filter (fun a => decide (a / 2097152 = u.memc.scrubPage) && !(here uncorrectable).contains a) →
      (v = (here errors).foldl (fun s a => if bad.contains a then s else s.correctable (s.chanOf a) a) u) →
      w = ((bad.foldl (fun s a => s.uncorrectable (s.chanOf a) a) v).droverDrop .scrub).dramAsk .maint false none (u.memc.scrubPage * 2097152) (u.memc.scrubPage * 2097152 + 2097152) →
      (x = w.onMemc (fun m => if u.memc.scrubPage + 1 < w.pageCount then { m with scrubPage := u.memc.scrubPage + 1 } else { m with scrubPage := 0, scrubSince := w.now, scrubLate := false })) →
      exec (.scrubPage dt errors uncorrectable) s = .next (x.scrubAsk)) ∧
  (∀ (s u : State) (dt : Nat),
      s.down = false →
      u = s.elapse dt →
      u.f Fld.MEMC_SCRUB_scrub_h ≠ 0 →
      u.memc.trained = true →
      u.memc.scrubLate = false →
      u.memc.scrubSince + u.f Fld.MEMC_SCRUB_scrub_h * 3600000000000 ≤ u.now →
      exec (.scrubLate dt) s = .next ({ u with memc := { u.memc with scrubLate := true } }.fault 25)) ∧
  (∀ (s u : State) (dt : Nat) (ok : List Bool) (v w x : State),
      s.down = false →
      u = s.elapse dt →
      ok.length = 8 →
      u.memc.channels.any (fun c => c.state = .training) = true →
      v = (List.range 8).foldl (State.endTraining ok) u →
      w = { v with memc := { v.memc with trained := true, idleSince := v.now, scrubSince := v.now } } →
      (x = if w.memc.n = 0 then { w with sys := { w.sys with halted := true } } else w) →
      exec (.trained dt ok) s = .next ((x.raiseEv 166).scrubAsk)) ∧
  (∀ (s u : State) (dt : Nat),
      s.down = false →
      u = s.elapse dt →
      u.memc.wipeAt.isSome = true →
      u.memc.wipeDone = false →
      exec (.wipeDone dt) s = .next ((((u.wipeTo u.pageCount).onMemc (fun m => { m with wipeDone := true })).touchDram).raiseEv 167)) ∧
  (∀ (s u : State) (dt : Nat) (data : Word) (v w : State),
      s.down = false →
      u = s.elapse dt →
      u.writeOpen 1 Reg.MEMC_GEOM.off = true →
      v = u.noteWrite 1 Reg.MEMC_GEOM.off data.toNat →
      v.sys.lock = false →
      v.isOn 4 = true →
      geomRead data.toNat ≠ v.reg Reg.MEMC_GEOM →
      w = v.setReg Reg.MEMC_GEOM (geomRead data.toNat) →
      exec (.memcGeomWrite dt data) s = .next (if w.sys.ready then w.storeGeom (geomRead data.toNat) else if w.sys.cores then { w with sys := { w.sys with halted := false } }.startTraining else w))

/-- Freeing, zeroing and retiring pages complete (R358). In every state and for all operands that meet the hypotheses of its
clause, each of these commands answers the next state written there: PADDOCK_FREE, PAGE_ZERO_DONE, PAD_RETIRE. A clause gives
that whole state as the command's effect on u, the state after the ticks dt have passed, so what it does not name stays as in
u. The clauses also follow the model's readings of log entries 34, 76. -/
def Obligations.PaddockCommandsComplete : Prop :=
  (∀ (s u : State) (dt region : Nat) (g : Region),
      s.down = false →
      u = s.elapse dt →
      u.paddock.regions.find? (fun r => decide (r.id = region)) = some g →
      ((∃ c, g.holder = .core c) ∨ g.holder = .sec) →
      exec (.paddockFree dt region) s = .next (u.padFreeId region)) ∧
  (∀ (s u : State) (dt page : Nat),
      s.down = false →
      u = s.elapse dt →
      runsHas u.paddock.dirty page = true →
      exec (.pageZeroDone dt page) s = .next ((State.dramAsk .aux true none (page * 2097152) (page * 2097152 + 2097152) { u with paddock := { u.paddock with dirty := runsDel page u.paddock.dirty, free := runsAdd page 1 u.paddock.free }, memc := { u.memc with poisoned := u.memc.poisoned.filter (fun a => a / 2097152 ≠ page) } }).touchDram)) ∧
  (∀ (s u : State) (dt : Nat) (data : Word) (v : State),
      s.down = false →
      u = s.elapse dt →
      u.writeOpen 1 Reg.PAD_RETIRE.off = true →
      v = u.noteWrite 1 Reg.PAD_RETIRE.off data.toNat →
      v.sys.lock = false →
      v.isOn 4 = true →
      exec (.padRetire dt data) s = .next (if (v.padRetire (bits data.toNat 16 0)).1 then (v.padRetire (bits data.toNat 16 0)).2.fault 27 else (v.padRetire (bits data.toNat 16 0)).2))

/-- Opening, feeding and draining a DEFLATE context complete (R364, R365, R366, R368, R374, R375, R378). In every state and for
all operands that meet the hypotheses of its clause, each of these commands answers the next state written there:
DFL_CONTEXT_OPEN, DFL_INPUT_ARRIVE, DFL_OUTPUT_BUFFER, SAVE_AREA. A clause gives that whole state as the command's effect on
u, the state after the ticks dt have passed, so what it does not name stays as in u. The clauses also follow the model's
readings of log entries 50. -/
def Obligations.DeflateCommandsComplete : Prop :=
  (∀ (s u : State) (dt : Nat) (ctx : Fin 128) (wrap level : Nat) (deflate : Bool) (expect : Nat) (c : Ctx) (y : State),
      s.down = false →
      u = s.elapse dt →
      ctxFits ctx.val deflate = true →
      u.dctxOpen ctx.val = false →
      u.ctxToOpen ctx.val wrap level deflate expect = some c →
      y = (u.wakeDomain 9).putCtx ctx.val c →
      y.isOn 9 = true →
      exec (.dflContextOpen dt ctx wrap level deflate expect) s = .next (y.takeSlot ctx.val)) ∧
  (∀ (s u : State) (dt : Nat) (ctx : Fin 128) (data : List Byte) (flush : Nat) (c : Ctx),
      s.down = false →
      u = s.elapse dt →
      u.dctx ctx.val = some c →
      c.own = false →
      c.done = false →
      c.state ≠ .error →
      c.flushes.any (fun f => f.final) = false →
      exec (.dflInputArrive dt ctx data flush) s = .next ((u.onCtx ctx.val (Ctx.take data flush)).goOn ctx.val)) ∧
  (∀ (s u : State) (dt : Nat) (ctx : Fin 128) (room : Nat) (c : Ctx),
      s.down = false →
      u = s.elapse dt →
      u.dctx ctx.val = some c →
      c.own = false →
      c.done = false →
      c.state ≠ .error →
      exec (.dflOutputBuffer dt ctx room) s = .next ((u.onCtx ctx.val (fun c => { c with room := room })).goOn ctx.val)) ∧
  (∀ (s u : State) (dt : Nat) (t : Nat),
      s.down = false →
      u = s.elapse dt →
      u.dfl.saveSince = some t →
      u.dfl.save = false →
      u.dfl.saveSaid = false →
      t + 100000000 ≤ u.now →
      exec (.saveArea dt) s = .next ({ u with dfl := { u.dfl with saveSaid := true } }.raiseEv 177))

/-- Frames, links and ceiling messages complete (R381, R382, R383, R384, R391, R392). In every state and for all operands that
meet the hypotheses of its clause, each of these commands answers the next state written there: NET_FRAME_RECEIVE,
PTP_EVENT_SEND, NET_LINK, CEIL_MSG_PERIODIC, CEIL_MSG_CAUSE. A clause gives that whole state as the command's effect on u,
the state after the ticks dt have passed, so what it does not name stays as in u. The clauses also follow the model's
readings of log entries 63, 64. -/
def Obligations.NetFrameCommandsComplete : Prop :=
  (∀ (s u : State) (dt : Nat) (port : Fin 2) (frame : List Byte) (b : List Byte) (v w : State),
      s.down = false →
      u = s.elapse dt →
      u.portUp port.val = true →
      u.keepFrame port.val frame = some b →
      v = u.bump (Fld.NET_PORT_RX_CNT_value port.val) 1 →
      w = v.onNetPort port.val (fun n => { n with inbox := n.inbox ++ [b] }) →
      exec (.netFrameReceive dt port frame) s = .next (match ptpEvent b with | some e => w.queueStamp port.val false ⟨w.stampTime (w.f (Fld.NET_PORT_LAT_ingress port.val)), e.1, e.2.1, e.2.2⟩ | none => w)) ∧
  (∀ (s u : State) (dt : Nat) (port : Fin 2) (frame : List Byte) (e : Nat × Nat × Nat),
      s.down = false →
      u = s.elapse dt →
      u.portUp port.val = true →
      (untag frame).bind ptpEvent = some e →
      exec (.ptpEventSend dt port frame) s = .next ((u.emit (.frame port.val frame)).queueStamp port.val true ⟨(u.emit (.frame port.val frame)).stampTime ((u.emit (.frame port.val frame)).f (Fld.NET_PORT_LAT_egress port.val)), e.1, e.2.1, e.2.2⟩)) ∧
  (∀ (s u : State) (dt : Nat) (port : Fin 2) (up : Bool),
      s.down = false →
      u = s.elapse dt →
      u.isOn 8 = true →
      (up = false ∨ u.fb (Fld.NET_PORT_CFG_enable port.val) = true) →
      exec (.netLink dt port up) s = .next (u.setLink port.val up)) ∧
  (∀ (s u : State) (dt : Nat),
      s.down = false →
      u = s.elapse dt →
      u.ceilPorts ≠ [] →
      u.f Fld.NET_CEIL_CFG_ceil_period ≠ 0 →
      u.net.ceilLastAt + u.f Fld.NET_CEIL_CFG_ceil_period * 1000000 ≤ u.now →
      exec (.ceilMsgPeriodic dt) s = .next (u.sendCeil false)) ∧
  (∀ (s u : State) (dt : Nat),
      s.down = false →
      u = s.elapse dt →
      u.net.ceilWait.isSome = true →
      u.net.ceilCauseAt.all (fun t => decide (t + 25000 ≤ u.now)) = true →
      u.ceilPorts ≠ [] →
      exec (.ceilMsgCause dt) s = .next ((u.sendCeil true).onNet (fun n => { n with ceilWait := none, ceilCauseAt := some u.now })))

/-- The servo, the wrap of device time and snapshots complete (R385, R387, R388, R389, R390). In every state and for all operands
that meet the hypotheses of its clause, each of these commands answers the next state written there: SERVO_OFFSET,
SERVO_HOLDOVER, SERVO_RESTART, TIME_WRAP, SNAP_NOW, SNAP_ARM, SNAP_SCHEDULED. A clause gives that whole state as the
command's effect on u, the state after the ticks dt have passed, so what it does not name stays as in u. The clauses also
follow the model's readings of log entries 1, 62. -/
def Obligations.TimeCommandsComplete : Prop :=
  (∀ (s u : State) (dt : Nat) (lo : Word) (o : Nat) (v : State),
      s.down = false →
      u = s.elapse dt →
      u.writeOpen 5 Reg.NET_SERVO_OFF_LO.off = true →
      u.isOn 8 = true →
      u.replaying = false →
      v = { u with net := { u.net with offLo := lo.toNat, offsetAt := u.now } } →
      o = v.net.offHi * 2 ^ 32 + lo.toNat →
      exec (.servoOffset dt lo) s = .next ((v.tallyEntry 0x41 (b2n (decide (v.net.servo ≠ .free) && decide (v.f Fld.NET_STEP_MAX_step_max < (ofTwos 64 o).natAbs))) (leBytes 8 o)).judgeOffset (ofTwos 64 o))) ∧
  (∀ (s u : State) (dt : Nat),
      s.down = false →
      u = s.elapse dt →
      (u.net.servo = .acquire ∨ u.net.servo = .locked) →
      u.net.offsetAt + orIfZero (u.f Fld.NET_LOCK_hold_ms) 1 * 1000000 ≤ u.now →
      exec (.servoHoldover dt) s = .next ((u.servoTo .holdover).fault 112)) ∧
  (∀ (s u : State) (dt : Nat) (v : State),
      s.down = false →
      u = s.elapse dt →
      u.writeOpen 1 Reg.NET_CTRL.off = true →
      v = u.noteWrite 1 Reg.NET_CTRL.off 1 →
      v.isOn 8 = true →
      exec (.servoRestart dt) s = .next ({ v with net := { v.net with i := 0, f := 0, acquired := false, stepped := false, good := 0, bad := 0 } }.servoTo .free)) ∧
  (∀ (s u : State) (dt : Nat),
      s.down = false →
      u = s.elapse dt →
      exec (.timeWrap dt) s = .next (u.elapse (2 ^ 32 - u.net.ext % 2 ^ 32))) ∧
  (∀ (s u : State) (dt : Nat) (v : State),
      s.down = false →
      u = s.elapse dt →
      u.writeOpen 1 Reg.NET_SNAP_CTRL.off = true →
      (u.noteWrite 1 Reg.NET_SNAP_CTRL.off (putBits (u.reg Reg.NET_SNAP_CTRL) 0 0 1)).isOn 8 = true →
      v = (u.noteWrite 1 Reg.NET_SNAP_CTRL.off (putBits (u.reg Reg.NET_SNAP_CTRL) 0 0 1)).elapse 1 →
      exec (.snapNow dt) s = .next (v.strobe true (v.net.target.any (fun t => decide (t ≤ v.net.ext))) false)) ∧
  (∀ (s u : State) (dt : Nat) (v : State),
      s.down = false →
      u = s.elapse dt →
      u.writeOpen 1 Reg.NET_SNAP_CTRL.off = true →
      v = u.noteWrite 1 Reg.NET_SNAP_CTRL.off (putBits (u.reg Reg.NET_SNAP_CTRL) 1 1 1) →
      v.isOn 8 = true →
      v.net.ext < v.reg Reg.NET_SNAP_AT_HI * 2 ^ 32 + v.reg Reg.NET_SNAP_AT_LO →
      exec (.snapArm dt) s = .next ({ v with net := { v.net with target := some (v.reg Reg.NET_SNAP_AT_HI * 2 ^ 32 + v.reg Reg.NET_SNAP_AT_LO) } }.setF Fld.NET_SNAP_CTRL_arm 1)) ∧
  (∀ (s : State) (dt : Nat) (t : Nat),
      s.down = false →
      s.net.target = some t →
      t ≤ s.net.ext + dt →
      exec (.snapScheduled dt) s = .next (((s.elapse (t - s.net.ext)).strobe false true false).elapse (dt - (t - s.net.ext))))

/-- Power domain and Shelf commands complete (R396, R397, R398, R399, R400, R401). In every state and for all operands that meet
the hypotheses of its clause, each of these commands answers the next state written there: DOMAIN_REQUEST, DOMAIN_CHANGE,
DOMAIN_POWER_UP, DOMAIN_ON, DOMAIN_UP_TIMEOUT, SHELF_ENTER, MAIN_RAIL_LOSS, SHELF_WAKE. A clause gives that whole state as
the command's effect on u, the state after the ticks dt have passed, so what it does not name stays as in u. The clauses also
follow the model's readings of log entries 13, 51, 52. -/
def Obligations.DomainCommandsComplete : Prop :=
  (∀ (s u : State) (dt : Nat) (domain : Fin 10) (data : Word) (v w : State) (p : PState),
      s.down = false →
      u = s.elapse dt →
      u.writeOpen 1 (Reg.SYS_PD_CTRL domain.val).off = true →
      v = u.noteWrite 1 (Reg.SYS_PD_CTRL domain.val).off data.toNat →
      w = v.setReg (Reg.SYS_PD_CTRL domain.val) (data.toNat % 4) →
      ((data.toNat % 4 = 1 ∧ p = .retain) ∨ (data.toNat % 4 = 2 ∧ p = .off)) →
      (w.domain domain.val).state ≠ p →
      w.pdForbidden domain.val = 0 →
      exec (.domainRequest dt domain data) s = .next (w.onDomain domain.val (fun x => { x with want := some p }))) ∧
  (∀ (s u : State) (dt : Nat) (domain : Fin 10) (p : PState),
      s.down = false →
      u = s.elapse dt →
      (u.domain domain.val).want = some p →
      (u.domain domain.val).state ≠ .up →
      u.pdForbidden domain.val = 0 →
      u.pdBusy domain.val = false →
      exec (.domainChange dt domain) s = .next (u.setDomain State.faultFor domain.val p)) ∧
  (∀ (s u : State) (dt : Nat) (domain : Fin 10),
      s.down = false →
      u = s.elapse dt →
      exec (.domainPowerUp dt domain) s = .next (u.wakeDomain domain.val)) ∧
  (∀ (s u : State) (dt : Nat) (domain : Fin 10),
      s.down = false →
      u = s.elapse dt →
      (u.domain domain.val).state = .up →
      exec (.domainOn dt domain) s = .next (u.domainIsOn domain.val)) ∧
  (∀ (s u : State) (dt : Nat) (domain : Fin 10),
      s.down = false →
      u = s.elapse dt →
      (u.domain domain.val).state = .up →
      (u.domain domain.val).since + (if domain.val = 4 then 200000 else 30000) ≤ u.now →
      exec (.domainUpTimeout dt domain) s = .next ((((u.setDomain State.faultFor domain.val .off).onDomain domain.val (fun x => { x with waiting := false })).failWaiting domain.val).faultAt 82 255 domain.val)) ∧
  (∀ (s u : State) (dt : Nat) (data : Word) (v : State),
      s.down = false →
      u = s.elapse dt →
      u.writeOpen 1 Reg.SYS_SHELF.off = true →
      v = u.noteWrite 1 Reg.SYS_SHELF.off data.toNat →
      bits data.toNat 15 0 = 0x5E1F →
      v.anyHv = false →
      exec (.shelfEnter dt data) s = .next (State.settleShelf { v with power := { v.power with shelfWait := true }, cal := { v.cal with writes := v.cal.writes.map (fun (w : MWrite) => { w with deferred := none }) } })) ∧
  (∀ (s u : State) (dt : Nat),
      u = s.elapse dt →
      s.power.inShelf = false →
      exec (.mainRailLoss dt) s = .next ((if s.down then s else u).enterShelf 2)) ∧
  (∀ (s : State) (dt : Nat),
      s.power.inShelf = true →
      exec (.shelfWake dt) s = .next ({ s with power := { s.power with inShelf := false, pwrOn := true } }))

/-- Power and thermal commands complete (R402, R404, R405, R407, R411, R412, R413, R414). In every state and for all operands
that meet the hypotheses of its clause, each of these commands answers the next state written there: POWER_SAMPLE,
THERMAL_SAMPLE, VCORE_STEP_TIMER, VCORE_STEP, PMBUS, VOUT_READ, PMBUS_ENABLE, THERM_REF_READ, REF_STALE, MODEL_DIVERGE,
SHUT_RELEASE. A clause gives that whole state as the command's effect on u, the state after the ticks dt have passed, so what
it does not name stays as in u. The clauses also follow the model's readings of log entries 33, 53, 54. -/
def Obligations.ThermalCommandsComplete : Prop :=
  (∀ (s u : State) (dt : Nat) (mw : List Nat) (q : List Nat) (v w x : State),
      s.down = false →
      u = s.elapse dt →
      mw.length = 10 →
      q = mw.map (fun p => min p 0xFFFFFF) →
      v = { u with therm := { u.therm with power := q } } →
      w = { v with therm := { v.therm with powSum := (List.range 10).map (fun d => v.therm.powSum.getD d 0 + v.domainPower d), powN := v.therm.powN + 1 } } →
      (x = (List.range 10).foldl (fun s d => if q.getD d 0 = 0xFFFFFF ∧ u.therm.power.getD d 0 ≠ 0xFFFFFF then s.faultAt 83 255 d else s) w) →
      exec (.powerSample dt mw) s = .next ({ x with power := { x.power with overSince := (if x.budget * 125 < x.totalPower then some (x.power.overSince.getD x.now) else none), overSaid := x.power.overSaid && decide (x.budget * 125 < x.totalPower) } })) ∧
  (∀ (s u : State) (dt : Nat) (start : Int) (nodes : List Int) (v w x : State),
      s.down = false →
      u = s.elapse dt →
      u.therm.started = false →
      start = u.refUsed + (if u.sys.straps.therm then 20 * 64 else 0) →
      nodes = List.replicate 16 start →
      v = { u with therm := { u.therm with nodes := nodes, tj := (hottest nodes).1, tjNode := (hottest nodes).2, started := true, sampleAt := u.now, powSum := List.replicate 10 0, powN := 0, busy := [0, 0, 0, 0] }, memc := { u.memc with channels := u.memc.channels.map (fun c => { c with accesses := 0 }) } } →
      w = v.setF Fld.THERM_TJ_MAX_value (if v.f Fld.THERM_TJ_MAX_value = 0 then toTwos 16 (hottest nodes).1 else toTwos 16 (max (hottest nodes).1 (ofTwos 16 (v.f Fld.THERM_TJ_MAX_value)))) →
      (x = if w.therm.recAt.all (fun t => decide (t + 1000000 ≤ w.now)) then (w.onTherm (fun t => { t with recAt := some w.now })).tallyEntry 0x40 0 (leBytes 2 (toTwos 16 (hottest nodes).1) ++ leBytes 2 (toTwos 16 (w.onTherm (fun t => { t with recAt := some w.now })).refUsed) ++ leBytes 4 (w.onTherm (fun t => { t with recAt := some w.now })).totalPower ++ leBytes 4 (w.onTherm (fun t => { t with recAt := some w.now })).therm.commanded) else w) →
      exec (.thermalSample dt) s = .next (x.takeCheck.judgeDram.judgeTj)) ∧
  (∀ (s u : State) (dt : Nat),
      s.down = false →
      u = s.elapse dt →
      u.therm.pmbOn = true →
      u.therm.step = none →
      u.therm.stepAt + 10000000 ≤ u.now →
      exec (.vcoreStepTimer dt) s = .next (match u.therm.throttle with | .normal => u.stepVcore u.vset | .throttle => if u.vmin < u.therm.commanded then u.stepVcore u.vmin else u.judgeFloor | .recover => if u.therm.tj < 99 * 64 then (u.stepVcore u.vset).judgeRecovered else u)) ∧
  (∀ (s u : State) (dt : Nat) (p : Nat × Nat),
      s.down = false →
      u = s.elapse dt →
      u.therm.step = some p →
      p.2 + u.f Fld.THERM_VCORE_CFG_settle_us * 1000 ≤ u.now →
      exec (.vcoreStep dt) s = .next (((({ u with therm := { u.therm with present := p.1, step := none } }.recomputeCeiling).raiseEv 202).judgeFloor).judgeRecovered)) ∧
  (∀ (s u : State) (dt : Nat) (p : Nat × Nat),
      s.down = false →
      u = s.elapse dt →
      u.therm.step = some p →
      exec (.pmbus dt) s = .next (if u.therm.tries < 2 then { u with therm := { u.therm with tries := u.therm.tries + 1, step := some (p.1, u.now) } }.writeVout else ({ u with therm := { u.therm with step := none, tries := 0, commanded := u.therm.present, stepAt := u.now } }.fault 80).raiseEv 209)) ∧
  (∀ (s u : State) (dt value : Nat) (v : State),
      s.down = false →
      u = s.elapse dt →
      u.therm.pmbOn = true →
      u.therm.voutAt + 10000000 ≤ u.now →
      v = { u with out := u.out ++ [.pmbusRead (u.f Fld.THERM_PMBUS_CFG_pm_addr) 0x8B], therm := { u.therm with readVout := min value 1023, voutAt := u.now } } →
      exec (.voutRead dt value) s = .next (if v.voutOff value then v.fault 85 else v)) ∧
  (∀ (s u : State) (dt : Nat) (mode : Word) (vout : Nat) (v w x y : State),
      s.down = false →
      u = s.elapse dt →
      u.writeOpen 1 Reg.THERM_PMBUS_CFG.off = true →
      v = u.noteWrite 1 Reg.THERM_PMBUS_CFG.off (putBits (u.reg Reg.THERM_PMBUS_CFG) 31 31 1) →
      v.sys.lock = false →
      v.therm.pmbOn = false →
      w = v.setF Fld.THERM_PMBUS_CFG_pmb_en 1 →
      x = w.emit (.pmbusRead (w.f Fld.THERM_PMBUS_CFG_pm_addr) 0x20) →
      y = (if w.fb Fld.THERM_PMBUS_CFG_fmt then x else w).emit (.pmbusRead (w.f Fld.THERM_PMBUS_CFG_pm_addr) 0x8B) →
      exec (.pmbusEnable dt mode vout) s = .next ({ y with therm := { y.therm with pmbOn := true, commanded := min vout 1023, present := min vout 1023, readVout := min vout 1023, step := none, tries := 0, stepAt := y.now, voutAt := y.now, expo := ofTwos 5 (bits mode.toNat 4 0) } })) ∧
  (∀ (s u : State) (dt : Nat) (value : Int) (ok : Bool) (v : State),
      s.down = false →
      u = s.elapse dt →
      u.fb Fld.THERM_CTRL_ref_src = false →
      ok = true →
      u.therm.refRead.any (fun t => decide (u.now < t + 100000000)) = false →
      v = { u with out := u.out ++ [.pmbusRead (u.f Fld.THERM_REF_CFG_ref_addr) (u.f Fld.THERM_REF_CFG_ref_reg)], therm := { u.therm with refRead := some u.now, ref := ofTwos 16 (toTwos 16 value) / 4, refValid := true, refAt := u.now, refStale := false } } →
      exec (.thermRefRead dt value ok) s = .next (if u.therm.refStale then v.raiseEv 204 else v)) ∧
  (∀ (s u : State) (dt : Nat),
      s.down = false →
      u = s.elapse dt →
      u.therm.refStale = false →
      u.therm.refAt + orIfZero (u.f Fld.THERM_REF_CFG_ref_timeout) 1 * 1000000 ≤ u.now →
      exec (.refStale dt) s = .next (({ u with therm := { u.therm with refStale := true } }.fault 75).raiseEv 204)) ∧
  (∀ (s u : State) (dt : Nat),
      s.down = false →
      u = s.elapse dt →
      u.diverged = true →
      u.therm.divergeSaid = false →
      exec (.modelDiverge dt) s = .next ({ u with therm := { u.therm with divergeSaid := true } }.fault 74)) ∧
  (∀ (s u : State) (dt : Nat) (v w : State),
      s.down = false →
      u = s.elapse dt →
      u.writeOpen 1 Reg.THERM_CTRL.off = true →
      v = u.noteWrite 1 Reg.THERM_CTRL.off (putBits (u.reg Reg.THERM_CTRL) 3 3 1) →
      v.therm.tj < 100 * 64 →
      w = { v with therm := { v.therm with shutdown := false, relRefused := false } } →
      exec (.shutRelease dt) s = .next (if v.therm.shutdown then [4, 5, 6, 7, 8, 9].foldl (fun s d => if (s.domain d).waiting then s.wakeDomain d else s) (w.raiseEv 203) else w))

/-- Drover grants, returns, waits and budget commands complete (R416, R417, R418, R419, R464). In every state and for all
operands that meet the hypotheses of its clause, each of these commands answers the next state written there: DROVER_GRANT,
DROVER_RETURN, HOLD_LONG, DROVER_WAIT, BUDGET_OVER, FW_DROVER_REQUEST, FW_DROVER_WITHDRAW. A clause gives that whole state as
the command's effect on u, the state after the ticks dt have passed, so what it does not name stays as in u. The clauses also
follow the model's readings of log entries 55. -/
def Obligations.DroverCommandsComplete : Prop :=
  (∀ (s u : State) (dt : Nat) (q : DReq) (v w x : State),
      s.down = false →
      u = s.elapse dt →
      u.droverNext = some q →
      v = { u with power := { u.power with queue := u.power.queue.erase q, grants := u.power.grants ++ [⟨q.cls, u.charge q, q.holder, u.now, false⟩] } } →
      w = v.bump Fld.DROVER_GRANTS_value 1 →
      x = w.setF Fld.DROVER_WAIT_MAX_value (max (w.f Fld.DROVER_WAIT_MAX_value) ((w.now - q.at_) / 1000)) →
      exec (.droverGrant dt) s = .next ((x.journal 1 (droverPayload q.cls (u.charge q))).useGrant q.holder)) ∧
  (∀ (s u : State) (dt cls index : Nat) (h : Holder),
      s.down = false →
      u = s.elapse dt →
      holderOf cls index = some h →
      u.stillWorks h = false →
      exec (.droverReturn dt cls index) s = .next (u.droverDrop h)) ∧
  (∀ (s u : State) (dt index : Nat) (g : DGrant),
      s.down = false →
      u = s.elapse dt →
      u.power.grants[index]? = some g →
      g.longSaid = false →
      g.since + orIfZero (u.f Fld.DROVER_HOLD_MAX_hold_max) 1 * 1000000000 < u.now →
      exec (.holdLong dt index) s = .next ({ u with power := { u.power with grants := u.power.grants.modify index (fun g => { g with longSaid := true }) } }.fault 84)) ∧
  (∀ (s u : State) (dt index : Nat) (q : DReq),
      s.down = false →
      u = s.elapse dt →
      u.power.queue[index]? = some q →
      u.f Fld.DROVER_WAIT_WARN_wait_warn ≠ 0 →
      q.warned = false →
      q.at_ + u.f Fld.DROVER_WAIT_WARN_wait_warn * 1000 < u.now →
      exec (.droverWait dt index) s = .next ({ u with power := { u.power with queue := u.power.queue.modify index (fun q => { q with warned := true }) } }.raiseEv 207)) ∧
  (∀ (s u : State) (dt : Nat) (t : Nat),
      s.down = false →
      u = s.elapse dt →
      u.power.overSince = some t →
      u.power.overSaid = false →
      t + 10000000 ≤ u.now →
      exec (.budgetOver dt) s = .next (({ u with power := { u.power with overSaid := true } }.fault 81).raiseEv 208)) ∧
  (∀ (s u : State) (dt : Nat) (core : Fin 4) (data : Word),
      s.down = false →
      u = s.elapse dt →
      u.writeOpen (core.val + 2) Reg.DROVER_FW_REQ.off = true →
      core.val ≠ 0 →
      bitOf data.toNat 31 = true →
      exec (.fwDroverRequest dt core data) s = .next (u.droverAsk 7 (bits data.toNat 9 0) (.firmware core.val))) ∧
  (∀ (s u : State) (dt : Nat) (core : Fin 4) (data : Word),
      s.down = false →
      u = s.elapse dt →
      u.writeOpen (core.val + 2) Reg.DROVER_FW_REQ.off = true →
      core.val ≠ 0 →
      bitOf data.toNat 30 = true →
      exec (.fwDroverWithdraw dt core data) s = .next (u.droverDrop (.firmware core.val)))

/-- Fault and Crook commands complete (R430, R432, R434, R439, R440, R441, R443, R444). In every state and for all operands that
meet the hypotheses of its clause, each of these commands answers the next state written there: FOLD_FORCE, FAULT_INJECT,
CLASS_ACKNOWLEDGE, STICKY_CLEAR, SELF_TEST, SRAM_ERROR, CROOK_ENTER, CROOK_RELEASE. A clause gives that whole state as the
command's effect on u, the state after the ticks dt have passed, so what it does not name stays as in u. The clauses also
follow the model's readings of log entries 14, 42, 43, 82. -/
def Obligations.FoldCommandsComplete : Prop :=
  (∀ (s u : State) (dt : Nat) (word : Fin 4) (data : Word) (v : State),
      s.down = false →
      u = s.elapse dt →
      u.writeOpen 1 (Reg.FOLD_FORCE word.val).off = true →
      v = u.noteWrite 1 (Reg.FOLD_FORCE word.val).off data.toNat →
      exec (.foldForce dt word data) s = .next (((wordSources word.val data.toNat).filter sourceExists).foldl (fun s n => s.faultAs n 255 0 (s.sevOf n) .forced) v)) ∧
  (∀ (s u : State) (dt : Nat) (data : Word) (v : State),
      s.down = false →
      u = s.elapse dt →
      u.writeOpen 1 Reg.FOLD_INJECT.off = true →
      v = u.noteWrite 1 Reg.FOLD_INJECT.off data.toNat →
      bitOf data.toNat 31 = true →
      v.sys.straps.test = true →
      v.sec.lc = .factory →
      sourceExists (bits data.toNat 6 0) = true →
      exec (.faultInject dt data) s = .next (v.inject (bits data.toNat 6 0))) ∧
  (∀ (s u : State) (dt : Nat) (data : Word) (v : State),
      s.down = false →
      u = s.elapse dt →
      u.writeOpen 1 Reg.FOLD_OPEN.off = true →
      v = u.noteWrite 1 Reg.FOLD_OPEN.off data.toNat →
      exec (.classAcknowledge dt data) s = .next (v.wipe Reg.FOLD_OPEN (data.toNat % 2 ^ 16))) ∧
  (∀ (s u : State) (dt : Nat) (word : Fin 4) (lasting : Bool) (data : Word),
      s.down = false →
      u = s.elapse dt →
      u.writeOpen 1 (if lasting then Reg.FOLD_LASTING word.val else Reg.FOLD_STICKY word.val).off = true →
      exec (.stickyClear dt word lasting data) s = .next ((u.noteWrite 1 (if lasting then Reg.FOLD_LASTING word.val else Reg.FOLD_STICKY word.val).off data.toNat).clearSticky word.val lasting data.toNat)) ∧
  (∀ (s u : State) (dt : Nat) (source : Fin 128) (target : Nat) (lasting : Bool),
      s.down = false →
      u = s.elapse dt →
      u.testMayRun source.val target = true →
      source.val ≠ 0 ∧ source.val ≠ 26 ∧ source.val ≠ 8 ∧ source.val ≠ 9 ∧ source.val ≠ 82 →
      u.testPending source.val target = true →
      exec (.selfTest dt source target lasting) s = .next (u.testResult source.val lasting)) ∧
  (∀ (s u : State) (dt store : Nat) (uncorrectable : Bool),
      s.down = false →
      u = s.elapse dt →
      uncorrectable = true →
      store % 8 ≠ 7 →
      store % 8 ≠ 1 →
      exec (.sramError dt store uncorrectable) s = .next (u.faultAt (121 + store % 8) 255 (store / 8))) ∧
  (∀ (s u : State) (dt : Nat) (data : Word),
      s.down = false →
      u = s.elapse dt →
      u.writeOpen 1 Reg.CROOK_CTRL.off = true →
      bits data.toNat 31 16 = 0x3C5A →
      bitOf data.toNat 1 = true →
      exec (.crookEnter dt data) s = .next ((u.noteWrite 1 Reg.CROOK_CTRL.off data.toNat).crookEnter 0x81)) ∧
  (∀ (s u : State) (dt : Nat) (data : Word) (v : State),
      s.down = false →
      u = s.elapse dt →
      u.writeOpen 1 Reg.CROOK_CTRL.off = true →
      v = u.noteWrite 1 Reg.CROOK_CTRL.off data.toNat →
      bits data.toNat 31 16 = 0x3C5A →
      bitOf data.toNat 0 = true →
      bitOf data.toNat 1 = false →
      v.crook.state ≠ .clear →
      v.mayRelease = true →
      exec (.crookRelease dt data) s = .next ({ v with crook := { v.crook with state := .clear, pressStop := v.replaying, releaseRefused := false } }.raiseEv 195))

/-- Mailbox, stile and core commands complete (R452, R455, R456, R457, R462, R463). In every state and for all operands that meet
the hypotheses of its clause, each of these commands answers the next state written there: MBX_POST, MBX_ACK, MBX_CLEAR,
MBX_WAKE_LATE, STILE_READ, STILE_RELEASE, STILE_LONG, CORE_RESET_WRITE, WATCHDOG_EXPIRE. A clause gives that whole state as
the command's effect on u, the state after the ticks dt have passed, so what it does not name stays as in u. The clauses also
follow the model's readings of log entries 56. -/
def Obligations.MailboxCommandsComplete : Prop :=
  (∀ (s u : State) (dt : Nat) (agent : Fin 7) (data : Word) (v w : State),
      s.down = false →
      u = s.elapse dt →
      agent.val ≠ 0 →
      u.writeOpen agent.val Reg.MBX_POST.off = true →
      v = u.noteWrite agent.val Reg.MBX_POST.off data.toNat →
      boxReceiver (data.toNat % 16) ≠ agent.val →
      (v.box (data.toNat % 16)).state ≠ .posted →
      w = v.onBox (data.toNat % 16) (fun _ => { Mailbox.reset with state := .posted, ptr := (v.stage agent.val).ptrLo + 2 ^ 32 * (v.stage agent.val).ptrHi, tag := (v.stage agent.val).tag, sender := agent.val, postedAt := v.now }) →
      exec (.mbxPost dt agent data) s = .next ((w.onStage agent.val (fun x => { x with result := 1, mailbox := data.toNat % 16 })).tellReceiver (boxReceiver (data.toNat % 16)))) ∧
  (∀ (s u : State) (dt : Nat) (agent : Fin 7) (box : Fin 16) (data : Word) (v w : State),
      s.down = false →
      u = s.elapse dt →
      u.writeOpen agent.val (Reg.MBX_ACK box.val).off = true →
      v = u.noteWrite agent.val (Reg.MBX_ACK box.val).off data.toNat →
      agent.val = boxReceiver box.val →
      (v.box box.val).state = .posted →
      (v.box box.val).orphan = false →
      w = v.onBox box.val (fun b => { b with state := .done, result := data.toNat % 65536, aborted := false }) →
      exec (.mbxAck dt agent box data) s = .next (w.tellSender (v.box box.val).sender false)) ∧
  (∀ (s u : State) (dt : Nat) (agent : Fin 7) (box : Fin 16) (data : Word) (v : State),
      s.down = false →
      u = s.elapse dt →
      u.writeOpen agent.val (Reg.MBX_CLEAR box.val).off = true →
      v = u.noteWrite agent.val (Reg.MBX_CLEAR box.val).off data.toNat →
      bitOf data.toNat 0 = true →
      (v.box box.val).state = .done →
      (v.box box.val).sender = agent.val →
      exec (.mbxClear dt agent box data) s = .next (v.onBox box.val (fun _ => Mailbox.reset))) ∧
  (∀ (s u : State) (dt : Nat) (box : Fin 16),
      s.down = false →
      u = s.elapse dt →
      (u.box box.val).state = .posted →
      boxReceiver box.val ≠ 1 →
      (u.box box.val).seen = false →
      (u.box box.val).late = false →
      (u.box box.val).postedAt + u.wakeLimit * 1000 < u.now →
      exec (.mbxWakeLate dt box) s = .next ((u.onBox box.val (fun b => { b with late := true })).fault 98)) ∧
  (∀ (s u : State) (dt : Nat) (agent : Fin 7) (stile : Fin 8),
      s.down = false →
      u = s.elapse dt →
      u.answers (Reg.MBX_STILE stile.val).off = true →
      exec (.stileRead dt agent stile) s = .next (u.stileTake stile.val agent.val)) ∧
  (∀ (s u : State) (dt : Nat) (stile : Fin 8) (data : Word) (v : State),
      s.down = false →
      u = s.elapse dt →
      u.writeOpen (data.toNat % 16) (Reg.MBX_STILE stile.val).off = true →
      v = u.noteWrite (data.toNat % 16) (Reg.MBX_STILE stile.val).off data.toNat →
      (v.stile stile.val).owner ≠ 0 →
      data.toNat % 16 = (v.stile stile.val).owner →
      exec (.stileRelease dt stile data) s = .next ({ v with mbx := { v.mbx with stiles := v.mbx.stiles.modify stile.val (fun _ => ⟨0, 0, false⟩) } })) ∧
  (∀ (s u : State) (dt : Nat) (stile : Fin 8),
      s.down = false →
      u = s.elapse dt →
      u.f Fld.MBX_LIMITS_stile_max ≠ 0 →
      (u.stile stile.val).owner ≠ 0 →
      (u.stile stile.val).said = false →
      (u.stile stile.val).since + u.f Fld.MBX_LIMITS_stile_max * 1000 < u.now →
      exec (.stileLong dt stile) s = .next ({ u with mbx := { u.mbx with stiles := u.mbx.stiles.modify stile.val (fun x => { x with said := true }) } }.fault 99)) ∧
  (∀ (s u : State) (dt : Nat) (data : Word) (v : State),
      s.down = false →
      u = s.elapse dt →
      u.writeOpen 1 Reg.MBX_CORE_CTRL.off = true →
      v = u.noteWrite 1 Reg.MBX_CORE_CTRL.off data.toNat →
      bits data.toNat 31 16 = 0xC0DE →
      exec (.coreResetWrite dt data) s = .next ([1, 2, 3].foldl (fun s n => if bitOf data.toNat n then s.resetCore n 2 else s) v)) ∧
  (∀ (s u : State) (dt : Nat) (core : Fin 4),
      s.down = false →
      u = s.elapse dt →
      (u.mbx.cores.getD core.val ⟨false, 0, 0, false⟩).run = true →
      exec (.watchdogExpire dt core) s = .next (if core.val = 0 then (u.fault 100).deviceReset 2 else (u.fault (100 + core.val)).resetCore core.val 1))

/-- Token, tamper, recovery, TRNG and session commands complete (R470, R471, R473, R475, R477, R482, R487). In every state and
for all operands that meet the hypotheses of its clause, each of these commands answers the next state written there:
TOKEN_SUBMIT, TOKEN_DONE, TAMPER, RECOVERY_LOAD, TRNG_HEALTH, DEBUG_SESSION_EXPIRE, LC_TRANSITION_RESET. A clause gives that
whole state as the command's effect on u, the state after the ticks dt have passed, so what it does not name stays as in u.
The clauses also follow the model's readings of log entries 58, 59, 60, 61. -/
def Obligations.SecurityCommandsComplete : Prop :=
  (∀ (s u : State) (dt : Nat) (data : Word) (v w : State),
      s.down = false →
      u = s.elapse dt →
      u.writeOpen 1 Reg.SEC_TOKEN_CTRL.off = true →
      v = u.noteWrite 1 Reg.SEC_TOKEN_CTRL.off data.toNat →
      bitOf data.toNat 0 = true →
      v.sec.busy = false →
      v.c0Runs = true →
      v.sec.trngFail = false →
      w = { v with sec := { v.sec with busy := true, readDue := true, readLost := false } } →
      exec (.tokenSubmit dt data) s = .next (if v.hif.mute then w else { w with sec := { w.sec with readDue := false }, out := w.out ++ [.hostRead (w.reg Reg.SEC_TOKEN_ADDR_LO + 2 ^ 32 * w.reg Reg.SEC_TOKEN_ADDR_HI) 384 false] })) ∧
  (∀ (s u : State) (dt : Nat) (token nonce : List Byte) (r : Nat × State) (n : Nat) (v : State),
      s.down = false →
      u = s.elapse dt →
      token.length = 384 →
      nonce.length = 32 →
      u.sec.busy = true →
      u.sec.readDue = false →
      v = { u with sec := { u.sec with busy := false } } →
      v.sec.trngFail = false →
      n = (if v.sec.readLost then 1 else v.tokenStep token) →
      (r = if n = 0 then v.actOn token else (0x15, v.fault (if !v.sec.readLost && decide (leAt token 4 1 = 3) then 92 else 88))) →
      exec (.tokenDone dt token nonce) s = .next ({ r.2 with sec := { r.2.sec with status := r.1, step := n, nonce := nonce } }.raiseEv 251)) ∧
  (∀ (s u : State) (dt : Nat),
      s.down = false →
      u = s.elapse dt →
      exec (.tamper dt) s = .next (({ u with sec := { u.sec with tamper := true } }.fault 93).raiseEv 253)) ∧
  (∀ (s u : State) (dt : Nat) (data : Word) (v w : State),
      s.down = false →
      u = s.elapse dt →
      u.writeOpen 1 Reg.SEC_LOAD_ADDR_HI.off = true →
      v = u.noteWrite 1 Reg.SEC_LOAD_ADDR_HI.off data.toNat →
      v.sec.recovery = true →
      v.sec.loading = false →
      w = (v.setReg Reg.SEC_LOAD_ADDR_HI data.toNat).onSec (fun x => { x with loading := true }) →
      exec (.recoveryLoad dt data) s = .next ({ w with out := w.out ++ [.hostRead (w.reg Reg.SEC_LOAD_ADDR_LO + 2 ^ 32 * data.toNat) 512 false] })) ∧
  (∀ (s u : State) (dt : Nat) (failing : Bool) (v : State),
      s.down = false →
      u = s.elapse dt →
      v = { u with sec := { u.sec with trngFail := failing } } →
      exec (.trngHealth dt failing) s = .next (if failing then (v.fault 94).raiseEv 254 else v)) ∧
  (∀ (s u : State) (dt : Nat),
      s.down = false →
      u = s.elapse dt →
      u.sec.scope ≠ 0 →
      u.sec.scopeEnd ≤ u.now →
      exec (.debugSessionExpire dt) s = .next ({ u with sec := { u.sec with scope := 0, scopeEnd := 0 } })) ∧
  (∀ (s u : State) (dt : Nat),
      s.down = false →
      u = s.elapse dt →
      u.sec.pendingLc.isSome = true →
      u.sys.lcReset.isSome = true →
      exec (.lcTransitionReset dt) s = .next (u.deviceReset 3))

/-- The three kinds of MARK_PKG complete (R117, R126, R478, R479, R480, R495). In every state and for all operands that meet the
hypotheses of its clause, each of these commands answers the next state written there: MARK_PKG_CONTENT, MARK_PKG_CSP,
MARK_PKG_KEY. A clause gives that whole state as the command's effect on u, the state after the ticks dt have passed, so what
it does not name stays as in u. The clauses also follow the model's readings of log entries 60, 68. -/
def Obligations.MarkPackagesComplete : Prop :=
  (∀ (s u : State) (dt : Nat) (ring : Fin 64) (slot : Nat) (list : List PageEnt) (data : List Byte) (d : Desc) (p : List Byte) (v : State),
      s.down = false →
      u = s.elapse dt →
      u.markDesc ring.val slot 0 list data = some (d, 0, p) →
      v = u.readHost d list →
      exec (.markPkgContent dt ring slot list data) s = .next (match v.markOpen p, v.lypPlace p with | .inl st, _ => v.markRefuse d st | .inr _, .inl st => v.complete d st 0 | .inr plain, .inr n => (v.lypStore { slot := n, image := leAt p 8 4, count := leAt p 12 4, x0 := leAt p 16 4, y0 := leAt p 20 4, w := leAt p 24 2, h := leAt p 26 2, marginX := leAt p 28 1, marginY := leAt p 29 1, keep := leAt p 30 1, format := leAt p 6 1, spot := leAt p 31 1 % 8, data := plain, owned := v.lay.job.isSome, ended := [] }).complete d 0 (leAt p 12 4))) ∧
  (∀ (s u : State) (dt : Nat) (ring : Fin 64) (slot : Nat) (list : List PageEnt) (data : List Byte) (d : Desc) (p : List Byte) (v : State),
      s.down = false →
      u = s.elapse dt →
      u.markDesc ring.val slot 1 list data = some (d, 0, p) →
      v = u.readHost d list →
      exec (.markPkgCsp dt ring slot list data) s = .next (match v.markOpen p with | .inl st => v.markRefuse d st | .inr plain => (v.onInk (fun k => if v.lay.job.isNone then { k with csp := some (cspOf plain) } else { k with cspWait := some (.next, cspOf plain) })).complete d 0 0)) ∧
  (∀ (s u : State) (dt : Nat) (ring : Fin 64) (slot : Nat) (list : List PageEnt) (data : List Byte) (d : Desc) (p : List Byte) (v : State),
      s.down = false →
      u = s.elapse dt →
      u.markDesc ring.val slot 2 list data = some (d, 0, p) →
      v = u.readHost d list →
      exec (.markPkgKey dt ring slot list data) s = .next (match v.markOpen p with | .inl st => v.markRefuse d st | .inr plain => ((v.onSec (fun x => { x with markKeys := (leAt p 7 1, plain) :: x.markKeys.filter (fun k => k.1 ≠ leAt p 7 1) })).writeRecord 0x04 (leAt p 7 1) (keyWrap (beBytes 32 Config.deviceKey) plain) none).complete d 0 0))

/-- A step runs the command at the front of the queue (00_scope.md, 95_what_each_step_holds.md). One step at a state whose queue
holds a command at its front is that command's effect on the state with the rest of the queue. -/
def Obligations.StepRunsTheFrontCommand : Prop :=
  ∀ (s : State) (c : Instr) (cs : List Instr), s.pending = c :: cs → step s = exec c { s with pending := cs }

/-- With no command waiting, a step lets one tick pass (00_scope.md, R385). The model's choice (log entry 1): on an empty queue a
step is the passing of one tick of 1 ns. The queue stays empty. -/
def Obligations.EmptyQueueLetsATickPass : Prop :=
  ∀ s : State, s.pending = [] →
    step s = .next (s.elapse 1) ∧ (s.elapse 1).pending = []

/-- What reset leaves (R10, R43, R435, R476, R532). After reset no command waits, every register reads as its reset value, the
set-up lock is open, no descriptor is in flight, Crook is SAFE with the stop line asserted and cause RESET, and on no bar is
HV_EN high or a pulse running. The life-cycle state BLANK and the straps of zero are the model's choice (log entry 10). -/
def Obligations.ResetState : Prop :=
  State.reset.pending = [] ∧ (∀ r : Reg, State.reset.reg r = r.rst) ∧ State.reset.sys.lock = false ∧ State.reset.inFlight = 0 ∧
    State.reset.crook.state = .safe ∧ State.reset.crook.pressStop = true ∧ State.reset.crook.cause = 0x80 ∧
    (∀ b, (State.reset.bar b).hv = false ∧ (State.reset.bar b).pulse = none) ∧
    State.reset.sec.lc = .blank ∧ State.reset.sys.straps = Straps.none

/-- The invariants hold after reset (R469, R470). After reset the latch holds no transition that R469 does not give, and the
register file is in canonical form. -/
def Obligations.ResetIsSound : Prop :=
  LcSound State.reset ∧ rfSorted State.reset.regs = true

/-- Every step keeps the life-cycle latch sound (R469, R470). For every state whose latch holds no pending transition but one of
R469, and every step from it to a next state: the latch of the next state is sound again, and the life-cycle state is the
same or has moved along one transition of R469. -/
def Obligations.LifeCycleMovesOnlyAlongTransitions : Prop :=
  ∀ s t : State, LcSound s → step s = .next t → LcSound t ∧ LcMoves s t

/-- The set-up lock is cleared only by a reset (R10). SETUP_LOCK sets the lock where the block answers; and every step from a
locked state to a next state leaves it locked, or leaves every register, the RWL fields among them, at its reset value. -/
def Obligations.SetupLockHoldsUntilReset : Prop :=
  (∀ (s : State) (dt : Nat), s.down = false → (s.elapse dt).writeOpen 1 Reg.SYS_LOCK.off = true →
    ∃ t, exec (.setupLock dt) s = .next t ∧ t.sys.lock = true) ∧
  (∀ s t : State, s.sys.lock = true → step s = .next t → t.sys.lock = true ∨ ∀ r : Reg, t.reg r = r.rst)

/-- No command touches the queue (00_scope.md, 95_what_each_step_holds.md). What a command does to the state, it does to
everything but the queue of waiting commands. -/
def Obligations.CommandsLeaveTheQueue : Prop :=
  ∀ (c : Instr) (s t : State), exec c s = .next t → t.pending = s.pending

/-- Only PORST_RISE samples the straps (R530). Every command but PORST_RISE leaves the straps as they are. PORST_RISE, where it
has its effect, takes them from its operand as R530 lays them out. -/
def Obligations.StrapsAreSampledAtPorstRise : Prop :=
  (∀ (c : Instr) (s t : State), (∀ dt p, c ≠ .porstRise dt p) → exec c s = .next t → t.sys.straps = s.sys.straps) ∧
  (∀ (s t : State) (dt : Nat) (p : BitVec 10), s.sys.porst = true → s.power.inShelf = false → exec (.porstRise dt p) s = .next t →
    t.sys.straps = ⟨bits p.toNat 1 0, bits p.toNat 3 2, bits p.toNat 5 4, bitOf p.toNat 7, bitOf p.toNat 8, bitOf p.toNat 9⟩)

/-- A well-formed command answers a next state in every state (00_scope.md, 95_what_each_step_holds.md). In every state, every
well-formed command ends in a next state: none in a fault, none in a refusal. -/
def Obligations.WellFormedCommandsNeverStop : Prop :=
  ∀ (c : Instr) (s : State), c.wf = true → ∃ t, exec c s = .next t

/-- While PORST_N is low or the device is in Shelf, nothing happens (R400, R435, R532). In such a state a command changes
nothing, but for the five that act on what stays alive: the rise of PORST_N, the loss of the main rails, the wake from Shelf,
the tamper input and the levels of the wheel inputs. -/
def Obligations.NothingHappensWhileDown : Prop :=
  ∀ (c : Instr) (s t : State), s.down = true →
    (∀ dt p, c ≠ .porstRise dt p) → (∀ dt, c ≠ .mainRailLoss dt) → (∀ dt, c ≠ .shelfWake dt) → (∀ dt, c ≠ .tamper dt) →
    (∀ dt w b l, c ≠ .wheelInputChange dt w b l) → exec c s = .next t → t = s

/-- An address without a register reads 0 and ignores writes (R5). A read of such an address by any agent gives 0 to the reader,
and a write to it, whole or not, does nothing: only the time since the last command passes. Agent number 0 stands for no
agent: its read gives nothing. -/
def Obligations.HolesReadZeroAndIgnoreWrites : Prop :=
  ∀ (s u : State) (dt : Nat) (agent : Fin 7) (off : Nat) (be : BitVec 4) (data : Word),
    s.down = false → u = s.elapse dt → regAt off = none →
    exec (.registerWrite dt agent off be data) s = .next u ∧
    (agent.val ≠ 0 → exec (.rcFieldRead dt agent off) s = .next { u with hif := { u.hif with readData := 0 } } ∧
      exec (.wideQuantityRead dt agent off) s = .next { u with hif := { u.hif with readData := 0 } }) ∧
    (agent.val = 0 → exec (.rcFieldRead dt agent off) s = .next u ∧ exec (.wideQuantityRead dt agent off) s = .next u)

/-- Accesses that are discarded (R4, R398, R521). A write without all four byte enables, a write of no agent or of agent 6, which
is Tally replay, and a write to a block whose domain is not ON do nothing; nor does a host write outside the TALLY block
while a record is replayed. A read of a block whose domain is not ON gives 0. -/
def Obligations.DiscardedAccesses : Prop :=
  ∀ (s u : State) (dt : Nat) (agent : Fin 7) (off d : Nat) (be : BitVec 4) (data : Word),
    s.down = false → u = s.elapse dt →
    (be.toNat ≠ 15 ∨ agent.val = 0 ∨ agent.val = 6 → exec (.registerWrite dt agent off be data) s = .next u) ∧
    (regDomain off = some d → u.isOn d = false → exec (.registerWrite dt agent off be data) s = .next u ∧
      (agent.val ≠ 0 → exec (.rcFieldRead dt agent off) s = .next { u with hif := { u.hif with readData := 0 } })) ∧
    (agent.val = 1 → u.replaying = true → u.tally.applying = false → inTally off = false →
      exec (.registerWrite dt agent off be data) s = .next u)

/-- A register set reads back, and no other register changes (R4, R5). A register set to a value reads as that value modulo 2 to
the 32, every register at another address reads as before, and a file in canonical form stays in it. -/
def Obligations.RegisterFileReadsBack : Prop :=
  ∀ (s : State) (r : Reg) (v : Nat),
    (s.setReg r v).reg r = v % 2 ^ 32 ∧ (∀ q : Reg, q.off ≠ r.off → (s.setReg r v).reg q = s.reg q) ∧
    (rfSorted s.regs = true → rfSorted (s.setReg r v).regs = true)

/-- Each bit of a written word follows the access code of its field (R7, R8, R538). Bit k of the word that a write gives, for any
list of fields whose bounds are in order: an RW bit takes the data, and so does an RWL bit while the lock is open; a W1S bit
is set by a one; every other bit keeps its value. A one at a W1C bit, or a read of an RC bit, clears the bit where it was set
before the tick and has not been set again in it, and changes no other bit and no other register. -/
def Obligations.WrittenBitsFollowTheirAccessCodes : Prop :=
  (∀ (lock : Bool) (fs : List FieldSpec) (was data k : Nat), (∀ f ∈ fs, f.lo ≤ f.hi) →
    (writtenWord lock fs was data).testBit k =
      (let has := fun (p : Access → Bool) => fs.any (fun f => p f.acc && decide (f.lo ≤ k) && decide (k ≤ f.hi))
       (if has (fun a => a = .rw || (a = .rwl && !lock)) then data.testBit k else was.testBit k) ||
         (has (fun a => a = .w1s) && data.testBit k))) ∧
  (∀ (s : State) (r : Reg) (m k : Nat), k < 32 →
    ((s.wipe r m).reg r).testBit k =
      ((s.reg r).testBit k && !(m.testBit k && (s.earlier r).testBit k && !(s.raisedBits r).testBit k))) ∧
  (∀ (s : State) (r q : Reg) (m : Nat), q.off ≠ r.off → (s.wipe r m).reg q = s.reg q)

/-- A write to a register that only holds a value (R4, R7, R8, R398, R538). In the blocks whose registers act through their
values alone (DFL, Cistern, Inkrose; and JET and SEE but for JET_BAR_CTRL, JET_NH_LIMITS and SEE_PORT_CFG), a whole write by
an agent that is taken sets the register by its access codes, a one at a W1C bit clearing it where it was set before the tick
and not again in it, and leaves every other register, after the write has been recorded, as it was. -/
def Obligations.PlainRegisterWrites : Prop :=
  ∀ (s w : State) (dt : Nat) (agent : Fin 7) (off i : Nat) (x : RegSpec) (data : Word),
    s.down = false → w = (s.elapse dt).noteWrite agent.val off data.toNat → agent.val ≠ 0 → agent.val ≠ 6 →
    (s.elapse dt).writeOpen agent.val off = true → regAt off = some (x, i) →
    (0x700000 ≤ off ∧ off < 0xA00000 ∨ 0xC00000 ≤ off ∧ off < 0xD00000 ∨ 0xE00000 ≤ off ∧ off < 0xF00000) →
    x.id ≠ .JET_BAR_CTRL → x.id ≠ .JET_NH_LIMITS → x.id ≠ .SEE_PORT_CFG →
    ∃ t, exec (.registerWrite dt agent off 15 data) s = .next t ∧
      (∀ k, k < 32 → (t.reg (x.regOf i)).testBit k =
        ((writtenWord w.sys.lock x.fields (w.reg (x.regOf i)) data.toNat).testBit k &&
          !((data.toNat &&& accMask (fun a => a = .w1c) x.fields).testBit k &&
            (w.earlier (x.regOf i)).testBit k && !(w.raisedBits (x.regOf i)).testBit k))) ∧
      (∀ q : Reg, q.off ≠ (x.regOf i).off → t.reg q = w.reg q) ∧
      t = { w with regs := t.regs, sys := { w.sys with before := t.sys.before }, tally := { w.tally with applying := false } }

/-- Every device reset leaves the press safe (R400, R435, R532, R533). The fall of PORST_N, a taken SYS_RST, the expiry of C0's
watchdog, the reset of a transition and the loss of the main rails each leave HV_EN low and no pulse running on every bar,
Crook in SAFE with the stop line asserted, every register at its reset value, and the straps as they were. -/
def Obligations.ResetsLeaveThePressSafe : Prop :=
  ∀ (c : Instr) (s t : State) (dt : Nat), s.down = false →
    (c = .porstFall dt ∨
      (∃ data : Word, c = .sysReset dt data ∧ (s.elapse dt).writeOpen 1 Reg.SYS_RST.off = true ∧
        bits data.toNat 31 16 = 0xD1E5 ∧ bitOf data.toNat 0 = true) ∨
      (c = .watchdogExpire dt 0 ∧ (((s.elapse dt).mbx.cores.getD 0 ⟨false, 0, 0, false⟩).run = true)) ∨
      (c = .lcTransitionReset dt ∧ (s.elapse dt).sec.pendingLc.isSome = true ∧ (s.elapse dt).sys.lcReset.isSome = true) ∨
      c = .mainRailLoss dt) →
    exec c s = .next t →
    (∀ b, (t.bar b).hv = false ∧ (t.bar b).pulse = none) ∧ t.crook.state = .safe ∧ t.crook.pressStop = true ∧
      (∀ r : Reg, t.reg r = r.rst) ∧ t.sys.straps = s.sys.straps

/-- A write of SYS_RST with another key does nothing (R533). With a key other than 0xD1E5, or with go 0, the write is recorded as
every host write and has no other effect. -/
def Obligations.SysResetNeedsItsKey : Prop :=
  ∀ (s u : State) (dt : Nat) (data : Word), s.down = false → u = s.elapse dt → u.writeOpen 1 Reg.SYS_RST.off = true →
    (bits data.toNat 31 16 ≠ 0xD1E5 ∨ bitOf data.toNat 0 = false) →
    exec (.sysReset dt data) s = .next (u.noteWrite 1 Reg.SYS_RST.off data.toNat)

/-- Descriptor fetches keep at most 1,024 descriptors in flight (R43). A fetch never takes the descriptors in flight or asked for
above 1,024, and while that number is reached it asks for none. -/
def Obligations.FetchKeepsTheLimitOfDescriptors : Prop :=
  ∀ (s t : State) (dt : Nat), s.down = false → (s.elapse dt).inFlight ≤ 1024 →
    exec (.descriptorFetch dt) s = .next t →
    t.inFlight ≤ 1024 ∧ ((s.elapse dt).inFlight = 1024 → t = s.elapse dt)

/-- A domain that printing needs is not switched off while HV_EN is high (R16). While a bar has HV_EN asserted, a request to
switch off such a domain is recorded and leaves the power of every domain as it was, and the domain-refusal event is raised;
and a change that was asked for before does not take place. -/
def Obligations.PrintingKeepsItsDomains : Prop :=
  (∀ (s u v : State) (dt : Nat) (domain : Fin 10) (data : Word), s.down = false → u = s.elapse dt →
    u.writeOpen 1 (Reg.SYS_PD_CTRL domain.val).off = true →
    v = (u.noteWrite 1 (Reg.SYS_PD_CTRL domain.val).off data.toNat).setReg (Reg.SYS_PD_CTRL domain.val) (data.toNat % 4) →
    data.toNat % 4 = 2 → v.anyHv = true → v.printNeeds domain.val = true → (v.domain domain.val).state ≠ .off →
    ∃ cause w, w = { v with power := { v.power with refuseCause := cause, refuseDomain := domain.val } } ∧
      cause ≠ 0 ∧ exec (.domainRequest dt domain data) s = .next (w.raiseEv 205) ∧
      (w.raiseEv 205).power.domains = v.power.domains) ∧
  (∀ (s u : State) (dt : Nat) (domain : Fin 10), s.down = false → u = s.elapse dt → u.anyHv = true → u.printNeeds domain.val = true →
    exec (.domainChange dt domain) s = .next u)

/-- A receiver undoes the coding of the line (R216, R217, R220). For every list of PAM4 indices and every state, undoing the
precoding of R217 gives the indices back; the Gray indices of a symbol of 10 bits give that symbol; and scrambling twice from
one state of R220 gives the symbols back and leaves the same state behind. -/
def Obligations.LineCodingIsUndone : Prop :=
  (∀ (p : Nat) (gs : List Nat), (∀ g ∈ gs, g < 4) → unPrecode p (precode p gs) = gs) ∧
  (∀ sym : Nat, sym < 1024 → symbolsOf 1 (grayOf sym) = [sym]) ∧
  (∀ (st : Nat) (cs : List Nat), descramble st (descramble st cs).1 = (cs, (descramble st cs).2))
end

