-- ==== Sys2Proof/Laws/State.lean ====
section
/-! SUPPORT. One lemma per field for each update of the state: what it sets, and that it leaves every other field as it is. -/

set_option Elab.async false

namespace Sys2Proof.Machine

/-! ### onSys -/

@[simp] theorem State.onSys_now (f : Sys → Sys) (s : State) : (s.onSys f).now = s.now := rfl
@[simp] theorem State.onSys_regs (f : Sys → Sys) (s : State) : (s.onSys f).regs = s.regs := rfl
@[simp] theorem State.onSys_sys (f : Sys → Sys) (s : State) : (s.onSys f).sys = f s.sys := rfl
@[simp] theorem State.onSys_hif (f : Sys → Sys) (s : State) : (s.onSys f).hif = s.hif := rfl
@[simp] theorem State.onSys_fold (f : Sys → Sys) (s : State) : (s.onSys f).fold = s.fold := rfl
@[simp] theorem State.onSys_crook (f : Sys → Sys) (s : State) : (s.onSys f).crook = s.crook := rfl
@[simp] theorem State.onSys_power (f : Sys → Sys) (s : State) : (s.onSys f).power = s.power := rfl
@[simp] theorem State.onSys_therm (f : Sys → Sys) (s : State) : (s.onSys f).therm = s.therm := rfl
@[simp] theorem State.onSys_memc (f : Sys → Sys) (s : State) : (s.onSys f).memc = s.memc := rfl
@[simp] theorem State.onSys_paddock (f : Sys → Sys) (s : State) : (s.onSys f).paddock = s.paddock := rfl
@[simp] theorem State.onSys_dfl (f : Sys → Sys) (s : State) : (s.onSys f).dfl = s.dfl := rfl
@[simp] theorem State.onSys_mbx (f : Sys → Sys) (s : State) : (s.onSys f).mbx = s.mbx := rfl
@[simp] theorem State.onSys_sec (f : Sys → Sys) (s : State) : (s.onSys f).sec = s.sec := rfl
@[simp] theorem State.onSys_cal (f : Sys → Sys) (s : State) : (s.onSys f).cal = s.cal := rfl
@[simp] theorem State.onSys_tally (f : Sys → Sys) (s : State) : (s.onSys f).tally = s.tally := rfl
@[simp] theorem State.onSys_net (f : Sys → Sys) (s : State) : (s.onSys f).net = s.net := rfl
@[simp] theorem State.onSys_bell (f : Sys → Sys) (s : State) : (s.onSys f).bell = s.bell := rfl
@[simp] theorem State.onSys_lay (f : Sys → Sys) (s : State) : (s.onSys f).lay = s.lay := rfl
@[simp] theorem State.onSys_ink (f : Sys → Sys) (s : State) : (s.onSys f).ink = s.ink := rfl
@[simp] theorem State.onSys_jet (f : Sys → Sys) (s : State) : (s.onSys f).jet = s.jet := rfl
@[simp] theorem State.onSys_link (f : Sys → Sys) (s : State) : (s.onSys f).link = s.link := rfl
@[simp] theorem State.onSys_nozzle (f : Sys → Sys) (s : State) : (s.onSys f).nozzle = s.nozzle := rfl
@[simp] theorem State.onSys_see (f : Sys → Sys) (s : State) : (s.onSys f).see = s.see := rfl
@[simp] theorem State.onSys_hold (f : Sys → Sys) (s : State) : (s.onSys f).hold = s.hold := rfl
@[simp] theorem State.onSys_freeCount (f : Sys → Sys) (s : State) : (s.onSys f).freeCount = s.freeCount := rfl
@[simp] theorem State.onSys_out (f : Sys → Sys) (s : State) : (s.onSys f).out = s.out := rfl
@[simp] theorem State.onSys_pending (f : Sys → Sys) (s : State) : (s.onSys f).pending = s.pending := rfl

/-! ### onHif -/

@[simp] theorem State.onHif_now (f : Hif → Hif) (s : State) : (s.onHif f).now = s.now := rfl
@[simp] theorem State.onHif_regs (f : Hif → Hif) (s : State) : (s.onHif f).regs = s.regs := rfl
@[simp] theorem State.onHif_sys (f : Hif → Hif) (s : State) : (s.onHif f).sys = s.sys := rfl
@[simp] theorem State.onHif_hif (f : Hif → Hif) (s : State) : (s.onHif f).hif = f s.hif := rfl
@[simp] theorem State.onHif_fold (f : Hif → Hif) (s : State) : (s.onHif f).fold = s.fold := rfl
@[simp] theorem State.onHif_crook (f : Hif → Hif) (s : State) : (s.onHif f).crook = s.crook := rfl
@[simp] theorem State.onHif_power (f : Hif → Hif) (s : State) : (s.onHif f).power = s.power := rfl
@[simp] theorem State.onHif_therm (f : Hif → Hif) (s : State) : (s.onHif f).therm = s.therm := rfl
@[simp] theorem State.onHif_memc (f : Hif → Hif) (s : State) : (s.onHif f).memc = s.memc := rfl
@[simp] theorem State.onHif_paddock (f : Hif → Hif) (s : State) : (s.onHif f).paddock = s.paddock := rfl
@[simp] theorem State.onHif_dfl (f : Hif → Hif) (s : State) : (s.onHif f).dfl = s.dfl := rfl
@[simp] theorem State.onHif_mbx (f : Hif → Hif) (s : State) : (s.onHif f).mbx = s.mbx := rfl
@[simp] theorem State.onHif_sec (f : Hif → Hif) (s : State) : (s.onHif f).sec = s.sec := rfl
@[simp] theorem State.onHif_cal (f : Hif → Hif) (s : State) : (s.onHif f).cal = s.cal := rfl
@[simp] theorem State.onHif_tally (f : Hif → Hif) (s : State) : (s.onHif f).tally = s.tally := rfl
@[simp] theorem State.onHif_net (f : Hif → Hif) (s : State) : (s.onHif f).net = s.net := rfl
@[simp] theorem State.onHif_bell (f : Hif → Hif) (s : State) : (s.onHif f).bell = s.bell := rfl
@[simp] theorem State.onHif_lay (f : Hif → Hif) (s : State) : (s.onHif f).lay = s.lay := rfl
@[simp] theorem State.onHif_ink (f : Hif → Hif) (s : State) : (s.onHif f).ink = s.ink := rfl
@[simp] theorem State.onHif_jet (f : Hif → Hif) (s : State) : (s.onHif f).jet = s.jet := rfl
@[simp] theorem State.onHif_link (f : Hif → Hif) (s : State) : (s.onHif f).link = s.link := rfl
@[simp] theorem State.onHif_nozzle (f : Hif → Hif) (s : State) : (s.onHif f).nozzle = s.nozzle := rfl
@[simp] theorem State.onHif_see (f : Hif → Hif) (s : State) : (s.onHif f).see = s.see := rfl
@[simp] theorem State.onHif_hold (f : Hif → Hif) (s : State) : (s.onHif f).hold = s.hold := rfl
@[simp] theorem State.onHif_freeCount (f : Hif → Hif) (s : State) : (s.onHif f).freeCount = s.freeCount := rfl
@[simp] theorem State.onHif_out (f : Hif → Hif) (s : State) : (s.onHif f).out = s.out := rfl
@[simp] theorem State.onHif_pending (f : Hif → Hif) (s : State) : (s.onHif f).pending = s.pending := rfl

/-! ### onFold -/

@[simp] theorem State.onFold_now (f : Fold → Fold) (s : State) : (s.onFold f).now = s.now := rfl
@[simp] theorem State.onFold_regs (f : Fold → Fold) (s : State) : (s.onFold f).regs = s.regs := rfl
@[simp] theorem State.onFold_sys (f : Fold → Fold) (s : State) : (s.onFold f).sys = s.sys := rfl
@[simp] theorem State.onFold_hif (f : Fold → Fold) (s : State) : (s.onFold f).hif = s.hif := rfl
@[simp] theorem State.onFold_fold (f : Fold → Fold) (s : State) : (s.onFold f).fold = f s.fold := rfl
@[simp] theorem State.onFold_crook (f : Fold → Fold) (s : State) : (s.onFold f).crook = s.crook := rfl
@[simp] theorem State.onFold_power (f : Fold → Fold) (s : State) : (s.onFold f).power = s.power := rfl
@[simp] theorem State.onFold_therm (f : Fold → Fold) (s : State) : (s.onFold f).therm = s.therm := rfl
@[simp] theorem State.onFold_memc (f : Fold → Fold) (s : State) : (s.onFold f).memc = s.memc := rfl
@[simp] theorem State.onFold_paddock (f : Fold → Fold) (s : State) : (s.onFold f).paddock = s.paddock := rfl
@[simp] theorem State.onFold_dfl (f : Fold → Fold) (s : State) : (s.onFold f).dfl = s.dfl := rfl
@[simp] theorem State.onFold_mbx (f : Fold → Fold) (s : State) : (s.onFold f).mbx = s.mbx := rfl
@[simp] theorem State.onFold_sec (f : Fold → Fold) (s : State) : (s.onFold f).sec = s.sec := rfl
@[simp] theorem State.onFold_cal (f : Fold → Fold) (s : State) : (s.onFold f).cal = s.cal := rfl
@[simp] theorem State.onFold_tally (f : Fold → Fold) (s : State) : (s.onFold f).tally = s.tally := rfl
@[simp] theorem State.onFold_net (f : Fold → Fold) (s : State) : (s.onFold f).net = s.net := rfl
@[simp] theorem State.onFold_bell (f : Fold → Fold) (s : State) : (s.onFold f).bell = s.bell := rfl
@[simp] theorem State.onFold_lay (f : Fold → Fold) (s : State) : (s.onFold f).lay = s.lay := rfl
@[simp] theorem State.onFold_ink (f : Fold → Fold) (s : State) : (s.onFold f).ink = s.ink := rfl
@[simp] theorem State.onFold_jet (f : Fold → Fold) (s : State) : (s.onFold f).jet = s.jet := rfl
@[simp] theorem State.onFold_link (f : Fold → Fold) (s : State) : (s.onFold f).link = s.link := rfl
@[simp] theorem State.onFold_nozzle (f : Fold → Fold) (s : State) : (s.onFold f).nozzle = s.nozzle := rfl
@[simp] theorem State.onFold_see (f : Fold → Fold) (s : State) : (s.onFold f).see = s.see := rfl
@[simp] theorem State.onFold_hold (f : Fold → Fold) (s : State) : (s.onFold f).hold = s.hold := rfl
@[simp] theorem State.onFold_freeCount (f : Fold → Fold) (s : State) : (s.onFold f).freeCount = s.freeCount := rfl
@[simp] theorem State.onFold_out (f : Fold → Fold) (s : State) : (s.onFold f).out = s.out := rfl
@[simp] theorem State.onFold_pending (f : Fold → Fold) (s : State) : (s.onFold f).pending = s.pending := rfl

/-! ### onCrook -/

@[simp] theorem State.onCrook_now (f : Crook → Crook) (s : State) : (s.onCrook f).now = s.now := rfl
@[simp] theorem State.onCrook_regs (f : Crook → Crook) (s : State) : (s.onCrook f).regs = s.regs := rfl
@[simp] theorem State.onCrook_sys (f : Crook → Crook) (s : State) : (s.onCrook f).sys = s.sys := rfl
@[simp] theorem State.onCrook_hif (f : Crook → Crook) (s : State) : (s.onCrook f).hif = s.hif := rfl
@[simp] theorem State.onCrook_fold (f : Crook → Crook) (s : State) : (s.onCrook f).fold = s.fold := rfl
@[simp] theorem State.onCrook_crook (f : Crook → Crook) (s : State) : (s.onCrook f).crook = f s.crook := rfl
@[simp] theorem State.onCrook_power (f : Crook → Crook) (s : State) : (s.onCrook f).power = s.power := rfl
@[simp] theorem State.onCrook_therm (f : Crook → Crook) (s : State) : (s.onCrook f).therm = s.therm := rfl
@[simp] theorem State.onCrook_memc (f : Crook → Crook) (s : State) : (s.onCrook f).memc = s.memc := rfl
@[simp] theorem State.onCrook_paddock (f : Crook → Crook) (s : State) : (s.onCrook f).paddock = s.paddock := rfl
@[simp] theorem State.onCrook_dfl (f : Crook → Crook) (s : State) : (s.onCrook f).dfl = s.dfl := rfl
@[simp] theorem State.onCrook_mbx (f : Crook → Crook) (s : State) : (s.onCrook f).mbx = s.mbx := rfl
@[simp] theorem State.onCrook_sec (f : Crook → Crook) (s : State) : (s.onCrook f).sec = s.sec := rfl
@[simp] theorem State.onCrook_cal (f : Crook → Crook) (s : State) : (s.onCrook f).cal = s.cal := rfl
@[simp] theorem State.onCrook_tally (f : Crook → Crook) (s : State) : (s.onCrook f).tally = s.tally := rfl
@[simp] theorem State.onCrook_net (f : Crook → Crook) (s : State) : (s.onCrook f).net = s.net := rfl
@[simp] theorem State.onCrook_bell (f : Crook → Crook) (s : State) : (s.onCrook f).bell = s.bell := rfl
@[simp] theorem State.onCrook_lay (f : Crook → Crook) (s : State) : (s.onCrook f).lay = s.lay := rfl
@[simp] theorem State.onCrook_ink (f : Crook → Crook) (s : State) : (s.onCrook f).ink = s.ink := rfl
@[simp] theorem State.onCrook_jet (f : Crook → Crook) (s : State) : (s.onCrook f).jet = s.jet := rfl
@[simp] theorem State.onCrook_link (f : Crook → Crook) (s : State) : (s.onCrook f).link = s.link := rfl
@[simp] theorem State.onCrook_nozzle (f : Crook → Crook) (s : State) : (s.onCrook f).nozzle = s.nozzle := rfl
@[simp] theorem State.onCrook_see (f : Crook → Crook) (s : State) : (s.onCrook f).see = s.see := rfl
@[simp] theorem State.onCrook_hold (f : Crook → Crook) (s : State) : (s.onCrook f).hold = s.hold := rfl
@[simp] theorem State.onCrook_freeCount (f : Crook → Crook) (s : State) : (s.onCrook f).freeCount = s.freeCount := rfl
@[simp] theorem State.onCrook_out (f : Crook → Crook) (s : State) : (s.onCrook f).out = s.out := rfl
@[simp] theorem State.onCrook_pending (f : Crook → Crook) (s : State) : (s.onCrook f).pending = s.pending := rfl

/-! ### onPower -/

@[simp] theorem State.onPower_now (f : Power → Power) (s : State) : (s.onPower f).now = s.now := rfl
@[simp] theorem State.onPower_regs (f : Power → Power) (s : State) : (s.onPower f).regs = s.regs := rfl
@[simp] theorem State.onPower_sys (f : Power → Power) (s : State) : (s.onPower f).sys = s.sys := rfl
@[simp] theorem State.onPower_hif (f : Power → Power) (s : State) : (s.onPower f).hif = s.hif := rfl
@[simp] theorem State.onPower_fold (f : Power → Power) (s : State) : (s.onPower f).fold = s.fold := rfl
@[simp] theorem State.onPower_crook (f : Power → Power) (s : State) : (s.onPower f).crook = s.crook := rfl
@[simp] theorem State.onPower_power (f : Power → Power) (s : State) : (s.onPower f).power = f s.power := rfl
@[simp] theorem State.onPower_therm (f : Power → Power) (s : State) : (s.onPower f).therm = s.therm := rfl
@[simp] theorem State.onPower_memc (f : Power → Power) (s : State) : (s.onPower f).memc = s.memc := rfl
@[simp] theorem State.onPower_paddock (f : Power → Power) (s : State) : (s.onPower f).paddock = s.paddock := rfl
@[simp] theorem State.onPower_dfl (f : Power → Power) (s : State) : (s.onPower f).dfl = s.dfl := rfl
@[simp] theorem State.onPower_mbx (f : Power → Power) (s : State) : (s.onPower f).mbx = s.mbx := rfl
@[simp] theorem State.onPower_sec (f : Power → Power) (s : State) : (s.onPower f).sec = s.sec := rfl
@[simp] theorem State.onPower_cal (f : Power → Power) (s : State) : (s.onPower f).cal = s.cal := rfl
@[simp] theorem State.onPower_tally (f : Power → Power) (s : State) : (s.onPower f).tally = s.tally := rfl
@[simp] theorem State.onPower_net (f : Power → Power) (s : State) : (s.onPower f).net = s.net := rfl
@[simp] theorem State.onPower_bell (f : Power → Power) (s : State) : (s.onPower f).bell = s.bell := rfl
@[simp] theorem State.onPower_lay (f : Power → Power) (s : State) : (s.onPower f).lay = s.lay := rfl
@[simp] theorem State.onPower_ink (f : Power → Power) (s : State) : (s.onPower f).ink = s.ink := rfl
@[simp] theorem State.onPower_jet (f : Power → Power) (s : State) : (s.onPower f).jet = s.jet := rfl
@[simp] theorem State.onPower_link (f : Power → Power) (s : State) : (s.onPower f).link = s.link := rfl
@[simp] theorem State.onPower_nozzle (f : Power → Power) (s : State) : (s.onPower f).nozzle = s.nozzle := rfl
@[simp] theorem State.onPower_see (f : Power → Power) (s : State) : (s.onPower f).see = s.see := rfl
@[simp] theorem State.onPower_hold (f : Power → Power) (s : State) : (s.onPower f).hold = s.hold := rfl
@[simp] theorem State.onPower_freeCount (f : Power → Power) (s : State) : (s.onPower f).freeCount = s.freeCount := rfl
@[simp] theorem State.onPower_out (f : Power → Power) (s : State) : (s.onPower f).out = s.out := rfl
@[simp] theorem State.onPower_pending (f : Power → Power) (s : State) : (s.onPower f).pending = s.pending := rfl

/-! ### onTherm -/

@[simp] theorem State.onTherm_now (f : Therm → Therm) (s : State) : (s.onTherm f).now = s.now := rfl
@[simp] theorem State.onTherm_regs (f : Therm → Therm) (s : State) : (s.onTherm f).regs = s.regs := rfl
@[simp] theorem State.onTherm_sys (f : Therm → Therm) (s : State) : (s.onTherm f).sys = s.sys := rfl
@[simp] theorem State.onTherm_hif (f : Therm → Therm) (s : State) : (s.onTherm f).hif = s.hif := rfl
@[simp] theorem State.onTherm_fold (f : Therm → Therm) (s : State) : (s.onTherm f).fold = s.fold := rfl
@[simp] theorem State.onTherm_crook (f : Therm → Therm) (s : State) : (s.onTherm f).crook = s.crook := rfl
@[simp] theorem State.onTherm_power (f : Therm → Therm) (s : State) : (s.onTherm f).power = s.power := rfl
@[simp] theorem State.onTherm_therm (f : Therm → Therm) (s : State) : (s.onTherm f).therm = f s.therm := rfl
@[simp] theorem State.onTherm_memc (f : Therm → Therm) (s : State) : (s.onTherm f).memc = s.memc := rfl
@[simp] theorem State.onTherm_paddock (f : Therm → Therm) (s : State) : (s.onTherm f).paddock = s.paddock := rfl
@[simp] theorem State.onTherm_dfl (f : Therm → Therm) (s : State) : (s.onTherm f).dfl = s.dfl := rfl
@[simp] theorem State.onTherm_mbx (f : Therm → Therm) (s : State) : (s.onTherm f).mbx = s.mbx := rfl
@[simp] theorem State.onTherm_sec (f : Therm → Therm) (s : State) : (s.onTherm f).sec = s.sec := rfl
@[simp] theorem State.onTherm_cal (f : Therm → Therm) (s : State) : (s.onTherm f).cal = s.cal := rfl
@[simp] theorem State.onTherm_tally (f : Therm → Therm) (s : State) : (s.onTherm f).tally = s.tally := rfl
@[simp] theorem State.onTherm_net (f : Therm → Therm) (s : State) : (s.onTherm f).net = s.net := rfl
@[simp] theorem State.onTherm_bell (f : Therm → Therm) (s : State) : (s.onTherm f).bell = s.bell := rfl
@[simp] theorem State.onTherm_lay (f : Therm → Therm) (s : State) : (s.onTherm f).lay = s.lay := rfl
@[simp] theorem State.onTherm_ink (f : Therm → Therm) (s : State) : (s.onTherm f).ink = s.ink := rfl
@[simp] theorem State.onTherm_jet (f : Therm → Therm) (s : State) : (s.onTherm f).jet = s.jet := rfl
@[simp] theorem State.onTherm_link (f : Therm → Therm) (s : State) : (s.onTherm f).link = s.link := rfl
@[simp] theorem State.onTherm_nozzle (f : Therm → Therm) (s : State) : (s.onTherm f).nozzle = s.nozzle := rfl
@[simp] theorem State.onTherm_see (f : Therm → Therm) (s : State) : (s.onTherm f).see = s.see := rfl
@[simp] theorem State.onTherm_hold (f : Therm → Therm) (s : State) : (s.onTherm f).hold = s.hold := rfl
@[simp] theorem State.onTherm_freeCount (f : Therm → Therm) (s : State) : (s.onTherm f).freeCount = s.freeCount := rfl
@[simp] theorem State.onTherm_out (f : Therm → Therm) (s : State) : (s.onTherm f).out = s.out := rfl
@[simp] theorem State.onTherm_pending (f : Therm → Therm) (s : State) : (s.onTherm f).pending = s.pending := rfl

/-! ### onMemc -/

@[simp] theorem State.onMemc_now (f : Memc → Memc) (s : State) : (s.onMemc f).now = s.now := rfl
@[simp] theorem State.onMemc_regs (f : Memc → Memc) (s : State) : (s.onMemc f).regs = s.regs := rfl
@[simp] theorem State.onMemc_sys (f : Memc → Memc) (s : State) : (s.onMemc f).sys = s.sys := rfl
@[simp] theorem State.onMemc_hif (f : Memc → Memc) (s : State) : (s.onMemc f).hif = s.hif := rfl
@[simp] theorem State.onMemc_fold (f : Memc → Memc) (s : State) : (s.onMemc f).fold = s.fold := rfl
@[simp] theorem State.onMemc_crook (f : Memc → Memc) (s : State) : (s.onMemc f).crook = s.crook := rfl
@[simp] theorem State.onMemc_power (f : Memc → Memc) (s : State) : (s.onMemc f).power = s.power := rfl
@[simp] theorem State.onMemc_therm (f : Memc → Memc) (s : State) : (s.onMemc f).therm = s.therm := rfl
@[simp] theorem State.onMemc_memc (f : Memc → Memc) (s : State) : (s.onMemc f).memc = f s.memc := rfl
@[simp] theorem State.onMemc_paddock (f : Memc → Memc) (s : State) : (s.onMemc f).paddock = s.paddock := rfl
@[simp] theorem State.onMemc_dfl (f : Memc → Memc) (s : State) : (s.onMemc f).dfl = s.dfl := rfl
@[simp] theorem State.onMemc_mbx (f : Memc → Memc) (s : State) : (s.onMemc f).mbx = s.mbx := rfl
@[simp] theorem State.onMemc_sec (f : Memc → Memc) (s : State) : (s.onMemc f).sec = s.sec := rfl
@[simp] theorem State.onMemc_cal (f : Memc → Memc) (s : State) : (s.onMemc f).cal = s.cal := rfl
@[simp] theorem State.onMemc_tally (f : Memc → Memc) (s : State) : (s.onMemc f).tally = s.tally := rfl
@[simp] theorem State.onMemc_net (f : Memc → Memc) (s : State) : (s.onMemc f).net = s.net := rfl
@[simp] theorem State.onMemc_bell (f : Memc → Memc) (s : State) : (s.onMemc f).bell = s.bell := rfl
@[simp] theorem State.onMemc_lay (f : Memc → Memc) (s : State) : (s.onMemc f).lay = s.lay := rfl
@[simp] theorem State.onMemc_ink (f : Memc → Memc) (s : State) : (s.onMemc f).ink = s.ink := rfl
@[simp] theorem State.onMemc_jet (f : Memc → Memc) (s : State) : (s.onMemc f).jet = s.jet := rfl
@[simp] theorem State.onMemc_link (f : Memc → Memc) (s : State) : (s.onMemc f).link = s.link := rfl
@[simp] theorem State.onMemc_nozzle (f : Memc → Memc) (s : State) : (s.onMemc f).nozzle = s.nozzle := rfl
@[simp] theorem State.onMemc_see (f : Memc → Memc) (s : State) : (s.onMemc f).see = s.see := rfl
@[simp] theorem State.onMemc_hold (f : Memc → Memc) (s : State) : (s.onMemc f).hold = s.hold := rfl
@[simp] theorem State.onMemc_freeCount (f : Memc → Memc) (s : State) : (s.onMemc f).freeCount = s.freeCount := rfl
@[simp] theorem State.onMemc_out (f : Memc → Memc) (s : State) : (s.onMemc f).out = s.out := rfl
@[simp] theorem State.onMemc_pending (f : Memc → Memc) (s : State) : (s.onMemc f).pending = s.pending := rfl

/-! ### onPaddock -/

@[simp] theorem State.onPaddock_now (f : Paddock → Paddock) (s : State) : (s.onPaddock f).now = s.now := rfl
@[simp] theorem State.onPaddock_regs (f : Paddock → Paddock) (s : State) : (s.onPaddock f).regs = s.regs := rfl
@[simp] theorem State.onPaddock_sys (f : Paddock → Paddock) (s : State) : (s.onPaddock f).sys = s.sys := rfl
@[simp] theorem State.onPaddock_hif (f : Paddock → Paddock) (s : State) : (s.onPaddock f).hif = s.hif := rfl
@[simp] theorem State.onPaddock_fold (f : Paddock → Paddock) (s : State) : (s.onPaddock f).fold = s.fold := rfl
@[simp] theorem State.onPaddock_crook (f : Paddock → Paddock) (s : State) : (s.onPaddock f).crook = s.crook := rfl
@[simp] theorem State.onPaddock_power (f : Paddock → Paddock) (s : State) : (s.onPaddock f).power = s.power := rfl
@[simp] theorem State.onPaddock_therm (f : Paddock → Paddock) (s : State) : (s.onPaddock f).therm = s.therm := rfl
@[simp] theorem State.onPaddock_memc (f : Paddock → Paddock) (s : State) : (s.onPaddock f).memc = s.memc := rfl
@[simp] theorem State.onPaddock_paddock (f : Paddock → Paddock) (s : State) : (s.onPaddock f).paddock = f s.paddock := rfl
@[simp] theorem State.onPaddock_dfl (f : Paddock → Paddock) (s : State) : (s.onPaddock f).dfl = s.dfl := rfl
@[simp] theorem State.onPaddock_mbx (f : Paddock → Paddock) (s : State) : (s.onPaddock f).mbx = s.mbx := rfl
@[simp] theorem State.onPaddock_sec (f : Paddock → Paddock) (s : State) : (s.onPaddock f).sec = s.sec := rfl
@[simp] theorem State.onPaddock_cal (f : Paddock → Paddock) (s : State) : (s.onPaddock f).cal = s.cal := rfl
@[simp] theorem State.onPaddock_tally (f : Paddock → Paddock) (s : State) : (s.onPaddock f).tally = s.tally := rfl
@[simp] theorem State.onPaddock_net (f : Paddock → Paddock) (s : State) : (s.onPaddock f).net = s.net := rfl
@[simp] theorem State.onPaddock_bell (f : Paddock → Paddock) (s : State) : (s.onPaddock f).bell = s.bell := rfl
@[simp] theorem State.onPaddock_lay (f : Paddock → Paddock) (s : State) : (s.onPaddock f).lay = s.lay := rfl
@[simp] theorem State.onPaddock_ink (f : Paddock → Paddock) (s : State) : (s.onPaddock f).ink = s.ink := rfl
@[simp] theorem State.onPaddock_jet (f : Paddock → Paddock) (s : State) : (s.onPaddock f).jet = s.jet := rfl
@[simp] theorem State.onPaddock_link (f : Paddock → Paddock) (s : State) : (s.onPaddock f).link = s.link := rfl
@[simp] theorem State.onPaddock_nozzle (f : Paddock → Paddock) (s : State) : (s.onPaddock f).nozzle = s.nozzle := rfl
@[simp] theorem State.onPaddock_see (f : Paddock → Paddock) (s : State) : (s.onPaddock f).see = s.see := rfl
@[simp] theorem State.onPaddock_hold (f : Paddock → Paddock) (s : State) : (s.onPaddock f).hold = s.hold := rfl
@[simp] theorem State.onPaddock_freeCount (f : Paddock → Paddock) (s : State) : (s.onPaddock f).freeCount = s.freeCount := rfl
@[simp] theorem State.onPaddock_out (f : Paddock → Paddock) (s : State) : (s.onPaddock f).out = s.out := rfl
@[simp] theorem State.onPaddock_pending (f : Paddock → Paddock) (s : State) : (s.onPaddock f).pending = s.pending := rfl

/-! ### onDfl -/

@[simp] theorem State.onDfl_now (f : Dfl → Dfl) (s : State) : (s.onDfl f).now = s.now := rfl
@[simp] theorem State.onDfl_regs (f : Dfl → Dfl) (s : State) : (s.onDfl f).regs = s.regs := rfl
@[simp] theorem State.onDfl_sys (f : Dfl → Dfl) (s : State) : (s.onDfl f).sys = s.sys := rfl
@[simp] theorem State.onDfl_hif (f : Dfl → Dfl) (s : State) : (s.onDfl f).hif = s.hif := rfl
@[simp] theorem State.onDfl_fold (f : Dfl → Dfl) (s : State) : (s.onDfl f).fold = s.fold := rfl
@[simp] theorem State.onDfl_crook (f : Dfl → Dfl) (s : State) : (s.onDfl f).crook = s.crook := rfl
@[simp] theorem State.onDfl_power (f : Dfl → Dfl) (s : State) : (s.onDfl f).power = s.power := rfl
@[simp] theorem State.onDfl_therm (f : Dfl → Dfl) (s : State) : (s.onDfl f).therm = s.therm := rfl
@[simp] theorem State.onDfl_memc (f : Dfl → Dfl) (s : State) : (s.onDfl f).memc = s.memc := rfl
@[simp] theorem State.onDfl_paddock (f : Dfl → Dfl) (s : State) : (s.onDfl f).paddock = s.paddock := rfl
@[simp] theorem State.onDfl_dfl (f : Dfl → Dfl) (s : State) : (s.onDfl f).dfl = f s.dfl := rfl
@[simp] theorem State.onDfl_mbx (f : Dfl → Dfl) (s : State) : (s.onDfl f).mbx = s.mbx := rfl
@[simp] theorem State.onDfl_sec (f : Dfl → Dfl) (s : State) : (s.onDfl f).sec = s.sec := rfl
@[simp] theorem State.onDfl_cal (f : Dfl → Dfl) (s : State) : (s.onDfl f).cal = s.cal := rfl
@[simp] theorem State.onDfl_tally (f : Dfl → Dfl) (s : State) : (s.onDfl f).tally = s.tally := rfl
@[simp] theorem State.onDfl_net (f : Dfl → Dfl) (s : State) : (s.onDfl f).net = s.net := rfl
@[simp] theorem State.onDfl_bell (f : Dfl → Dfl) (s : State) : (s.onDfl f).bell = s.bell := rfl
@[simp] theorem State.onDfl_lay (f : Dfl → Dfl) (s : State) : (s.onDfl f).lay = s.lay := rfl
@[simp] theorem State.onDfl_ink (f : Dfl → Dfl) (s : State) : (s.onDfl f).ink = s.ink := rfl
@[simp] theorem State.onDfl_jet (f : Dfl → Dfl) (s : State) : (s.onDfl f).jet = s.jet := rfl
@[simp] theorem State.onDfl_link (f : Dfl → Dfl) (s : State) : (s.onDfl f).link = s.link := rfl
@[simp] theorem State.onDfl_nozzle (f : Dfl → Dfl) (s : State) : (s.onDfl f).nozzle = s.nozzle := rfl
@[simp] theorem State.onDfl_see (f : Dfl → Dfl) (s : State) : (s.onDfl f).see = s.see := rfl
@[simp] theorem State.onDfl_hold (f : Dfl → Dfl) (s : State) : (s.onDfl f).hold = s.hold := rfl
@[simp] theorem State.onDfl_freeCount (f : Dfl → Dfl) (s : State) : (s.onDfl f).freeCount = s.freeCount := rfl
@[simp] theorem State.onDfl_out (f : Dfl → Dfl) (s : State) : (s.onDfl f).out = s.out := rfl
@[simp] theorem State.onDfl_pending (f : Dfl → Dfl) (s : State) : (s.onDfl f).pending = s.pending := rfl

/-! ### onMbx -/

@[simp] theorem State.onMbx_now (f : Mbx → Mbx) (s : State) : (s.onMbx f).now = s.now := rfl
@[simp] theorem State.onMbx_regs (f : Mbx → Mbx) (s : State) : (s.onMbx f).regs = s.regs := rfl
@[simp] theorem State.onMbx_sys (f : Mbx → Mbx) (s : State) : (s.onMbx f).sys = s.sys := rfl
@[simp] theorem State.onMbx_hif (f : Mbx → Mbx) (s : State) : (s.onMbx f).hif = s.hif := rfl
@[simp] theorem State.onMbx_fold (f : Mbx → Mbx) (s : State) : (s.onMbx f).fold = s.fold := rfl
@[simp] theorem State.onMbx_crook (f : Mbx → Mbx) (s : State) : (s.onMbx f).crook = s.crook := rfl
@[simp] theorem State.onMbx_power (f : Mbx → Mbx) (s : State) : (s.onMbx f).power = s.power := rfl
@[simp] theorem State.onMbx_therm (f : Mbx → Mbx) (s : State) : (s.onMbx f).therm = s.therm := rfl
@[simp] theorem State.onMbx_memc (f : Mbx → Mbx) (s : State) : (s.onMbx f).memc = s.memc := rfl
@[simp] theorem State.onMbx_paddock (f : Mbx → Mbx) (s : State) : (s.onMbx f).paddock = s.paddock := rfl
@[simp] theorem State.onMbx_dfl (f : Mbx → Mbx) (s : State) : (s.onMbx f).dfl = s.dfl := rfl
@[simp] theorem State.onMbx_mbx (f : Mbx → Mbx) (s : State) : (s.onMbx f).mbx = f s.mbx := rfl
@[simp] theorem State.onMbx_sec (f : Mbx → Mbx) (s : State) : (s.onMbx f).sec = s.sec := rfl
@[simp] theorem State.onMbx_cal (f : Mbx → Mbx) (s : State) : (s.onMbx f).cal = s.cal := rfl
@[simp] theorem State.onMbx_tally (f : Mbx → Mbx) (s : State) : (s.onMbx f).tally = s.tally := rfl
@[simp] theorem State.onMbx_net (f : Mbx → Mbx) (s : State) : (s.onMbx f).net = s.net := rfl
@[simp] theorem State.onMbx_bell (f : Mbx → Mbx) (s : State) : (s.onMbx f).bell = s.bell := rfl
@[simp] theorem State.onMbx_lay (f : Mbx → Mbx) (s : State) : (s.onMbx f).lay = s.lay := rfl
@[simp] theorem State.onMbx_ink (f : Mbx → Mbx) (s : State) : (s.onMbx f).ink = s.ink := rfl
@[simp] theorem State.onMbx_jet (f : Mbx → Mbx) (s : State) : (s.onMbx f).jet = s.jet := rfl
@[simp] theorem State.onMbx_link (f : Mbx → Mbx) (s : State) : (s.onMbx f).link = s.link := rfl
@[simp] theorem State.onMbx_nozzle (f : Mbx → Mbx) (s : State) : (s.onMbx f).nozzle = s.nozzle := rfl
@[simp] theorem State.onMbx_see (f : Mbx → Mbx) (s : State) : (s.onMbx f).see = s.see := rfl
@[simp] theorem State.onMbx_hold (f : Mbx → Mbx) (s : State) : (s.onMbx f).hold = s.hold := rfl
@[simp] theorem State.onMbx_freeCount (f : Mbx → Mbx) (s : State) : (s.onMbx f).freeCount = s.freeCount := rfl
@[simp] theorem State.onMbx_out (f : Mbx → Mbx) (s : State) : (s.onMbx f).out = s.out := rfl
@[simp] theorem State.onMbx_pending (f : Mbx → Mbx) (s : State) : (s.onMbx f).pending = s.pending := rfl

/-! ### onSec -/

@[simp] theorem State.onSec_now (f : Sec → Sec) (s : State) : (s.onSec f).now = s.now := rfl
@[simp] theorem State.onSec_regs (f : Sec → Sec) (s : State) : (s.onSec f).regs = s.regs := rfl
@[simp] theorem State.onSec_sys (f : Sec → Sec) (s : State) : (s.onSec f).sys = s.sys := rfl
@[simp] theorem State.onSec_hif (f : Sec → Sec) (s : State) : (s.onSec f).hif = s.hif := rfl
@[simp] theorem State.onSec_fold (f : Sec → Sec) (s : State) : (s.onSec f).fold = s.fold := rfl
@[simp] theorem State.onSec_crook (f : Sec → Sec) (s : State) : (s.onSec f).crook = s.crook := rfl
@[simp] theorem State.onSec_power (f : Sec → Sec) (s : State) : (s.onSec f).power = s.power := rfl
@[simp] theorem State.onSec_therm (f : Sec → Sec) (s : State) : (s.onSec f).therm = s.therm := rfl
@[simp] theorem State.onSec_memc (f : Sec → Sec) (s : State) : (s.onSec f).memc = s.memc := rfl
@[simp] theorem State.onSec_paddock (f : Sec → Sec) (s : State) : (s.onSec f).paddock = s.paddock := rfl
@[simp] theorem State.onSec_dfl (f : Sec → Sec) (s : State) : (s.onSec f).dfl = s.dfl := rfl
@[simp] theorem State.onSec_mbx (f : Sec → Sec) (s : State) : (s.onSec f).mbx = s.mbx := rfl
@[simp] theorem State.onSec_sec (f : Sec → Sec) (s : State) : (s.onSec f).sec = f s.sec := rfl
@[simp] theorem State.onSec_cal (f : Sec → Sec) (s : State) : (s.onSec f).cal = s.cal := rfl
@[simp] theorem State.onSec_tally (f : Sec → Sec) (s : State) : (s.onSec f).tally = s.tally := rfl
@[simp] theorem State.onSec_net (f : Sec → Sec) (s : State) : (s.onSec f).net = s.net := rfl
@[simp] theorem State.onSec_bell (f : Sec → Sec) (s : State) : (s.onSec f).bell = s.bell := rfl
@[simp] theorem State.onSec_lay (f : Sec → Sec) (s : State) : (s.onSec f).lay = s.lay := rfl
@[simp] theorem State.onSec_ink (f : Sec → Sec) (s : State) : (s.onSec f).ink = s.ink := rfl
@[simp] theorem State.onSec_jet (f : Sec → Sec) (s : State) : (s.onSec f).jet = s.jet := rfl
@[simp] theorem State.onSec_link (f : Sec → Sec) (s : State) : (s.onSec f).link = s.link := rfl
@[simp] theorem State.onSec_nozzle (f : Sec → Sec) (s : State) : (s.onSec f).nozzle = s.nozzle := rfl
@[simp] theorem State.onSec_see (f : Sec → Sec) (s : State) : (s.onSec f).see = s.see := rfl
@[simp] theorem State.onSec_hold (f : Sec → Sec) (s : State) : (s.onSec f).hold = s.hold := rfl
@[simp] theorem State.onSec_freeCount (f : Sec → Sec) (s : State) : (s.onSec f).freeCount = s.freeCount := rfl
@[simp] theorem State.onSec_out (f : Sec → Sec) (s : State) : (s.onSec f).out = s.out := rfl
@[simp] theorem State.onSec_pending (f : Sec → Sec) (s : State) : (s.onSec f).pending = s.pending := rfl

/-! ### onCal -/

@[simp] theorem State.onCal_now (f : Cal → Cal) (s : State) : (s.onCal f).now = s.now := rfl
@[simp] theorem State.onCal_regs (f : Cal → Cal) (s : State) : (s.onCal f).regs = s.regs := rfl
@[simp] theorem State.onCal_sys (f : Cal → Cal) (s : State) : (s.onCal f).sys = s.sys := rfl
@[simp] theorem State.onCal_hif (f : Cal → Cal) (s : State) : (s.onCal f).hif = s.hif := rfl
@[simp] theorem State.onCal_fold (f : Cal → Cal) (s : State) : (s.onCal f).fold = s.fold := rfl
@[simp] theorem State.onCal_crook (f : Cal → Cal) (s : State) : (s.onCal f).crook = s.crook := rfl
@[simp] theorem State.onCal_power (f : Cal → Cal) (s : State) : (s.onCal f).power = s.power := rfl
@[simp] theorem State.onCal_therm (f : Cal → Cal) (s : State) : (s.onCal f).therm = s.therm := rfl
@[simp] theorem State.onCal_memc (f : Cal → Cal) (s : State) : (s.onCal f).memc = s.memc := rfl
@[simp] theorem State.onCal_paddock (f : Cal → Cal) (s : State) : (s.onCal f).paddock = s.paddock := rfl
@[simp] theorem State.onCal_dfl (f : Cal → Cal) (s : State) : (s.onCal f).dfl = s.dfl := rfl
@[simp] theorem State.onCal_mbx (f : Cal → Cal) (s : State) : (s.onCal f).mbx = s.mbx := rfl
@[simp] theorem State.onCal_sec (f : Cal → Cal) (s : State) : (s.onCal f).sec = s.sec := rfl
@[simp] theorem State.onCal_cal (f : Cal → Cal) (s : State) : (s.onCal f).cal = f s.cal := rfl
@[simp] theorem State.onCal_tally (f : Cal → Cal) (s : State) : (s.onCal f).tally = s.tally := rfl
@[simp] theorem State.onCal_net (f : Cal → Cal) (s : State) : (s.onCal f).net = s.net := rfl
@[simp] theorem State.onCal_bell (f : Cal → Cal) (s : State) : (s.onCal f).bell = s.bell := rfl
@[simp] theorem State.onCal_lay (f : Cal → Cal) (s : State) : (s.onCal f).lay = s.lay := rfl
@[simp] theorem State.onCal_ink (f : Cal → Cal) (s : State) : (s.onCal f).ink = s.ink := rfl
@[simp] theorem State.onCal_jet (f : Cal → Cal) (s : State) : (s.onCal f).jet = s.jet := rfl
@[simp] theorem State.onCal_link (f : Cal → Cal) (s : State) : (s.onCal f).link = s.link := rfl
@[simp] theorem State.onCal_nozzle (f : Cal → Cal) (s : State) : (s.onCal f).nozzle = s.nozzle := rfl
@[simp] theorem State.onCal_see (f : Cal → Cal) (s : State) : (s.onCal f).see = s.see := rfl
@[simp] theorem State.onCal_hold (f : Cal → Cal) (s : State) : (s.onCal f).hold = s.hold := rfl
@[simp] theorem State.onCal_freeCount (f : Cal → Cal) (s : State) : (s.onCal f).freeCount = s.freeCount := rfl
@[simp] theorem State.onCal_out (f : Cal → Cal) (s : State) : (s.onCal f).out = s.out := rfl
@[simp] theorem State.onCal_pending (f : Cal → Cal) (s : State) : (s.onCal f).pending = s.pending := rfl

/-! ### onTally -/

@[simp] theorem State.onTally_now (f : Tally → Tally) (s : State) : (s.onTally f).now = s.now := rfl
@[simp] theorem State.onTally_regs (f : Tally → Tally) (s : State) : (s.onTally f).regs = s.regs := rfl
@[simp] theorem State.onTally_sys (f : Tally → Tally) (s : State) : (s.onTally f).sys = s.sys := rfl
@[simp] theorem State.onTally_hif (f : Tally → Tally) (s : State) : (s.onTally f).hif = s.hif := rfl
@[simp] theorem State.onTally_fold (f : Tally → Tally) (s : State) : (s.onTally f).fold = s.fold := rfl
@[simp] theorem State.onTally_crook (f : Tally → Tally) (s : State) : (s.onTally f).crook = s.crook := rfl
@[simp] theorem State.onTally_power (f : Tally → Tally) (s : State) : (s.onTally f).power = s.power := rfl
@[simp] theorem State.onTally_therm (f : Tally → Tally) (s : State) : (s.onTally f).therm = s.therm := rfl
@[simp] theorem State.onTally_memc (f : Tally → Tally) (s : State) : (s.onTally f).memc = s.memc := rfl
@[simp] theorem State.onTally_paddock (f : Tally → Tally) (s : State) : (s.onTally f).paddock = s.paddock := rfl
@[simp] theorem State.onTally_dfl (f : Tally → Tally) (s : State) : (s.onTally f).dfl = s.dfl := rfl
@[simp] theorem State.onTally_mbx (f : Tally → Tally) (s : State) : (s.onTally f).mbx = s.mbx := rfl
@[simp] theorem State.onTally_sec (f : Tally → Tally) (s : State) : (s.onTally f).sec = s.sec := rfl
@[simp] theorem State.onTally_cal (f : Tally → Tally) (s : State) : (s.onTally f).cal = s.cal := rfl
@[simp] theorem State.onTally_tally (f : Tally → Tally) (s : State) : (s.onTally f).tally = f s.tally := rfl
@[simp] theorem State.onTally_net (f : Tally → Tally) (s : State) : (s.onTally f).net = s.net := rfl
@[simp] theorem State.onTally_bell (f : Tally → Tally) (s : State) : (s.onTally f).bell = s.bell := rfl
@[simp] theorem State.onTally_lay (f : Tally → Tally) (s : State) : (s.onTally f).lay = s.lay := rfl
@[simp] theorem State.onTally_ink (f : Tally → Tally) (s : State) : (s.onTally f).ink = s.ink := rfl
@[simp] theorem State.onTally_jet (f : Tally → Tally) (s : State) : (s.onTally f).jet = s.jet := rfl
@[simp] theorem State.onTally_link (f : Tally → Tally) (s : State) : (s.onTally f).link = s.link := rfl
@[simp] theorem State.onTally_nozzle (f : Tally → Tally) (s : State) : (s.onTally f).nozzle = s.nozzle := rfl
@[simp] theorem State.onTally_see (f : Tally → Tally) (s : State) : (s.onTally f).see = s.see := rfl
@[simp] theorem State.onTally_hold (f : Tally → Tally) (s : State) : (s.onTally f).hold = s.hold := rfl
@[simp] theorem State.onTally_freeCount (f : Tally → Tally) (s : State) : (s.onTally f).freeCount = s.freeCount := rfl
@[simp] theorem State.onTally_out (f : Tally → Tally) (s : State) : (s.onTally f).out = s.out := rfl
@[simp] theorem State.onTally_pending (f : Tally → Tally) (s : State) : (s.onTally f).pending = s.pending := rfl

/-! ### onNet -/

@[simp] theorem State.onNet_now (f : Net → Net) (s : State) : (s.onNet f).now = s.now := rfl
@[simp] theorem State.onNet_regs (f : Net → Net) (s : State) : (s.onNet f).regs = s.regs := rfl
@[simp] theorem State.onNet_sys (f : Net → Net) (s : State) : (s.onNet f).sys = s.sys := rfl
@[simp] theorem State.onNet_hif (f : Net → Net) (s : State) : (s.onNet f).hif = s.hif := rfl
@[simp] theorem State.onNet_fold (f : Net → Net) (s : State) : (s.onNet f).fold = s.fold := rfl
@[simp] theorem State.onNet_crook (f : Net → Net) (s : State) : (s.onNet f).crook = s.crook := rfl
@[simp] theorem State.onNet_power (f : Net → Net) (s : State) : (s.onNet f).power = s.power := rfl
@[simp] theorem State.onNet_therm (f : Net → Net) (s : State) : (s.onNet f).therm = s.therm := rfl
@[simp] theorem State.onNet_memc (f : Net → Net) (s : State) : (s.onNet f).memc = s.memc := rfl
@[simp] theorem State.onNet_paddock (f : Net → Net) (s : State) : (s.onNet f).paddock = s.paddock := rfl
@[simp] theorem State.onNet_dfl (f : Net → Net) (s : State) : (s.onNet f).dfl = s.dfl := rfl
@[simp] theorem State.onNet_mbx (f : Net → Net) (s : State) : (s.onNet f).mbx = s.mbx := rfl
@[simp] theorem State.onNet_sec (f : Net → Net) (s : State) : (s.onNet f).sec = s.sec := rfl
@[simp] theorem State.onNet_cal (f : Net → Net) (s : State) : (s.onNet f).cal = s.cal := rfl
@[simp] theorem State.onNet_tally (f : Net → Net) (s : State) : (s.onNet f).tally = s.tally := rfl
@[simp] theorem State.onNet_net (f : Net → Net) (s : State) : (s.onNet f).net = f s.net := rfl
@[simp] theorem State.onNet_bell (f : Net → Net) (s : State) : (s.onNet f).bell = s.bell := rfl
@[simp] theorem State.onNet_lay (f : Net → Net) (s : State) : (s.onNet f).lay = s.lay := rfl
@[simp] theorem State.onNet_ink (f : Net → Net) (s : State) : (s.onNet f).ink = s.ink := rfl
@[simp] theorem State.onNet_jet (f : Net → Net) (s : State) : (s.onNet f).jet = s.jet := rfl
@[simp] theorem State.onNet_link (f : Net → Net) (s : State) : (s.onNet f).link = s.link := rfl
@[simp] theorem State.onNet_nozzle (f : Net → Net) (s : State) : (s.onNet f).nozzle = s.nozzle := rfl
@[simp] theorem State.onNet_see (f : Net → Net) (s : State) : (s.onNet f).see = s.see := rfl
@[simp] theorem State.onNet_hold (f : Net → Net) (s : State) : (s.onNet f).hold = s.hold := rfl
@[simp] theorem State.onNet_freeCount (f : Net → Net) (s : State) : (s.onNet f).freeCount = s.freeCount := rfl
@[simp] theorem State.onNet_out (f : Net → Net) (s : State) : (s.onNet f).out = s.out := rfl
@[simp] theorem State.onNet_pending (f : Net → Net) (s : State) : (s.onNet f).pending = s.pending := rfl

/-! ### onBell -/

@[simp] theorem State.onBell_now (f : Bell → Bell) (s : State) : (s.onBell f).now = s.now := rfl
@[simp] theorem State.onBell_regs (f : Bell → Bell) (s : State) : (s.onBell f).regs = s.regs := rfl
@[simp] theorem State.onBell_sys (f : Bell → Bell) (s : State) : (s.onBell f).sys = s.sys := rfl
@[simp] theorem State.onBell_hif (f : Bell → Bell) (s : State) : (s.onBell f).hif = s.hif := rfl
@[simp] theorem State.onBell_fold (f : Bell → Bell) (s : State) : (s.onBell f).fold = s.fold := rfl
@[simp] theorem State.onBell_crook (f : Bell → Bell) (s : State) : (s.onBell f).crook = s.crook := rfl
@[simp] theorem State.onBell_power (f : Bell → Bell) (s : State) : (s.onBell f).power = s.power := rfl
@[simp] theorem State.onBell_therm (f : Bell → Bell) (s : State) : (s.onBell f).therm = s.therm := rfl
@[simp] theorem State.onBell_memc (f : Bell → Bell) (s : State) : (s.onBell f).memc = s.memc := rfl
@[simp] theorem State.onBell_paddock (f : Bell → Bell) (s : State) : (s.onBell f).paddock = s.paddock := rfl
@[simp] theorem State.onBell_dfl (f : Bell → Bell) (s : State) : (s.onBell f).dfl = s.dfl := rfl
@[simp] theorem State.onBell_mbx (f : Bell → Bell) (s : State) : (s.onBell f).mbx = s.mbx := rfl
@[simp] theorem State.onBell_sec (f : Bell → Bell) (s : State) : (s.onBell f).sec = s.sec := rfl
@[simp] theorem State.onBell_cal (f : Bell → Bell) (s : State) : (s.onBell f).cal = s.cal := rfl
@[simp] theorem State.onBell_tally (f : Bell → Bell) (s : State) : (s.onBell f).tally = s.tally := rfl
@[simp] theorem State.onBell_net (f : Bell → Bell) (s : State) : (s.onBell f).net = s.net := rfl
@[simp] theorem State.onBell_bell (f : Bell → Bell) (s : State) : (s.onBell f).bell = f s.bell := rfl
@[simp] theorem State.onBell_lay (f : Bell → Bell) (s : State) : (s.onBell f).lay = s.lay := rfl
@[simp] theorem State.onBell_ink (f : Bell → Bell) (s : State) : (s.onBell f).ink = s.ink := rfl
@[simp] theorem State.onBell_jet (f : Bell → Bell) (s : State) : (s.onBell f).jet = s.jet := rfl
@[simp] theorem State.onBell_link (f : Bell → Bell) (s : State) : (s.onBell f).link = s.link := rfl
@[simp] theorem State.onBell_nozzle (f : Bell → Bell) (s : State) : (s.onBell f).nozzle = s.nozzle := rfl
@[simp] theorem State.onBell_see (f : Bell → Bell) (s : State) : (s.onBell f).see = s.see := rfl
@[simp] theorem State.onBell_hold (f : Bell → Bell) (s : State) : (s.onBell f).hold = s.hold := rfl
@[simp] theorem State.onBell_freeCount (f : Bell → Bell) (s : State) : (s.onBell f).freeCount = s.freeCount := rfl
@[simp] theorem State.onBell_out (f : Bell → Bell) (s : State) : (s.onBell f).out = s.out := rfl
@[simp] theorem State.onBell_pending (f : Bell → Bell) (s : State) : (s.onBell f).pending = s.pending := rfl

/-! ### onLay -/

@[simp] theorem State.onLay_now (f : Lay → Lay) (s : State) : (s.onLay f).now = s.now := rfl
@[simp] theorem State.onLay_regs (f : Lay → Lay) (s : State) : (s.onLay f).regs = s.regs := rfl
@[simp] theorem State.onLay_sys (f : Lay → Lay) (s : State) : (s.onLay f).sys = s.sys := rfl
@[simp] theorem State.onLay_hif (f : Lay → Lay) (s : State) : (s.onLay f).hif = s.hif := rfl
@[simp] theorem State.onLay_fold (f : Lay → Lay) (s : State) : (s.onLay f).fold = s.fold := rfl
@[simp] theorem State.onLay_crook (f : Lay → Lay) (s : State) : (s.onLay f).crook = s.crook := rfl
@[simp] theorem State.onLay_power (f : Lay → Lay) (s : State) : (s.onLay f).power = s.power := rfl
@[simp] theorem State.onLay_therm (f : Lay → Lay) (s : State) : (s.onLay f).therm = s.therm := rfl
@[simp] theorem State.onLay_memc (f : Lay → Lay) (s : State) : (s.onLay f).memc = s.memc := rfl
@[simp] theorem State.onLay_paddock (f : Lay → Lay) (s : State) : (s.onLay f).paddock = s.paddock := rfl
@[simp] theorem State.onLay_dfl (f : Lay → Lay) (s : State) : (s.onLay f).dfl = s.dfl := rfl
@[simp] theorem State.onLay_mbx (f : Lay → Lay) (s : State) : (s.onLay f).mbx = s.mbx := rfl
@[simp] theorem State.onLay_sec (f : Lay → Lay) (s : State) : (s.onLay f).sec = s.sec := rfl
@[simp] theorem State.onLay_cal (f : Lay → Lay) (s : State) : (s.onLay f).cal = s.cal := rfl
@[simp] theorem State.onLay_tally (f : Lay → Lay) (s : State) : (s.onLay f).tally = s.tally := rfl
@[simp] theorem State.onLay_net (f : Lay → Lay) (s : State) : (s.onLay f).net = s.net := rfl
@[simp] theorem State.onLay_bell (f : Lay → Lay) (s : State) : (s.onLay f).bell = s.bell := rfl
@[simp] theorem State.onLay_lay (f : Lay → Lay) (s : State) : (s.onLay f).lay = f s.lay := rfl
@[simp] theorem State.onLay_ink (f : Lay → Lay) (s : State) : (s.onLay f).ink = s.ink := rfl
@[simp] theorem State.onLay_jet (f : Lay → Lay) (s : State) : (s.onLay f).jet = s.jet := rfl
@[simp] theorem State.onLay_link (f : Lay → Lay) (s : State) : (s.onLay f).link = s.link := rfl
@[simp] theorem State.onLay_nozzle (f : Lay → Lay) (s : State) : (s.onLay f).nozzle = s.nozzle := rfl
@[simp] theorem State.onLay_see (f : Lay → Lay) (s : State) : (s.onLay f).see = s.see := rfl
@[simp] theorem State.onLay_hold (f : Lay → Lay) (s : State) : (s.onLay f).hold = s.hold := rfl
@[simp] theorem State.onLay_freeCount (f : Lay → Lay) (s : State) : (s.onLay f).freeCount = s.freeCount := rfl
@[simp] theorem State.onLay_out (f : Lay → Lay) (s : State) : (s.onLay f).out = s.out := rfl
@[simp] theorem State.onLay_pending (f : Lay → Lay) (s : State) : (s.onLay f).pending = s.pending := rfl

/-! ### onInk -/

@[simp] theorem State.onInk_now (f : Ink → Ink) (s : State) : (s.onInk f).now = s.now := rfl
@[simp] theorem State.onInk_regs (f : Ink → Ink) (s : State) : (s.onInk f).regs = s.regs := rfl
@[simp] theorem State.onInk_sys (f : Ink → Ink) (s : State) : (s.onInk f).sys = s.sys := rfl
@[simp] theorem State.onInk_hif (f : Ink → Ink) (s : State) : (s.onInk f).hif = s.hif := rfl
@[simp] theorem State.onInk_fold (f : Ink → Ink) (s : State) : (s.onInk f).fold = s.fold := rfl
@[simp] theorem State.onInk_crook (f : Ink → Ink) (s : State) : (s.onInk f).crook = s.crook := rfl
@[simp] theorem State.onInk_power (f : Ink → Ink) (s : State) : (s.onInk f).power = s.power := rfl
@[simp] theorem State.onInk_therm (f : Ink → Ink) (s : State) : (s.onInk f).therm = s.therm := rfl
@[simp] theorem State.onInk_memc (f : Ink → Ink) (s : State) : (s.onInk f).memc = s.memc := rfl
@[simp] theorem State.onInk_paddock (f : Ink → Ink) (s : State) : (s.onInk f).paddock = s.paddock := rfl
@[simp] theorem State.onInk_dfl (f : Ink → Ink) (s : State) : (s.onInk f).dfl = s.dfl := rfl
@[simp] theorem State.onInk_mbx (f : Ink → Ink) (s : State) : (s.onInk f).mbx = s.mbx := rfl
@[simp] theorem State.onInk_sec (f : Ink → Ink) (s : State) : (s.onInk f).sec = s.sec := rfl
@[simp] theorem State.onInk_cal (f : Ink → Ink) (s : State) : (s.onInk f).cal = s.cal := rfl
@[simp] theorem State.onInk_tally (f : Ink → Ink) (s : State) : (s.onInk f).tally = s.tally := rfl
@[simp] theorem State.onInk_net (f : Ink → Ink) (s : State) : (s.onInk f).net = s.net := rfl
@[simp] theorem State.onInk_bell (f : Ink → Ink) (s : State) : (s.onInk f).bell = s.bell := rfl
@[simp] theorem State.onInk_lay (f : Ink → Ink) (s : State) : (s.onInk f).lay = s.lay := rfl
@[simp] theorem State.onInk_ink (f : Ink → Ink) (s : State) : (s.onInk f).ink = f s.ink := rfl
@[simp] theorem State.onInk_jet (f : Ink → Ink) (s : State) : (s.onInk f).jet = s.jet := rfl
@[simp] theorem State.onInk_link (f : Ink → Ink) (s : State) : (s.onInk f).link = s.link := rfl
@[simp] theorem State.onInk_nozzle (f : Ink → Ink) (s : State) : (s.onInk f).nozzle = s.nozzle := rfl
@[simp] theorem State.onInk_see (f : Ink → Ink) (s : State) : (s.onInk f).see = s.see := rfl
@[simp] theorem State.onInk_hold (f : Ink → Ink) (s : State) : (s.onInk f).hold = s.hold := rfl
@[simp] theorem State.onInk_freeCount (f : Ink → Ink) (s : State) : (s.onInk f).freeCount = s.freeCount := rfl
@[simp] theorem State.onInk_out (f : Ink → Ink) (s : State) : (s.onInk f).out = s.out := rfl
@[simp] theorem State.onInk_pending (f : Ink → Ink) (s : State) : (s.onInk f).pending = s.pending := rfl

/-! ### onJet -/

@[simp] theorem State.onJet_now (f : Jet → Jet) (s : State) : (s.onJet f).now = s.now := rfl
@[simp] theorem State.onJet_regs (f : Jet → Jet) (s : State) : (s.onJet f).regs = s.regs := rfl
@[simp] theorem State.onJet_sys (f : Jet → Jet) (s : State) : (s.onJet f).sys = s.sys := rfl
@[simp] theorem State.onJet_hif (f : Jet → Jet) (s : State) : (s.onJet f).hif = s.hif := rfl
@[simp] theorem State.onJet_fold (f : Jet → Jet) (s : State) : (s.onJet f).fold = s.fold := rfl
@[simp] theorem State.onJet_crook (f : Jet → Jet) (s : State) : (s.onJet f).crook = s.crook := rfl
@[simp] theorem State.onJet_power (f : Jet → Jet) (s : State) : (s.onJet f).power = s.power := rfl
@[simp] theorem State.onJet_therm (f : Jet → Jet) (s : State) : (s.onJet f).therm = s.therm := rfl
@[simp] theorem State.onJet_memc (f : Jet → Jet) (s : State) : (s.onJet f).memc = s.memc := rfl
@[simp] theorem State.onJet_paddock (f : Jet → Jet) (s : State) : (s.onJet f).paddock = s.paddock := rfl
@[simp] theorem State.onJet_dfl (f : Jet → Jet) (s : State) : (s.onJet f).dfl = s.dfl := rfl
@[simp] theorem State.onJet_mbx (f : Jet → Jet) (s : State) : (s.onJet f).mbx = s.mbx := rfl
@[simp] theorem State.onJet_sec (f : Jet → Jet) (s : State) : (s.onJet f).sec = s.sec := rfl
@[simp] theorem State.onJet_cal (f : Jet → Jet) (s : State) : (s.onJet f).cal = s.cal := rfl
@[simp] theorem State.onJet_tally (f : Jet → Jet) (s : State) : (s.onJet f).tally = s.tally := rfl
@[simp] theorem State.onJet_net (f : Jet → Jet) (s : State) : (s.onJet f).net = s.net := rfl
@[simp] theorem State.onJet_bell (f : Jet → Jet) (s : State) : (s.onJet f).bell = s.bell := rfl
@[simp] theorem State.onJet_lay (f : Jet → Jet) (s : State) : (s.onJet f).lay = s.lay := rfl
@[simp] theorem State.onJet_ink (f : Jet → Jet) (s : State) : (s.onJet f).ink = s.ink := rfl
@[simp] theorem State.onJet_jet (f : Jet → Jet) (s : State) : (s.onJet f).jet = f s.jet := rfl
@[simp] theorem State.onJet_link (f : Jet → Jet) (s : State) : (s.onJet f).link = s.link := rfl
@[simp] theorem State.onJet_nozzle (f : Jet → Jet) (s : State) : (s.onJet f).nozzle = s.nozzle := rfl
@[simp] theorem State.onJet_see (f : Jet → Jet) (s : State) : (s.onJet f).see = s.see := rfl
@[simp] theorem State.onJet_hold (f : Jet → Jet) (s : State) : (s.onJet f).hold = s.hold := rfl
@[simp] theorem State.onJet_freeCount (f : Jet → Jet) (s : State) : (s.onJet f).freeCount = s.freeCount := rfl
@[simp] theorem State.onJet_out (f : Jet → Jet) (s : State) : (s.onJet f).out = s.out := rfl
@[simp] theorem State.onJet_pending (f : Jet → Jet) (s : State) : (s.onJet f).pending = s.pending := rfl

/-! ### onLink -/

@[simp] theorem State.onLink_now (f : Link → Link) (s : State) : (s.onLink f).now = s.now := rfl
@[simp] theorem State.onLink_regs (f : Link → Link) (s : State) : (s.onLink f).regs = s.regs := rfl
@[simp] theorem State.onLink_sys (f : Link → Link) (s : State) : (s.onLink f).sys = s.sys := rfl
@[simp] theorem State.onLink_hif (f : Link → Link) (s : State) : (s.onLink f).hif = s.hif := rfl
@[simp] theorem State.onLink_fold (f : Link → Link) (s : State) : (s.onLink f).fold = s.fold := rfl
@[simp] theorem State.onLink_crook (f : Link → Link) (s : State) : (s.onLink f).crook = s.crook := rfl
@[simp] theorem State.onLink_power (f : Link → Link) (s : State) : (s.onLink f).power = s.power := rfl
@[simp] theorem State.onLink_therm (f : Link → Link) (s : State) : (s.onLink f).therm = s.therm := rfl
@[simp] theorem State.onLink_memc (f : Link → Link) (s : State) : (s.onLink f).memc = s.memc := rfl
@[simp] theorem State.onLink_paddock (f : Link → Link) (s : State) : (s.onLink f).paddock = s.paddock := rfl
@[simp] theorem State.onLink_dfl (f : Link → Link) (s : State) : (s.onLink f).dfl = s.dfl := rfl
@[simp] theorem State.onLink_mbx (f : Link → Link) (s : State) : (s.onLink f).mbx = s.mbx := rfl
@[simp] theorem State.onLink_sec (f : Link → Link) (s : State) : (s.onLink f).sec = s.sec := rfl
@[simp] theorem State.onLink_cal (f : Link → Link) (s : State) : (s.onLink f).cal = s.cal := rfl
@[simp] theorem State.onLink_tally (f : Link → Link) (s : State) : (s.onLink f).tally = s.tally := rfl
@[simp] theorem State.onLink_net (f : Link → Link) (s : State) : (s.onLink f).net = s.net := rfl
@[simp] theorem State.onLink_bell (f : Link → Link) (s : State) : (s.onLink f).bell = s.bell := rfl
@[simp] theorem State.onLink_lay (f : Link → Link) (s : State) : (s.onLink f).lay = s.lay := rfl
@[simp] theorem State.onLink_ink (f : Link → Link) (s : State) : (s.onLink f).ink = s.ink := rfl
@[simp] theorem State.onLink_jet (f : Link → Link) (s : State) : (s.onLink f).jet = s.jet := rfl
@[simp] theorem State.onLink_link (f : Link → Link) (s : State) : (s.onLink f).link = f s.link := rfl
@[simp] theorem State.onLink_nozzle (f : Link → Link) (s : State) : (s.onLink f).nozzle = s.nozzle := rfl
@[simp] theorem State.onLink_see (f : Link → Link) (s : State) : (s.onLink f).see = s.see := rfl
@[simp] theorem State.onLink_hold (f : Link → Link) (s : State) : (s.onLink f).hold = s.hold := rfl
@[simp] theorem State.onLink_freeCount (f : Link → Link) (s : State) : (s.onLink f).freeCount = s.freeCount := rfl
@[simp] theorem State.onLink_out (f : Link → Link) (s : State) : (s.onLink f).out = s.out := rfl
@[simp] theorem State.onLink_pending (f : Link → Link) (s : State) : (s.onLink f).pending = s.pending := rfl

/-! ### onNozzle -/

@[simp] theorem State.onNozzle_now (f : Nozzle → Nozzle) (s : State) : (s.onNozzle f).now = s.now := rfl
@[simp] theorem State.onNozzle_regs (f : Nozzle → Nozzle) (s : State) : (s.onNozzle f).regs = s.regs := rfl
@[simp] theorem State.onNozzle_sys (f : Nozzle → Nozzle) (s : State) : (s.onNozzle f).sys = s.sys := rfl
@[simp] theorem State.onNozzle_hif (f : Nozzle → Nozzle) (s : State) : (s.onNozzle f).hif = s.hif := rfl
@[simp] theorem State.onNozzle_fold (f : Nozzle → Nozzle) (s : State) : (s.onNozzle f).fold = s.fold := rfl
@[simp] theorem State.onNozzle_crook (f : Nozzle → Nozzle) (s : State) : (s.onNozzle f).crook = s.crook := rfl
@[simp] theorem State.onNozzle_power (f : Nozzle → Nozzle) (s : State) : (s.onNozzle f).power = s.power := rfl
@[simp] theorem State.onNozzle_therm (f : Nozzle → Nozzle) (s : State) : (s.onNozzle f).therm = s.therm := rfl
@[simp] theorem State.onNozzle_memc (f : Nozzle → Nozzle) (s : State) : (s.onNozzle f).memc = s.memc := rfl
@[simp] theorem State.onNozzle_paddock (f : Nozzle → Nozzle) (s : State) : (s.onNozzle f).paddock = s.paddock := rfl
@[simp] theorem State.onNozzle_dfl (f : Nozzle → Nozzle) (s : State) : (s.onNozzle f).dfl = s.dfl := rfl
@[simp] theorem State.onNozzle_mbx (f : Nozzle → Nozzle) (s : State) : (s.onNozzle f).mbx = s.mbx := rfl
@[simp] theorem State.onNozzle_sec (f : Nozzle → Nozzle) (s : State) : (s.onNozzle f).sec = s.sec := rfl
@[simp] theorem State.onNozzle_cal (f : Nozzle → Nozzle) (s : State) : (s.onNozzle f).cal = s.cal := rfl
@[simp] theorem State.onNozzle_tally (f : Nozzle → Nozzle) (s : State) : (s.onNozzle f).tally = s.tally := rfl
@[simp] theorem State.onNozzle_net (f : Nozzle → Nozzle) (s : State) : (s.onNozzle f).net = s.net := rfl
@[simp] theorem State.onNozzle_bell (f : Nozzle → Nozzle) (s : State) : (s.onNozzle f).bell = s.bell := rfl
@[simp] theorem State.onNozzle_lay (f : Nozzle → Nozzle) (s : State) : (s.onNozzle f).lay = s.lay := rfl
@[simp] theorem State.onNozzle_ink (f : Nozzle → Nozzle) (s : State) : (s.onNozzle f).ink = s.ink := rfl
@[simp] theorem State.onNozzle_jet (f : Nozzle → Nozzle) (s : State) : (s.onNozzle f).jet = s.jet := rfl
@[simp] theorem State.onNozzle_link (f : Nozzle → Nozzle) (s : State) : (s.onNozzle f).link = s.link := rfl
@[simp] theorem State.onNozzle_nozzle (f : Nozzle → Nozzle) (s : State) : (s.onNozzle f).nozzle = f s.nozzle := rfl
@[simp] theorem State.onNozzle_see (f : Nozzle → Nozzle) (s : State) : (s.onNozzle f).see = s.see := rfl
@[simp] theorem State.onNozzle_hold (f : Nozzle → Nozzle) (s : State) : (s.onNozzle f).hold = s.hold := rfl
@[simp] theorem State.onNozzle_freeCount (f : Nozzle → Nozzle) (s : State) : (s.onNozzle f).freeCount = s.freeCount := rfl
@[simp] theorem State.onNozzle_out (f : Nozzle → Nozzle) (s : State) : (s.onNozzle f).out = s.out := rfl
@[simp] theorem State.onNozzle_pending (f : Nozzle → Nozzle) (s : State) : (s.onNozzle f).pending = s.pending := rfl

/-! ### onSee -/

@[simp] theorem State.onSee_now (f : See → See) (s : State) : (s.onSee f).now = s.now := rfl
@[simp] theorem State.onSee_regs (f : See → See) (s : State) : (s.onSee f).regs = s.regs := rfl
@[simp] theorem State.onSee_sys (f : See → See) (s : State) : (s.onSee f).sys = s.sys := rfl
@[simp] theorem State.onSee_hif (f : See → See) (s : State) : (s.onSee f).hif = s.hif := rfl
@[simp] theorem State.onSee_fold (f : See → See) (s : State) : (s.onSee f).fold = s.fold := rfl
@[simp] theorem State.onSee_crook (f : See → See) (s : State) : (s.onSee f).crook = s.crook := rfl
@[simp] theorem State.onSee_power (f : See → See) (s : State) : (s.onSee f).power = s.power := rfl
@[simp] theorem State.onSee_therm (f : See → See) (s : State) : (s.onSee f).therm = s.therm := rfl
@[simp] theorem State.onSee_memc (f : See → See) (s : State) : (s.onSee f).memc = s.memc := rfl
@[simp] theorem State.onSee_paddock (f : See → See) (s : State) : (s.onSee f).paddock = s.paddock := rfl
@[simp] theorem State.onSee_dfl (f : See → See) (s : State) : (s.onSee f).dfl = s.dfl := rfl
@[simp] theorem State.onSee_mbx (f : See → See) (s : State) : (s.onSee f).mbx = s.mbx := rfl
@[simp] theorem State.onSee_sec (f : See → See) (s : State) : (s.onSee f).sec = s.sec := rfl
@[simp] theorem State.onSee_cal (f : See → See) (s : State) : (s.onSee f).cal = s.cal := rfl
@[simp] theorem State.onSee_tally (f : See → See) (s : State) : (s.onSee f).tally = s.tally := rfl
@[simp] theorem State.onSee_net (f : See → See) (s : State) : (s.onSee f).net = s.net := rfl
@[simp] theorem State.onSee_bell (f : See → See) (s : State) : (s.onSee f).bell = s.bell := rfl
@[simp] theorem State.onSee_lay (f : See → See) (s : State) : (s.onSee f).lay = s.lay := rfl
@[simp] theorem State.onSee_ink (f : See → See) (s : State) : (s.onSee f).ink = s.ink := rfl
@[simp] theorem State.onSee_jet (f : See → See) (s : State) : (s.onSee f).jet = s.jet := rfl
@[simp] theorem State.onSee_link (f : See → See) (s : State) : (s.onSee f).link = s.link := rfl
@[simp] theorem State.onSee_nozzle (f : See → See) (s : State) : (s.onSee f).nozzle = s.nozzle := rfl
@[simp] theorem State.onSee_see (f : See → See) (s : State) : (s.onSee f).see = f s.see := rfl
@[simp] theorem State.onSee_hold (f : See → See) (s : State) : (s.onSee f).hold = s.hold := rfl
@[simp] theorem State.onSee_freeCount (f : See → See) (s : State) : (s.onSee f).freeCount = s.freeCount := rfl
@[simp] theorem State.onSee_out (f : See → See) (s : State) : (s.onSee f).out = s.out := rfl
@[simp] theorem State.onSee_pending (f : See → See) (s : State) : (s.onSee f).pending = s.pending := rfl

/-! ### onHold -/

@[simp] theorem State.onHold_now (f : Hold → Hold) (s : State) : (s.onHold f).now = s.now := rfl
@[simp] theorem State.onHold_regs (f : Hold → Hold) (s : State) : (s.onHold f).regs = s.regs := rfl
@[simp] theorem State.onHold_sys (f : Hold → Hold) (s : State) : (s.onHold f).sys = s.sys := rfl
@[simp] theorem State.onHold_hif (f : Hold → Hold) (s : State) : (s.onHold f).hif = s.hif := rfl
@[simp] theorem State.onHold_fold (f : Hold → Hold) (s : State) : (s.onHold f).fold = s.fold := rfl
@[simp] theorem State.onHold_crook (f : Hold → Hold) (s : State) : (s.onHold f).crook = s.crook := rfl
@[simp] theorem State.onHold_power (f : Hold → Hold) (s : State) : (s.onHold f).power = s.power := rfl
@[simp] theorem State.onHold_therm (f : Hold → Hold) (s : State) : (s.onHold f).therm = s.therm := rfl
@[simp] theorem State.onHold_memc (f : Hold → Hold) (s : State) : (s.onHold f).memc = s.memc := rfl
@[simp] theorem State.onHold_paddock (f : Hold → Hold) (s : State) : (s.onHold f).paddock = s.paddock := rfl
@[simp] theorem State.onHold_dfl (f : Hold → Hold) (s : State) : (s.onHold f).dfl = s.dfl := rfl
@[simp] theorem State.onHold_mbx (f : Hold → Hold) (s : State) : (s.onHold f).mbx = s.mbx := rfl
@[simp] theorem State.onHold_sec (f : Hold → Hold) (s : State) : (s.onHold f).sec = s.sec := rfl
@[simp] theorem State.onHold_cal (f : Hold → Hold) (s : State) : (s.onHold f).cal = s.cal := rfl
@[simp] theorem State.onHold_tally (f : Hold → Hold) (s : State) : (s.onHold f).tally = s.tally := rfl
@[simp] theorem State.onHold_net (f : Hold → Hold) (s : State) : (s.onHold f).net = s.net := rfl
@[simp] theorem State.onHold_bell (f : Hold → Hold) (s : State) : (s.onHold f).bell = s.bell := rfl
@[simp] theorem State.onHold_lay (f : Hold → Hold) (s : State) : (s.onHold f).lay = s.lay := rfl
@[simp] theorem State.onHold_ink (f : Hold → Hold) (s : State) : (s.onHold f).ink = s.ink := rfl
@[simp] theorem State.onHold_jet (f : Hold → Hold) (s : State) : (s.onHold f).jet = s.jet := rfl
@[simp] theorem State.onHold_link (f : Hold → Hold) (s : State) : (s.onHold f).link = s.link := rfl
@[simp] theorem State.onHold_nozzle (f : Hold → Hold) (s : State) : (s.onHold f).nozzle = s.nozzle := rfl
@[simp] theorem State.onHold_see (f : Hold → Hold) (s : State) : (s.onHold f).see = s.see := rfl
@[simp] theorem State.onHold_hold (f : Hold → Hold) (s : State) : (s.onHold f).hold = f s.hold := rfl
@[simp] theorem State.onHold_freeCount (f : Hold → Hold) (s : State) : (s.onHold f).freeCount = s.freeCount := rfl
@[simp] theorem State.onHold_out (f : Hold → Hold) (s : State) : (s.onHold f).out = s.out := rfl
@[simp] theorem State.onHold_pending (f : Hold → Hold) (s : State) : (s.onHold f).pending = s.pending := rfl

/-! ### emit -/

@[simp] theorem State.emit_now (o : Out) (s : State) : (s.emit o).now = s.now := rfl
@[simp] theorem State.emit_regs (o : Out) (s : State) : (s.emit o).regs = s.regs := rfl
@[simp] theorem State.emit_sys (o : Out) (s : State) : (s.emit o).sys = s.sys := rfl
@[simp] theorem State.emit_hif (o : Out) (s : State) : (s.emit o).hif = s.hif := rfl
@[simp] theorem State.emit_fold (o : Out) (s : State) : (s.emit o).fold = s.fold := rfl
@[simp] theorem State.emit_crook (o : Out) (s : State) : (s.emit o).crook = s.crook := rfl
@[simp] theorem State.emit_power (o : Out) (s : State) : (s.emit o).power = s.power := rfl
@[simp] theorem State.emit_therm (o : Out) (s : State) : (s.emit o).therm = s.therm := rfl
@[simp] theorem State.emit_memc (o : Out) (s : State) : (s.emit o).memc = s.memc := rfl
@[simp] theorem State.emit_paddock (o : Out) (s : State) : (s.emit o).paddock = s.paddock := rfl
@[simp] theorem State.emit_dfl (o : Out) (s : State) : (s.emit o).dfl = s.dfl := rfl
@[simp] theorem State.emit_mbx (o : Out) (s : State) : (s.emit o).mbx = s.mbx := rfl
@[simp] theorem State.emit_sec (o : Out) (s : State) : (s.emit o).sec = s.sec := rfl
@[simp] theorem State.emit_cal (o : Out) (s : State) : (s.emit o).cal = s.cal := rfl
@[simp] theorem State.emit_tally (o : Out) (s : State) : (s.emit o).tally = s.tally := rfl
@[simp] theorem State.emit_net (o : Out) (s : State) : (s.emit o).net = s.net := rfl
@[simp] theorem State.emit_bell (o : Out) (s : State) : (s.emit o).bell = s.bell := rfl
@[simp] theorem State.emit_lay (o : Out) (s : State) : (s.emit o).lay = s.lay := rfl
@[simp] theorem State.emit_ink (o : Out) (s : State) : (s.emit o).ink = s.ink := rfl
@[simp] theorem State.emit_jet (o : Out) (s : State) : (s.emit o).jet = s.jet := rfl
@[simp] theorem State.emit_link (o : Out) (s : State) : (s.emit o).link = s.link := rfl
@[simp] theorem State.emit_nozzle (o : Out) (s : State) : (s.emit o).nozzle = s.nozzle := rfl
@[simp] theorem State.emit_see (o : Out) (s : State) : (s.emit o).see = s.see := rfl
@[simp] theorem State.emit_hold (o : Out) (s : State) : (s.emit o).hold = s.hold := rfl
@[simp] theorem State.emit_freeCount (o : Out) (s : State) : (s.emit o).freeCount = s.freeCount := rfl
@[simp] theorem State.emit_out (o : Out) (s : State) : (s.emit o).out = s.out ++ [o] := rfl
@[simp] theorem State.emit_pending (o : Out) (s : State) : (s.emit o).pending = s.pending := rfl

/-! ### setReg -/

@[simp] theorem State.setReg_now (r : Reg) (v : Nat) (s : State) : (s.setReg r v).now = s.now := rfl
@[simp] theorem State.setReg_regs (r : Reg) (v : Nat) (s : State) : (s.setReg r v).regs = rfSet s.regs r (v % 2 ^ 32) := rfl
@[simp] theorem State.setReg_sys (r : Reg) (v : Nat) (s : State) : (s.setReg r v).sys = s.sys := rfl
@[simp] theorem State.setReg_hif (r : Reg) (v : Nat) (s : State) : (s.setReg r v).hif = s.hif := rfl
@[simp] theorem State.setReg_fold (r : Reg) (v : Nat) (s : State) : (s.setReg r v).fold = s.fold := rfl
@[simp] theorem State.setReg_crook (r : Reg) (v : Nat) (s : State) : (s.setReg r v).crook = s.crook := rfl
@[simp] theorem State.setReg_power (r : Reg) (v : Nat) (s : State) : (s.setReg r v).power = s.power := rfl
@[simp] theorem State.setReg_therm (r : Reg) (v : Nat) (s : State) : (s.setReg r v).therm = s.therm := rfl
@[simp] theorem State.setReg_memc (r : Reg) (v : Nat) (s : State) : (s.setReg r v).memc = s.memc := rfl
@[simp] theorem State.setReg_paddock (r : Reg) (v : Nat) (s : State) : (s.setReg r v).paddock = s.paddock := rfl
@[simp] theorem State.setReg_dfl (r : Reg) (v : Nat) (s : State) : (s.setReg r v).dfl = s.dfl := rfl
@[simp] theorem State.setReg_mbx (r : Reg) (v : Nat) (s : State) : (s.setReg r v).mbx = s.mbx := rfl
@[simp] theorem State.setReg_sec (r : Reg) (v : Nat) (s : State) : (s.setReg r v).sec = s.sec := rfl
@[simp] theorem State.setReg_cal (r : Reg) (v : Nat) (s : State) : (s.setReg r v).cal = s.cal := rfl
@[simp] theorem State.setReg_tally (r : Reg) (v : Nat) (s : State) : (s.setReg r v).tally = s.tally := rfl
@[simp] theorem State.setReg_net (r : Reg) (v : Nat) (s : State) : (s.setReg r v).net = s.net := rfl
@[simp] theorem State.setReg_bell (r : Reg) (v : Nat) (s : State) : (s.setReg r v).bell = s.bell := rfl
@[simp] theorem State.setReg_lay (r : Reg) (v : Nat) (s : State) : (s.setReg r v).lay = s.lay := rfl
@[simp] theorem State.setReg_ink (r : Reg) (v : Nat) (s : State) : (s.setReg r v).ink = s.ink := rfl
@[simp] theorem State.setReg_jet (r : Reg) (v : Nat) (s : State) : (s.setReg r v).jet = s.jet := rfl
@[simp] theorem State.setReg_link (r : Reg) (v : Nat) (s : State) : (s.setReg r v).link = s.link := rfl
@[simp] theorem State.setReg_nozzle (r : Reg) (v : Nat) (s : State) : (s.setReg r v).nozzle = s.nozzle := rfl
@[simp] theorem State.setReg_see (r : Reg) (v : Nat) (s : State) : (s.setReg r v).see = s.see := rfl
@[simp] theorem State.setReg_hold (r : Reg) (v : Nat) (s : State) : (s.setReg r v).hold = s.hold := rfl
@[simp] theorem State.setReg_freeCount (r : Reg) (v : Nat) (s : State) : (s.setReg r v).freeCount = s.freeCount := rfl
@[simp] theorem State.setReg_out (r : Reg) (v : Nat) (s : State) : (s.setReg r v).out = s.out := rfl
@[simp] theorem State.setReg_pending (r : Reg) (v : Nat) (s : State) : (s.setReg r v).pending = s.pending := rfl

/-! ### withPending -/

@[simp] theorem State.withPending_now (q : List Instr) (s : State) : (s.withPending q).now = s.now := rfl
@[simp] theorem State.withPending_regs (q : List Instr) (s : State) : (s.withPending q).regs = s.regs := rfl
@[simp] theorem State.withPending_sys (q : List Instr) (s : State) : (s.withPending q).sys = s.sys := rfl
@[simp] theorem State.withPending_hif (q : List Instr) (s : State) : (s.withPending q).hif = s.hif := rfl
@[simp] theorem State.withPending_fold (q : List Instr) (s : State) : (s.withPending q).fold = s.fold := rfl
@[simp] theorem State.withPending_crook (q : List Instr) (s : State) : (s.withPending q).crook = s.crook := rfl
@[simp] theorem State.withPending_power (q : List Instr) (s : State) : (s.withPending q).power = s.power := rfl
@[simp] theorem State.withPending_therm (q : List Instr) (s : State) : (s.withPending q).therm = s.therm := rfl
@[simp] theorem State.withPending_memc (q : List Instr) (s : State) : (s.withPending q).memc = s.memc := rfl
@[simp] theorem State.withPending_paddock (q : List Instr) (s : State) : (s.withPending q).paddock = s.paddock := rfl
@[simp] theorem State.withPending_dfl (q : List Instr) (s : State) : (s.withPending q).dfl = s.dfl := rfl
@[simp] theorem State.withPending_mbx (q : List Instr) (s : State) : (s.withPending q).mbx = s.mbx := rfl
@[simp] theorem State.withPending_sec (q : List Instr) (s : State) : (s.withPending q).sec = s.sec := rfl
@[simp] theorem State.withPending_cal (q : List Instr) (s : State) : (s.withPending q).cal = s.cal := rfl
@[simp] theorem State.withPending_tally (q : List Instr) (s : State) : (s.withPending q).tally = s.tally := rfl
@[simp] theorem State.withPending_net (q : List Instr) (s : State) : (s.withPending q).net = s.net := rfl
@[simp] theorem State.withPending_bell (q : List Instr) (s : State) : (s.withPending q).bell = s.bell := rfl
@[simp] theorem State.withPending_lay (q : List Instr) (s : State) : (s.withPending q).lay = s.lay := rfl
@[simp] theorem State.withPending_ink (q : List Instr) (s : State) : (s.withPending q).ink = s.ink := rfl
@[simp] theorem State.withPending_jet (q : List Instr) (s : State) : (s.withPending q).jet = s.jet := rfl
@[simp] theorem State.withPending_link (q : List Instr) (s : State) : (s.withPending q).link = s.link := rfl
@[simp] theorem State.withPending_nozzle (q : List Instr) (s : State) : (s.withPending q).nozzle = s.nozzle := rfl
@[simp] theorem State.withPending_see (q : List Instr) (s : State) : (s.withPending q).see = s.see := rfl
@[simp] theorem State.withPending_hold (q : List Instr) (s : State) : (s.withPending q).hold = s.hold := rfl
@[simp] theorem State.withPending_freeCount (q : List Instr) (s : State) : (s.withPending q).freeCount = s.freeCount := rfl
@[simp] theorem State.withPending_out (q : List Instr) (s : State) : (s.withPending q).out = s.out := rfl
@[simp] theorem State.withPending_pending (q : List Instr) (s : State) : (s.withPending q).pending = q := rfl

/-! ### setF -/

@[simp] theorem State.setF_now (x : Field) (v : Nat) (s : State) : (s.setF x v).now = s.now := rfl
@[simp] theorem State.setF_sys (x : Field) (v : Nat) (s : State) : (s.setF x v).sys = s.sys := rfl
@[simp] theorem State.setF_hif (x : Field) (v : Nat) (s : State) : (s.setF x v).hif = s.hif := rfl
@[simp] theorem State.setF_fold (x : Field) (v : Nat) (s : State) : (s.setF x v).fold = s.fold := rfl
@[simp] theorem State.setF_crook (x : Field) (v : Nat) (s : State) : (s.setF x v).crook = s.crook := rfl
@[simp] theorem State.setF_power (x : Field) (v : Nat) (s : State) : (s.setF x v).power = s.power := rfl
@[simp] theorem State.setF_therm (x : Field) (v : Nat) (s : State) : (s.setF x v).therm = s.therm := rfl
@[simp] theorem State.setF_memc (x : Field) (v : Nat) (s : State) : (s.setF x v).memc = s.memc := rfl
@[simp] theorem State.setF_paddock (x : Field) (v : Nat) (s : State) : (s.setF x v).paddock = s.paddock := rfl
@[simp] theorem State.setF_dfl (x : Field) (v : Nat) (s : State) : (s.setF x v).dfl = s.dfl := rfl
@[simp] theorem State.setF_mbx (x : Field) (v : Nat) (s : State) : (s.setF x v).mbx = s.mbx := rfl
@[simp] theorem State.setF_sec (x : Field) (v : Nat) (s : State) : (s.setF x v).sec = s.sec := rfl
@[simp] theorem State.setF_cal (x : Field) (v : Nat) (s : State) : (s.setF x v).cal = s.cal := rfl
@[simp] theorem State.setF_tally (x : Field) (v : Nat) (s : State) : (s.setF x v).tally = s.tally := rfl
@[simp] theorem State.setF_net (x : Field) (v : Nat) (s : State) : (s.setF x v).net = s.net := rfl
@[simp] theorem State.setF_bell (x : Field) (v : Nat) (s : State) : (s.setF x v).bell = s.bell := rfl
@[simp] theorem State.setF_lay (x : Field) (v : Nat) (s : State) : (s.setF x v).lay = s.lay := rfl
@[simp] theorem State.setF_ink (x : Field) (v : Nat) (s : State) : (s.setF x v).ink = s.ink := rfl
@[simp] theorem State.setF_jet (x : Field) (v : Nat) (s : State) : (s.setF x v).jet = s.jet := rfl
@[simp] theorem State.setF_link (x : Field) (v : Nat) (s : State) : (s.setF x v).link = s.link := rfl
@[simp] theorem State.setF_nozzle (x : Field) (v : Nat) (s : State) : (s.setF x v).nozzle = s.nozzle := rfl
@[simp] theorem State.setF_see (x : Field) (v : Nat) (s : State) : (s.setF x v).see = s.see := rfl
@[simp] theorem State.setF_hold (x : Field) (v : Nat) (s : State) : (s.setF x v).hold = s.hold := rfl
@[simp] theorem State.setF_freeCount (x : Field) (v : Nat) (s : State) : (s.setF x v).freeCount = s.freeCount := rfl
@[simp] theorem State.setF_out (x : Field) (v : Nat) (s : State) : (s.setF x v).out = s.out := rfl
@[simp] theorem State.setF_pending (x : Field) (v : Nat) (s : State) : (s.setF x v).pending = s.pending := rfl

/-! ### bump -/

@[simp] theorem State.bump_now (x : Field) (n : Nat) (s : State) : (s.bump x n).now = s.now := rfl
@[simp] theorem State.bump_sys (x : Field) (n : Nat) (s : State) : (s.bump x n).sys = s.sys := rfl
@[simp] theorem State.bump_hif (x : Field) (n : Nat) (s : State) : (s.bump x n).hif = s.hif := rfl
@[simp] theorem State.bump_fold (x : Field) (n : Nat) (s : State) : (s.bump x n).fold = s.fold := rfl
@[simp] theorem State.bump_crook (x : Field) (n : Nat) (s : State) : (s.bump x n).crook = s.crook := rfl
@[simp] theorem State.bump_power (x : Field) (n : Nat) (s : State) : (s.bump x n).power = s.power := rfl
@[simp] theorem State.bump_therm (x : Field) (n : Nat) (s : State) : (s.bump x n).therm = s.therm := rfl
@[simp] theorem State.bump_memc (x : Field) (n : Nat) (s : State) : (s.bump x n).memc = s.memc := rfl
@[simp] theorem State.bump_paddock (x : Field) (n : Nat) (s : State) : (s.bump x n).paddock = s.paddock := rfl
@[simp] theorem State.bump_dfl (x : Field) (n : Nat) (s : State) : (s.bump x n).dfl = s.dfl := rfl
@[simp] theorem State.bump_mbx (x : Field) (n : Nat) (s : State) : (s.bump x n).mbx = s.mbx := rfl
@[simp] theorem State.bump_sec (x : Field) (n : Nat) (s : State) : (s.bump x n).sec = s.sec := rfl
@[simp] theorem State.bump_cal (x : Field) (n : Nat) (s : State) : (s.bump x n).cal = s.cal := rfl
@[simp] theorem State.bump_tally (x : Field) (n : Nat) (s : State) : (s.bump x n).tally = s.tally := rfl
@[simp] theorem State.bump_net (x : Field) (n : Nat) (s : State) : (s.bump x n).net = s.net := rfl
@[simp] theorem State.bump_bell (x : Field) (n : Nat) (s : State) : (s.bump x n).bell = s.bell := rfl
@[simp] theorem State.bump_lay (x : Field) (n : Nat) (s : State) : (s.bump x n).lay = s.lay := rfl
@[simp] theorem State.bump_ink (x : Field) (n : Nat) (s : State) : (s.bump x n).ink = s.ink := rfl
@[simp] theorem State.bump_jet (x : Field) (n : Nat) (s : State) : (s.bump x n).jet = s.jet := rfl
@[simp] theorem State.bump_link (x : Field) (n : Nat) (s : State) : (s.bump x n).link = s.link := rfl
@[simp] theorem State.bump_nozzle (x : Field) (n : Nat) (s : State) : (s.bump x n).nozzle = s.nozzle := rfl
@[simp] theorem State.bump_see (x : Field) (n : Nat) (s : State) : (s.bump x n).see = s.see := rfl
@[simp] theorem State.bump_hold (x : Field) (n : Nat) (s : State) : (s.bump x n).hold = s.hold := rfl
@[simp] theorem State.bump_freeCount (x : Field) (n : Nat) (s : State) : (s.bump x n).freeCount = s.freeCount := rfl
@[simp] theorem State.bump_out (x : Field) (n : Nat) (s : State) : (s.bump x n).out = s.out := rfl
@[simp] theorem State.bump_pending (x : Field) (n : Nat) (s : State) : (s.bump x n).pending = s.pending := rfl

/-! ### bumpSat -/

@[simp] theorem State.bumpSat_now (x : Field) (n : Nat) (s : State) : (s.bumpSat x n).now = s.now := rfl
@[simp] theorem State.bumpSat_sys (x : Field) (n : Nat) (s : State) : (s.bumpSat x n).sys = s.sys := rfl
@[simp] theorem State.bumpSat_hif (x : Field) (n : Nat) (s : State) : (s.bumpSat x n).hif = s.hif := rfl
@[simp] theorem State.bumpSat_fold (x : Field) (n : Nat) (s : State) : (s.bumpSat x n).fold = s.fold := rfl
@[simp] theorem State.bumpSat_crook (x : Field) (n : Nat) (s : State) : (s.bumpSat x n).crook = s.crook := rfl
@[simp] theorem State.bumpSat_power (x : Field) (n : Nat) (s : State) : (s.bumpSat x n).power = s.power := rfl
@[simp] theorem State.bumpSat_therm (x : Field) (n : Nat) (s : State) : (s.bumpSat x n).therm = s.therm := rfl
@[simp] theorem State.bumpSat_memc (x : Field) (n : Nat) (s : State) : (s.bumpSat x n).memc = s.memc := rfl
@[simp] theorem State.bumpSat_paddock (x : Field) (n : Nat) (s : State) : (s.bumpSat x n).paddock = s.paddock := rfl
@[simp] theorem State.bumpSat_dfl (x : Field) (n : Nat) (s : State) : (s.bumpSat x n).dfl = s.dfl := rfl
@[simp] theorem State.bumpSat_mbx (x : Field) (n : Nat) (s : State) : (s.bumpSat x n).mbx = s.mbx := rfl
@[simp] theorem State.bumpSat_sec (x : Field) (n : Nat) (s : State) : (s.bumpSat x n).sec = s.sec := rfl
@[simp] theorem State.bumpSat_cal (x : Field) (n : Nat) (s : State) : (s.bumpSat x n).cal = s.cal := rfl
@[simp] theorem State.bumpSat_tally (x : Field) (n : Nat) (s : State) : (s.bumpSat x n).tally = s.tally := rfl
@[simp] theorem State.bumpSat_net (x : Field) (n : Nat) (s : State) : (s.bumpSat x n).net = s.net := rfl
@[simp] theorem State.bumpSat_bell (x : Field) (n : Nat) (s : State) : (s.bumpSat x n).bell = s.bell := rfl
@[simp] theorem State.bumpSat_lay (x : Field) (n : Nat) (s : State) : (s.bumpSat x n).lay = s.lay := rfl
@[simp] theorem State.bumpSat_ink (x : Field) (n : Nat) (s : State) : (s.bumpSat x n).ink = s.ink := rfl
@[simp] theorem State.bumpSat_jet (x : Field) (n : Nat) (s : State) : (s.bumpSat x n).jet = s.jet := rfl
@[simp] theorem State.bumpSat_link (x : Field) (n : Nat) (s : State) : (s.bumpSat x n).link = s.link := rfl
@[simp] theorem State.bumpSat_nozzle (x : Field) (n : Nat) (s : State) : (s.bumpSat x n).nozzle = s.nozzle := rfl
@[simp] theorem State.bumpSat_see (x : Field) (n : Nat) (s : State) : (s.bumpSat x n).see = s.see := rfl
@[simp] theorem State.bumpSat_hold (x : Field) (n : Nat) (s : State) : (s.bumpSat x n).hold = s.hold := rfl
@[simp] theorem State.bumpSat_freeCount (x : Field) (n : Nat) (s : State) : (s.bumpSat x n).freeCount = s.freeCount := rfl
@[simp] theorem State.bumpSat_out (x : Field) (n : Nat) (s : State) : (s.bumpSat x n).out = s.out := rfl
@[simp] theorem State.bumpSat_pending (x : Field) (n : Nat) (s : State) : (s.bumpSat x n).pending = s.pending := rfl

end Sys2Proof.Machine
end

