-- ==== Sys2Proof/Laws/Core.lean ====
section
/-! SUPPORT. The core of the state: the queue of waiting commands, the straps, the set-up lock and the life-cycle latch. Each shared operation leaves it
as it is; a proof that a command leaves it unchanged cites these lemmas and unfolds no operation. -/

set_option Elab.async false

namespace Sys2Proof.Machine

/-- The queue, the straps, the set-up lock and the latch as one value. -/
def coreOf (q : List Instr) (y : Sys) (c : Sec) : List Instr × Straps × Bool × Lc × Option Lc :=
  (q, y.straps, y.lock, c.lc, c.pendingLc)

/-- The core of a state. -/
def State.core (s : State) : List Instr × Straps × Bool × Lc × Option Lc := coreOf s.pending s.sys s.sec

theorem State.core_def (s : State) : s.core = (s.pending, s.sys.straps, s.sys.lock, s.sec.lc, s.sec.pendingLc) := rfl

@[simp] theorem coreOf_self (s : State) : coreOf s.pending s.sys s.sec = s.core := rfl

/-- Queue and life-cycle latch do not depend on how a state is written. -/
@[simp] theorem State.core_mk (a b sys d e f g h i j k l sec n o p q r t u v w x y z aa queue) :
    (State.mk a b sys d e f g h i j k l sec n o p q r t u v w x y z aa queue).core = coreOf queue sys sec := rfl

@[simp ↓] theorem State.core_ite (c : Prop) [Decidable c] (a b : State) : (if c then a else b).core = if c then a.core else b.core := by
  split <;> rfl

@[simp ↓] theorem State.foldl_core {β : Type} (f : State → β → State) (h : ∀ s a, (f s a).core = s.core) (l : List β) (s : State) :
    (l.foldl f s).core = s.core := by
  induction l generalizing s with
  | nil => rfl
  | cons a l ih => simp [ih, h]

@[simp ↓] theorem foldl_fst_core {α β : Type} (f : State × α → β → State × α) (h : ∀ p a, (f p a).1.core = p.1.core) (l : List β)
    (p : State × α) : (l.foldl f p).1.core = p.1.core := by
  induction l generalizing p with
  | nil => rfl
  | cons a l ih => simp [ih, h]

@[simp ↓] theorem foldl_snd_core {α β : Type} (f : α × State → β → α × State) (h : ∀ p a, (f p a).2.core = p.2.core) (l : List β)
    (p : α × State) : (l.foldl f p).2.core = p.2.core := by
  induction l generalizing p with
  | nil => rfl
  | cons a l ih => simp [ih, h]

/-- A command that gives a next state gives one with the same core. -/
def Keeps (s : State) (r : Res) : Prop := ∀ t, r = .next t → t.core = s.core

@[simp ↓] theorem keeps_next (s t : State) : Keeps s (.next t) ↔ t.core = s.core :=
  ⟨fun h => h t rfl, fun h u e => by cases e; exact h⟩

@[simp ↓] theorem keeps_fault (s : State) (f : Fault) : Keeps s (.fault f) := fun _ e => by cases e

@[simp ↓] theorem keeps_refused (s : State) (f : Refusal) : Keeps s (.refused f) := fun _ e => by cases e

@[simp ↓] theorem keeps_ite (s : State) (c : Prop) [Decidable c] (a b : Res) :
    Keeps s (if c then a else b) ↔ if c then Keeps s a else Keeps s b := by
  split <;> rfl

@[simp ↓] theorem State.onSys_core (f : Sys → Sys) (s : State) (h : ∀ x, (f x).straps = x.straps)
    (k : ∀ x, (f x).lock = x.lock) : (s.onSys f).core = s.core := by
  simp [State.core_def, h, k]

@[simp ↓] theorem State.onSec_core (f : Sec → Sec) (s : State) (h : ∀ x, (f x).lc = x.lc)
    (g : ∀ x, (f x).pendingLc = x.pendingLc) :
    (s.onSec f).core = s.core := by
  simp [State.core_def, h, g]

/-! ### Ops -/

@[simp ↓] theorem State.onHif_core (f : Hif → Hif) (s : State) : (State.onHif f s).core = s.core := by
  unfold State.onHif
  first
    | (simp; done)
    | (repeat' (first
        | (simp; done) | split | rw [State.foldl_core] | rw [foldl_fst_core] | rw [foldl_snd_core]
        | dsimp only | simp | rw [State.onSec_core] | rw [State.onSys_core] | with_reducible rfl | intro _))

@[simp ↓] theorem State.onFold_core (f : Fold → Fold) (s : State) : (State.onFold f s).core = s.core := by
  unfold State.onFold
  first
    | (simp; done)
    | (repeat' (first
        | (simp; done) | split | rw [State.foldl_core] | rw [foldl_fst_core] | rw [foldl_snd_core]
        | dsimp only | simp | rw [State.onSec_core] | rw [State.onSys_core] | with_reducible rfl | intro _))

@[simp ↓] theorem State.onCrook_core (f : Crook → Crook) (s : State) : (State.onCrook f s).core = s.core := by
  unfold State.onCrook
  first
    | (simp; done)
    | (repeat' (first
        | (simp; done) | split | rw [State.foldl_core] | rw [foldl_fst_core] | rw [foldl_snd_core]
        | dsimp only | simp | rw [State.onSec_core] | rw [State.onSys_core] | with_reducible rfl | intro _))

@[simp ↓] theorem State.onPower_core (f : Power → Power) (s : State) : (State.onPower f s).core = s.core := by
  unfold State.onPower
  first
    | (simp; done)
    | (repeat' (first
        | (simp; done) | split | rw [State.foldl_core] | rw [foldl_fst_core] | rw [foldl_snd_core]
        | dsimp only | simp | rw [State.onSec_core] | rw [State.onSys_core] | with_reducible rfl | intro _))

@[simp ↓] theorem State.onTherm_core (f : Therm → Therm) (s : State) : (State.onTherm f s).core = s.core := by
  unfold State.onTherm
  first
    | (simp; done)
    | (repeat' (first
        | (simp; done) | split | rw [State.foldl_core] | rw [foldl_fst_core] | rw [foldl_snd_core]
        | dsimp only | simp | rw [State.onSec_core] | rw [State.onSys_core] | with_reducible rfl | intro _))

@[simp ↓] theorem State.onMemc_core (f : Memc → Memc) (s : State) : (State.onMemc f s).core = s.core := by
  unfold State.onMemc
  first
    | (simp; done)
    | (repeat' (first
        | (simp; done) | split | rw [State.foldl_core] | rw [foldl_fst_core] | rw [foldl_snd_core]
        | dsimp only | simp | rw [State.onSec_core] | rw [State.onSys_core] | with_reducible rfl | intro _))

@[simp ↓] theorem State.onPaddock_core (f : Paddock → Paddock) (s : State) : (State.onPaddock f s).core = s.core := by
  unfold State.onPaddock
  first
    | (simp; done)
    | (repeat' (first
        | (simp; done) | split | rw [State.foldl_core] | rw [foldl_fst_core] | rw [foldl_snd_core]
        | dsimp only | simp | rw [State.onSec_core] | rw [State.onSys_core] | with_reducible rfl | intro _))

@[simp ↓] theorem State.onDfl_core (f : Dfl → Dfl) (s : State) : (State.onDfl f s).core = s.core := by
  unfold State.onDfl
  first
    | (simp; done)
    | (repeat' (first
        | (simp; done) | split | rw [State.foldl_core] | rw [foldl_fst_core] | rw [foldl_snd_core]
        | dsimp only | simp | rw [State.onSec_core] | rw [State.onSys_core] | with_reducible rfl | intro _))

@[simp ↓] theorem State.onMbx_core (f : Mbx → Mbx) (s : State) : (State.onMbx f s).core = s.core := by
  unfold State.onMbx
  first
    | (simp; done)
    | (repeat' (first
        | (simp; done) | split | rw [State.foldl_core] | rw [foldl_fst_core] | rw [foldl_snd_core]
        | dsimp only | simp | rw [State.onSec_core] | rw [State.onSys_core] | with_reducible rfl | intro _))

@[simp ↓] theorem State.onCal_core (f : Cal → Cal) (s : State) : (State.onCal f s).core = s.core := by
  unfold State.onCal
  first
    | (simp; done)
    | (repeat' (first
        | (simp; done) | split | rw [State.foldl_core] | rw [foldl_fst_core] | rw [foldl_snd_core]
        | dsimp only | simp | rw [State.onSec_core] | rw [State.onSys_core] | with_reducible rfl | intro _))

@[simp ↓] theorem State.onTally_core (f : Tally → Tally) (s : State) : (State.onTally f s).core = s.core := by
  unfold State.onTally
  first
    | (simp; done)
    | (repeat' (first
        | (simp; done) | split | rw [State.foldl_core] | rw [foldl_fst_core] | rw [foldl_snd_core]
        | dsimp only | simp | rw [State.onSec_core] | rw [State.onSys_core] | with_reducible rfl | intro _))

@[simp ↓] theorem State.onNet_core (f : Net → Net) (s : State) : (State.onNet f s).core = s.core := by
  unfold State.onNet
  first
    | (simp; done)
    | (repeat' (first
        | (simp; done) | split | rw [State.foldl_core] | rw [foldl_fst_core] | rw [foldl_snd_core]
        | dsimp only | simp | rw [State.onSec_core] | rw [State.onSys_core] | with_reducible rfl | intro _))

@[simp ↓] theorem State.onBell_core (f : Bell → Bell) (s : State) : (State.onBell f s).core = s.core := by
  unfold State.onBell
  first
    | (simp; done)
    | (repeat' (first
        | (simp; done) | split | rw [State.foldl_core] | rw [foldl_fst_core] | rw [foldl_snd_core]
        | dsimp only | simp | rw [State.onSec_core] | rw [State.onSys_core] | with_reducible rfl | intro _))

@[simp ↓] theorem State.onLay_core (f : Lay → Lay) (s : State) : (State.onLay f s).core = s.core := by
  unfold State.onLay
  first
    | (simp; done)
    | (repeat' (first
        | (simp; done) | split | rw [State.foldl_core] | rw [foldl_fst_core] | rw [foldl_snd_core]
        | dsimp only | simp | rw [State.onSec_core] | rw [State.onSys_core] | with_reducible rfl | intro _))

@[simp ↓] theorem State.onInk_core (f : Ink → Ink) (s : State) : (State.onInk f s).core = s.core := by
  unfold State.onInk
  first
    | (simp; done)
    | (repeat' (first
        | (simp; done) | split | rw [State.foldl_core] | rw [foldl_fst_core] | rw [foldl_snd_core]
        | dsimp only | simp | rw [State.onSec_core] | rw [State.onSys_core] | with_reducible rfl | intro _))

@[simp ↓] theorem State.onJet_core (f : Jet → Jet) (s : State) : (State.onJet f s).core = s.core := by
  unfold State.onJet
  first
    | (simp; done)
    | (repeat' (first
        | (simp; done) | split | rw [State.foldl_core] | rw [foldl_fst_core] | rw [foldl_snd_core]
        | dsimp only | simp | rw [State.onSec_core] | rw [State.onSys_core] | with_reducible rfl | intro _))

@[simp ↓] theorem State.onLink_core (f : Link → Link) (s : State) : (State.onLink f s).core = s.core := by
  unfold State.onLink
  first
    | (simp; done)
    | (repeat' (first
        | (simp; done) | split | rw [State.foldl_core] | rw [foldl_fst_core] | rw [foldl_snd_core]
        | dsimp only | simp | rw [State.onSec_core] | rw [State.onSys_core] | with_reducible rfl | intro _))

@[simp ↓] theorem State.onNozzle_core (f : Nozzle → Nozzle) (s : State) : (State.onNozzle f s).core = s.core := by
  unfold State.onNozzle
  first
    | (simp; done)
    | (repeat' (first
        | (simp; done) | split | rw [State.foldl_core] | rw [foldl_fst_core] | rw [foldl_snd_core]
        | dsimp only | simp | rw [State.onSec_core] | rw [State.onSys_core] | with_reducible rfl | intro _))

@[simp ↓] theorem State.onSee_core (f : See → See) (s : State) : (State.onSee f s).core = s.core := by
  unfold State.onSee
  first
    | (simp; done)
    | (repeat' (first
        | (simp; done) | split | rw [State.foldl_core] | rw [foldl_fst_core] | rw [foldl_snd_core]
        | dsimp only | simp | rw [State.onSec_core] | rw [State.onSys_core] | with_reducible rfl | intro _))

@[simp ↓] theorem State.onHold_core (f : Hold → Hold) (s : State) : (State.onHold f s).core = s.core := by
  unfold State.onHold
  first
    | (simp; done)
    | (repeat' (first
        | (simp; done) | split | rw [State.foldl_core] | rw [foldl_fst_core] | rw [foldl_snd_core]
        | dsimp only | simp | rw [State.onSec_core] | rw [State.onSys_core] | with_reducible rfl | intro _))

@[simp ↓] theorem State.onBar_core (b : Nat) (f : Bar → Bar) (s : State) : (State.onBar b f s).core = s.core := by
  unfold State.onBar
  first
    | (simp; done)
    | (repeat' (first
        | (simp; done) | split | rw [State.foldl_core] | rw [foldl_fst_core] | rw [foldl_snd_core]
        | dsimp only | simp | rw [State.onSec_core] | rw [State.onSys_core] | with_reducible rfl | intro _))

@[simp ↓] theorem State.onLane_core (n : Nat) (f : Lane → Lane) (s : State) : (State.onLane n f s).core = s.core := by
  unfold State.onLane
  first
    | (simp; done)
    | (repeat' (first
        | (simp; done) | split | rw [State.foldl_core] | rw [foldl_fst_core] | rw [foldl_snd_core]
        | dsimp only | simp | rw [State.onSec_core] | rw [State.onSys_core] | with_reducible rfl | intro _))

@[simp ↓] theorem State.onLinkBar_core (b : Nat) (f : LinkBar → LinkBar) (s : State) : (State.onLinkBar b f s).core = s.core := by
  unfold State.onLinkBar
  first
    | (simp; done)
    | (repeat' (first
        | (simp; done) | split | rw [State.foldl_core] | rw [foldl_fst_core] | rw [foldl_snd_core]
        | dsimp only | simp | rw [State.onSec_core] | rw [State.onSys_core] | with_reducible rfl | intro _))

@[simp ↓] theorem State.onRing_core (n : Nat) (f : Ring → Ring) (s : State) : (State.onRing n f s).core = s.core := by
  unfold State.onRing
  first
    | (simp; done)
    | (repeat' (first
        | (simp; done) | split | rw [State.foldl_core] | rw [foldl_fst_core] | rw [foldl_snd_core]
        | dsimp only | simp | rw [State.onSec_core] | rw [State.onSys_core] | with_reducible rfl | intro _))

@[simp ↓] theorem State.onWheel_core (w : Nat) (f : Wheel → Wheel) (s : State) : (State.onWheel w f s).core = s.core := by
  unfold State.onWheel
  first
    | (simp; done)
    | (repeat' (first
        | (simp; done) | split | rw [State.foldl_core] | rw [foldl_fst_core] | rw [foldl_snd_core]
        | dsimp only | simp | rw [State.onSec_core] | rw [State.onSys_core] | with_reducible rfl | intro _))

@[simp ↓] theorem State.onPort_core (p : Nat) (f : CamPort → CamPort) (s : State) : (State.onPort p f s).core = s.core := by
  unfold State.onPort
  first
    | (simp; done)
    | (repeat' (first
        | (simp; done) | split | rw [State.foldl_core] | rw [foldl_fst_core] | rw [foldl_snd_core]
        | dsimp only | simp | rw [State.onSec_core] | rw [State.onSys_core] | with_reducible rfl | intro _))

@[simp ↓] theorem State.onChannel_core (c : Nat) (f : Channel → Channel) (s : State) : (State.onChannel c f s).core = s.core := by
  unfold State.onChannel
  first
    | (simp; done)
    | (repeat' (first
        | (simp; done) | split | rw [State.foldl_core] | rw [foldl_fst_core] | rw [foldl_snd_core]
        | dsimp only | simp | rw [State.onSec_core] | rw [State.onSys_core] | with_reducible rfl | intro _))

@[simp ↓] theorem State.onDomain_core (d : Nat) (f : Domain → Domain) (s : State) : (State.onDomain d f s).core = s.core := by
  unfold State.onDomain
  first
    | (simp; done)
    | (repeat' (first
        | (simp; done) | split | rw [State.foldl_core] | rw [foldl_fst_core] | rw [foldl_snd_core]
        | dsimp only | simp | rw [State.onSec_core] | rw [State.onSys_core] | with_reducible rfl | intro _))

@[simp ↓] theorem State.emit_core (o : Out) (s : State) : (State.emit o s).core = s.core := by
  unfold State.emit
  first
    | (simp; done)
    | (repeat' (first
        | (simp; done) | split | rw [State.foldl_core] | rw [foldl_fst_core] | rw [foldl_snd_core]
        | dsimp only | simp | rw [State.onSec_core] | rw [State.onSys_core] | with_reducible rfl | intro _))

@[simp ↓] theorem State.free_core (s : State) : (State.free s).2.core = s.core := by
  unfold State.free
  first
    | (simp; done)
    | (repeat' (first
        | (simp; done) | split | rw [State.foldl_core] | rw [foldl_fst_core] | rw [foldl_snd_core]
        | dsimp only | simp | rw [State.onSec_core] | rw [State.onSys_core] | with_reducible rfl | intro _))

@[simp ↓] theorem State.setReg_core (r : Reg) (v : Nat) (s : State) : (State.setReg r v s).core = s.core := by
  unfold State.setReg
  first
    | (simp; done)
    | (repeat' (first
        | (simp; done) | split | rw [State.foldl_core] | rw [foldl_fst_core] | rw [foldl_snd_core]
        | dsimp only | simp | rw [State.onSec_core] | rw [State.onSys_core] | with_reducible rfl | intro _))

@[simp ↓] theorem State.setEarlier_core (r : Reg) (v : Nat) (s : State) : (State.setEarlier r v s).core = s.core := by
  unfold State.setEarlier
  first
    | (simp; done)
    | (repeat' (first
        | (simp; done) | split | rw [State.foldl_core] | rw [foldl_fst_core] | rw [foldl_snd_core]
        | dsimp only | simp | rw [State.onSec_core] | rw [State.onSys_core] | with_reducible rfl | intro _))

@[simp ↓] theorem State.setSticky_core (r : Reg) (m : Nat) (s : State) : (State.setSticky r m s).core = s.core := by
  unfold State.setSticky
  first
    | (simp; done)
    | (repeat' (first
        | (simp; done) | split | rw [State.foldl_core] | rw [foldl_fst_core] | rw [foldl_snd_core]
        | dsimp only | simp | rw [State.onSec_core] | rw [State.onSys_core] | with_reducible rfl | intro _))

@[simp ↓] theorem State.wipe_core (r : Reg) (m : Nat) (s : State) : (State.wipe r m s).core = s.core := by
  unfold State.wipe
  first
    | (simp; done)
    | (repeat' (first
        | (simp; done) | split | rw [State.foldl_core] | rw [foldl_fst_core] | rw [foldl_snd_core]
        | dsimp only | simp | rw [State.onSec_core] | rw [State.onSys_core] | with_reducible rfl | intro _))

@[simp ↓] theorem State.setF_core (x : Field) (v : Nat) (s : State) : (State.setF x v s).core = s.core := by
  unfold State.setF
  first
    | (simp; done)
    | (repeat' (first
        | (simp; done) | split | rw [State.foldl_core] | rw [foldl_fst_core] | rw [foldl_snd_core]
        | dsimp only | simp | rw [State.onSec_core] | rw [State.onSys_core] | with_reducible rfl | intro _))

@[simp ↓] theorem State.bump_core (x : Field) (n : Nat) (s : State) : (State.bump x n s).core = s.core := by
  unfold State.bump
  first
    | (simp; done)
    | (repeat' (first
        | (simp; done) | split | rw [State.foldl_core] | rw [foldl_fst_core] | rw [foldl_snd_core]
        | dsimp only | simp | rw [State.onSec_core] | rw [State.onSys_core] | with_reducible rfl | intro _))

@[simp ↓] theorem State.bumpSat_core (x : Field) (n : Nat) (s : State) : (State.bumpSat x n s).core = s.core := by
  unfold State.bumpSat
  first
    | (simp; done)
    | (repeat' (first
        | (simp; done) | split | rw [State.foldl_core] | rw [foldl_fst_core] | rw [foldl_snd_core]
        | dsimp only | simp | rw [State.onSec_core] | rw [State.onSys_core] | with_reducible rfl | intro _))

@[simp ↓] theorem State.requestVector_core (v : Nat) (s : State) : (State.requestVector v s).core = s.core := by
  unfold State.requestVector
  first
    | (simp; done)
    | (repeat' (first
        | (simp; done) | split | rw [State.foldl_core] | rw [foldl_fst_core] | rw [foldl_snd_core]
        | dsimp only | simp | rw [State.onSec_core] | rw [State.onSys_core] | with_reducible rfl | intro _))

@[simp ↓] theorem State.raiseEv_core (n : Nat) (s : State) : (State.raiseEv n s).core = s.core := by
  unfold State.raiseEv
  first
    | (simp; done)
    | (repeat' (first
        | (simp; done) | split | rw [State.foldl_core] | rw [foldl_fst_core] | rw [foldl_snd_core]
        | dsimp only | simp | rw [State.onSec_core] | rw [State.onSys_core] | with_reducible rfl | intro _))

@[simp ↓] theorem State.refuseWaiting_core (d : Nat) (s : State) : (State.refuseWaiting d s).core = s.core := by
  unfold State.refuseWaiting
  first
    | (simp; done)
    | (repeat' (first
        | (simp; done) | split | rw [State.foldl_core] | rw [foldl_fst_core] | rw [foldl_snd_core]
        | dsimp only | simp | rw [State.onSec_core] | rw [State.onSys_core] | with_reducible rfl | intro _))

@[simp ↓] theorem State.wakeDomain_core (d : Nat) (s : State) : (State.wakeDomain d s).core = s.core := by
  unfold State.wakeDomain
  first
    | (simp; done)
    | (repeat' (first
        | (simp; done) | split | rw [State.foldl_core] | rw [foldl_fst_core] | rw [foldl_snd_core]
        | dsimp only | simp | rw [State.onSec_core] | rw [State.onSys_core] | with_reducible rfl | intro _))

@[simp ↓] theorem State.wakeAll_core (ds : List Nat) (s : State) : (State.wakeAll ds s).core = s.core := by
  unfold State.wakeAll
  first
    | (simp; done)
    | (repeat' (first
        | (simp; done) | split | rw [State.foldl_core] | rw [foldl_fst_core] | rw [foldl_snd_core]
        | dsimp only | simp | rw [State.onSec_core] | rw [State.onSys_core] | with_reducible rfl | intro _))

@[simp ↓] theorem State.droverAsk_core (cls tokens : Nat) (h : Holder) (s : State) : (State.droverAsk cls tokens h s).core = s.core := by
  unfold State.droverAsk
  first
    | (simp; done)
    | (repeat' (first
        | (simp; done) | split | rw [State.foldl_core] | rw [foldl_fst_core] | rw [foldl_snd_core]
        | dsimp only | simp | rw [State.onSec_core] | rw [State.onSys_core] | with_reducible rfl | intro _))

@[simp ↓] theorem State.droverDrop_core (h : Holder) (s : State) : (State.droverDrop h s).core = s.core := by
  unfold State.droverDrop
  first
    | (simp; done)
    | (repeat' (first
        | (simp; done) | split | rw [State.foldl_core] | rw [foldl_fst_core] | rw [foldl_snd_core]
        | dsimp only | simp | rw [State.onSec_core] | rw [State.onSys_core] | with_reducible rfl | intro _))

@[simp ↓] theorem State.onDesc_core (order : Nat) (f : Desc → Desc) (s : State) : (State.onDesc order f s).core = s.core := by
  unfold State.onDesc
  first
    | (simp; done)
    | (repeat' (first
        | (simp; done) | split | rw [State.foldl_core] | rw [foldl_fst_core] | rw [foldl_snd_core]
        | dsimp only | simp | rw [State.onSec_core] | rw [State.onSys_core] | with_reducible rfl | intro _))

@[simp ↓] theorem State.start_core (d : Desc) (s : State) : (State.start d s).core = s.core := by
  unfold State.start
  first
    | (simp; done)
    | (repeat' (first
        | (simp; done) | split | rw [State.foldl_core] | rw [foldl_fst_core] | rw [foldl_snd_core]
        | dsimp only | simp | rw [State.onSec_core] | rw [State.onSys_core] | with_reducible rfl | intro _))

@[simp ↓] theorem State.retire_core (d : Desc) (s : State) : (State.retire d s).core = s.core := by
  unfold State.retire
  first
    | (simp; done)
    | (repeat' (first
        | (simp; done) | split | rw [State.foldl_core] | rw [foldl_fst_core] | rw [foldl_snd_core]
        | dsimp only | simp | rw [State.onSec_core] | rw [State.onSys_core] | with_reducible rfl | intro _))

@[simp ↓] theorem State.completeAs_core (d : Desc) (status result : Nat) (final : Bool) (s : State) : (State.completeAs d status result final s).core = s.core := by
  unfold State.completeAs
  first
    | (simp; done)
    | (repeat' (first
        | (simp; done) | split | rw [State.foldl_core] | rw [foldl_fst_core] | rw [foldl_snd_core]
        | dsimp only | simp | rw [State.onSec_core] | rw [State.onSys_core] | with_reducible rfl | intro _))

@[simp ↓] theorem State.complete_core (d : Desc) (status result : Nat) (s : State) : (State.complete d status result s).core = s.core := by
  unfold State.complete
  first
    | (simp; done)
    | (repeat' (first
        | (simp; done) | split | rw [State.foldl_core] | rw [foldl_fst_core] | rw [foldl_snd_core]
        | dsimp only | simp | rw [State.onSec_core] | rw [State.onSys_core] | with_reducible rfl | intro _))

@[simp ↓] theorem State.completeAt_core (order status result : Nat) (s : State) : (State.completeAt order status result s).core = s.core := by
  unfold State.completeAt
  first
    | (simp; done)
    | (repeat' (first
        | (simp; done) | split | rw [State.foldl_core] | rw [foldl_fst_core] | rw [foldl_snd_core]
        | dsimp only | simp | rw [State.onSec_core] | rw [State.onSys_core] | with_reducible rfl | intro _))

@[simp ↓] theorem State.release_core (order : Nat) (s : State) : (State.release order s).core = s.core := by
  unfold State.release
  first
    | (simp; done)
    | (repeat' (first
        | (simp; done) | split | rw [State.foldl_core] | rw [foldl_fst_core] | rw [foldl_snd_core]
        | dsimp only | simp | rw [State.onSec_core] | rw [State.onSys_core] | with_reducible rfl | intro _))

@[simp ↓] theorem State.readToken_core (s : State) : (State.readToken s).core = s.core := by
  unfold State.readToken
  first
    | (simp; done)
    | (repeat' (first
        | (simp; done) | split | rw [State.foldl_core] | rw [foldl_fst_core] | rw [foldl_snd_core]
        | dsimp only | simp | rw [State.onSec_core] | rw [State.onSys_core] | with_reducible rfl | intro _))

@[simp ↓] theorem State.readList_core (d : Desc) (s : State) : (State.readList d s).core = s.core := by
  unfold State.readList
  first
    | (simp; done)
    | (repeat' (first
        | (simp; done) | split | rw [State.foldl_core] | rw [foldl_fst_core] | rw [foldl_snd_core]
        | dsimp only | simp | rw [State.onSec_core] | rw [State.onSys_core] | with_reducible rfl | intro _))

@[simp ↓] theorem State.readPages_core (d : Desc) (es : List PageEnt) (s : State) : (State.readPages d es s).core = s.core := by
  unfold State.readPages
  first
    | (simp; done)
    | (repeat' (first
        | (simp; done) | split | rw [State.foldl_core] | rw [foldl_fst_core] | rw [foldl_snd_core]
        | dsimp only | simp | rw [State.onSec_core] | rw [State.onSys_core] | with_reducible rfl | intro _))

@[simp ↓] theorem State.readHost_core (d : Desc) (es : List PageEnt) (s : State) : (State.readHost d es s).core = s.core := by
  unfold State.readHost
  first
    | (simp; done)
    | (repeat' (first
        | (simp; done) | split | rw [State.foldl_core] | rw [foldl_fst_core] | rw [foldl_snd_core]
        | dsimp only | simp | rw [State.onSec_core] | rw [State.onSys_core] | with_reducible rfl | intro _))

@[simp ↓] theorem State.writeHost_core (d : Desc) (pages : List Nat) (bs : List Byte) (s : State) : (State.writeHost d pages bs s).core = s.core := by
  unfold State.writeHost
  first
    | (simp; done)
    | (repeat' (first
        | (simp; done) | split | rw [State.foldl_core] | rw [foldl_fst_core] | rw [foldl_snd_core]
        | dsimp only | simp | rw [State.onSec_core] | rw [State.onSys_core] | with_reducible rfl | intro _))

end Sys2Proof.Machine
end

