-- ==== Sys2Proof/Laws/Core2.lean ====
section
/-! SUPPORT. The shared operations of DramOps, DflOps, TallyOps, MemOps leave the core of the state as it is. -/

set_option Elab.async false

namespace Sys2Proof.Machine

/-! ### DramOps -/

@[simp ↓] theorem State.noteQueue_core (s : State) (n : Nat) : (State.noteQueue s n).core = s.core := by
  unfold State.noteQueue
  first
    | (simp; done)
    | (repeat' (first
        | (simp; done) | split | rw [State.foldl_core] | rw [foldl_fst_core] | rw [foldl_snd_core]
        | dsimp only | simp | rw [State.onSec_core] | rw [State.onSys_core] | with_reducible rfl | intro _))

@[simp ↓] theorem State.dramAdmit_core (at_ : Nat) (s : State) : (State.dramAdmit at_ s).core = s.core := by
  unfold State.dramAdmit
  first
    | (simp; done)
    | (repeat' (first
        | (simp; done) | split | rw [State.foldl_core] | rw [foldl_fst_core] | rw [foldl_snd_core]
        | dsimp only | simp | rw [State.onSec_core] | rw [State.onSys_core] | with_reducible rfl | intro _))

@[simp ↓] theorem State.callDram_core (s : State) : (State.callDram s).core = s.core := by
  unfold State.callDram
  first
    | (simp; done)
    | (repeat' (first
        | (simp; done) | split | rw [State.foldl_core] | rw [foldl_fst_core] | rw [foldl_snd_core]
        | dsimp only | simp | rw [State.onSec_core] | rw [State.onSys_core] | with_reducible rfl | intro _))

@[simp ↓] theorem State.dramAsk_core (cls : ReqClass) (write : Bool) (half : Option Nat) (lo hi : Nat) (s : State) : (State.dramAsk cls write half lo hi s).core = s.core := by
  unfold State.dramAsk
  first
    | (simp; done)
    | (repeat' (first
        | (simp; done) | split | rw [State.foldl_core] | rw [foldl_fst_core] | rw [foldl_snd_core]
        | dsimp only | simp | rw [State.onSec_core] | rw [State.onSys_core] | with_reducible rfl | intro _))

@[simp ↓] theorem State.dramRegion_core (cls : ReqClass) (write : Bool) (half : Option Nat) (r : Region) (lo hi : Nat) (s : State) : (State.dramRegion cls write half r lo hi s).core = s.core := by
  unfold State.dramRegion
  first
    | (simp; done)
    | (repeat' (first
        | (simp; done) | split | rw [State.foldl_core] | rw [foldl_fst_core] | rw [foldl_snd_core]
        | dsimp only | simp | rw [State.onSec_core] | rw [State.onSys_core] | with_reducible rfl | intro _))

@[simp ↓] theorem State.dramHolder_core (cls : ReqClass) (write : Bool) (h : PHolder) (lo hi : Nat) (s : State) : (State.dramHolder cls write h lo hi s).core = s.core := by
  unfold State.dramHolder
  first
    | (simp; done)
    | (repeat' (first
        | (simp; done) | split | rw [State.foldl_core] | rw [foldl_fst_core] | rw [foldl_snd_core]
        | dsimp only | simp | rw [State.onSec_core] | rw [State.onSys_core] | with_reducible rfl | intro _))

@[simp ↓] theorem State.healRegion_core (r : Region) (lo hi : Nat) (s : State) : (State.healRegion r lo hi s).core = s.core := by
  unfold State.healRegion
  first
    | (simp; done)
    | (repeat' (first
        | (simp; done) | split | rw [State.foldl_core] | rw [foldl_fst_core] | rw [foldl_snd_core]
        | dsimp only | simp | rw [State.onSec_core] | rw [State.onSys_core] | with_reducible rfl | intro _))

@[simp ↓] theorem State.wroteRegion_core (r : Region) (lo hi : Nat) (s : State) : (State.wroteRegion r lo hi s).core = s.core := by
  unfold State.wroteRegion
  first
    | (simp; done)
    | (repeat' (first
        | (simp; done) | split | rw [State.foldl_core] | rw [foldl_fst_core] | rw [foldl_snd_core]
        | dsimp only | simp | rw [State.onSec_core] | rw [State.onSys_core] | with_reducible rfl | intro _))

@[simp ↓] theorem State.wroteHolder_core (h : PHolder) (s : State) : (State.wroteHolder h s).core = s.core := by
  unfold State.wroteHolder
  first
    | (simp; done)
    | (repeat' (first
        | (simp; done) | split | rw [State.foldl_core] | rw [foldl_fst_core] | rw [foldl_snd_core]
        | dsimp only | simp | rw [State.onSec_core] | rw [State.onSys_core] | with_reducible rfl | intro _))

@[simp ↓] theorem State.wroteBytes_core (h : PHolder) (lo hi : Nat) (s : State) : (State.wroteBytes h lo hi s).core = s.core := by
  unfold State.wroteBytes
  first
    | (simp; done)
    | (repeat' (first
        | (simp; done) | split | rw [State.foldl_core] | rw [foldl_fst_core] | rw [foldl_snd_core]
        | dsimp only | simp | rw [State.onSec_core] | rw [State.onSys_core] | with_reducible rfl | intro _))

/-! ### DflOps -/

@[simp ↓] theorem State.onCtx_core (n : Nat) (f : Ctx → Ctx) (s : State) : (State.onCtx n f s).core = s.core := by
  unfold State.onCtx
  first
    | (simp; done)
    | (repeat' (first
        | (simp; done) | split | rw [State.foldl_core] | rw [foldl_fst_core] | rw [foldl_snd_core]
        | dsimp only | simp | rw [State.onSec_core] | rw [State.onSys_core] | with_reducible rfl | intro _))

@[simp ↓] theorem State.putCtx_core (n : Nat) (c : Ctx) (s : State) : (State.putCtx n c s).core = s.core := by
  unfold State.putCtx
  first
    | (simp; done)
    | (repeat' (first
        | (simp; done) | split | rw [State.foldl_core] | rw [foldl_fst_core] | rw [foldl_snd_core]
        | dsimp only | simp | rw [State.onSec_core] | rw [State.onSys_core] | with_reducible rfl | intro _))

@[simp ↓] theorem State.closeCtx_core (n : Nat) (s : State) : (State.closeCtx n s).core = s.core := by
  unfold State.closeCtx
  first
    | (simp; done)
    | (repeat' (first
        | (simp; done) | split | rw [State.foldl_core] | rw [foldl_fst_core] | rw [foldl_snd_core]
        | dsimp only | simp | rw [State.onSec_core] | rw [State.onSys_core] | with_reducible rfl | intro _))

@[simp ↓] theorem State.dflError_core (ctx cause : Nat) (s : State) : (State.dflError ctx cause s).core = s.core := by
  unfold State.dflError
  first
    | (simp; done)
    | (repeat' (first
        | (simp; done) | split | rw [State.foldl_core] | rw [foldl_fst_core] | rw [foldl_snd_core]
        | dsimp only | simp | rw [State.onSec_core] | rw [State.onSys_core] | with_reducible rfl | intro _))

@[simp ↓] theorem State.spoilCtx_core (n code : Nat) (s : State) : (State.spoilCtx n code s).core = s.core := by
  unfold State.spoilCtx
  first
    | (simp; done)
    | (repeat' (first
        | (simp; done) | split | rw [State.foldl_core] | rw [foldl_fst_core] | rw [foldl_snd_core]
        | dsimp only | simp | rw [State.onSec_core] | rw [State.onSys_core] | with_reducible rfl | intro _))

@[simp ↓] theorem State.moveSaved_core (write : Bool) (n : Nat) (s : State) : (State.moveSaved write n s).core = s.core := by
  unfold State.moveSaved
  first
    | (simp; done)
    | (repeat' (first
        | (simp; done) | split | rw [State.foldl_core] | rw [foldl_fst_core] | rw [foldl_snd_core]
        | dsimp only | simp | rw [State.onSec_core] | rw [State.onSys_core] | with_reducible rfl | intro _))

@[simp ↓] theorem State.evict_core (n : Nat) (s : State) : (State.evict n s).core = s.core := by
  unfold State.evict
  first
    | (simp; done)
    | (repeat' (first
        | (simp; done) | split | rw [State.foldl_core] | rw [foldl_fst_core] | rw [foldl_snd_core]
        | dsimp only | simp | rw [State.onSec_core] | rw [State.onSys_core] | with_reducible rfl | intro _))

theorem State.findSlot_core (n : Nat) (s : State) (r : Nat × State) (h : State.findSlot n s = some r) : r.2.core = s.core := by
  unfold State.findSlot at h
  split at h
  · cases h; rfl
  · split at h
    · rw [Option.map_eq_some_iff] at h
      obtain ⟨v, -, rfl⟩ := h
      simp
    · cases h

@[simp ↓] theorem State.enterSlot_core (n k : Nat) (s : State) : (State.enterSlot n k s).core = s.core := by
  unfold State.enterSlot
  first
    | (simp; done)
    | (repeat' (first
        | (simp; done) | split | rw [State.foldl_core] | rw [foldl_fst_core] | rw [foldl_snd_core]
        | dsimp only | simp | rw [State.onSec_core] | rw [State.onSys_core] | with_reducible rfl | intro _))

@[simp ↓] theorem State.takeSlot_core (n : Nat) (s : State) : (State.takeSlot n s).core = s.core := by
  unfold State.takeSlot
  split
  · rename_i r h
    simpa using State.findSlot_core _ _ _ h
  · simp

@[simp ↓] theorem State.openOwn_core (n wrap level : Nat) (deflate : Bool) (expect : Nat) (s : State) : (State.openOwn n wrap level deflate expect s).core = s.core := by
  unfold State.openOwn
  first
    | (simp; done)
    | (repeat' (first
        | (simp; done) | split | rw [State.foldl_core] | rw [foldl_fst_core] | rw [foldl_snd_core]
        | dsimp only | simp | rw [State.onSec_core] | rw [State.onSys_core] | with_reducible rfl | intro _))

@[simp ↓] theorem State.feedOwn_core (n : Nat) (input : List Byte) (given : Nat) (s : State) : (State.feedOwn n input given s).core = s.core := by
  unfold State.feedOwn
  first
    | (simp; done)
    | (repeat' (first
        | (simp; done) | split | rw [State.foldl_core] | rw [foldl_fst_core] | rw [foldl_snd_core]
        | dsimp only | simp | rw [State.onSec_core] | rw [State.onSys_core] | with_reducible rfl | intro _))

/-! ### TallyOps -/

@[simp ↓] theorem State.storeChunk_core (c : Chunk) (s : State) : (State.storeChunk c s).core = s.core := by
  unfold State.storeChunk
  first
    | (simp; done)
    | (repeat' (first
        | (simp; done) | split | rw [State.foldl_core] | rw [foldl_fst_core] | rw [foldl_snd_core]
        | dsimp only | simp | rw [State.onSec_core] | rw [State.onSys_core] | with_reducible rfl | intro _))

@[simp ↓] theorem State.keepChunk_core (c : Chunk) (s : State) : (State.keepChunk c s).core = s.core := by
  unfold State.keepChunk
  first
    | (simp; done)
    | (repeat' (first
        | (simp; done) | split | rw [State.foldl_core] | rw [foldl_fst_core] | rw [foldl_snd_core]
        | dsimp only | simp | rw [State.onSec_core] | rw [State.onSys_core] | with_reducible rfl | intro _))

@[simp ↓] theorem State.openTally_core (s : State) : (State.openTally s).core = s.core := by
  unfold State.openTally
  first
    | (simp; done)
    | (repeat' (first
        | (simp; done) | split | rw [State.foldl_core] | rw [foldl_fst_core] | rw [foldl_snd_core]
        | dsimp only | simp | rw [State.onSec_core] | rw [State.onSys_core] | with_reducible rfl | intro _))

@[simp ↓] theorem State.addEnd_core (cause : Nat) (s : State) : (State.addEnd cause s).core = s.core := by
  unfold State.addEnd
  first
    | (simp; done)
    | (repeat' (first
        | (simp; done) | split | rw [State.foldl_core] | rw [foldl_fst_core] | rw [foldl_snd_core]
        | dsimp only | simp | rw [State.onSec_core] | rw [State.onSys_core] | with_reducible rfl | intro _))

@[simp ↓] theorem State.passChunk_core (c : Chunk) (s : State) : (State.passChunk c s).core = s.core := by
  unfold State.passChunk
  first
    | (simp; done)
    | (repeat' (first
        | (simp; done) | split | rw [State.foldl_core] | rw [foldl_fst_core] | rw [foldl_snd_core]
        | dsimp only | simp | rw [State.onSec_core] | rw [State.onSys_core] | with_reducible rfl | intro _))

@[simp ↓] theorem State.endSaid_core (s : State) : (State.endSaid s).core = s.core := by
  unfold State.endSaid
  first
    | (simp; done)
    | (repeat' (first
        | (simp; done) | split | rw [State.foldl_core] | rw [foldl_fst_core] | rw [foldl_snd_core]
        | dsimp only | simp | rw [State.onSec_core] | rw [State.onSys_core] | with_reducible rfl | intro _))

@[simp ↓] theorem State.storeLate_core (s : State) : (State.storeLate s).core = s.core := by
  unfold State.storeLate
  first
    | (simp; done)
    | (repeat' (first
        | (simp; done) | split | rw [State.foldl_core] | rw [foldl_fst_core] | rw [foldl_snd_core]
        | dsimp only | simp | rw [State.onSec_core] | rw [State.onSys_core] | with_reducible rfl | intro _))

@[simp ↓] theorem State.endRecording_core (cause : Nat) (s : State) : (State.endRecording cause s).core = s.core := by
  unfold State.endRecording
  first
    | (simp; done)
    | (repeat' (first
        | (simp; done) | split | rw [State.foldl_core] | rw [foldl_fst_core] | rw [foldl_snd_core]
        | dsimp only | simp | rw [State.onSec_core] | rw [State.onSys_core] | with_reducible rfl | intro _))

@[simp ↓] theorem State.sealChunk_core (s : State) : (State.sealChunk s).core = s.core := by
  unfold State.sealChunk
  first
    | (simp; done)
    | (repeat' (first
        | (simp; done) | split | rw [State.foldl_core] | rw [foldl_fst_core] | rw [foldl_snd_core]
        | dsimp only | simp | rw [State.onSec_core] | rw [State.onSys_core] | with_reducible rfl | intro _))

@[simp ↓] theorem State.putEntry_core (e : Entry) (s : State) : (State.putEntry e s).core = s.core := by
  unfold State.putEntry
  first
    | (simp; done)
    | (repeat' (first
        | (simp; done) | split | rw [State.foldl_core] | rw [foldl_fst_core] | rw [foldl_snd_core]
        | dsimp only | simp | rw [State.onSec_core] | rw [State.onSys_core] | with_reducible rfl | intro _))

@[simp ↓] theorem State.tallyEntryAt_core (kind sub time : Nat) (payload : List Byte) (s : State) : (State.tallyEntryAt kind sub time payload s).core = s.core := by
  unfold State.tallyEntryAt
  first
    | (simp; done)
    | (repeat' (first
        | (simp; done) | split | rw [State.foldl_core] | rw [foldl_fst_core] | rw [foldl_snd_core]
        | dsimp only | simp | rw [State.onSec_core] | rw [State.onSys_core] | with_reducible rfl | intro _))

@[simp ↓] theorem State.tallyEntry_core (kind sub : Nat) (payload : List Byte) (s : State) : (State.tallyEntry kind sub payload s).core = s.core := by
  unfold State.tallyEntry
  first
    | (simp; done)
    | (repeat' (first
        | (simp; done) | split | rw [State.foldl_core] | rw [foldl_fst_core] | rw [foldl_snd_core]
        | dsimp only | simp | rw [State.onSec_core] | rw [State.onSys_core] | with_reducible rfl | intro _))

@[simp ↓] theorem State.journal_core (arb : Nat) (payload : List Byte) (s : State) : (State.journal arb payload s).core = s.core := by
  unfold State.journal
  first
    | (simp; done)
    | (repeat' (first
        | (simp; done) | split | rw [State.foldl_core] | rw [foldl_fst_core] | rw [foldl_snd_core]
        | dsimp only | simp | rw [State.onSec_core] | rw [State.onSys_core] | with_reducible rfl | intro _))

/-! ### MemOps -/

@[simp ↓] theorem State.padGive_core (q n : Nat) (h : PHolder) (s : State) : (State.padGive q n h s).core = s.core := by
  unfold State.padGive
  first
    | (simp; done)
    | (repeat' (first
        | (simp; done) | split | rw [State.foldl_core] | rw [foldl_fst_core] | rw [foldl_snd_core]
        | dsimp only | simp | rw [State.onSec_core] | rw [State.onSys_core] | with_reducible rfl | intro _))

@[simp ↓] theorem padJudge_core (l : List PReq) (stuck : List Nat) (s : State) : (padJudge l stuck s).core = s.core := by
  induction l generalizing stuck s with
  | nil => rfl
  | cons w ws ih =>
    unfold padJudge
    split <;> simp [ih]

@[simp ↓] theorem State.padRejudge_core (s : State) : (State.padRejudge s).core = s.core := by
  unfold State.padRejudge
  first
    | (simp; done)
    | (repeat' (first
        | (simp; done) | split | rw [State.foldl_core] | rw [foldl_fst_core] | rw [foldl_snd_core]
        | dsimp only | simp | rw [State.onSec_core] | rw [State.onSys_core] | with_reducible rfl | intro _))

@[simp ↓] theorem State.padAsk_core (q n : Nat) (h : PHolder) (s : State) : (State.padAsk q n h s).core = s.core := by
  unfold State.padAsk
  first
    | (simp; done)
    | (repeat' (first
        | (simp; done) | split | rw [State.foldl_core] | rw [foldl_fst_core] | rw [foldl_snd_core]
        | dsimp only | simp | rw [State.onSec_core] | rw [State.onSys_core] | with_reducible rfl | intro _))

@[simp ↓] theorem State.padWithdraw_core (h : PHolder) (s : State) : (State.padWithdraw h s).core = s.core := by
  unfold State.padWithdraw
  first
    | (simp; done)
    | (repeat' (first
        | (simp; done) | split | rw [State.foldl_core] | rw [foldl_fst_core] | rw [foldl_snd_core]
        | dsimp only | simp | rw [State.onSec_core] | rw [State.onSys_core] | with_reducible rfl | intro _))

@[simp ↓] theorem State.padFreeId_core (id : Nat) (s : State) : (State.padFreeId id s).core = s.core := by
  unfold State.padFreeId
  first
    | (simp; done)
    | (repeat' (first
        | (simp; done) | split | rw [State.foldl_core] | rw [foldl_fst_core] | rw [foldl_snd_core]
        | dsimp only | simp | rw [State.onSec_core] | rw [State.onSys_core] | with_reducible rfl | intro _))

@[simp ↓] theorem State.padFree_core (h : PHolder) (s : State) : (State.padFree h s).core = s.core := by
  unfold State.padFree
  first
    | (simp; done)
    | (repeat' (first
        | (simp; done) | split | rw [State.foldl_core] | rw [foldl_fst_core] | rw [foldl_snd_core]
        | dsimp only | simp | rw [State.onSec_core] | rw [State.onSys_core] | with_reducible rfl | intro _))

@[simp ↓] theorem State.padRetire_core (page : Nat) (s : State) : (State.padRetire page s).2.core = s.core := by
  unfold State.padRetire
  first
    | (simp; done)
    | (repeat' (first
        | (simp; done) | split | rw [State.foldl_core] | rw [foldl_fst_core] | rw [foldl_snd_core]
        | dsimp only | simp | rw [State.onSec_core] | rw [State.onSys_core] | with_reducible rfl | intro _))

@[simp ↓] theorem State.wipeTo_core (n : Nat) (s : State) : (State.wipeTo n s).core = s.core := by
  unfold State.wipeTo
  first
    | (simp; done)
    | (repeat' (first
        | (simp; done) | split | rw [State.foldl_core] | rw [foldl_fst_core] | rw [foldl_snd_core]
        | dsimp only | simp | rw [State.onSec_core] | rw [State.onSys_core] | with_reducible rfl | intro _))

@[simp ↓] theorem State.wipeNow_core (s : State) : (State.wipeNow s).core = s.core := by
  unfold State.wipeNow
  first
    | (simp; done)
    | (repeat' (first
        | (simp; done) | split | rw [State.foldl_core] | rw [foldl_fst_core] | rw [foldl_snd_core]
        | dsimp only | simp | rw [State.onSec_core] | rw [State.onSys_core] | with_reducible rfl | intro _))

@[simp ↓] theorem State.touchDram_core (s : State) : (State.touchDram s).core = s.core := by
  unfold State.touchDram
  first
    | (simp; done)
    | (repeat' (first
        | (simp; done) | split | rw [State.foldl_core] | rw [foldl_fst_core] | rw [foldl_snd_core]
        | dsimp only | simp | rw [State.onSec_core] | rw [State.onSys_core] | with_reducible rfl | intro _))

end Sys2Proof.Machine
end

