-- ==== Sys2Proof/Laws/Core3.lean ====
section
/-! SUPPORT. The shared operations of Access, LinkOps, DramServe, React leave the core of the state as it is. -/

set_option Elab.async false

namespace Sys2Proof.Machine

/-! ### Access -/

@[simp ↓] theorem State.noteWrite_core (agent off v : Nat) (s : State) : (State.noteWrite agent off v s).core = s.core := by
  unfold State.noteWrite
  first
    | (simp; done)
    | (repeat' (first
        | (simp; done) | split | rw [State.foldl_core] | rw [foldl_fst_core] | rw [foldl_snd_core]
        | dsimp only | simp | rw [State.onSec_core] | rw [State.onSys_core] | with_reducible rfl | intro _))

/-! ### LinkOps -/

@[simp ↓] theorem State.putLane_core (n : Nat) (what : TxLine) (s : State) : (State.putLane n what s).core = s.core := by
  unfold State.putLane
  first
    | (simp; done)
    | (repeat' (first
        | (simp; done) | split | rw [State.foldl_core] | rw [foldl_fst_core] | rw [foldl_snd_core]
        | dsimp only | simp | rw [State.onSec_core] | rw [State.onSys_core] | with_reducible rfl | intro _))

@[simp ↓] theorem State.beginWake_core (b at_ : Nat) (s : State) : (State.beginWake b at_ s).core = s.core := by
  unfold State.beginWake
  first
    | (simp; done)
    | (repeat' (first
        | (simp; done) | split | rw [State.foldl_core] | rw [foldl_fst_core] | rw [foldl_snd_core]
        | dsimp only | simp | rw [State.onSec_core] | rw [State.onSys_core] | with_reducible rfl | intro _))

@[simp ↓] theorem State.wakeDown_core (b : Nat) (s : State) : (State.wakeDown b s).core = s.core := by
  unfold State.wakeDown
  first
    | (simp; done)
    | (repeat' (first
        | (simp; done) | split | rw [State.foldl_core] | rw [foldl_fst_core] | rw [foldl_snd_core]
        | dsimp only | simp | rw [State.onSec_core] | rw [State.onSys_core] | with_reducible rfl | intro _))

@[simp ↓] theorem State.sendCtl_core (b group : Nat) (bytes : List Byte) (s : State) : (State.sendCtl b group bytes s).core = s.core := by
  unfold State.sendCtl
  first
    | (simp; done)
    | (repeat' (first
        | (simp; done) | split | rw [State.foldl_core] | rw [foldl_fst_core] | rw [foldl_snd_core]
        | dsimp only | simp | rw [State.onSec_core] | rw [State.onSys_core] | with_reducible rfl | intro _))

@[simp ↓] theorem State.putSlots_core (n : Nat) (r : Lane × List Out) (s : State) : (State.putSlots n r s).core = s.core := by
  unfold State.putSlots
  first
    | (simp; done)
    | (repeat' (first
        | (simp; done) | split | rw [State.foldl_core] | rw [foldl_fst_core] | rw [foldl_snd_core]
        | dsimp only | simp | rw [State.onSec_core] | rw [State.onSys_core] | with_reducible rfl | intro _))

@[simp ↓] theorem State.laneEv_core (n ev : Nat) (s : State) : (State.laneEv n ev s).core = s.core := by
  unfold State.laneEv
  first
    | (simp; done)
    | (repeat' (first
        | (simp; done) | split | rw [State.foldl_core] | rw [foldl_fst_core] | rw [foldl_snd_core]
        | dsimp only | simp | rw [State.onSec_core] | rw [State.onSys_core] | with_reducible rfl | intro _))

@[simp ↓] theorem State.resumeDown_core (b : Nat) (s : State) : (State.resumeDown b s).core = s.core := by
  unfold State.resumeDown
  first
    | (simp; done)
    | (repeat' (first
        | (simp; done) | split | rw [State.foldl_core] | rw [foldl_fst_core] | rw [foldl_snd_core]
        | dsimp only | simp | rw [State.onSec_core] | rw [State.onSys_core] | with_reducible rfl | intro _))

@[simp ↓] theorem State.flushBar_core (g b : Nat) (s : State) : (State.flushBar g b s).core = s.core := by
  unfold State.flushBar
  first
    | (simp; done)
    | (repeat' (first
        | (simp; done) | split | rw [State.foldl_core] | rw [foldl_fst_core] | rw [foldl_snd_core]
        | dsimp only | simp | rw [State.onSec_core] | rw [State.onSys_core] | with_reducible rfl | intro _))

@[simp ↓] theorem State.flushHolds_core (s : State) : (State.flushHolds s).core = s.core := by
  unfold State.flushHolds
  first
    | (simp; done)
    | (repeat' (first
        | (simp; done) | split | rw [State.foldl_core] | rw [foldl_fst_core] | rw [foldl_snd_core]
        | dsimp only | simp | rw [State.onSec_core] | rw [State.onSys_core] | with_reducible rfl | intro _))

@[simp ↓] theorem State.sendSync_core (b : Nat) (lineB : Bool) (tick : Int) (s : State) : (State.sendSync b lineB tick s).core = s.core := by
  unfold State.sendSync
  first
    | (simp; done)
    | (repeat' (first
        | (simp; done) | split | rw [State.foldl_core] | rw [foldl_fst_core] | rw [foldl_snd_core]
        | dsimp only | simp | rw [State.onSec_core] | rw [State.onSys_core] | with_reducible rfl | intro _))

@[simp ↓] theorem State.sendHold_core (b reason : Nat) (s : State) : (State.sendHold b reason s).core = s.core := by
  unfold State.sendHold
  first
    | (simp; done)
    | (repeat' (first
        | (simp; done) | split | rw [State.foldl_core] | rw [foldl_fst_core] | rw [foldl_snd_core]
        | dsimp only | simp | rw [State.onSec_core] | rw [State.onSys_core] | with_reducible rfl | intro _))

@[simp ↓] theorem State.endPulse_core (b : Nat) (s : State) : (State.endPulse b s).core = s.core := by
  unfold State.endPulse
  first
    | (simp; done)
    | (repeat' (first
        | (simp; done) | split | rw [State.foldl_core] | rw [foldl_fst_core] | rw [foldl_snd_core]
        | dsimp only | simp | rw [State.onSec_core] | rw [State.onSys_core] | with_reducible rfl | intro _))

@[simp ↓] theorem State.dropLineTest_core (b : Nat) (s : State) : (State.dropLineTest b s).core = s.core := by
  unfold State.dropLineTest
  first
    | (simp; done)
    | (repeat' (first
        | (simp; done) | split | rw [State.foldl_core] | rw [foldl_fst_core] | rw [foldl_snd_core]
        | dsimp only | simp | rw [State.onSec_core] | rw [State.onSys_core] | with_reducible rfl | intro _))

@[simp ↓] theorem State.barDisarm_core (b reason : Nat) (s : State) : (State.barDisarm b reason s).core = s.core := by
  unfold State.barDisarm
  first
    | (simp; done)
    | (repeat' (first
        | (simp; done) | split | rw [State.foldl_core] | rw [foldl_fst_core] | rw [foldl_snd_core]
        | dsimp only | simp | rw [State.onSec_core] | rw [State.onSys_core] | with_reducible rfl | intro _))

/-! ### DramServe -/

@[simp ↓] theorem State.noteScan_core (n ns : Nat) (s : State) : (State.noteScan n ns s).core = s.core := by
  unfold State.noteScan
  first
    | (simp; done)
    | (repeat' (first
        | (simp; done) | split | rw [State.foldl_core] | rw [foldl_fst_core] | rw [foldl_snd_core]
        | dsimp only | simp | rw [State.onSec_core] | rw [State.onSys_core] | with_reducible rfl | intro _))

@[simp ↓] theorem State.serveDue_core (at_ : Nat) (s : State) (n : Nat) : (State.serveDue at_ s n).core = s.core := by
  unfold State.serveDue
  first
    | (simp; done)
    | (repeat' (first
        | (simp; done) | split | rw [State.foldl_core] | rw [foldl_fst_core] | rw [foldl_snd_core]
        | dsimp only | simp | rw [State.onSec_core] | rw [State.onSys_core] | with_reducible rfl | intro _))

@[simp ↓] theorem State.refresh_core (n k at_ : Nat) (s : State) : (State.refresh n k at_ s).core = s.core := by
  unfold State.refresh
  first
    | (simp; done)
    | (repeat' (first
        | (simp; done) | split | rw [State.foldl_core] | rw [foldl_fst_core] | rw [foldl_snd_core]
        | dsimp only | simp | rw [State.onSec_core] | rw [State.onSys_core] | with_reducible rfl | intro _))

@[simp ↓] theorem State.payRefresh_core (at_ : Nat) (s : State) (n : Nat) : (State.payRefresh at_ s n).core = s.core := by
  unfold State.payRefresh
  first
    | (simp; done)
    | (repeat' (first
        | (simp; done) | split | rw [State.foldl_core] | rw [foldl_fst_core] | rw [foldl_snd_core]
        | dsimp only | simp | rw [State.onSec_core] | rw [State.onSys_core] | with_reducible rfl | intro _))

@[simp ↓] theorem State.payAll_core (at_ : Nat) (s : State) : (State.payAll at_ s).core = s.core := by
  unfold State.payAll
  first
    | (simp; done)
    | (repeat' (first
        | (simp; done) | split | rw [State.foldl_core] | rw [foldl_fst_core] | rw [foldl_snd_core]
        | dsimp only | simp | rw [State.onSec_core] | rw [State.onSys_core] | with_reducible rfl | intro _))

@[simp ↓] theorem State.dramSteps_core (n t : Nat) (s : State) : (State.dramSteps n t s).core = s.core := by
  induction n generalizing s with
  | zero => rfl
  | succ n ih =>
    unfold State.dramSteps
    split
    · rfl
    · split
      · rfl
      · simp [ih]

@[simp ↓] theorem State.enterSelfRefresh_core (s : State) : (State.enterSelfRefresh s).core = s.core := by
  unfold State.enterSelfRefresh
  first
    | (simp; done)
    | (repeat' (first
        | (simp; done) | split | rw [State.foldl_core] | rw [foldl_fst_core] | rw [foldl_snd_core]
        | dsimp only | simp | rw [State.onSec_core] | rw [State.onSys_core] | with_reducible rfl | intro _))

@[simp ↓] theorem State.dramElapse_core (dt : Nat) (s : State) : (State.dramElapse dt s).core = s.core := by
  unfold State.dramElapse
  first
    | (simp; done)
    | (repeat' (first
        | (simp; done) | split | rw [State.foldl_core] | rw [foldl_fst_core] | rw [foldl_snd_core]
        | dsimp only | simp | rw [State.onSec_core] | rw [State.onSys_core] | with_reducible rfl | intro _))

/-! ### React -/

@[simp ↓] theorem State.wakeCore_core (agent : Nat) (s : State) : (State.wakeCore agent s).core = s.core := by
  unfold State.wakeCore
  first
    | (simp; done)
    | (repeat' (first
        | (simp; done) | split | rw [State.foldl_core] | rw [foldl_fst_core] | rw [foldl_snd_core]
        | dsimp only | simp | rw [State.onSec_core] | rw [State.onSys_core] | with_reducible rfl | intro _))

@[simp ↓] theorem State.tellSender_core (sender : Nat) (aborted : Bool) (s : State) : (State.tellSender sender aborted s).core = s.core := by
  unfold State.tellSender
  first
    | (simp; done)
    | (repeat' (first
        | (simp; done) | split | rw [State.foldl_core] | rw [foldl_fst_core] | rw [foldl_snd_core]
        | dsimp only | simp | rw [State.onSec_core] | rw [State.onSys_core] | with_reducible rfl | intro _))

@[simp ↓] theorem State.onBox_core (m : Nat) (f : Mailbox → Mailbox) (s : State) : (State.onBox m f s).core = s.core := by
  unfold State.onBox
  first
    | (simp; done)
    | (repeat' (first
        | (simp; done) | split | rw [State.foldl_core] | rw [foldl_fst_core] | rw [foldl_snd_core]
        | dsimp only | simp | rw [State.onSec_core] | rw [State.onSys_core] | with_reducible rfl | intro _))

@[simp ↓] theorem State.abortBox_core (raise : Nat → Nat → State → State) (agent m : Nat) (s : State) (h_raise : ∀ a0 a1 t, (raise a0 a1 t).core = t.core) : (State.abortBox raise agent m s).core = s.core := by
  unfold State.abortBox
  first
    | (simp [*]; done)
    | (repeat' (first
        | (simp [*]; done) | split | rw [State.foldl_core] | rw [foldl_fst_core] | rw [foldl_snd_core]
        | dsimp only | simp [*] | rw [State.onSec_core] | rw [State.onSys_core] | with_reducible rfl | intro _))

@[simp ↓] theorem State.orphanBox_core (raise : Nat → Nat → State → State) (agent m : Nat) (s : State) (h_raise : ∀ a0 a1 t, (raise a0 a1 t).core = t.core) : (State.orphanBox raise agent m s).core = s.core := by
  unfold State.orphanBox
  first
    | (simp [*]; done)
    | (repeat' (first
        | (simp [*]; done) | split | rw [State.foldl_core] | rw [foldl_fst_core] | rw [foldl_snd_core]
        | dsimp only | simp [*] | rw [State.onSec_core] | rw [State.onSys_core] | with_reducible rfl | intro _))

@[simp ↓] theorem State.freeStile_core (agent n : Nat) (s : State) : (State.freeStile agent n s).core = s.core := by
  unfold State.freeStile
  first
    | (simp; done)
    | (repeat' (first
        | (simp; done) | split | rw [State.foldl_core] | rw [foldl_fst_core] | rw [foldl_snd_core]
        | dsimp only | simp | rw [State.onSec_core] | rw [State.onSys_core] | with_reducible rfl | intro _))

@[simp ↓] theorem State.agentReset_core (raise : Nat → Nat → State → State) (agent : Nat) (s : State) (h_raise : ∀ a0 a1 t, (raise a0 a1 t).core = t.core) : (State.agentReset raise agent s).core = s.core := by
  unfold State.agentReset
  first
    | (simp [*]; done)
    | (repeat' (first
        | (simp [*]; done) | split | rw [State.foldl_core] | rw [foldl_fst_core] | rw [foldl_snd_core]
        | dsimp only | simp [*] | rw [State.onSec_core] | rw [State.onSys_core] | with_reducible rfl | intro _))

@[simp ↓] theorem State.coreReset_core (raise : Nat → Nat → State → State) (core cause : Nat) (run : Bool) (s : State) (h_raise : ∀ a0 a1 t, (raise a0 a1 t).core = t.core) : (State.coreReset raise core cause run s).core = s.core := by
  unfold State.coreReset
  first
    | (simp [*]; done)
    | (repeat' (first
        | (simp [*]; done) | split | rw [State.foldl_core] | rw [foldl_fst_core] | rw [foldl_snd_core]
        | dsimp only | simp [*] | rw [State.onSec_core] | rw [State.onSys_core] | with_reducible rfl | intro _))

@[simp ↓] theorem State.clearRegs_core (lo hi : Nat) (s : State) : (State.clearRegs lo hi s).core = s.core := by
  unfold State.clearRegs
  first
    | (simp; done)
    | (repeat' (first
        | (simp; done) | split | rw [State.foldl_core] | rw [foldl_fst_core] | rw [foldl_snd_core]
        | dsimp only | simp | rw [State.onSec_core] | rw [State.onSys_core] | with_reducible rfl | intro _))

@[simp ↓] theorem State.failJet_core (s : State) : (State.failJet s).core = s.core := by
  unfold State.failJet
  first
    | (simp; done)
    | (repeat' (first
        | (simp; done) | split | rw [State.foldl_core] | rw [foldl_fst_core] | rw [foldl_snd_core]
        | dsimp only | simp | rw [State.onSec_core] | rw [State.onSys_core] | with_reducible rfl | intro _))

@[simp ↓] theorem State.idleLines_core (s : State) : (State.idleLines s).core = s.core := by
  unfold State.idleLines
  first
    | (simp; done)
    | (repeat' (first
        | (simp; done) | split | rw [State.foldl_core] | rw [foldl_fst_core] | rw [foldl_snd_core]
        | dsimp only | simp | rw [State.onSec_core] | rw [State.onSys_core] | with_reducible rfl | intro _))

@[simp ↓] theorem State.loseDomain_core (raise : Nat → Nat → State → State) (d : Nat) (s : State) (h_raise : ∀ a0 a1 t, (raise a0 a1 t).core = t.core) : (State.loseDomain raise d s).core = s.core := by
  unfold State.loseDomain
  first
    | (simp [*]; done)
    | (repeat' (first
        | (simp [*]; done) | split | rw [State.foldl_core] | rw [foldl_fst_core] | rw [foldl_snd_core]
        | dsimp only | simp [*] | rw [State.onSec_core] | rw [State.onSys_core] | with_reducible rfl | intro _))

@[simp ↓] theorem State.setDomain_core (raise : Nat → Nat → State → State) (d : Nat) (p : PState) (s : State) (h_raise : ∀ a0 a1 t, (raise a0 a1 t).core = t.core) : (State.setDomain raise d p s).core = s.core := by
  unfold State.setDomain
  first
    | (simp [*]; done)
    | (repeat' (first
        | (simp [*]; done) | split | rw [State.foldl_core] | rw [foldl_fst_core] | rw [foldl_snd_core]
        | dsimp only | simp [*] | rw [State.onSec_core] | rw [State.onSys_core] | with_reducible rfl | intro _))

@[simp ↓] theorem State.powerDown_core (raise : Nat → Nat → State → State) (s : State) (h_raise : ∀ a0 a1 t, (raise a0 a1 t).core = t.core) : (State.powerDown raise s).core = s.core := by
  unfold State.powerDown
  first
    | (simp [*]; done)
    | (repeat' (first
        | (simp [*]; done) | split | rw [State.foldl_core] | rw [foldl_fst_core] | rw [foldl_snd_core]
        | dsimp only | simp [*] | rw [State.onSec_core] | rw [State.onSys_core] | with_reducible rfl | intro _))

@[simp ↓] theorem State.crookBar_core (b : Nat) (s : State) : (State.crookBar b s).core = s.core := by
  unfold State.crookBar
  first
    | (simp; done)
    | (repeat' (first
        | (simp; done) | split | rw [State.foldl_core] | rw [foldl_fst_core] | rw [foldl_snd_core]
        | dsimp only | simp | rw [State.onSec_core] | rw [State.onSys_core] | with_reducible rfl | intro _))

@[simp ↓] theorem State.crookEnter_core (cause : Nat) (s : State) : (State.crookEnter cause s).core = s.core := by
  unfold State.crookEnter
  first
    | (simp; done)
    | (repeat' (first
        | (simp; done) | split | rw [State.foldl_core] | rw [foldl_fst_core] | rw [foldl_snd_core]
        | dsimp only | simp | rw [State.onSec_core] | rw [State.onSys_core] | with_reducible rfl | intro _))

@[simp ↓] theorem State.crookOff_core (raise : Nat → Nat → State → State) (cause : Nat) (s : State) (h_raise : ∀ a0 a1 t, (raise a0 a1 t).core = t.core) : (State.crookOff raise cause s).core = s.core := by
  unfold State.crookOff
  first
    | (simp [*]; done)
    | (repeat' (first
        | (simp [*]; done) | split | rw [State.foldl_core] | rw [foldl_fst_core] | rw [foldl_snd_core]
        | dsimp only | simp [*] | rw [State.onSec_core] | rw [State.onSys_core] | with_reducible rfl | intro _))

@[simp ↓] theorem State.holdBar_core (src b : Nat) (origin : Origin) (s : State) : (State.holdBar src b origin s).core = s.core := by
  unfold State.holdBar
  first
    | (simp; done)
    | (repeat' (first
        | (simp; done) | split | rw [State.foldl_core] | rw [foldl_fst_core] | rw [foldl_snd_core]
        | dsimp only | simp | rw [State.onSec_core] | rw [State.onSys_core] | with_reducible rfl | intro _))

@[simp ↓] theorem State.startTest_core (src bars target : Nat) (injected : Bool) (s : State) : (State.startTest src bars target injected s).core = s.core := by
  unfold State.startTest
  first
    | (simp; done)
    | (repeat' (first
        | (simp; done) | split | rw [State.foldl_core] | rw [foldl_fst_core] | rw [foldl_snd_core]
        | dsimp only | simp | rw [State.onSec_core] | rw [State.onSys_core] | with_reducible rfl | intro _))

@[simp ↓] theorem State.judge_core (off : Nat → State → State) (src bars target sev : Nat) (origin : Origin) (s : State) (h_off : ∀ a0 t, (off a0 t).core = t.core) : (State.judge off src bars target sev origin s).core = s.core := by
  unfold State.judge
  first
    | (simp [*]; done)
    | (repeat' (first
        | (simp [*]; done) | split | rw [State.foldl_core] | rw [foldl_fst_core] | rw [foldl_snd_core]
        | dsimp only | simp [*] | rw [State.onSec_core] | rw [State.onSys_core] | with_reducible rfl | intro _))

@[simp ↓] theorem State.fault0_core (src bars : Nat) (s : State) : (State.fault0 src bars s).core = s.core := by
  unfold State.fault0
  first
    | (simp; done)
    | (repeat' (first
        | (simp; done) | split | rw [State.foldl_core] | rw [foldl_fst_core] | rw [foldl_snd_core]
        | dsimp only | simp | rw [State.onSec_core] | rw [State.onSys_core] | with_reducible rfl | intro _))

@[simp ↓] theorem State.fault1_core (src bars : Nat) (s : State) : (State.fault1 src bars s).core = s.core := by
  unfold State.fault1
  first
    | (simp; done)
    | (repeat' (first
        | (simp; done) | split | rw [State.foldl_core] | rw [foldl_fst_core] | rw [foldl_snd_core]
        | dsimp only | simp | rw [State.onSec_core] | rw [State.onSys_core] | with_reducible rfl | intro _))

@[simp ↓] theorem State.faultAs_core (src bars target sev : Nat) (origin : Origin) (s : State) : (State.faultAs src bars target sev origin s).core = s.core := by
  unfold State.faultAs
  first
    | (simp; done)
    | (repeat' (first
        | (simp; done) | split | rw [State.foldl_core] | rw [foldl_fst_core] | rw [foldl_snd_core]
        | dsimp only | simp | rw [State.onSec_core] | rw [State.onSys_core] | with_reducible rfl | intro _))

@[simp ↓] theorem State.faultAt_core (src bars target : Nat) (s : State) : (State.faultAt src bars target s).core = s.core := by
  unfold State.faultAt
  first
    | (simp; done)
    | (repeat' (first
        | (simp; done) | split | rw [State.foldl_core] | rw [foldl_fst_core] | rw [foldl_snd_core]
        | dsimp only | simp | rw [State.onSec_core] | rw [State.onSys_core] | with_reducible rfl | intro _))

@[simp ↓] theorem State.faultBar_core (src b : Nat) (s : State) : (State.faultBar src b s).core = s.core := by
  unfold State.faultBar
  first
    | (simp; done)
    | (repeat' (first
        | (simp; done) | split | rw [State.foldl_core] | rw [foldl_fst_core] | rw [foldl_snd_core]
        | dsimp only | simp | rw [State.onSec_core] | rw [State.onSys_core] | with_reducible rfl | intro _))

@[simp ↓] theorem State.faultFor_core (src bars : Nat) (s : State) : (State.faultFor src bars s).core = s.core := by
  unfold State.faultFor
  first
    | (simp; done)
    | (repeat' (first
        | (simp; done) | split | rw [State.foldl_core] | rw [foldl_fst_core] | rw [foldl_snd_core]
        | dsimp only | simp | rw [State.onSec_core] | rw [State.onSys_core] | with_reducible rfl | intro _))

@[simp ↓] theorem State.fault_core (src : Nat) (s : State) : (State.fault src s).core = s.core := by
  unfold State.fault
  first
    | (simp; done)
    | (repeat' (first
        | (simp; done) | split | rw [State.foldl_core] | rw [foldl_fst_core] | rw [foldl_snd_core]
        | dsimp only | simp | rw [State.onSec_core] | rw [State.onSys_core] | with_reducible rfl | intro _))

end Sys2Proof.Machine
end

