-- ==== Sys2Proof/Laws/Core4.lean ====
section
/-! SUPPORT. The shared operations of Time, ReplayOps, Tables, Ceiling, JobOps leave the core of the state as it is. -/

set_option Elab.async false

namespace Sys2Proof.Machine

/-! ### Time -/

@[simp ↓] theorem State.giveDot_core (b : Nat) (p : DotPkt) (s : State) : (State.giveDot b p s).core = s.core := by
  unfold State.giveDot
  first
    | (simp; done)
    | (repeat' (first
        | (simp; done) | split | rw [State.foldl_core] | rw [foldl_fst_core] | rw [foldl_snd_core]
        | dsimp only | simp | rw [State.onSec_core] | rw [State.onSys_core] | with_reducible rfl | intro _))

@[simp ↓] theorem State.refillDots_core (b : Nat) (s : State) : (State.refillDots b s).core = s.core := by
  unfold State.refillDots
  first
    | (simp; done)
    | (repeat' (first
        | (simp; done) | split | rw [State.foldl_core] | rw [foldl_fst_core] | rw [foldl_snd_core]
        | dsimp only | simp | rw [State.onSec_core] | rw [State.onSys_core] | with_reducible rfl | intro _))

@[simp ↓] theorem State.settleSleeps_core (s : State) : (State.settleSleeps s).core = s.core := by
  unfold State.settleSleeps
  first
    | (simp; done)
    | (repeat' (first
        | (simp; done) | split | rw [State.foldl_core] | rw [foldl_fst_core] | rw [foldl_snd_core]
        | dsimp only | simp | rw [State.onSec_core] | rw [State.onSys_core] | with_reducible rfl | intro _))

@[simp ↓] theorem State.sleepGone_core (b at_ : Nat) (s : State) : (State.sleepGone b at_ s).core = s.core := by
  unfold State.sleepGone
  first
    | (simp; done)
    | (repeat' (first
        | (simp; done) | split | rw [State.foldl_core] | rw [foldl_fst_core] | rw [foldl_snd_core]
        | dsimp only | simp | rw [State.onSec_core] | rw [State.onSys_core] | with_reducible rfl | intro _))

@[simp ↓] theorem State.noteFar_core (b : Nat) (s : State) : (State.noteFar b s).core = s.core := by
  unfold State.noteFar
  first
    | (simp; done)
    | (repeat' (first
        | (simp; done) | split | rw [State.foldl_core] | rw [foldl_fst_core] | rw [foldl_snd_core]
        | dsimp only | simp | rw [State.onSec_core] | rw [State.onSys_core] | with_reducible rfl | intro _))

@[simp ↓] theorem State.inserted_core (at_ n : Nat) (p : List Byte) (s : State) : (State.inserted at_ n p s).core = s.core := by
  unfold State.inserted
  first
    | (simp; done)
    | (repeat' (first
        | (simp; done) | split | rw [State.foldl_core] | rw [foldl_fst_core] | rw [foldl_snd_core]
        | dsimp only | simp | rw [State.onSec_core] | rw [State.onSys_core] | with_reducible rfl | intro _))

@[simp ↓] theorem State.slotsAt_core (at_ : Nat) (s : State) : (State.slotsAt at_ s).core = s.core := by
  unfold State.slotsAt
  first
    | (simp; done)
    | (repeat' (first
        | (simp; done) | split | rw [State.foldl_core] | rw [foldl_fst_core] | rw [foldl_snd_core]
        | dsimp only | simp | rw [State.onSec_core] | rw [State.onSys_core] | with_reducible rfl | intro _))

@[simp ↓] theorem State.linkSteps_core (n t : Nat) (s : State) : (State.linkSteps n t s).2.core = s.core := by
  induction n generalizing s t with
  | zero => rfl
  | succ n ih =>
    unfold State.linkSteps
    split
    · simp [ih]
    · rfl

@[simp ↓] theorem State.streamTo_core (t u n : Nat) (s : State) : (State.streamTo t u n s).core = s.core := by
  unfold State.streamTo
  first
    | (simp; done)
    | (repeat' (first
        | (simp; done) | split | rw [State.foldl_core] | rw [foldl_fst_core] | rw [foldl_snd_core]
        | dsimp only | simp | rw [State.onSec_core] | rw [State.onSys_core] | with_reducible rfl | intro _))

@[simp ↓] theorem State.linkElapse_core (dt : Nat) (s : State) : (State.linkElapse dt s).core = s.core := by
  unfold State.linkElapse
  first
    | (simp; done)
    | (repeat' (first
        | (simp; done) | split | rw [State.foldl_core] | rw [foldl_fst_core] | rw [foldl_snd_core]
        | dsimp only | simp | rw [State.onSec_core] | rw [State.onSys_core] | with_reducible rfl | intro _))

@[simp ↓] theorem State.testPulse_core (b : Nat) (lineB : Bool) (s : State) : (State.testPulse b lineB s).core = s.core := by
  unfold State.testPulse
  first
    | (simp; done)
    | (repeat' (first
        | (simp; done) | split | rw [State.foldl_core] | rw [foldl_fst_core] | rw [foldl_snd_core]
        | dsimp only | simp | rw [State.onSec_core] | rw [State.onSys_core] | with_reducible rfl | intro _))

@[simp ↓] theorem State.testElapse_core (t b : Nat) (s : State) : (State.testElapse t b s).core = s.core := by
  unfold State.testElapse
  first
    | (simp; done)
    | (repeat' (first
        | (simp; done) | split | rw [State.foldl_core] | rw [foldl_fst_core] | rw [foldl_snd_core]
        | dsimp only | simp | rw [State.onSec_core] | rw [State.onSys_core] | with_reducible rfl | intro _))

@[simp ↓] theorem State.replayElapse_core (dt : Nat) (s : State) : (State.replayElapse dt s).core = s.core := by
  unfold State.replayElapse
  first
    | (simp; done)
    | (repeat' (first
        | (simp; done) | split | rw [State.foldl_core] | rw [foldl_fst_core] | rw [foldl_snd_core]
        | dsimp only | simp | rw [State.onSec_core] | rw [State.onSys_core] | with_reducible rfl | intro _))

@[simp ↓] theorem State.wrapEvents_core (n : Nat) (s : State) : (State.wrapEvents n s).core = s.core := by
  unfold State.wrapEvents
  first
    | (simp; done)
    | (repeat' (first
        | (simp; done) | split | rw [State.foldl_core] | rw [foldl_fst_core] | rw [foldl_snd_core]
        | dsimp only | simp | rw [State.onSec_core] | rw [State.onSys_core] | with_reducible rfl | intro _))

@[simp ↓] theorem State.pass_core (dt : Nat) (s : State) : (State.pass dt s).core = s.core := by
  unfold State.pass
  first
    | (simp; done)
    | (repeat' (first
        | (simp; done) | split | rw [State.foldl_core] | rw [foldl_fst_core] | rw [foldl_snd_core]
        | dsimp only | simp | rw [State.onSec_core] | rw [State.onSys_core] | with_reducible rfl | intro _))

@[simp ↓] theorem State.turnTick_core (s : State) : (State.turnTick s).core = s.core := by
  unfold State.turnTick
  first
    | (simp; done)
    | (repeat' (first
        | (simp; done) | split | rw [State.foldl_core] | rw [foldl_fst_core] | rw [foldl_snd_core]
        | dsimp only | simp | rw [State.onSec_core] | rw [State.onSys_core] | with_reducible rfl | intro _))

@[simp ↓] theorem State.elapse_core (dt : Nat) (s : State) : (State.elapse dt s).core = s.core := by
  unfold State.elapse
  first
    | (simp; done)
    | (repeat' (first
        | (simp; done) | split | rw [State.foldl_core] | rw [foldl_fst_core] | rw [foldl_snd_core]
        | dsimp only | simp | rw [State.onSec_core] | rw [State.onSys_core] | with_reducible rfl | intro _))

/-! ### ReplayOps -/

@[simp ↓] theorem State.freeRings_core (b : Nat) (s : State) : (State.freeRings b s).core = s.core := by
  unfold State.freeRings
  first
    | (simp; done)
    | (repeat' (first
        | (simp; done) | split | rw [State.foldl_core] | rw [foldl_fst_core] | rw [foldl_snd_core]
        | dsimp only | simp | rw [State.onSec_core] | rw [State.onSys_core] | with_reducible rfl | intro _))

@[simp ↓] theorem State.unopenJob_core (s : State) : (State.unopenJob s).core = s.core := by
  unfold State.unopenJob
  first
    | (simp; done)
    | (repeat' (first
        | (simp; done) | split | rw [State.foldl_core] | rw [foldl_fst_core] | rw [foldl_snd_core]
        | dsimp only | simp | rw [State.onSec_core] | rw [State.onSys_core] | with_reducible rfl | intro _))

@[simp ↓] theorem State.dropJob_core (s : State) : (State.dropJob s).core = s.core := by
  unfold State.dropJob
  first
    | (simp; done)
    | (repeat' (first
        | (simp; done) | split | rw [State.foldl_core] | rw [foldl_fst_core] | rw [foldl_snd_core]
        | dsimp only | simp | rw [State.onSec_core] | rw [State.onSys_core] | with_reducible rfl | intro _))

@[simp ↓] theorem State.unqueue_core (bars : Nat → Bool) (p : List Byte) (s : State) : (State.unqueue bars p s).core = s.core := by
  unfold State.unqueue
  first
    | (simp; done)
    | (repeat' (first
        | (simp; done) | split | rw [State.foldl_core] | rw [foldl_fst_core] | rw [foldl_snd_core]
        | dsimp only | simp | rw [State.onSec_core] | rw [State.onSys_core] | with_reducible rfl | intro _))

@[simp ↓] theorem State.unsleep_core (x : SleepReq) (s : State) : (State.unsleep x s).core = s.core := by
  unfold State.unsleep
  first
    | (simp; done)
    | (repeat' (first
        | (simp; done) | split | rw [State.foldl_core] | rw [foldl_fst_core] | rw [foldl_snd_core]
        | dsimp only | simp | rw [State.onSec_core] | rw [State.onSys_core] | with_reducible rfl | intro _))

@[simp ↓] theorem State.onCalPort_core (p : Nat) (f : CalPort → CalPort) (s : State) : (State.onCalPort p f s).core = s.core := by
  unfold State.onCalPort
  first
    | (simp; done)
    | (repeat' (first
        | (simp; done) | split | rw [State.foldl_core] | rw [foldl_fst_core] | rw [foldl_snd_core]
        | dsimp only | simp | rw [State.onSec_core] | rw [State.onSys_core] | with_reducible rfl | intro _))

@[simp ↓] theorem State.unrun_core (d : Desc) (p : Nat) (s : State) : (State.unrun d p s).core = s.core := by
  unfold State.unrun
  first
    | (simp; done)
    | (repeat' (first
        | (simp; done) | split | rw [State.foldl_core] | rw [foldl_fst_core] | rw [foldl_snd_core]
        | dsimp only | simp | rw [State.onSec_core] | rw [State.onSys_core] | with_reducible rfl | intro _))

@[simp ↓] theorem State.withdraw_core (d : Desc) (s : State) : (State.withdraw d s).core = s.core := by
  unfold State.withdraw
  first
    | (simp; done)
    | (repeat' (first
        | (simp; done) | split | rw [State.foldl_core] | rw [foldl_fst_core] | rw [foldl_snd_core]
        | dsimp only | simp | rw [State.onSec_core] | rw [State.onSys_core] | with_reducible rfl | intro _))

@[simp ↓] theorem State.replayEnd_core (s : State) : (State.replayEnd s).core = s.core := by
  unfold State.replayEnd
  first
    | (simp; done)
    | (repeat' (first
        | (simp; done) | split | rw [State.foldl_core] | rw [foldl_fst_core] | rw [foldl_snd_core]
        | dsimp only | simp | rw [State.onSec_core] | rw [State.onSys_core] | with_reducible rfl | intro _))

@[simp ↓] theorem State.diverge_core (v : Diverge) (s : State) : (State.diverge v s).core = s.core := by
  unfold State.diverge
  first
    | (simp; done)
    | (repeat' (first
        | (simp; done) | split | rw [State.foldl_core] | rw [foldl_fst_core] | rw [foldl_snd_core]
        | dsimp only | simp | rw [State.onSec_core] | rw [State.onSys_core] | with_reducible rfl | intro _))

@[simp ↓] theorem State.observe_core (kind sub : Nat) (payload : List Byte) (s : State) : (State.observe kind sub payload s).core = s.core := by
  unfold State.observe
  first
    | (simp; done)
    | (repeat' (first
        | (simp; done) | split | rw [State.foldl_core] | rw [foldl_fst_core] | rw [foldl_snd_core]
        | dsimp only | simp | rw [State.onSec_core] | rw [State.onSys_core] | with_reducible rfl | intro _))

/-! ### Tables -/

@[simp ↓] theorem State.onSlot_core (typ index sub : Nat) (f : TSlot → TSlot) (s : State) : (State.onSlot typ index sub f s).core = s.core := by
  unfold State.onSlot
  first
    | (simp; done)
    | (repeat' (first
        | (simp; done) | split | rw [State.foldl_core] | rw [foldl_fst_core] | rw [foldl_snd_core]
        | dsimp only | simp | rw [State.onSec_core] | rw [State.onSys_core] | with_reducible rfl | intro _))

/-! ### Ceiling -/

@[simp ↓] theorem State.ceilCause_core (s : State) : (State.ceilCause s).core = s.core := by
  unfold State.ceilCause
  first
    | (simp; done)
    | (repeat' (first
        | (simp; done) | split | rw [State.foldl_core] | rw [foldl_fst_core] | rw [foldl_snd_core]
        | dsimp only | simp | rw [State.onSec_core] | rw [State.onSys_core] | with_reducible rfl | intro _))

@[simp ↓] theorem State.judgeCeilLow_core (s : State) : (State.judgeCeilLow s).core = s.core := by
  unfold State.judgeCeilLow
  first
    | (simp; done)
    | (repeat' (first
        | (simp; done) | split | rw [State.foldl_core] | rw [foldl_fst_core] | rw [foldl_snd_core]
        | dsimp only | simp | rw [State.onSec_core] | rw [State.onSys_core] | with_reducible rfl | intro _))

@[simp ↓] theorem State.recomputeCeiling_core (s : State) : (State.recomputeCeiling s).core = s.core := by
  unfold State.recomputeCeiling
  first
    | (simp; done)
    | (repeat' (first
        | (simp; done) | split | rw [State.foldl_core] | rw [foldl_fst_core] | rw [foldl_snd_core]
        | dsimp only | simp | rw [State.onSec_core] | rw [State.onSys_core] | with_reducible rfl | intro _))

@[simp ↓] theorem State.judgeOver_core (s : State) (b : Nat) : (State.judgeOver s b).core = s.core := by
  unfold State.judgeOver
  first
    | (simp; done)
    | (repeat' (first
        | (simp; done) | split | rw [State.foldl_core] | rw [foldl_fst_core] | rw [foldl_snd_core]
        | dsimp only | simp | rw [State.onSec_core] | rw [State.onSys_core] | with_reducible rfl | intro _))

@[simp ↓] theorem State.judgeBars_core (s : State) : (State.judgeBars s).core = s.core := by
  unfold State.judgeBars
  first
    | (simp; done)
    | (repeat' (first
        | (simp; done) | split | rw [State.foldl_core] | rw [foldl_fst_core] | rw [foldl_snd_core]
        | dsimp only | simp | rw [State.onSec_core] | rw [State.onSys_core] | with_reducible rfl | intro _))

@[simp ↓] theorem State.limitsChanged_core (s : State) : (State.limitsChanged s).core = s.core := by
  unfold State.limitsChanged
  first
    | (simp; done)
    | (repeat' (first
        | (simp; done) | split | rw [State.foldl_core] | rw [foldl_fst_core] | rw [foldl_snd_core]
        | dsimp only | simp | rw [State.onSec_core] | rw [State.onSys_core] | with_reducible rfl | intro _))

/-! ### JobOps -/

@[simp ↓] theorem State.leadBack_core (s : State) : (State.leadBack s).core = s.core := by
  unfold State.leadBack
  first
    | (simp; done)
    | (repeat' (first
        | (simp; done) | split | rw [State.foldl_core] | rw [foldl_fst_core] | rw [foldl_snd_core]
        | dsimp only | simp | rw [State.onSec_core] | rw [State.onSys_core] | with_reducible rfl | intro _))

@[simp ↓] theorem State.leadJudge_core (s : State) : (State.leadJudge s).core = s.core := by
  unfold State.leadJudge
  first
    | (simp; done)
    | (repeat' (first
        | (simp; done) | split | rw [State.foldl_core] | rw [foldl_fst_core] | rw [foldl_snd_core]
        | dsimp only | simp | rw [State.onSec_core] | rw [State.onSys_core] | with_reducible rfl | intro _))

@[simp ↓] theorem State.rejectNow_core (s : State) : (State.rejectNow s).core = s.core := by
  unfold State.rejectNow
  first
    | (simp; done)
    | (repeat' (first
        | (simp; done) | split | rw [State.foldl_core] | rw [foldl_fst_core] | rw [foldl_snd_core]
        | dsimp only | simp | rw [State.onSec_core] | rw [State.onSys_core] | with_reducible rfl | intro _))

@[simp ↓] theorem State.markImage_core (image : Nat) (s : State) : (State.markImage image s).core = s.core := by
  unfold State.markImage
  first
    | (simp; done)
    | (repeat' (first
        | (simp; done) | split | rw [State.foldl_core] | rw [foldl_fst_core] | rw [foldl_snd_core]
        | dsimp only | simp | rw [State.onSec_core] | rw [State.onSys_core] | with_reducible rfl | intro _))

@[simp ↓] theorem State.notReady_core (layer policy band image : Nat) (s : State) : (State.notReady layer policy band image s).core = s.core := by
  unfold State.notReady
  first
    | (simp; done)
    | (repeat' (first
        | (simp; done) | split | rw [State.foldl_core] | rw [foldl_fst_core] | rw [foldl_snd_core]
        | dsimp only | simp | rw [State.onSec_core] | rw [State.onSys_core] | with_reducible rfl | intro _))

@[simp ↓] theorem State.lypNotReady_core (s : State) : (State.lypNotReady s).core = s.core := by
  unfold State.lypNotReady
  first
    | (simp; done)
    | (repeat' (first
        | (simp; done) | split | rw [State.foldl_core] | rw [foldl_fst_core] | rw [foldl_snd_core]
        | dsimp only | simp | rw [State.onSec_core] | rw [State.onSys_core] | with_reducible rfl | intro _))

@[simp ↓] theorem State.judgeLayer_core (image : Nat) (r : State × Judged) (layer : Nat) : (State.judgeLayer image r layer).1.core = r.1.core := by
  unfold State.judgeLayer
  first
    | (simp; done)
    | (repeat' (first
        | (simp; done) | split | rw [State.foldl_core] | rw [foldl_fst_core] | rw [foldl_snd_core]
        | dsimp only | simp | rw [State.onSec_core] | rw [State.onSys_core] | with_reducible rfl | intro _))

@[simp ↓] theorem State.judgeImage_core (image : Nat) (s : State) : (State.judgeImage image s).core = s.core := by
  unfold State.judgeImage
  first
    | (simp; done)
    | (repeat' (first
        | (simp; done) | split | rw [State.foldl_core] | rw [foldl_fst_core] | rw [foldl_snd_core]
        | dsimp only | simp | rw [State.onSec_core] | rw [State.onSys_core] | with_reducible rfl | intro _))

@[simp ↓] theorem State.onContent_core (order : Nat) (f : Content → Content) (s : State) : (State.onContent order f s).core = s.core := by
  unfold State.onContent
  first
    | (simp; done)
    | (repeat' (first
        | (simp; done) | split | rw [State.foldl_core] | rw [foldl_fst_core] | rw [foldl_snd_core]
        | dsimp only | simp | rw [State.onSec_core] | rw [State.onSys_core] | with_reducible rfl | intro _))

@[simp ↓] theorem State.askPage_core (c : Content) (image band : Nat) (s : State) (i : Nat) : (State.askPage c image band s i).core = s.core := by
  unfold State.askPage
  first
    | (simp; done)
    | (repeat' (first
        | (simp; done) | split | rw [State.foldl_core] | rw [foldl_fst_core] | rw [foldl_snd_core]
        | dsimp only | simp | rw [State.onSec_core] | rw [State.onSys_core] | with_reducible rfl | intro _))

@[simp ↓] theorem State.askFor_core (image first n : Nat) (s : State) (c : Content) : (State.askFor image first n s c).core = s.core := by
  unfold State.askFor
  first
    | (simp; done)
    | (repeat' (first
        | (simp; done) | split | rw [State.foldl_core] | rw [foldl_fst_core] | rw [foldl_snd_core]
        | dsimp only | simp | rw [State.onSec_core] | rw [State.onSys_core] | with_reducible rfl | intro _))

@[simp ↓] theorem State.fetchNow_core (s : State) : (State.fetchNow s).core = s.core := by
  unfold State.fetchNow
  first
    | (simp; done)
    | (repeat' (first
        | (simp; done) | split | rw [State.foldl_core] | rw [foldl_fst_core] | rw [foldl_snd_core]
        | dsimp only | simp | rw [State.onSec_core] | rw [State.onSys_core] | with_reducible rfl | intro _))

@[simp ↓] theorem State.fetchNext_core (j : Job) (s : State) : (State.fetchNext j s).core = s.core := by
  unfold State.fetchNext
  first
    | (simp; done)
    | (repeat' (first
        | (simp; done) | split | rw [State.foldl_core] | rw [foldl_fst_core] | rw [foldl_snd_core]
        | dsimp only | simp | rw [State.onSec_core] | rw [State.onSys_core] | with_reducible rfl | intro _))

@[simp ↓] theorem State.fetchAhead_core (s : State) : (State.fetchAhead s).core = s.core := by
  unfold State.fetchAhead
  first
    | (simp; done)
    | (repeat' (first
        | (simp; done) | split | rw [State.foldl_core] | rw [foldl_fst_core] | rw [foldl_snd_core]
        | dsimp only | simp | rw [State.onSec_core] | rw [State.onSys_core] | with_reducible rfl | intro _))

@[simp ↓] theorem State.freeLanding_core (order : Nat) (s : State) : (State.freeLanding order s).core = s.core := by
  unfold State.freeLanding
  first
    | (simp; done)
    | (repeat' (first
        | (simp; done) | split | rw [State.foldl_core] | rw [foldl_fst_core] | rw [foldl_snd_core]
        | dsimp only | simp | rw [State.onSec_core] | rw [State.onSys_core] | with_reducible rfl | intro _))

@[simp ↓] theorem State.dropContent_core (c : Content) (s : State) : (State.dropContent c s).core = s.core := by
  unfold State.dropContent
  first
    | (simp; done)
    | (repeat' (first
        | (simp; done) | split | rw [State.foldl_core] | rw [foldl_fst_core] | rw [foldl_snd_core]
        | dsimp only | simp | rw [State.onSec_core] | rw [State.onSys_core] | with_reducible rfl | intro _))

@[simp ↓] theorem State.takeContent_core (layer : Nat) (c : Option Content) (s : State) : (State.takeContent layer c s).core = s.core := by
  unfold State.takeContent
  first
    | (simp; done)
    | (repeat' (first
        | (simp; done) | split | rw [State.foldl_core] | rw [foldl_fst_core] | rw [foldl_snd_core]
        | dsimp only | simp | rw [State.onSec_core] | rw [State.onSys_core] | with_reducible rfl | intro _))

@[simp ↓] theorem State.takeBinding_core (layer order : Nat) (s : State) : (State.takeBinding layer order s).core = s.core := by
  unfold State.takeBinding
  first
    | (simp; done)
    | (repeat' (first
        | (simp; done) | split | rw [State.foldl_core] | rw [foldl_fst_core] | rw [foldl_snd_core]
        | dsimp only | simp | rw [State.onSec_core] | rw [State.onSys_core] | with_reducible rfl | intro _))

@[simp ↓] theorem State.takeTables_core (k : Nat) (s : State) : (State.takeTables k s).core = s.core := by
  unfold State.takeTables
  first
    | (simp; done)
    | (repeat' (first
        | (simp; done) | split | rw [State.foldl_core] | rw [foldl_fst_core] | rw [foldl_snd_core]
        | dsimp only | simp | rw [State.onSec_core] | rw [State.onSys_core] | with_reducible rfl | intro _))

@[simp ↓] theorem State.startFill_core (image : Nat) (cells : List (Nat × Nat)) (s : State) : (State.startFill image cells s).core = s.core := by
  unfold State.startFill
  first
    | (simp; done)
    | (repeat' (first
        | (simp; done) | split | rw [State.foldl_core] | rw [foldl_fst_core] | rw [foldl_snd_core]
        | dsimp only | simp | rw [State.onSec_core] | rw [State.onSys_core] | with_reducible rfl | intro _))

@[simp ↓] theorem State.fillHold_core (image : Nat) (s : State) : (State.fillHold image s).core = s.core := by
  unfold State.fillHold
  first
    | (simp; done)
    | (repeat' (first
        | (simp; done) | split | rw [State.foldl_core] | rw [foldl_fst_core] | rw [foldl_snd_core]
        | dsimp only | simp | rw [State.onSec_core] | rw [State.onSys_core] | with_reducible rfl | intro _))

@[simp ↓] theorem State.lypSweep_core (s : State) : (State.lypSweep s).core = s.core := by
  unfold State.lypSweep
  first
    | (simp; done)
    | (repeat' (first
        | (simp; done) | split | rw [State.foldl_core] | rw [foldl_fst_core] | rw [foldl_snd_core]
        | dsimp only | simp | rw [State.onSec_core] | rw [State.onSys_core] | with_reducible rfl | intro _))

@[simp ↓] theorem State.lypEnd_core (image : Nat) (s : State) : (State.lypEnd image s).core = s.core := by
  unfold State.lypEnd
  first
    | (simp; done)
    | (repeat' (first
        | (simp; done) | split | rw [State.foldl_core] | rw [foldl_fst_core] | rw [foldl_snd_core]
        | dsimp only | simp | rw [State.onSec_core] | rw [State.onSys_core] | with_reducible rfl | intro _))

@[simp ↓] theorem State.lypPassOver_core (composed : Nat → Bool) (s : State) : (State.lypPassOver composed s).core = s.core := by
  unfold State.lypPassOver
  first
    | (simp; done)
    | (repeat' (first
        | (simp; done) | split | rw [State.foldl_core] | rw [foldl_fst_core] | rw [foldl_snd_core]
        | dsimp only | simp | rw [State.onSec_core] | rw [State.onSys_core] | with_reducible rfl | intro _))

@[simp ↓] theorem State.putCovRow_core (row : CovRow) (s : State) : (State.putCovRow row s).core = s.core := by
  unfold State.putCovRow
  first
    | (simp; done)
    | (repeat' (first
        | (simp; done) | split | rw [State.foldl_core] | rw [foldl_fst_core] | rw [foldl_snd_core]
        | dsimp only | simp | rw [State.onSec_core] | rw [State.onSys_core] | with_reducible rfl | intro _))

@[simp ↓] theorem State.flushCover_core (whole : Bool) (p : Nat) (s : State) : (State.flushCover whole p s).core = s.core := by
  unfold State.flushCover
  first
    | (simp; done)
    | (repeat' (first
        | (simp; done) | split | rw [State.foldl_core] | rw [foldl_fst_core] | rw [foldl_snd_core]
        | dsimp only | simp | rw [State.onSec_core] | rw [State.onSys_core] | with_reducible rfl | intro _))

@[simp ↓] theorem State.coverLine_core (p : Nat) (l : CovLine) (s : State) : (State.coverLine p l s).core = s.core := by
  unfold State.coverLine
  first
    | (simp; done)
    | (repeat' (first
        | (simp; done) | split | rw [State.foldl_core] | rw [foldl_fst_core] | rw [foldl_snd_core]
        | dsimp only | simp | rw [State.onSec_core] | rw [State.onSys_core] | with_reducible rfl | intro _))

@[simp ↓] theorem State.dropGraze_core (image : Nat) (s : State) : (State.dropGraze image s).core = s.core := by
  unfold State.dropGraze
  first
    | (simp; done)
    | (repeat' (first
        | (simp; done) | split | rw [State.foldl_core] | rw [foldl_fst_core] | rw [foldl_snd_core]
        | dsimp only | simp | rw [State.onSec_core] | rw [State.onSys_core] | with_reducible rfl | intro _))

@[simp ↓] theorem State.endRepeat_core (image : Nat) (s : State) : (State.endRepeat image s).core = s.core := by
  unfold State.endRepeat
  first
    | (simp; done)
    | (repeat' (first
        | (simp; done) | split | rw [State.foldl_core] | rw [foldl_fst_core] | rw [foldl_snd_core]
        | dsimp only | simp | rw [State.onSec_core] | rw [State.onSys_core] | with_reducible rfl | intro _))

@[simp ↓] theorem State.grazeTrigger_core (s : State) : (State.grazeTrigger s).core = s.core := by
  unfold State.grazeTrigger
  first
    | (simp; done)
    | (repeat' (first
        | (simp; done) | split | rw [State.foldl_core] | rw [foldl_fst_core] | rw [foldl_snd_core]
        | dsimp only | simp | rw [State.onSec_core] | rw [State.onSys_core] | with_reducible rfl | intro _))

@[simp ↓] theorem State.decideFree_core (order : Nat) (s : State) : (State.decideFree order s).core = s.core := by
  unfold State.decideFree
  first
    | (simp; done)
    | (repeat' (first
        | (simp; done) | split | rw [State.foldl_core] | rw [foldl_fst_core] | rw [foldl_snd_core]
        | dsimp only | simp | rw [State.onSec_core] | rw [State.onSys_core] | with_reducible rfl | intro _))

@[simp ↓] theorem State.settleLayer_core (layer : Nat) (s : State) : (State.settleLayer layer s).core = s.core := by
  unfold State.settleLayer
  first
    | (simp; done)
    | (repeat' (first
        | (simp; done) | split | rw [State.foldl_core] | rw [foldl_fst_core] | rw [foldl_snd_core]
        | dsimp only | simp | rw [State.onSec_core] | rw [State.onSys_core] | with_reducible rfl | intro _))

@[simp ↓] theorem State.settleTables_core (s : State) : (State.settleTables s).core = s.core := by
  unfold State.settleTables
  first
    | (simp; done)
    | (repeat' (first
        | (simp; done) | split | rw [State.foldl_core] | rw [foldl_fst_core] | rw [foldl_snd_core]
        | dsimp only | simp | rw [State.onSec_core] | rw [State.onSys_core] | with_reducible rfl | intro _))

end Sys2Proof.Machine
end

