-- ==== Sys2Proof/Laws/Core5.lean ====
section
/-! SUPPORT. The shared operations of MramOps, NozzleOps, FoldOps leave the core of the state as it is. -/

set_option Elab.async false

namespace Sys2Proof.Machine

/-! ### MramOps -/

@[simp ↓] theorem State.onRec_core (typ sel : Nat) (f : MRec → MRec) (s : State) : (State.onRec typ sel f s).core = s.core := by
  unfold State.onRec
  first
    | (simp; done)
    | (repeat' (first
        | (simp; done) | split | rw [State.foldl_core] | rw [foldl_fst_core] | rw [foldl_snd_core]
        | dsimp only | simp | rw [State.onSec_core] | rw [State.onSys_core] | with_reducible rfl | intro _))

@[simp ↓] theorem State.countEcc_core (corrected lost : Nat) (s : State) : (State.countEcc corrected lost s).core = s.core := by
  unfold State.countEcc
  first
    | (simp; done)
    | (repeat' (first
        | (simp; done) | split | rw [State.foldl_core] | rw [foldl_fst_core] | rw [foldl_snd_core]
        | dsimp only | simp | rw [State.onSec_core] | rw [State.onSys_core] | with_reducible rfl | intro _))

@[simp ↓] theorem State.readErrs_core (typ sel : Nat) (errs : List WordErr) (s : State) : (State.readErrs typ sel errs s).core = s.core := by
  unfold State.readErrs
  first
    | (simp; done)
    | (repeat' (first
        | (simp; done) | split | rw [State.foldl_core] | rw [foldl_fst_core] | rw [foldl_snd_core]
        | dsimp only | simp | rw [State.onSec_core] | rw [State.onSys_core] | with_reducible rfl | intro _))

@[simp ↓] theorem State.noteRead_core (typ sel : Nat) (s : State) : (State.noteRead typ sel s).core = s.core := by
  unfold State.noteRead
  first
    | (simp; done)
    | (repeat' (first
        | (simp; done) | split | rw [State.foldl_core] | rw [foldl_fst_core] | rw [foldl_snd_core]
        | dsimp only | simp | rw [State.onSec_core] | rw [State.onSys_core] | with_reducible rfl | intro _))

@[simp ↓] theorem State.writeRecord_core (typ sel : Nat) (payload : List Byte) (desc : Option Nat) (s : State) : (State.writeRecord typ sel payload desc s).core = s.core := by
  unfold State.writeRecord
  first
    | (simp; done)
    | (repeat' (first
        | (simp; done) | split | rw [State.foldl_core] | rw [foldl_fst_core] | rw [foldl_snd_core]
        | dsimp only | simp | rw [State.onSec_core] | rw [State.onSys_core] | with_reducible rfl | intro _))

@[simp ↓] theorem State.putRecord_core (typ sel : Nat) (payload : List Byte) (ok : Bool) (s : State) : (State.putRecord typ sel payload ok s).core = s.core := by
  unfold State.putRecord
  first
    | (simp; done)
    | (repeat' (first
        | (simp; done) | split | rw [State.foldl_core] | rw [foldl_fst_core] | rw [foldl_snd_core]
        | dsimp only | simp | rw [State.onSec_core] | rw [State.onSys_core] | with_reducible rfl | intro _))

@[simp ↓] theorem State.redefer_core (typ sel : Nat) (s : State) : (State.redefer typ sel s).core = s.core := by
  unfold State.redefer
  first
    | (simp; done)
    | (repeat' (first
        | (simp; done) | split | rw [State.foldl_core] | rw [foldl_fst_core] | rw [foldl_snd_core]
        | dsimp only | simp | rw [State.onSec_core] | rw [State.onSys_core] | with_reducible rfl | intro _))

@[simp ↓] theorem State.cutWrite_core (s : State) : (State.cutWrite s).core = s.core := by
  unfold State.cutWrite
  first
    | (simp; done)
    | (repeat' (first
        | (simp; done) | split | rw [State.foldl_core] | rw [foldl_fst_core] | rw [foldl_snd_core]
        | dsimp only | simp | rw [State.onSec_core] | rw [State.onSys_core] | with_reducible rfl | intro _))

/-! ### NozzleOps -/

@[simp ↓] theorem State.onNzHalf_core (b h : Nat) (f : NzHalf → NzHalf) (s : State) : (State.onNzHalf b h f s).core = s.core := by
  unfold State.onNzHalf
  first
    | (simp; done)
    | (repeat' (first
        | (simp; done) | split | rw [State.foldl_core] | rw [foldl_fst_core] | rw [foldl_snd_core]
        | dsimp only | simp | rw [State.onSec_core] | rw [State.onSys_core] | with_reducible rfl | intro _))

@[simp ↓] theorem State.onNzBar_core (b : Nat) (f : NzBar → NzBar) (s : State) : (State.onNzBar b f s).core = s.core := by
  unfold State.onNzBar
  first
    | (simp; done)
    | (repeat' (first
        | (simp; done) | split | rw [State.foldl_core] | rw [foldl_fst_core] | rw [foldl_snd_core]
        | dsimp only | simp | rw [State.onSec_core] | rw [State.onSys_core] | with_reducible rfl | intro _))

@[simp ↓] theorem State.penJudge_core (b h : Nat) (s : State) : (State.penJudge b h s).core = s.core := by
  unfold State.penJudge
  first
    | (simp; done)
    | (repeat' (first
        | (simp; done) | split | rw [State.foldl_core] | rw [foldl_fst_core] | rw [foldl_snd_core]
        | dsimp only | simp | rw [State.onSec_core] | rw [State.onSys_core] | with_reducible rfl | intro _))

@[simp ↓] theorem State.writeStatus_core (b h e status lasting cause : Nat) (s : State) : (State.writeStatus b h e status lasting cause s).core = s.core := by
  unfold State.writeStatus
  first
    | (simp; done)
    | (repeat' (first
        | (simp; done) | split | rw [State.foldl_core] | rw [foldl_fst_core] | rw [foldl_snd_core]
        | dsimp only | simp | rw [State.onSec_core] | rw [State.onSys_core] | with_reducible rfl | intro _))

@[simp ↓] theorem State.dropStandIn_core (b h e : Nat) (s : State) : (State.dropStandIn b h e s).core = s.core := by
  unfold State.dropStandIn
  first
    | (simp; done)
    | (repeat' (first
        | (simp; done) | split | rw [State.foldl_core] | rw [foldl_fst_core] | rw [foldl_snd_core]
        | dsimp only | simp | rw [State.onSec_core] | rw [State.onSys_core] | with_reducible rfl | intro _))

@[simp ↓] theorem State.promote_core (b pos sub : Nat) (may : Nat × Nat → Bool) (nozzle : Option (Nat × Nat)) (s : State) : (State.promote b pos sub may nozzle s).core = s.core := by
  unfold State.promote
  first
    | (simp; done)
    | (repeat' (first
        | (simp; done) | split | rw [State.foldl_core] | rw [foldl_fst_core] | rw [foldl_snd_core]
        | dsimp only | simp | rw [State.onSec_core] | rw [State.onSys_core] | with_reducible rfl | intro _))

@[simp ↓] theorem State.relieve_core (b h e pos sub : Nat) (may : Nat × Nat → Bool) (s : State) : (State.relieve b h e pos sub may s).core = s.core := by
  unfold State.relieve
  first
    | (simp; done)
    | (repeat' (first
        | (simp; done) | split | rw [State.foldl_core] | rw [foldl_fst_core] | rw [foldl_snd_core]
        | dsimp only | simp | rw [State.onSec_core] | rw [State.onSys_core] | with_reducible rfl | intro _))

@[simp ↓] theorem State.spareFollows_core (b h e old : Nat) (may : Nat × Nat → Bool) (s : State) : (State.spareFollows b h e old may s).core = s.core := by
  unfold State.spareFollows
  first
    | (simp; done)
    | (repeat' (first
        | (simp; done) | split | rw [State.foldl_core] | rw [foldl_fst_core] | rw [foldl_snd_core]
        | dsimp only | simp | rw [State.onSec_core] | rw [State.onSys_core] | with_reducible rfl | intro _))

@[simp ↓] theorem State.changeStatus_core (b h e status lasting cause : Nat) (s : State) : (State.changeStatus b h e status lasting cause s).core = s.core := by
  unfold State.changeStatus
  first
    | (simp; done)
    | (repeat' (first
        | (simp; done) | split | rw [State.foldl_core] | rw [foldl_fst_core] | rw [foldl_snd_core]
        | dsimp only | simp | rw [State.onSec_core] | rw [State.onSys_core] | with_reducible rfl | intro _))

@[simp ↓] theorem State.lastingFault_core (b h e kind cause : Nat) (s : State) : (State.lastingFault b h e kind cause s).core = s.core := by
  unfold State.lastingFault
  first
    | (simp; done)
    | (repeat' (first
        | (simp; done) | split | rw [State.foldl_core] | rw [foldl_fst_core] | rw [foldl_snd_core]
        | dsimp only | simp | rw [State.onSec_core] | rw [State.onSys_core] | with_reducible rfl | intro _))

@[simp ↓] theorem State.applyNozzle_core (e : Entry) (s : State) : (State.applyNozzle e s).core = s.core := by
  unfold State.applyNozzle
  first
    | (simp; done)
    | (repeat' (first
        | (simp; done) | split | rw [State.foldl_core] | rw [foldl_fst_core] | rw [foldl_snd_core]
        | dsimp only | simp | rw [State.onSec_core] | rw [State.onSys_core] | with_reducible rfl | intro _))

@[simp ↓] theorem State.replayNozzles_core (line : Nat) (s : State) : (State.replayNozzles line s).core = s.core := by
  unfold State.replayNozzles
  first
    | (simp; done)
    | (repeat' (first
        | (simp; done) | split | rw [State.foldl_core] | rw [foldl_fst_core] | rw [foldl_snd_core]
        | dsimp only | simp | rw [State.onSec_core] | rw [State.onSys_core] | with_reducible rfl | intro _))

@[simp ↓] theorem State.sizeMap_core (b h n : Nat) (s : State) : (State.sizeMap b h n s).core = s.core := by
  unfold State.sizeMap
  first
    | (simp; done)
    | (repeat' (first
        | (simp; done) | split | rw [State.foldl_core] | rw [foldl_fst_core] | rw [foldl_snd_core]
        | dsimp only | simp | rw [State.onSec_core] | rw [State.onSys_core] | with_reducible rfl | intro _))

@[simp ↓] theorem State.setMap_core (b h : Nat) (m : List NzStat) (s : State) : (State.setMap b h m s).core = s.core := by
  unfold State.setMap
  first
    | (simp; done)
    | (repeat' (first
        | (simp; done) | split | rw [State.foldl_core] | rw [foldl_fst_core] | rw [foldl_snd_core]
        | dsimp only | simp | rw [State.onSec_core] | rw [State.onSys_core] | with_reducible rfl | intro _))

@[simp ↓] theorem State.mapForRemap_core (b h : Nat) (r : Remap) (noJob : Bool) (s : State) : (State.mapForRemap b h r noJob s).core = s.core := by
  unfold State.mapForRemap
  first
    | (simp; done)
    | (repeat' (first
        | (simp; done) | split | rw [State.foldl_core] | rw [foldl_fst_core] | rw [foldl_snd_core]
        | dsimp only | simp | rw [State.onSec_core] | rw [State.onSys_core] | with_reducible rfl | intro _))

@[simp ↓] theorem State.untested_core (s : State) : (State.untested s).core = s.core := by
  unfold State.untested
  first
    | (simp; done)
    | (repeat' (first
        | (simp; done) | split | rw [State.foldl_core] | rw [foldl_fst_core] | rw [foldl_snd_core]
        | dsimp only | simp | rw [State.onSec_core] | rw [State.onSys_core] | with_reducible rfl | intro _))

@[simp ↓] theorem State.transientOne_core (s : State) : (State.transientOne s).core = s.core := by
  unfold State.transientOne
  first
    | (simp; done)
    | (repeat' (first
        | (simp; done) | split | rw [State.foldl_core] | rw [foldl_fst_core] | rw [foldl_snd_core]
        | dsimp only | simp | rw [State.onSec_core] | rw [State.onSys_core] | with_reducible rfl | intro _))

@[simp ↓] theorem State.retestSettle_core (order : Nat) (s : State) : (State.retestSettle order s).core = s.core := by
  unfold State.retestSettle
  first
    | (simp; done)
    | (repeat' (first
        | (simp; done) | split | rw [State.foldl_core] | rw [foldl_fst_core] | rw [foldl_snd_core]
        | dsimp only | simp | rw [State.onSec_core] | rw [State.onSys_core] | with_reducible rfl | intro _))

@[simp ↓] theorem State.onRetest_core (order entry : Nat) (f : RetestEntry → RetestEntry) (s : State) : (State.onRetest order entry f s).core = s.core := by
  unfold State.onRetest
  first
    | (simp; done)
    | (repeat' (first
        | (simp; done) | split | rw [State.foldl_core] | rw [foldl_fst_core] | rw [foldl_snd_core]
        | dsimp only | simp | rw [State.onSec_core] | rw [State.onSys_core] | with_reducible rfl | intro _))

@[simp ↓] theorem State.pushRefire_core (b : Nat) (q : Refire) (s : State) : (State.pushRefire b q s).core = s.core := by
  unfold State.pushRefire
  first
    | (simp; done)
    | (repeat' (first
        | (simp; done) | split | rw [State.foldl_core] | rw [foldl_fst_core] | rw [foldl_snd_core]
        | dsimp only | simp | rw [State.onSec_core] | rw [State.onSys_core] | with_reducible rfl | intro _))

@[simp ↓] theorem State.retestFired_core (order b h entry : Nat) (clean : Bool) (s : State) : (State.retestFired order b h entry clean s).core = s.core := by
  unfold State.retestFired
  first
    | (simp; done)
    | (repeat' (first
        | (simp; done) | split | rw [State.foldl_core] | rw [foldl_fst_core] | rw [foldl_snd_core]
        | dsimp only | simp | rw [State.onSec_core] | rw [State.onSys_core] | with_reducible rfl | intro _))

@[simp ↓] theorem State.streakFired_core (id : Nat) (clean : Bool) (s : State) : (State.streakFired id clean s).core = s.core := by
  unfold State.streakFired
  first
    | (simp; done)
    | (repeat' (first
        | (simp; done) | split | rw [State.foldl_core] | rw [foldl_fst_core] | rw [foldl_snd_core]
        | dsimp only | simp | rw [State.onSec_core] | rw [State.onSys_core] | with_reducible rfl | intro _))

@[simp ↓] theorem State.refireDone_core (b h entry : Nat) (why : Purpose) (clean : Bool) (s : State) : (State.refireDone b h entry why clean s).core = s.core := by
  unfold State.refireDone
  first
    | (simp; done)
    | (repeat' (first
        | (simp; done) | split | rw [State.foldl_core] | rw [foldl_fst_core] | rw [foldl_snd_core]
        | dsimp only | simp | rw [State.onSec_core] | rw [State.onSys_core] | with_reducible rfl | intro _))

@[simp ↓] theorem State.endRetests_core (b h : Nat) (s : State) : (State.endRetests b h s).core = s.core := by
  unfold State.endRetests
  first
    | (simp; done)
    | (repeat' (first
        | (simp; done) | split | rw [State.foldl_core] | rw [foldl_fst_core] | rw [foldl_snd_core]
        | dsimp only | simp | rw [State.onSec_core] | rw [State.onSys_core] | with_reducible rfl | intro _))

@[simp ↓] theorem State.emptyQueue_core (b h : Nat) (s : State) : (State.emptyQueue b h s).core = s.core := by
  unfold State.emptyQueue
  first
    | (simp; done)
    | (repeat' (first
        | (simp; done) | split | rw [State.foldl_core] | rw [foldl_fst_core] | rw [foldl_snd_core]
        | dsimp only | simp | rw [State.onSec_core] | rw [State.onSys_core] | with_reducible rfl | intro _))

@[simp ↓] theorem State.putRemap_core (b h : Nat) (r : Remap) (noJob loaded : Bool) (s : State) : (State.putRemap b h r noJob loaded s).core = s.core := by
  unfold State.putRemap
  first
    | (simp; done)
    | (repeat' (first
        | (simp; done) | split | rw [State.foldl_core] | rw [foldl_fst_core] | rw [foldl_snd_core]
        | dsimp only | simp | rw [State.onSec_core] | rw [State.onSys_core] | with_reducible rfl | intro _))

@[simp ↓] theorem State.freeCopies_core (b : Nat) (s : State) : (State.freeCopies b s).core = s.core := by
  unfold State.freeCopies
  first
    | (simp; done)
    | (repeat' (first
        | (simp; done) | split | rw [State.foldl_core] | rw [foldl_fst_core] | rw [foldl_snd_core]
        | dsimp only | simp | rw [State.onSec_core] | rw [State.onSys_core] | with_reducible rfl | intro _))

@[simp ↓] theorem State.putMap_core (b h : Nat) (m : List NzStat) (s : State) : (State.putMap b h m s).core = s.core := by
  unfold State.putMap
  first
    | (simp; done)
    | (repeat' (first
        | (simp; done) | split | rw [State.foldl_core] | rw [foldl_fst_core] | rw [foldl_snd_core]
        | dsimp only | simp | rw [State.onSec_core] | rw [State.onSys_core] | with_reducible rfl | intro _))

@[simp ↓] theorem State.putEither_core (b h : Nat) (noJob loaded : Bool) (x : Remap ⊕ List NzStat) (s : State) : (State.putEither b h noJob loaded x s).core = s.core := by
  unfold State.putEither
  first
    | (simp; done)
    | (repeat' (first
        | (simp; done) | split | rw [State.foldl_core] | rw [foldl_fst_core] | rw [foldl_snd_core]
        | dsimp only | simp | rw [State.onSec_core] | rw [State.onSys_core] | with_reducible rfl | intro _))

@[simp ↓] theorem State.takeWaiting_core (due : Bind → Bool) (noJob : Bool) (b h : Nat) (s : State) : (State.takeWaiting due noJob b h s).core = s.core := by
  unfold State.takeWaiting
  first
    | (simp; done)
    | (repeat' (first
        | (simp; done) | split | rw [State.foldl_core] | rw [foldl_fst_core] | rw [foldl_snd_core]
        | dsimp only | simp | rw [State.onSec_core] | rw [State.onSys_core] | with_reducible rfl | intro _))

@[simp ↓] theorem State.takeBar_core (k b : Nat) (s : State) : (State.takeBar k b s).core = s.core := by
  unfold State.takeBar
  first
    | (simp; done)
    | (repeat' (first
        | (simp; done) | split | rw [State.foldl_core] | rw [foldl_fst_core] | rw [foldl_snd_core]
        | dsimp only | simp | rw [State.onSec_core] | rw [State.onSys_core] | with_reducible rfl | intro _))

@[simp ↓] theorem State.settleBars_core (s : State) : (State.settleBars s).core = s.core := by
  unfold State.settleBars
  first
    | (simp; done)
    | (repeat' (first
        | (simp; done) | split | rw [State.foldl_core] | rw [foldl_fst_core] | rw [foldl_snd_core]
        | dsimp only | simp | rw [State.onSec_core] | rw [State.onSys_core] | with_reducible rfl | intro _))

@[simp ↓] theorem State.takeFree_core (b h : Nat) (s : State) : (State.takeFree b h s).core = s.core := by
  unfold State.takeFree
  first
    | (simp; done)
    | (repeat' (first
        | (simp; done) | split | rw [State.foldl_core] | rw [foldl_fst_core] | rw [foldl_snd_core]
        | dsimp only | simp | rw [State.onSec_core] | rw [State.onSys_core] | with_reducible rfl | intro _))

@[simp ↓] theorem State.freeRingOf_core (b image : Nat) (s : State) : (State.freeRingOf b image s).core = s.core := by
  unfold State.freeRingOf
  first
    | (simp; done)
    | (repeat' (first
        | (simp; done) | split | rw [State.foldl_core] | rw [foldl_fst_core] | rw [foldl_snd_core]
        | dsimp only | simp | rw [State.onSec_core] | rw [State.onSys_core] | with_reducible rfl | intro _))

@[simp ↓] theorem State.jobEnd_core (s : State) : (State.jobEnd s).core = s.core := by
  unfold State.jobEnd
  first
    | (simp; done)
    | (repeat' (first
        | (simp; done) | split | rw [State.foldl_core] | rw [foldl_fst_core] | rw [foldl_snd_core]
        | dsimp only | simp | rw [State.onSec_core] | rw [State.onSys_core] | with_reducible rfl | intro _))

/-! ### FoldOps -/

@[simp ↓] theorem State.testResult_core (src : Nat) (lasting : Bool) (s : State) : (State.testResult src lasting s).core = s.core := by
  unfold State.testResult
  first
    | (simp; done)
    | (repeat' (first
        | (simp; done) | split | rw [State.foldl_core] | rw [foldl_fst_core] | rw [foldl_snd_core]
        | dsimp only | simp | rw [State.onSec_core] | rw [State.onSys_core] | with_reducible rfl | intro _))

@[simp ↓] theorem State.wordTested_core (lasting : Bool) (s : State) : (State.wordTested lasting s).core = s.core := by
  unfold State.wordTested
  first
    | (simp; done)
    | (repeat' (first
        | (simp; done) | split | rw [State.foldl_core] | rw [foldl_fst_core] | rw [foldl_snd_core]
        | dsimp only | simp | rw [State.onSec_core] | rw [State.onSys_core] | with_reducible rfl | intro _))

end Sys2Proof.Machine
end

