-- ==== Sys2Proof/Laws/Core6.lean ====
section
/-! SUPPORT. The shared operations of NozzleTest, JobCmd leave the core of the state as it is. -/

set_option Elab.async false

namespace Sys2Proof.Machine

/-! ### NozzleTest -/

@[simp ↓] theorem State.wakeUp_core (b : Nat) (s : State) : (State.wakeUp b s).core = s.core := by
  unfold State.wakeUp
  first
    | (simp; done)
    | (repeat' (first
        | (simp; done) | split | rw [State.foldl_core] | rw [foldl_fst_core] | rw [foldl_snd_core]
        | dsimp only | simp | rw [State.onSec_core] | rw [State.onSys_core] | with_reducible rfl | intro _))

@[simp ↓] theorem State.hubAsk_core (isStat : Bool) (bars : Nat) (pktOf : Nat → List Byte) (order : Nat) (dev : Bool) (dest : Nat) (s : State) : (State.hubAsk isStat bars pktOf order dev dest s).core = s.core := by
  unfold State.hubAsk
  first
    | (simp; done)
    | (repeat' (first
        | (simp; done) | split | rw [State.foldl_core] | rw [foldl_fst_core] | rw [foldl_snd_core]
        | dsimp only | simp | rw [State.onSec_core] | rw [State.onSys_core] | with_reducible rfl | intro _))

@[simp ↓] theorem State.readTestStat_core (b : Nat) (s : State) : (State.readTestStat b s).core = s.core := by
  unfold State.readTestStat
  first
    | (simp; done)
    | (repeat' (first
        | (simp; done) | split | rw [State.foldl_core] | rw [foldl_fst_core] | rw [foldl_snd_core]
        | dsimp only | simp | rw [State.onSec_core] | rw [State.onSys_core] | with_reducible rfl | intro _))

@[simp ↓] theorem State.sendBatch_core (b op num : Nat) (row : Nat) (tick0 : Int) (span subset : Nat) (list : List Nat) (s : State) : (State.sendBatch b op num row tick0 span subset list s).core = s.core := by
  unfold State.sendBatch
  first
    | (simp; done)
    | (repeat' (first
        | (simp; done) | split | rw [State.foldl_core] | rw [foldl_fst_core] | rw [foldl_snd_core]
        | dsimp only | simp | rw [State.onSec_core] | rw [State.onSys_core] | with_reducible rfl | intro _))

@[simp ↓] theorem State.nextBatch_core (b : Nat) (s : State) : (State.nextBatch b s).2.core = s.core := by
  unfold State.nextBatch
  first
    | (simp; done)
    | (repeat' (first
        | (simp; done) | split | rw [State.foldl_core] | rw [foldl_fst_core] | rw [foldl_snd_core]
        | dsimp only | simp | rw [State.onSec_core] | rw [State.onSys_core] | with_reducible rfl | intro _))

@[simp ↓] theorem State.sendSweep_core (b : Nat) (x : Batch) (s : State) : (State.sendSweep b x s).core = s.core := by
  unfold State.sendSweep
  first
    | (simp; done)
    | (repeat' (first
        | (simp; done) | split | rw [State.foldl_core] | rw [foldl_fst_core] | rw [foldl_snd_core]
        | dsimp only | simp | rw [State.onSec_core] | rw [State.onSys_core] | with_reducible rfl | intro _))

@[simp ↓] theorem State.gapStart_core (b : Nat) (m0 : Int) (gap : Nat) (drill : Bool) (s : State) : (State.gapStart b m0 gap drill s).core = s.core := by
  unfold State.gapStart
  first
    | (simp; done)
    | (repeat' (first
        | (simp; done) | split | rw [State.foldl_core] | rw [foldl_fst_core] | rw [foldl_snd_core]
        | dsimp only | simp | rw [State.onSec_core] | rw [State.onSys_core] | with_reducible rfl | intro _))

@[simp ↓] theorem State.gapBegin_core (b : Nat) (m e : Int) (s : State) : (State.gapBegin b m e s).core = s.core := by
  unfold State.gapBegin
  first
    | (simp; done)
    | (repeat' (first
        | (simp; done) | split | rw [State.foldl_core] | rw [foldl_fst_core] | rw [foldl_snd_core]
        | dsimp only | simp | rw [State.onSec_core] | rw [State.onSys_core] | with_reducible rfl | intro _))

@[simp ↓] theorem State.voidGap_core (b : Nat) (s : State) : (State.voidGap b s).core = s.core := by
  unfold State.voidGap
  first
    | (simp; done)
    | (repeat' (first
        | (simp; done) | split | rw [State.foldl_core] | rw [foldl_fst_core] | rw [foldl_snd_core]
        | dsimp only | simp | rw [State.onSec_core] | rw [State.onSys_core] | with_reducible rfl | intro _))

@[simp ↓] theorem State.sweepFired_core (b row stride k : Nat) (s : State) : (State.sweepFired b row stride k s).core = s.core := by
  unfold State.sweepFired
  first
    | (simp; done)
    | (repeat' (first
        | (simp; done) | split | rw [State.foldl_core] | rw [foldl_fst_core] | rw [foldl_snd_core]
        | dsimp only | simp | rw [State.onSec_core] | rw [State.onSys_core] | with_reducible rfl | intro _))

@[simp ↓] theorem State.sweepTick_core (b : Nat) (m : Int) (pulsed : Bool) (s : State) : (State.sweepTick b m pulsed s).core = s.core := by
  unfold State.sweepTick
  first
    | (simp; done)
    | (repeat' (first
        | (simp; done) | split | rw [State.foldl_core] | rw [foldl_fst_core] | rw [foldl_snd_core]
        | dsimp only | simp | rw [State.onSec_core] | rw [State.onSys_core] | with_reducible rfl | intro _))

@[simp ↓] theorem State.queueRefire_core (b h entry : Nat) (why : Purpose) (s : State) : (State.queueRefire b h entry why s).core = s.core := by
  unfold State.queueRefire
  first
    | (simp; done)
    | (repeat' (first
        | (simp; done) | split | rw [State.foldl_core] | rw [foldl_fst_core] | rw [foldl_snd_core]
        | dsimp only | simp | rw [State.onSec_core] | rw [State.onSys_core] | with_reducible rfl | intro _))

@[simp ↓] theorem State.listResult_core (b : Nat) (q : Refire) (r : Nat) (s : State) : (State.listResult b q r s).core = s.core := by
  unfold State.listResult
  first
    | (simp; done)
    | (repeat' (first
        | (simp; done) | split | rw [State.foldl_core] | rw [foldl_fst_core] | rw [foldl_snd_core]
        | dsimp only | simp | rw [State.onSec_core] | rw [State.onSys_core] | with_reducible rfl | intro _))

@[simp ↓] theorem State.sweepResult_core (b h entry r : Nat) (s : State) : (State.sweepResult b h entry r s).core = s.core := by
  unfold State.sweepResult
  first
    | (simp; done)
    | (repeat' (first
        | (simp; done) | split | rw [State.foldl_core] | rw [foldl_fst_core] | rw [foldl_snd_core]
        | dsimp only | simp | rw [State.onSec_core] | rw [State.onSys_core] | with_reducible rfl | intro _))

@[simp ↓] theorem State.listPacket_core (b : Nat) (x : Batch) (p : List Byte) (s : State) : (State.listPacket b x p s).core = s.core := by
  unfold State.listPacket
  first
    | (simp; done)
    | (repeat' (first
        | (simp; done) | split | rw [State.foldl_core] | rw [foldl_fst_core] | rw [foldl_snd_core]
        | dsimp only | simp | rw [State.onSec_core] | rw [State.onSys_core] | with_reducible rfl | intro _))

@[simp ↓] theorem State.endBatch_core (b num : Nat) (s : State) : (State.endBatch b num s).core = s.core := by
  unfold State.endBatch
  first
    | (simp; done)
    | (repeat' (first
        | (simp; done) | split | rw [State.foldl_core] | rw [foldl_fst_core] | rw [foldl_snd_core]
        | dsimp only | simp | rw [State.onSec_core] | rw [State.onSys_core] | with_reducible rfl | intro _))

@[simp ↓] theorem State.dropBatch_core (b num : Nat) (s : State) : (State.dropBatch b num s).core = s.core := by
  unfold State.dropBatch
  first
    | (simp; done)
    | (repeat' (first
        | (simp; done) | split | rw [State.foldl_core] | rw [foldl_fst_core] | rw [foldl_snd_core]
        | dsimp only | simp | rw [State.onSec_core] | rw [State.onSys_core] | with_reducible rfl | intro _))

@[simp ↓] theorem State.gatePacket_core (b : Nat) (p : List Byte) (s : State) : (State.gatePacket b p s).2.core = s.core := by
  unfold State.gatePacket
  first
    | (simp; done)
    | (repeat' (first
        | (simp; done) | split | rw [State.foldl_core] | rw [foldl_fst_core] | rw [foldl_snd_core]
        | dsimp only | simp | rw [State.onSec_core] | rw [State.onSys_core] | with_reducible rfl | intro _))

@[simp ↓] theorem State.wantImp_core (b : Nat) (retest : Option Nat) (s : State) : (State.wantImp b retest s).core = s.core := by
  unfold State.wantImp
  first
    | (simp; done)
    | (repeat' (first
        | (simp; done) | split | rw [State.foldl_core] | rw [foldl_fst_core] | rw [foldl_snd_core]
        | dsimp only | simp | rw [State.onSec_core] | rw [State.onSys_core] | with_reducible rfl | intro _))

@[simp ↓] theorem State.sendImp_core (b : Nat) (list : List (Nat × Nat)) (x : ImpBatch) (s : State) : (State.sendImp b list x s).core = s.core := by
  unfold State.sendImp
  first
    | (simp; done)
    | (repeat' (first
        | (simp; done) | split | rw [State.foldl_core] | rw [foldl_fst_core] | rw [foldl_snd_core]
        | dsimp only | simp | rw [State.onSec_core] | rw [State.onSys_core] | with_reducible rfl | intro _))

@[simp ↓] theorem State.endImp_core (b : Nat) (x : ImpBatch) (s : State) : (State.endImp b x s).core = s.core := by
  unfold State.endImp
  first
    | (simp; done)
    | (repeat' (first
        | (simp; done) | split | rw [State.foldl_core] | rw [foldl_fst_core] | rw [foldl_snd_core]
        | dsimp only | simp | rw [State.onSec_core] | rw [State.onSys_core] | with_reducible rfl | intro _))

@[simp ↓] theorem State.impValue_core (b h entry v : Nat) (r : ImpBatch × State) : (State.impValue b h entry v r).2.core = r.2.core := by
  unfold State.impValue
  first
    | (simp; done)
    | (repeat' (first
        | (simp; done) | split | rw [State.foldl_core] | rw [foldl_fst_core] | rw [foldl_snd_core]
        | dsimp only | simp | rw [State.onSec_core] | rw [State.onSys_core] | with_reducible rfl | intro _))

@[simp ↓] theorem State.impValues_core (b : Nat) (p : List Byte) (x : ImpBatch) (s : State) : (State.impValues b p x s).2.core = s.core := by
  unfold State.impValues
  first
    | (simp; done)
    | (repeat' (first
        | (simp; done) | split | rw [State.foldl_core] | rw [foldl_fst_core] | rw [foldl_snd_core]
        | dsimp only | simp | rw [State.onSec_core] | rw [State.onSys_core] | with_reducible rfl | intro _))

@[simp ↓] theorem State.impLate_core (b : Nat) (last : Bool) (p : List Byte) (x : ImpBatch) (s : State) : (State.impLate b last p x s).core = s.core := by
  unfold State.impLate
  first
    | (simp; done)
    | (repeat' (first
        | (simp; done) | split | rw [State.foldl_core] | rw [foldl_fst_core] | rw [foldl_snd_core]
        | dsimp only | simp | rw [State.onSec_core] | rw [State.onSys_core] | with_reducible rfl | intro _))

@[simp ↓] theorem State.impNow_core (b : Nat) (last : Bool) (p : List Byte) (x : ImpBatch) (s : State) : (State.impNow b last p x s).core = s.core := by
  unfold State.impNow
  first
    | (simp; done)
    | (repeat' (first
        | (simp; done) | split | rw [State.foldl_core] | rw [foldl_fst_core] | rw [foldl_snd_core]
        | dsimp only | simp | rw [State.onSec_core] | rw [State.onSys_core] | with_reducible rfl | intro _))

@[simp ↓] theorem State.impPacket_core (b : Nat) (p : List Byte) (s : State) : (State.impPacket b p s).2.core = s.core := by
  unfold State.impPacket
  first
    | (simp; done)
    | (repeat' (first
        | (simp; done) | split | rw [State.foldl_core] | rw [foldl_fst_core] | rw [foldl_snd_core]
        | dsimp only | simp | rw [State.onSec_core] | rw [State.onSys_core] | with_reducible rfl | intro _))

@[simp ↓] theorem State.abortImp_core (b : Nat) (s : State) : (State.abortImp b s).core = s.core := by
  unfold State.abortImp
  first
    | (simp; done)
    | (repeat' (first
        | (simp; done) | split | rw [State.foldl_core] | rw [foldl_fst_core] | rw [foldl_snd_core]
        | dsimp only | simp | rw [State.onSec_core] | rw [State.onSys_core] | with_reducible rfl | intro _))

@[simp ↓] theorem State.takeTestStat_core (b w : Nat) (s : State) : (State.takeTestStat b w s).core = s.core := by
  unfold State.takeTestStat
  first
    | (simp; done)
    | (repeat' (first
        | (simp; done) | split | rw [State.foldl_core] | rw [foldl_fst_core] | rw [foldl_snd_core]
        | dsimp only | simp | rw [State.onSec_core] | rw [State.onSys_core] | with_reducible rfl | intro _))

@[simp ↓] theorem State.cmdAcked_core (b num : Nat) (s : State) : (State.cmdAcked b num s).core = s.core := by
  unfold State.cmdAcked
  first
    | (simp; done)
    | (repeat' (first
        | (simp; done) | split | rw [State.foldl_core] | rw [foldl_fst_core] | rw [foldl_snd_core]
        | dsimp only | simp | rw [State.onSec_core] | rw [State.onSys_core] | with_reducible rfl | intro _))

@[simp ↓] theorem State.cmdFailed_core (b num : Nat) (s : State) : (State.cmdFailed b num s).core = s.core := by
  unfold State.cmdFailed
  first
    | (simp; done)
    | (repeat' (first
        | (simp; done) | split | rw [State.foldl_core] | rw [foldl_fst_core] | rw [foldl_snd_core]
        | dsimp only | simp | rw [State.onSec_core] | rw [State.onSys_core] | with_reducible rfl | intro _))

@[simp ↓] theorem State.streakRefire_core (b lo hi : Nat) (s : State) : (State.streakRefire b lo hi s).core = s.core := by
  unfold State.streakRefire
  first
    | (simp; done)
    | (repeat' (first
        | (simp; done) | split | rw [State.foldl_core] | rw [foldl_fst_core] | rw [foldl_snd_core]
        | dsimp only | simp | rw [State.onSec_core] | rw [State.onSys_core] | with_reducible rfl | intro _))

/-! ### JobCmd -/

@[simp ↓] theorem State.writeHoldSnap_core (s : State) : (State.writeHoldSnap s).core = s.core := by
  unfold State.writeHoldSnap
  first
    | (simp; done)
    | (repeat' (first
        | (simp; done) | split | rw [State.foldl_core] | rw [foldl_fst_core] | rw [foldl_snd_core]
        | dsimp only | simp | rw [State.onSec_core] | rw [State.onSys_core] | with_reducible rfl | intro _))

@[simp ↓] theorem State.writeStatusSnap_core (s : State) : (State.writeStatusSnap s).core = s.core := by
  unfold State.writeStatusSnap
  first
    | (simp; done)
    | (repeat' (first
        | (simp; done) | split | rw [State.foldl_core] | rw [foldl_fst_core] | rw [foldl_snd_core]
        | dsimp only | simp | rw [State.onSec_core] | rw [State.onSys_core] | with_reducible rfl | intro _))

@[simp ↓] theorem State.loadHistory_core (s : State) : (State.loadHistory s).core = s.core := by
  unfold State.loadHistory
  first
    | (simp; done)
    | (repeat' (first
        | (simp; done) | split | rw [State.foldl_core] | rw [foldl_fst_core] | rw [foldl_snd_core]
        | dsimp only | simp | rw [State.onSec_core] | rw [State.onSys_core] | with_reducible rfl | intro _))

@[simp ↓] theorem State.setPaper_core (s : State) : (State.setPaper s).core = s.core := by
  unfold State.setPaper
  first
    | (simp; done)
    | (repeat' (first
        | (simp; done) | split | rw [State.foldl_core] | rw [foldl_fst_core] | rw [foldl_snd_core]
        | dsimp only | simp | rw [State.onSec_core] | rw [State.onSys_core] | with_reducible rfl | intro _))

@[simp ↓] theorem State.dropCoverage_core (s : State) : (State.dropCoverage s).core = s.core := by
  unfold State.dropCoverage
  first
    | (simp; done)
    | (repeat' (first
        | (simp; done) | split | rw [State.foldl_core] | rw [foldl_fst_core] | rw [foldl_snd_core]
        | dsimp only | simp | rw [State.onSec_core] | rw [State.onSys_core] | with_reducible rfl | intro _))

@[simp ↓] theorem State.takeCoverage_core (a : Opening) (s : State) : (State.takeCoverage a s).2.core = s.core := by
  unfold State.takeCoverage
  first
    | (simp; done)
    | (repeat' (first
        | (simp; done) | split | rw [State.foldl_core] | rw [foldl_fst_core] | rw [foldl_snd_core]
        | dsimp only | simp | rw [State.onSec_core] | rw [State.onSys_core] | with_reducible rfl | intro _))

@[simp ↓] theorem State.openBar_core (codeBits : Nat) (s : State) (p : OpenBar × Nat) : (State.openBar codeBits s p).core = s.core := by
  unfold State.openBar
  first
    | (simp; done)
    | (repeat' (first
        | (simp; done) | split | rw [State.foldl_core] | rw [foldl_fst_core] | rw [foldl_snd_core]
        | dsimp only | simp | rw [State.onSec_core] | rw [State.onSys_core] | with_reducible rfl | intro _))

@[simp ↓] theorem State.openDone_core (d : Desc) (a : Opening) (s : State) : (State.openDone d a s).core = s.core := by
  unfold State.openDone
  first
    | (simp; done)
    | (repeat' (first
        | (simp; done) | split | rw [State.foldl_core] | rw [foldl_fst_core] | rw [foldl_snd_core]
        | dsimp only | simp | rw [State.onSec_core] | rw [State.onSys_core] | with_reducible rfl | intro _))

@[simp ↓] theorem State.openTry_core (late : Bool) (s : State) : (State.openTry late s).core = s.core := by
  unfold State.openTry
  first
    | (simp; done)
    | (repeat' (first
        | (simp; done) | split | rw [State.foldl_core] | rw [foldl_fst_core] | rw [foldl_snd_core]
        | dsimp only | simp | rw [State.onSec_core] | rw [State.onSys_core] | with_reducible rfl | intro _))

@[simp ↓] theorem State.openAsk_core (d : Desc) (s : State) : (State.openAsk d s).core = s.core := by
  unfold State.openAsk
  first
    | (simp; done)
    | (repeat' (first
        | (simp; done) | split | rw [State.foldl_core] | rw [foldl_fst_core] | rw [foldl_snd_core]
        | dsimp only | simp | rw [State.onSec_core] | rw [State.onSys_core] | with_reducible rfl | intro _))

@[simp ↓] theorem execJobOpen_core (dt : Nat) (ring : Fin 64) (slot : Nat) (s : State) : Keeps s (execJobOpen dt ring slot s) := by
  unfold execJobOpen
  first
    | (simp; done)
    | (repeat' (first
        | (simp; done) | split | rw [State.foldl_core] | rw [foldl_fst_core] | rw [foldl_snd_core]
        | dsimp only | simp | rw [State.onSec_core] | rw [State.onSys_core] | with_reducible rfl | intro _))

@[simp ↓] theorem State.closeJob_core (d : Desc) (j : Job) (s : State) : (State.closeJob d j s).core = s.core := by
  unfold State.closeJob
  first
    | (simp; done)
    | (repeat' (first
        | (simp; done) | split | rw [State.foldl_core] | rw [foldl_fst_core] | rw [foldl_snd_core]
        | dsimp only | simp | rw [State.onSec_core] | rw [State.onSys_core] | with_reducible rfl | intro _))

@[simp ↓] theorem execJobClose_core (dt : Nat) (ring : Fin 64) (slot : Nat) (s : State) : Keeps s (execJobClose dt ring slot s) := by
  unfold execJobClose
  first
    | (simp; done)
    | (repeat' (first
        | (simp; done) | split | rw [State.foldl_core] | rw [foldl_fst_core] | rw [foldl_snd_core]
        | dsimp only | simp | rw [State.onSec_core] | rw [State.onSys_core] | with_reducible rfl | intro _))

@[simp ↓] theorem State.addBinding_core (layer : Nat) (order : Nat) (c : Option Content) (s : State) : (State.addBinding layer order c s).core = s.core := by
  unfold State.addBinding
  first
    | (simp; done)
    | (repeat' (first
        | (simp; done) | split | rw [State.foldl_core] | rw [foldl_fst_core] | rw [foldl_snd_core]
        | dsimp only | simp | rw [State.onSec_core] | rw [State.onSys_core] | with_reducible rfl | intro _))

@[simp ↓] theorem State.stageFail_core (d : Desc) (s : State) : (State.stageFail d s).core = s.core := by
  unfold State.stageFail
  first
    | (simp; done)
    | (repeat' (first
        | (simp; done) | split | rw [State.foldl_core] | rw [foldl_fst_core] | rw [foldl_snd_core]
        | dsimp only | simp | rw [State.onSec_core] | rw [State.onSys_core] | with_reducible rfl | intro _))

@[simp ↓] theorem State.admitLayer_core (d : Desc) (c : Content) (s : State) : (State.admitLayer d c s).core = s.core := by
  unfold State.admitLayer
  first
    | (simp; done)
    | (repeat' (first
        | (simp; done) | split | rw [State.foldl_core] | rw [foldl_fst_core] | rw [foldl_snd_core]
        | dsimp only | simp | rw [State.onSec_core] | rw [State.onSys_core] | with_reducible rfl | intro _))

@[simp ↓] theorem execLayerSet_core (dt : Nat) (ring : Fin 64) (slot : Nat) (list : List PageEnt) (s : State) : Keeps s (execLayerSet dt ring slot list s) := by
  unfold execLayerSet
  first
    | (simp; done)
    | (repeat' (first
        | (simp; done) | split | rw [State.foldl_core] | rw [foldl_fst_core] | rw [foldl_snd_core]
        | dsimp only | simp | rw [State.onSec_core] | rw [State.onSys_core] | with_reducible rfl | intro _))

@[simp ↓] theorem execLayerFree_core (dt : Nat) (ring : Fin 64) (slot : Nat) (s : State) : Keeps s (execLayerFree dt ring slot s) := by
  unfold execLayerFree
  first
    | (simp; done)
    | (repeat' (first
        | (simp; done) | split | rw [State.foldl_core] | rw [foldl_fst_core] | rw [foldl_snd_core]
        | dsimp only | simp | rw [State.onSec_core] | rw [State.onSys_core] | with_reducible rfl | intro _))

@[simp ↓] theorem State.bindAll_core (image : Nat) (s : State) : (State.bindAll image s).core = s.core := by
  unfold State.bindAll
  first
    | (simp; done)
    | (repeat' (first
        | (simp; done) | split | rw [State.foldl_core] | rw [foldl_fst_core] | rw [foldl_snd_core]
        | dsimp only | simp | rw [State.onSec_core] | rw [State.onSys_core] | with_reducible rfl | intro _))

@[simp ↓] theorem State.startGapAt_core (m : Int) (s : State) (b : Nat) : (State.startGapAt m s b).core = s.core := by
  unfold State.startGapAt
  first
    | (simp; done)
    | (repeat' (first
        | (simp; done) | split | rw [State.foldl_core] | rw [foldl_fst_core] | rw [foldl_snd_core]
        | dsimp only | simp | rw [State.onSec_core] | rw [State.onSys_core] | with_reducible rfl | intro _))

@[simp ↓] theorem State.firstCommit_core (j : Job) (s : State) : (State.firstCommit j s).core = s.core := by
  unfold State.firstCommit
  first
    | (simp; done)
    | (repeat' (first
        | (simp; done) | split | rw [State.foldl_core] | rw [foldl_fst_core] | rw [foldl_snd_core]
        | dsimp only | simp | rw [State.onSec_core] | rw [State.onSys_core] | with_reducible rfl | intro _))

@[simp ↓] theorem State.acceptCommit_core (d : Desc) (j : Job) (ask : Nat) (s : State) : (State.acceptCommit d j ask s).core = s.core := by
  unfold State.acceptCommit
  first
    | (simp; done)
    | (repeat' (first
        | (simp; done) | split | rw [State.foldl_core] | rw [foldl_fst_core] | rw [foldl_snd_core]
        | dsimp only | simp | rw [State.onSec_core] | rw [State.onSys_core] | with_reducible rfl | intro _))

@[simp ↓] theorem execImageCommit_core (dt : Nat) (ring : Fin 64) (slot : Nat) (s : State) : Keeps s (execImageCommit dt ring slot s) := by
  unfold execImageCommit
  first
    | (simp; done)
    | (repeat' (first
        | (simp; done) | split | rw [State.foldl_core] | rw [foldl_fst_core] | rw [foldl_snd_core]
        | dsimp only | simp | rw [State.onSec_core] | rw [State.onSys_core] | with_reducible rfl | intro _))

@[simp ↓] theorem State.onWaiting_core (order : Nat) (f : Content → Content) (s : State) : (State.onWaiting order f s).core = s.core := by
  unfold State.onWaiting
  first
    | (simp; done)
    | (repeat' (first
        | (simp; done) | split | rw [State.foldl_core] | rw [foldl_fst_core] | rw [foldl_snd_core]
        | dsimp only | simp | rw [State.onSec_core] | rw [State.onSys_core] | with_reducible rfl | intro _))

@[simp ↓] theorem State.stageDone_core (d : Desc) (data : List Byte) (s : State) : (State.stageDone d data s).core = s.core := by
  unfold State.stageDone
  first
    | (simp; done)
    | (repeat' (first
        | (simp; done) | split | rw [State.foldl_core] | rw [foldl_fst_core] | rw [foldl_snd_core]
        | dsimp only | simp | rw [State.onSec_core] | rw [State.onSys_core] | with_reducible rfl | intro _))

@[simp ↓] theorem execStagingComplete_core (dt : Nat) (ring : Fin 64) (slot : Nat) (data : List Byte) (s : State) : Keeps s (execStagingComplete dt ring slot data s) := by
  unfold execStagingComplete
  first
    | (simp; done)
    | (repeat' (first
        | (simp; done) | split | rw [State.foldl_core] | rw [foldl_fst_core] | rw [foldl_snd_core]
        | dsimp only | simp | rw [State.onSec_core] | rw [State.onSys_core] | with_reducible rfl | intro _))

@[simp ↓] theorem State.stageTimeout_core (d : Desc) (s : State) : (State.stageTimeout d s).core = s.core := by
  unfold State.stageTimeout
  first
    | (simp; done)
    | (repeat' (first
        | (simp; done) | split | rw [State.foldl_core] | rw [foldl_fst_core] | rw [foldl_snd_core]
        | dsimp only | simp | rw [State.onSec_core] | rw [State.onSys_core] | with_reducible rfl | intro _))

@[simp ↓] theorem execStageWaitTimeout_core (dt : Nat) (ring : Fin 64) (slot : Nat) (s : State) : Keeps s (execStageWaitTimeout dt ring slot s) := by
  unfold execStageWaitTimeout
  first
    | (simp; done)
    | (repeat' (first
        | (simp; done) | split | rw [State.foldl_core] | rw [foldl_fst_core] | rw [foldl_snd_core]
        | dsimp only | simp | rw [State.onSec_core] | rw [State.onSys_core] | with_reducible rfl | intro _))

@[simp ↓] theorem State.endPage_core (order : Nat) (r : PageState) (s : State) (i : Nat) : (State.endPage order r s i).core = s.core := by
  unfold State.endPage
  first
    | (simp; done)
    | (repeat' (first
        | (simp; done) | split | rw [State.foldl_core] | rw [foldl_fst_core] | rw [foldl_snd_core]
        | dsimp only | simp | rw [State.onSec_core] | rw [State.onSys_core] | with_reducible rfl | intro _))

@[simp ↓] theorem execStreamedPageArrive_core (dt : Nat) (ring : Fin 64) (slot page : Nat) (data : List Byte) (s : State) : Keeps s (execStreamedPageArrive dt ring slot page data s) := by
  unfold execStreamedPageArrive
  first
    | (simp; done)
    | (repeat' (first
        | (simp; done) | split | rw [State.foldl_core] | rw [foldl_fst_core] | rw [foldl_snd_core]
        | dsimp only | simp | rw [State.onSec_core] | rw [State.onSys_core] | with_reducible rfl | intro _))

@[simp ↓] theorem State.ownReadFails_core (s : State) : (State.ownReadFails s).core = s.core := by
  unfold State.ownReadFails
  first
    | (simp; done)
    | (repeat' (first
        | (simp; done) | split | rw [State.foldl_core] | rw [foldl_fst_core] | rw [foldl_snd_core]
        | dsimp only | simp | rw [State.onSec_core] | rw [State.onSys_core] | with_reducible rfl | intro _))

@[simp ↓] theorem State.dataFails_core (d : Desc) (s : State) : (State.dataFails d s).core = s.core := by
  unfold State.dataFails
  first
    | (simp; done)
    | (repeat' (first
        | (simp; done) | split | rw [State.foldl_core] | rw [foldl_fst_core] | rw [foldl_snd_core]
        | dsimp only | simp | rw [State.onSec_core] | rw [State.onSys_core] | with_reducible rfl | intro _))

@[simp ↓] theorem execHostReadFail_core (dt : Nat) (ring : Fin 64) (slot : Nat) (pages : List Nat) (s : State) : Keeps s (execHostReadFail dt ring slot pages s) := by
  unfold execHostReadFail
  first
    | (simp; done)
    | (repeat' (first
        | (simp; done) | split | rw [State.foldl_core] | rw [foldl_fst_core] | rw [foldl_snd_core]
        | dsimp only | simp | rw [State.onSec_core] | rw [State.onSys_core] | with_reducible rfl | intro _))

end Sys2Proof.Machine
end

