-- ==== Sys2Proof/Laws/Core7.lean ====
section
/-! SUPPORT. The shared operations of Band, LinkTrain leave the core of the state as it is. -/

set_option Elab.async false

namespace Sys2Proof.Machine

/-! ### Band -/

@[simp ↓] theorem State.judgeDemand_core (s : State) : (State.judgeDemand s).core = s.core := by
  unfold State.judgeDemand
  first
    | (simp; done)
    | (repeat' (first
        | (simp; done) | split | rw [State.foldl_core] | rw [foldl_fst_core] | rw [foldl_snd_core]
        | dsimp only | simp | rw [State.onSec_core] | rw [State.onSys_core] | with_reducible rfl | intro _))

@[simp ↓] theorem State.wroteStore_core (j : Job) (first n : Nat) (s : State) : (State.wroteStore j first n s).core = s.core := by
  unfold State.wroteStore
  first
    | (simp; done)
    | (repeat' (first
        | (simp; done) | split | rw [State.foldl_core] | rw [foldl_fst_core] | rw [foldl_snd_core]
        | dsimp only | simp | rw [State.onSec_core] | rw [State.onSys_core] | with_reducible rfl | intro _))

@[simp ↓] theorem State.readStore_core (j : Job) (first n : Nat) (s : State) : (State.readStore j first n s).core = s.core := by
  unfold State.readStore
  first
    | (simp; done)
    | (repeat' (first
        | (simp; done) | split | rw [State.foldl_core] | rw [foldl_fst_core] | rw [foldl_snd_core]
        | dsimp only | simp | rw [State.onSec_core] | rw [State.onSys_core] | with_reducible rfl | intro _))

@[simp ↓] theorem State.enterRepeat_core (j : Job) (c : Commit) (line0 : Nat) (s : State) : (State.enterRepeat j c line0 s).core = s.core := by
  unfold State.enterRepeat
  first
    | (simp; done)
    | (repeat' (first
        | (simp; done) | split | rw [State.foldl_core] | rw [foldl_fst_core] | rw [foldl_snd_core]
        | dsimp only | simp | rw [State.onSec_core] | rw [State.onSys_core] | with_reducible rfl | intro _))

@[simp ↓] theorem State.swapStore_core (image : Nat) (s : State) : (State.swapStore image s).core = s.core := by
  unfold State.swapStore
  first
    | (simp; done)
    | (repeat' (first
        | (simp; done) | split | rw [State.foldl_core] | rw [foldl_fst_core] | rw [foldl_snd_core]
        | dsimp only | simp | rw [State.onSec_core] | rw [State.onSys_core] | with_reducible rfl | intro _))

@[simp ↓] theorem State.judgeRepeat_core (j : Job) (image line0 : Nat) (was now : Commit) (reached : Bool) (s : State) : (State.judgeRepeat j image line0 was now reached s).core = s.core := by
  unfold State.judgeRepeat
  first
    | (simp; done)
    | (repeat' (first
        | (simp; done) | split | rw [State.foldl_core] | rw [foldl_fst_core] | rw [foldl_snd_core]
        | dsimp only | simp | rw [State.onSec_core] | rw [State.onSys_core] | with_reducible rfl | intro _))

@[simp ↓] theorem State.swapHold_core (image : Nat) (stored : Bool) (s : State) : (State.swapHold image stored s).core = s.core := by
  unfold State.swapHold
  first
    | (simp; done)
    | (repeat' (first
        | (simp; done) | split | rw [State.foldl_core] | rw [foldl_fst_core] | rw [foldl_snd_core]
        | dsimp only | simp | rw [State.onSec_core] | rw [State.onSys_core] | with_reducible rfl | intro _))

@[simp ↓] theorem State.startImage_core (j : Job) (k : Nat) (s : State) : (State.startImage j k s).core = s.core := by
  unfold State.startImage
  first
    | (simp; done)
    | (repeat' (first
        | (simp; done) | split | rw [State.foldl_core] | rw [foldl_fst_core] | rw [foldl_snd_core]
        | dsimp only | simp | rw [State.onSec_core] | rw [State.onSys_core] | with_reducible rfl | intro _))

@[simp ↓] theorem State.skipBand_core (layer : Nat) (said : Bool) (s : State) : (State.skipBand layer said s).core = s.core := by
  unfold State.skipBand
  first
    | (simp; done)
    | (repeat' (first
        | (simp; done) | split | rw [State.foldl_core] | rw [foldl_fst_core] | rw [foldl_snd_core]
        | dsimp only | simp | rw [State.onSec_core] | rw [State.onSys_core] | with_reducible rfl | intro _))

@[simp ↓] theorem State.openLayer_core (layer : Nat) (c : Content) (s : State) : (State.openLayer layer c s).core = s.core := by
  unfold State.openLayer
  first
    | (simp; done)
    | (repeat' (first
        | (simp; done) | split | rw [State.foldl_core] | rw [foldl_fst_core] | rw [foldl_snd_core]
        | dsimp only | simp | rw [State.onSec_core] | rw [State.onSys_core] | with_reducible rfl | intro _))

@[simp ↓] theorem State.feedLayer_core (layer : Nat) (c : Content) (image first n : Nat) (s : State) : (State.feedLayer layer c image first n s).core = s.core := by
  unfold State.feedLayer
  first
    | (simp; done)
    | (repeat' (first
        | (simp; done) | split | rw [State.foldl_core] | rw [foldl_fst_core] | rw [foldl_snd_core]
        | dsimp only | simp | rw [State.onSec_core] | rw [State.onSys_core] | with_reducible rfl | intro _))

@[simp ↓] theorem State.layerError_core (layer : Nat) (c : Content) (code : Nat) (s : State) : (State.layerError layer c code s).core = s.core := by
  unfold State.layerError
  first
    | (simp; done)
    | (repeat' (first
        | (simp; done) | split | rw [State.foldl_core] | rw [foldl_fst_core] | rw [foldl_snd_core]
        | dsimp only | simp | rw [State.onSec_core] | rw [State.onSys_core] | with_reducible rfl | intro _))

@[simp ↓] theorem State.judgeBand_core (k : Comp) (first n : Nat) (r : State × List Nat × Bool) (layer : Nat) : (State.judgeBand k first n r layer).1.core = r.1.core := by
  unfold State.judgeBand
  first
    | (simp; done)
    | (repeat' (first
        | (simp; done) | split | rw [State.foldl_core] | rw [foldl_fst_core] | rw [foldl_snd_core]
        | dsimp only | simp | rw [State.onSec_core] | rw [State.onSys_core] | with_reducible rfl | intro _))

@[simp ↓] theorem State.fetchLayer_core (c : Content) (first n : Nat) (s : State) : (State.fetchLayer c first n s).core = s.core := by
  unfold State.fetchLayer
  first
    | (simp; done)
    | (repeat' (first
        | (simp; done) | split | rw [State.foldl_core] | rw [foldl_fst_core] | rw [foldl_snd_core]
        | dsimp only | simp | rw [State.onSec_core] | rw [State.onSys_core] | with_reducible rfl | intro _))

@[simp ↓] theorem State.fetchLayers_core (out : List Nat) (first n : Nat) (s : State) : (State.fetchLayers out first n s).core = s.core := by
  unfold State.fetchLayers
  first
    | (simp; done)
    | (repeat' (first
        | (simp; done) | split | rw [State.foldl_core] | rw [foldl_fst_core] | rw [foldl_snd_core]
        | dsimp only | simp | rw [State.onSec_core] | rw [State.onSys_core] | with_reducible rfl | intro _))

@[simp ↓] theorem State.judgeLyp_core (s : State) (k : Comp) (first n : Nat) (r : State × List Nat × Bool) : (State.judgeLyp s k first n r).1.core = r.1.core := by
  unfold State.judgeLyp
  first
    | (simp; done)
    | (repeat' (first
        | (simp; done) | split | rw [State.foldl_core] | rw [foldl_fst_core] | rw [foldl_snd_core]
        | dsimp only | simp | rw [State.onSec_core] | rw [State.onSys_core] | with_reducible rfl | intro _))

@[simp ↓] theorem State.wroteRing_core (b : Nat) (r : DelayRing) (line n : Nat) (s : State) : (State.wroteRing b r line n s).core = s.core := by
  unfold State.wroteRing
  first
    | (simp; done)
    | (repeat' (first
        | (simp; done) | split | rw [State.foldl_core] | rw [foldl_fst_core] | rw [foldl_snd_core]
        | dsimp only | simp | rw [State.onSec_core] | rw [State.onSys_core] | with_reducible rfl | intro _))

@[simp ↓] theorem State.putBand_core (b : Nat) (band : RingBand) (s : State) : (State.putBand b band s).core = s.core := by
  unfold State.putBand
  first
    | (simp; done)
    | (repeat' (first
        | (simp; done) | split | rw [State.foldl_core] | rw [foldl_fst_core] | rw [foldl_snd_core]
        | dsimp only | simp | rw [State.onSec_core] | rw [State.onSys_core] | with_reducible rfl | intro _))

@[simp ↓] theorem State.coverBand_core (p line : Nat) (image : Option Nat) (imageLine : Nat) (vals : List (List (List Nat))) (s : State) : (State.coverBand p line image imageLine vals s).core = s.core := by
  unfold State.coverBand
  first
    | (simp; done)
    | (repeat' (first
        | (simp; done) | split | rw [State.foldl_core] | rw [foldl_fst_core] | rw [foldl_snd_core]
        | dsimp only | simp | rw [State.onSec_core] | rw [State.onSys_core] | with_reducible rfl | intro _))

@[simp ↓] theorem State.countBand_core (k : Screened) (lines : Nat) (s : State) : (State.countBand k lines s).core = s.core := by
  unfold State.countBand
  first
    | (simp; done)
    | (repeat' (first
        | (simp; done) | split | rw [State.foldl_core] | rw [foldl_fst_core] | rw [foldl_snd_core]
        | dsimp only | simp | rw [State.onSec_core] | rw [State.onSys_core] | with_reducible rfl | intro _))

@[simp ↓] theorem State.screenBand_core (j : Job) (k : Comp) (out : List Nat) (blank : Bool) (first n : Nat) (s : State) : (State.screenBand j k out blank first n s).core = s.core := by
  unfold State.screenBand
  first
    | (simp; done)
    | (repeat' (first
        | (simp; done) | split | rw [State.foldl_core] | rw [foldl_fst_core] | rw [foldl_snd_core]
        | dsimp only | simp | rw [State.onSec_core] | rw [State.onSys_core] | with_reducible rfl | intro _))

@[simp ↓] theorem State.storedBand_core (k : Comp) (x : Store) (first n : Nat) (s : State) : (State.storedBand k x first n s).core = s.core := by
  unfold State.storedBand
  first
    | (simp; done)
    | (repeat' (first
        | (simp; done) | split | rw [State.foldl_core] | rw [foldl_fst_core] | rw [foldl_snd_core]
        | dsimp only | simp | rw [State.onSec_core] | rw [State.onSys_core] | with_reducible rfl | intro _))

@[simp ↓] theorem State.startBand_core (j : Job) (k : Comp) (s : State) : (State.startBand j k s).core = s.core := by
  unfold State.startBand
  first
    | (simp; done)
    | (repeat' (first
        | (simp; done) | split | rw [State.foldl_core] | rw [foldl_fst_core] | rw [foldl_snd_core]
        | dsimp only | simp | rw [State.onSec_core] | rw [State.onSys_core] | with_reducible rfl | intro _))

@[simp ↓] theorem State.composeStep_core (j : Job) (s : State) : (State.composeStep j s).core = s.core := by
  unfold State.composeStep
  first
    | (simp; done)
    | (repeat' (first
        | (simp; done) | split | rw [State.foldl_core] | rw [foldl_fst_core] | rw [foldl_snd_core]
        | dsimp only | simp | rw [State.onSec_core] | rw [State.onSys_core] | with_reducible rfl | intro _))

@[simp ↓] theorem execCompositionBandStart_core (dt : Nat) (s : State) : Keeps s (execCompositionBandStart dt s) := by
  unfold execCompositionBandStart
  first
    | (simp; done)
    | (repeat' (first
        | (simp; done) | split | rw [State.foldl_core] | rw [foldl_fst_core] | rw [foldl_snd_core]
        | dsimp only | simp | rw [State.onSec_core] | rw [State.onSys_core] | with_reducible rfl | intro _))

@[simp ↓] theorem State.markComplete_core (j : Job) (k : Comp) (first : Nat) (s : State) : (State.markComplete j k first s).core = s.core := by
  unfold State.markComplete
  first
    | (simp; done)
    | (repeat' (first
        | (simp; done) | split | rw [State.foldl_core] | rw [foldl_fst_core] | rw [foldl_snd_core]
        | dsimp only | simp | rw [State.onSec_core] | rw [State.onSys_core] | with_reducible rfl | intro _))

@[simp ↓] theorem State.passLatch_core (j : Job) (k : Comp) (s : State) : (State.passLatch j k s).core = s.core := by
  unfold State.passLatch
  first
    | (simp; done)
    | (repeat' (first
        | (simp; done) | split | rw [State.foldl_core] | rw [foldl_fst_core] | rw [foldl_snd_core]
        | dsimp only | simp | rw [State.onSec_core] | rw [State.onSys_core] | with_reducible rfl | intro _))

@[simp ↓] theorem State.signLayer_core (k : Comp) (s : State) (layer : Nat) : (State.signLayer k s layer).core = s.core := by
  unfold State.signLayer
  first
    | (simp; done)
    | (repeat' (first
        | (simp; done) | split | rw [State.foldl_core] | rw [foldl_fst_core] | rw [foldl_snd_core]
        | dsimp only | simp | rw [State.onSec_core] | rw [State.onSys_core] | with_reducible rfl | intro _))

@[simp ↓] theorem State.imageComposed_core (k : Comp) (s : State) : (State.imageComposed k s).core = s.core := by
  unfold State.imageComposed
  first
    | (simp; done)
    | (repeat' (first
        | (simp; done) | split | rw [State.foldl_core] | rw [foldl_fst_core] | rw [foldl_snd_core]
        | dsimp only | simp | rw [State.onSec_core] | rw [State.onSys_core] | with_reducible rfl | intro _))

@[simp ↓] theorem execBandComplete_core (dt : Nat) (s : State) : Keeps s (execBandComplete dt s) := by
  unfold execBandComplete
  first
    | (simp; done)
    | (repeat' (first
        | (simp; done) | split | rw [State.foldl_core] | rw [foldl_fst_core] | rw [foldl_snd_core]
        | dsimp only | simp | rw [State.onSec_core] | rw [State.onSys_core] | with_reducible rfl | intro _))

@[simp ↓] theorem execCompositionResume_core (dt : Nat) (s : State) : Keeps s (execCompositionResume dt s) := by
  unfold execCompositionResume
  first
    | (simp; done)
    | (repeat' (first
        | (simp; done) | split | rw [State.foldl_core] | rw [foldl_fst_core] | rw [foldl_snd_core]
        | dsimp only | simp | rw [State.onSec_core] | rw [State.onSys_core] | with_reducible rfl | intro _))

@[simp ↓] theorem execRejectDue_core (dt : Nat) (s : State) : Keeps s (execRejectDue dt s) := by
  unfold execRejectDue
  first
    | (simp; done)
    | (repeat' (first
        | (simp; done) | split | rw [State.foldl_core] | rw [foldl_fst_core] | rw [foldl_snd_core]
        | dsimp only | simp | rw [State.onSec_core] | rw [State.onSys_core] | with_reducible rfl | intro _))

@[simp ↓] theorem execRejectEnd_core (dt : Nat) (s : State) : Keeps s (execRejectEnd dt s) := by
  unfold execRejectEnd
  first
    | (simp; done)
    | (repeat' (first
        | (simp; done) | split | rw [State.foldl_core] | rw [foldl_fst_core] | rw [foldl_snd_core]
        | dsimp only | simp | rw [State.onSec_core] | rw [State.onSys_core] | with_reducible rfl | intro _))

/-! ### LinkTrain -/

@[simp ↓] theorem State.laneFault_core (src n : Nat) (s : State) : (State.laneFault src n s).core = s.core := by
  unfold State.laneFault
  first
    | (simp; done)
    | (repeat' (first
        | (simp; done) | split | rw [State.foldl_core] | rw [foldl_fst_core] | rw [foldl_snd_core]
        | dsimp only | simp | rw [State.onSec_core] | rw [State.onSys_core] | with_reducible rfl | intro _))

@[simp ↓] theorem State.halfDown_core (h n : Nat) (s : State) : (State.halfDown h n s).core = s.core := by
  unfold State.halfDown
  first
    | (simp; done)
    | (repeat' (first
        | (simp; done) | split | rw [State.foldl_core] | rw [foldl_fst_core] | rw [foldl_snd_core]
        | dsimp only | simp | rw [State.onSec_core] | rw [State.onSys_core] | with_reducible rfl | intro _))

@[simp ↓] theorem State.halfLost_core (n : Nat) (s : State) : (State.halfLost n s).core = s.core := by
  unfold State.halfLost
  first
    | (simp; done)
    | (repeat' (first
        | (simp; done) | split | rw [State.foldl_core] | rw [foldl_fst_core] | rw [foldl_snd_core]
        | dsimp only | simp | rw [State.onSec_core] | rw [State.onSys_core] | with_reducible rfl | intro _))

@[simp ↓] theorem State.rolesMoved_core (n : Nat) (was : List Nat) (s : State) : (State.rolesMoved n was s).core = s.core := by
  unfold State.rolesMoved
  first
    | (simp; done)
    | (repeat' (first
        | (simp; done) | split | rw [State.foldl_core] | rw [foldl_fst_core] | rw [foldl_snd_core]
        | dsimp only | simp | rw [State.onSec_core] | rw [State.onSys_core] | with_reducible rfl | intro _))

@[simp ↓] theorem State.keepMarker_core (n : Nat) (s : State) : (State.keepMarker n s).core = s.core := by
  unfold State.keepMarker
  first
    | (simp; done)
    | (repeat' (first
        | (simp; done) | split | rw [State.foldl_core] | rw [foldl_fst_core] | rw [foldl_snd_core]
        | dsimp only | simp | rw [State.onSec_core] | rw [State.onSys_core] | with_reducible rfl | intro _))

@[simp ↓] theorem State.askTrain_core (n wanted : Nat) (s : State) : (State.askTrain n wanted s).core = s.core := by
  unfold State.askTrain
  first
    | (simp; done)
    | (repeat' (first
        | (simp; done) | split | rw [State.foldl_core] | rw [foldl_fst_core] | rw [foldl_snd_core]
        | dsimp only | simp | rw [State.onSec_core] | rw [State.onSys_core] | with_reducible rfl | intro _))

@[simp ↓] theorem State.settleTrains_core (s : State) : (State.settleTrains s).core = s.core := by
  unfold State.settleTrains
  first
    | (simp; done)
    | (repeat' (first
        | (simp; done) | split | rw [State.foldl_core] | rw [foldl_fst_core] | rw [foldl_snd_core]
        | dsimp only | simp | rw [State.onSec_core] | rw [State.onSys_core] | with_reducible rfl | intro _))

@[simp ↓] theorem State.enterQuiet_core (n rate : Nat) (second : Bool) (s : State) : (State.enterQuiet n rate second s).core = s.core := by
  unfold State.enterQuiet
  first
    | (simp; done)
    | (repeat' (first
        | (simp; done) | split | rw [State.foldl_core] | rw [foldl_fst_core] | rw [foldl_snd_core]
        | dsimp only | simp | rw [State.onSec_core] | rw [State.onSys_core] | with_reducible rfl | intro _))

@[simp ↓] theorem State.putSet_core (n : Nat) (s : State) : (State.putSet n s).core = s.core := by
  unfold State.putSet
  first
    | (simp; done)
    | (repeat' (first
        | (simp; done) | split | rw [State.foldl_core] | rw [foldl_fst_core] | rw [foldl_snd_core]
        | dsimp only | simp | rw [State.onSec_core] | rw [State.onSys_core] | with_reducible rfl | intro _))

@[simp ↓] theorem State.renewSet_core (n : Nat) (was : Nat × Nat) (s : State) : (State.renewSet n was s).core = s.core := by
  unfold State.renewSet
  first
    | (simp; done)
    | (repeat' (first
        | (simp; done) | split | rw [State.foldl_core] | rw [foldl_fst_core] | rw [foldl_snd_core]
        | dsimp only | simp | rw [State.onSec_core] | rw [State.onSys_core] | with_reducible rfl | intro _))

@[simp ↓] theorem State.timeTraining_core (n : Nat) (s : State) : (State.timeTraining n s).core = s.core := by
  unfold State.timeTraining
  first
    | (simp; done)
    | (repeat' (first
        | (simp; done) | split | rw [State.foldl_core] | rw [foldl_fst_core] | rw [foldl_snd_core]
        | dsimp only | simp | rw [State.onSec_core] | rw [State.onSys_core] | with_reducible rfl | intro _))

@[simp ↓] theorem State.trainFail_core (n cause : Nat) (s : State) : (State.trainFail n cause s).core = s.core := by
  unfold State.trainFail
  first
    | (simp; done)
    | (repeat' (first
        | (simp; done) | split | rw [State.foldl_core] | rw [foldl_fst_core] | rw [foldl_snd_core]
        | dsimp only | simp | rw [State.onSec_core] | rw [State.onSys_core] | with_reducible rfl | intro _))

@[simp ↓] theorem State.laneGranted_core (n : Nat) (s : State) : (State.laneGranted n s).core = s.core := by
  unfold State.laneGranted
  first
    | (simp; done)
    | (repeat' (first
        | (simp; done) | split | rw [State.foldl_core] | rw [foldl_fst_core] | rw [foldl_snd_core]
        | dsimp only | simp | rw [State.onSec_core] | rw [State.onSys_core] | with_reducible rfl | intro _))

@[simp ↓] theorem State.loadSeed_core (n : Nat) (s : State) : (State.loadSeed n s).core = s.core := by
  unfold State.loadSeed
  first
    | (simp; done)
    | (repeat' (first
        | (simp; done) | split | rw [State.foldl_core] | rw [foldl_fst_core] | rw [foldl_snd_core]
        | dsimp only | simp | rw [State.onSec_core] | rw [State.onSys_core] | with_reducible rfl | intro _))

@[simp ↓] theorem State.saveSeed_core (n : Nat) (s : State) : (State.saveSeed n s).core = s.core := by
  unfold State.saveSeed
  first
    | (simp; done)
    | (repeat' (first
        | (simp; done) | split | rw [State.foldl_core] | rw [foldl_fst_core] | rw [foldl_snd_core]
        | dsimp only | simp | rw [State.onSec_core] | rw [State.onSys_core] | with_reducible rfl | intro _))

@[simp ↓] theorem State.enterAlign_core (n : Nat) (s : State) : (State.enterAlign n s).core = s.core := by
  unfold State.enterAlign
  first
    | (simp; done)
    | (repeat' (first
        | (simp; done) | split | rw [State.foldl_core] | rw [foldl_fst_core] | rw [foldl_snd_core]
        | dsimp only | simp | rw [State.onSec_core] | rw [State.onSys_core] | with_reducible rfl | intro _))

@[simp ↓] theorem State.lockDone_core (n : Nat) (s : State) : (State.lockDone n s).core = s.core := by
  unfold State.lockDone
  first
    | (simp; done)
    | (repeat' (first
        | (simp; done) | split | rw [State.foldl_core] | rw [foldl_fst_core] | rw [foldl_snd_core]
        | dsimp only | simp | rw [State.onSec_core] | rw [State.onSys_core] | with_reducible rfl | intro _))

@[simp ↓] theorem State.negotiate_core (n far : Nat) (s : State) : (State.negotiate n far s).core = s.core := by
  unfold State.negotiate
  first
    | (simp; done)
    | (repeat' (first
        | (simp; done) | split | rw [State.foldl_core] | rw [foldl_fst_core] | rw [foldl_snd_core]
        | dsimp only | simp | rw [State.onSec_core] | rw [State.onSys_core] | with_reducible rfl | intro _))

@[simp ↓] theorem State.joinGrid_core (n : Nat) (s : State) : (State.joinGrid n s).core = s.core := by
  unfold State.joinGrid
  first
    | (simp; done)
    | (repeat' (first
        | (simp; done) | split | rw [State.foldl_core] | rw [foldl_fst_core] | rw [foldl_snd_core]
        | dsimp only | simp | rw [State.onSec_core] | rw [State.onSys_core] | with_reducible rfl | intro _))

@[simp ↓] theorem State.putResync_core (n number : Nat) (s : State) : (State.putResync n number s).core = s.core := by
  unfold State.putResync
  first
    | (simp; done)
    | (repeat' (first
        | (simp; done) | split | rw [State.foldl_core] | rw [foldl_fst_core] | rw [foldl_snd_core]
        | dsimp only | simp | rw [State.onSec_core] | rw [State.onSys_core] | with_reducible rfl | intro _))

@[simp ↓] theorem State.syncBar_core (b : Nat) (s : State) : (State.syncBar b s).core = s.core := by
  unfold State.syncBar
  first
    | (simp; done)
    | (repeat' (first
        | (simp; done) | split | rw [State.foldl_core] | rw [foldl_fst_core] | rw [foldl_snd_core]
        | dsimp only | simp | rw [State.onSec_core] | rw [State.onSys_core] | with_reducible rfl | intro _))

@[simp ↓] theorem State.awakeUp_core (b : Nat) (s : State) : (State.awakeUp b s).core = s.core := by
  unfold State.awakeUp
  first
    | (simp; done)
    | (repeat' (first
        | (simp; done) | split | rw [State.foldl_core] | rw [foldl_fst_core] | rw [foldl_snd_core]
        | dsimp only | simp | rw [State.onSec_core] | rw [State.onSys_core] | with_reducible rfl | intro _))

@[simp ↓] theorem State.laneUp_core (n : Nat) (s : State) : (State.laneUp n s).core = s.core := by
  unfold State.laneUp
  first
    | (simp; done)
    | (repeat' (first
        | (simp; done) | split | rw [State.foldl_core] | rw [foldl_fst_core] | rw [foldl_snd_core]
        | dsimp only | simp | rw [State.onSec_core] | rw [State.onSys_core] | with_reducible rfl | intro _))

@[simp ↓] theorem State.alignDone_core (n : Nat) (s : State) : (State.alignDone n s).core = s.core := by
  unfold State.alignDone
  first
    | (simp; done)
    | (repeat' (first
        | (simp; done) | split | rw [State.foldl_core] | rw [foldl_fst_core] | rw [foldl_snd_core]
        | dsimp only | simp | rw [State.onSec_core] | rw [State.onSys_core] | with_reducible rfl | intro _))

@[simp ↓] theorem State.leavePair_core (n cause : Nat) (oos : Bool) (s : State) : (State.leavePair n cause oos s).core = s.core := by
  unfold State.leavePair
  first
    | (simp; done)
    | (repeat' (first
        | (simp; done) | split | rw [State.foldl_core] | rw [foldl_fst_core] | rw [foldl_snd_core]
        | dsimp only | simp | rw [State.onSec_core] | rw [State.onSys_core] | with_reducible rfl | intro _))

@[simp ↓] theorem State.stopTraining_core (n : Nat) (s : State) : (State.stopTraining n s).core = s.core := by
  unfold State.stopTraining
  first
    | (simp; done)
    | (repeat' (first
        | (simp; done) | split | rw [State.foldl_core] | rw [foldl_fst_core] | rw [foldl_snd_core]
        | dsimp only | simp | rw [State.onSec_core] | rw [State.onSys_core] | with_reducible rfl | intro _))

@[simp ↓] theorem State.judgeUncorr_core (n : Nat) (s : State) : (State.judgeUncorr n s).core = s.core := by
  unfold State.judgeUncorr
  first
    | (simp; done)
    | (repeat' (first
        | (simp; done) | split | rw [State.foldl_core] | rw [foldl_fst_core] | rw [foldl_snd_core]
        | dsimp only | simp | rw [State.onSec_core] | rw [State.onSys_core] | with_reducible rfl | intro _))

@[simp ↓] theorem State.hubProto_core (n : Nat) (s : State) : (State.hubProto n s).core = s.core := by
  unfold State.hubProto
  first
    | (simp; done)
    | (repeat' (first
        | (simp; done) | split | rw [State.foldl_core] | rw [foldl_fst_core] | rw [foldl_snd_core]
        | dsimp only | simp | rw [State.onSec_core] | rw [State.onSys_core] | with_reducible rfl | intro _))

@[simp ↓] theorem State.sleepDown_core (b : Nat) (s : State) : (State.sleepDown b s).core = s.core := by
  unfold State.sleepDown
  first
    | (simp; done)
    | (repeat' (first
        | (simp; done) | split | rw [State.foldl_core] | rw [foldl_fst_core] | rw [foldl_snd_core]
        | dsimp only | simp | rw [State.onSec_core] | rw [State.onSys_core] | with_reducible rfl | intro _))

@[simp ↓] theorem State.sendSleepUp_core (b : Nat) (s : State) : (State.sendSleepUp b s).core = s.core := by
  unfold State.sendSleepUp
  first
    | (simp; done)
    | (repeat' (first
        | (simp; done) | split | rw [State.foldl_core] | rw [foldl_fst_core] | rw [foldl_snd_core]
        | dsimp only | simp | rw [State.onSec_core] | rw [State.onSys_core] | with_reducible rfl | intro _))

@[simp ↓] theorem State.awakeDown_core (b : Nat) (s : State) : (State.awakeDown b s).core = s.core := by
  unfold State.awakeDown
  first
    | (simp; done)
    | (repeat' (first
        | (simp; done) | split | rw [State.foldl_core] | rw [foldl_fst_core] | rw [foldl_snd_core]
        | dsimp only | simp | rw [State.onSec_core] | rw [State.onSys_core] | with_reducible rfl | intro _))

end Sys2Proof.Machine
end

