-- ==== Sys2Proof/Laws/Core8.lean ====
section
/-! SUPPORT. The shared operations of BellOps, HoldOps, CalOps, SeeRec leave the core of the state as it is. -/

set_option Elab.async false

namespace Sys2Proof.Machine

/-! ### BellOps -/

@[simp ↓] theorem State.rebaseTick_core (b : Nat) (s : State) : (State.rebaseTick b s).core = s.core := by
  unfold State.rebaseTick
  first
    | (simp; done)
    | (repeat' (first
        | (simp; done) | split | rw [State.foldl_core] | rw [foldl_fst_core] | rw [foldl_snd_core]
        | dsimp only | simp | rw [State.onSec_core] | rw [State.onSys_core] | with_reducible rfl | intro _))

@[simp ↓] theorem State.segment_core (base rate : Int) (stop : Option (Int × Bool)) (at_ : Nat) (s : State) : (State.segment base rate stop at_ s).core = s.core := by
  unfold State.segment
  first
    | (simp; done)
    | (repeat' (first
        | (simp; done) | split | rw [State.foldl_core] | rw [foldl_fst_core] | rw [foldl_snd_core]
        | dsimp only | simp | rw [State.onSec_core] | rw [State.onSys_core] | with_reducible rfl | intro _))

@[simp ↓] theorem State.burstBar_core (top : Int) (s : State) (b : Nat) : (State.burstBar top s b).core = s.core := by
  unfold State.burstBar
  first
    | (simp; done)
    | (repeat' (first
        | (simp; done) | split | rw [State.foldl_core] | rw [foldl_fst_core] | rw [foldl_snd_core]
        | dsimp only | simp | rw [State.onSec_core] | rw [State.onSys_core] | with_reducible rfl | intro _))

@[simp ↓] theorem State.stepFire_core (s : State) : (State.stepFire s).core = s.core := by
  unfold State.stepFire
  first
    | (simp; done)
    | (repeat' (first
        | (simp; done) | split | rw [State.foldl_core] | rw [foldl_fst_core] | rw [foldl_snd_core]
        | dsimp only | simp | rw [State.onSec_core] | rw [State.onSys_core] | with_reducible rfl | intro _))

@[simp ↓] theorem State.rateChanged_core (s : State) : (State.rateChanged s).core = s.core := by
  unfold State.rateChanged
  first
    | (simp; done)
    | (repeat' (first
        | (simp; done) | split | rw [State.foldl_core] | rw [foldl_fst_core] | rw [foldl_snd_core]
        | dsimp only | simp | rw [State.onSec_core] | rw [State.onSys_core] | with_reducible rfl | intro _))

@[simp ↓] theorem State.setSpeed_core (v : Int) (s : State) : (State.setSpeed v s).core = s.core := by
  unfold State.setSpeed
  first
    | (simp; done)
    | (repeat' (first
        | (simp; done) | split | rw [State.foldl_core] | rw [foldl_fst_core] | rw [foldl_snd_core]
        | dsimp only | simp | rw [State.onSec_core] | rw [State.onSys_core] | with_reducible rfl | intro _))

@[simp ↓] theorem State.encDue_core (s : State) : (State.encDue s).core = s.core := by
  unfold State.encDue
  first
    | (simp; done)
    | (repeat' (first
        | (simp; done) | split | rw [State.foldl_core] | rw [foldl_fst_core] | rw [foldl_snd_core]
        | dsimp only | simp | rw [State.onSec_core] | rw [State.onSys_core] | with_reducible rfl | intro _))

@[simp ↓] theorem State.encCount_core (s : State) : (State.encCount s).core = s.core := by
  unfold State.encCount
  first
    | (simp; done)
    | (repeat' (first
        | (simp; done) | split | rw [State.foldl_core] | rw [foldl_fst_core] | rw [foldl_snd_core]
        | dsimp only | simp | rw [State.onSec_core] | rw [State.onSys_core] | with_reducible rfl | intro _))

@[simp ↓] theorem State.encEdge_core (w : Nat) (s : State) : (State.encEdge w s).core = s.core := by
  unfold State.encEdge
  first
    | (simp; done)
    | (repeat' (first
        | (simp; done) | split | rw [State.foldl_core] | rw [foldl_fst_core] | rw [foldl_snd_core]
        | dsimp only | simp | rw [State.onSec_core] | rw [State.onSys_core] | with_reducible rfl | intro _))

@[simp ↓] theorem State.coastFire_core (w at_ : Nat) (s : State) : (State.coastFire w at_ s).core = s.core := by
  unfold State.coastFire
  first
    | (simp; done)
    | (repeat' (first
        | (simp; done) | split | rw [State.foldl_core] | rw [foldl_fst_core] | rw [foldl_snd_core]
        | dsimp only | simp | rw [State.onSec_core] | rw [State.onSys_core] | with_reducible rfl | intro _))

@[simp ↓] theorem State.takeSource_core (w : Nat) (s : State) : (State.takeSource w s).core = s.core := by
  unfold State.takeSource
  first
    | (simp; done)
    | (repeat' (first
        | (simp; done) | split | rw [State.foldl_core] | rw [foldl_fst_core] | rw [foldl_snd_core]
        | dsimp only | simp | rw [State.onSec_core] | rw [State.onSys_core] | with_reducible rfl | intro _))

@[simp ↓] theorem State.enterCoast_core (w : Nat) (s : State) : (State.enterCoast w s).core = s.core := by
  unfold State.enterCoast
  first
    | (simp; done)
    | (repeat' (first
        | (simp; done) | split | rw [State.foldl_core] | rw [foldl_fst_core] | rw [foldl_snd_core]
        | dsimp only | simp | rw [State.onSec_core] | rw [State.onSys_core] | with_reducible rfl | intro _))

@[simp ↓] theorem State.leaveRun_core (w : Nat) (s : State) : (State.leaveRun w s).core = s.core := by
  unfold State.leaveRun
  first
    | (simp; done)
    | (repeat' (first
        | (simp; done) | split | rw [State.foldl_core] | rw [foldl_fst_core] | rw [foldl_snd_core]
        | dsimp only | simp | rw [State.onSec_core] | rw [State.onSys_core] | with_reducible rfl | intro _))

@[simp ↓] theorem State.acceptIndex_core (w : Nat) (s : State) : (State.acceptIndex w s).core = s.core := by
  unfold State.acceptIndex
  first
    | (simp; done)
    | (repeat' (first
        | (simp; done) | split | rw [State.foldl_core] | rw [foldl_fst_core] | rw [foldl_snd_core]
        | dsimp only | simp | rw [State.onSec_core] | rw [State.onSys_core] | with_reducible rfl | intro _))

@[simp ↓] theorem State.missCheck_core (w : Nat) (s : State) : (State.missCheck w s).core = s.core := by
  unfold State.missCheck
  first
    | (simp; done)
    | (repeat' (first
        | (simp; done) | split | rw [State.foldl_core] | rw [foldl_fst_core] | rw [foldl_snd_core]
        | dsimp only | simp | rw [State.onSec_core] | rw [State.onSys_core] | with_reducible rfl | intro _))

@[simp ↓] theorem State.backEdge_core (followsFwd : Bool) (s : State) : (State.backEdge followsFwd s).core = s.core := by
  unfold State.backEdge
  extract_lets s1 pos s2
  have h : s2.core = s.core := by
    simp only [s2]
    split <;> simp [s1]
  clear_value s2
  split
  · dsimp only
    split
    · split <;> simp [h]
    · exact h
  · exact h

@[simp ↓] theorem State.edgeFire_core (wasRun : Bool) (ts : Nat) (s : State) : (State.edgeFire wasRun ts s).core = s.core := by
  unfold State.edgeFire
  first
    | (simp; done)
    | (repeat' (first
        | (simp; done) | split | rw [State.foldl_core] | rw [foldl_fst_core] | rw [foldl_snd_core]
        | dsimp only | simp | rw [State.onSec_core] | rw [State.onSys_core] | with_reducible rfl | intro _))

@[simp ↓] theorem State.wakeForEdge_core (s : State) : (State.wakeForEdge s).core = s.core := by
  unfold State.wakeForEdge
  first
    | (simp; done)
    | (repeat' (first
        | (simp; done) | split | rw [State.foldl_core] | rw [foldl_fst_core] | rw [foldl_snd_core]
        | dsimp only | simp | rw [State.onSec_core] | rw [State.onSys_core] | with_reducible rfl | intro _))

@[simp ↓] theorem State.coastEdge_core (w : Nat) (fwd : Bool) (ts : Nat) (s : State) : (State.coastEdge w fwd ts s).core = s.core := by
  unfold State.coastEdge
  first
    | (simp; done)
    | (repeat' (first
        | (simp; done) | split | rw [State.foldl_core] | rw [foldl_fst_core] | rw [foldl_snd_core]
        | dsimp only | simp | rw [State.onSec_core] | rw [State.onSys_core] | with_reducible rfl | intro _))

@[simp ↓] theorem State.wheelDiff_core (ts : Nat) (s : State) : (State.wheelDiff ts s).core = s.core := by
  unfold State.wheelDiff
  first
    | (simp; done)
    | (repeat' (first
        | (simp; done) | split | rw [State.foldl_core] | rw [foldl_fst_core] | rw [foldl_snd_core]
        | dsimp only | simp | rw [State.onSec_core] | rw [State.onSys_core] | with_reducible rfl | intro _))

@[simp ↓] theorem State.takeEdge_core (w : Nat) (fwd : Bool) (ts : Nat) (s : State) : (State.takeEdge w fwd ts s).core = s.core := by
  unfold State.takeEdge
  first
    | (simp; done)
    | (repeat' (first
        | (simp; done) | split | rw [State.foldl_core] | rw [foldl_fst_core] | rw [foldl_snd_core]
        | dsimp only | simp | rw [State.onSec_core] | rw [State.onSys_core] | with_reducible rfl | intro _))

@[simp ↓] theorem State.refEdge_core (w : Nat) (fwd : Bool) (ts : Nat) (s : State) : (State.refEdge w fwd ts s).core = s.core := by
  unfold State.refEdge
  first
    | (simp; done)
    | (repeat' (first
        | (simp; done) | split | rw [State.foldl_core] | rw [foldl_fst_core] | rw [foldl_snd_core]
        | dsimp only | simp | rw [State.onSec_core] | rw [State.onSys_core] | with_reducible rfl | intro _))

@[simp ↓] theorem State.onInput_core (w : Nat) (inputB : Bool) (f : WInput → WInput) (s : State) : (State.onInput w inputB f s).core = s.core := by
  unfold State.onInput
  first
    | (simp; done)
    | (repeat' (first
        | (simp; done) | split | rw [State.foldl_core] | rw [foldl_fst_core] | rw [foldl_snd_core]
        | dsimp only | simp | rw [State.onSec_core] | rw [State.onSys_core] | with_reducible rfl | intro _))

@[simp ↓] theorem State.takeTransition_core (w : Nat) (inputB level : Bool) (ts : Nat) (s : State) : (State.takeTransition w inputB level ts s).core = s.core := by
  unfold State.takeTransition
  first
    | (simp; done)
    | (repeat' (first
        | (simp; done) | split | rw [State.foldl_core] | rw [foldl_fst_core] | rw [foldl_snd_core]
        | dsimp only | simp | rw [State.onSec_core] | rw [State.onSys_core] | with_reducible rfl | intro _))

/-! ### HoldOps -/

@[simp ↓] theorem State.openEst_core (image : Nat) (s : State) : (State.openEst image s).core = s.core := by
  unfold State.openEst
  first
    | (simp; done)
    | (repeat' (first
        | (simp; done) | split | rw [State.foldl_core] | rw [foldl_fst_core] | rw [foldl_snd_core]
        | dsimp only | simp | rw [State.onSec_core] | rw [State.onSys_core] | with_reducible rfl | intro _))

@[simp ↓] theorem State.onEst_core (image : Nat) (f : Est → Est) (s : State) : (State.onEst image f s).core = s.core := by
  unfold State.onEst
  first
    | (simp; done)
    | (repeat' (first
        | (simp; done) | split | rw [State.foldl_core] | rw [foldl_fst_core] | rw [foldl_snd_core]
        | dsimp only | simp | rw [State.onSec_core] | rw [State.onSys_core] | with_reducible rfl | intro _))

@[simp ↓] theorem State.judgeLimit_core (key c : Nat) (s : State) : (State.judgeLimit key c s).core = s.core := by
  unfold State.judgeLimit
  first
    | (simp; done)
    | (repeat' (first
        | (simp; done) | split | rw [State.foldl_core] | rw [foldl_fst_core] | rw [foldl_snd_core]
        | dsimp only | simp | rw [State.onSec_core] | rw [State.onSys_core] | with_reducible rfl | intro _))

@[simp ↓] theorem State.judgeOsc_core (key : Nat) (step : Int) (s : State) : (State.judgeOsc key step s).core = s.core := by
  unfold State.judgeOsc
  first
    | (simp; done)
    | (repeat' (first
        | (simp; done) | split | rw [State.foldl_core] | rw [foldl_fst_core] | rw [foldl_snd_core]
        | dsimp only | simp | rw [State.onSec_core] | rw [State.onSys_core] | with_reducible rfl | intro _))

@[simp ↓] theorem State.updateCell_core (k : Nat) (x : WitSum) (s : State) : (State.updateCell k x s).core = s.core := by
  unfold State.updateCell
  first
    | (simp; done)
    | (repeat' (first
        | (simp; done) | split | rw [State.foldl_core] | rw [foldl_fst_core] | rw [foldl_snd_core]
        | dsimp only | simp | rw [State.onSec_core] | rw [State.onSys_core] | with_reducible rfl | intro _))

@[simp ↓] theorem State.updatePapers_core (ps : List PaperSum) (s : State) : (State.updatePapers ps s).core = s.core := by
  unfold State.updatePapers
  first
    | (simp; done)
    | (repeat' (first
        | (simp; done) | split | rw [State.foldl_core] | rw [foldl_fst_core] | rw [foldl_snd_core]
        | dsimp only | simp | rw [State.onSec_core] | rw [State.onSys_core] | with_reducible rfl | intro _))

@[simp ↓] theorem State.judgeAlarm_core (xs : List WitSum) (s : State) (i : Nat) : (State.judgeAlarm xs s i).core = s.core := by
  unfold State.judgeAlarm
  first
    | (simp; done)
    | (repeat' (first
        | (simp; done) | split | rw [State.foldl_core] | rw [foldl_fst_core] | rw [foldl_snd_core]
        | dsimp only | simp | rw [State.onSec_core] | rw [State.onSys_core] | with_reducible rfl | intro _))

@[simp ↓] theorem State.closeEst_core (e : Est) (s : State) : (State.closeEst e s).core = s.core := by
  unfold State.closeEst
  first
    | (simp; done)
    | (repeat' (first
        | (simp; done) | split | rw [State.foldl_core] | rw [foldl_fst_core] | rw [foldl_snd_core]
        | dsimp only | simp | rw [State.onSec_core] | rw [State.onSys_core] | with_reducible rfl | intro _))

@[simp ↓] theorem State.closeEsts_core (s : State) : (State.closeEsts s).core = s.core := by
  unfold State.closeEsts
  first
    | (simp; done)
    | (repeat' (first
        | (simp; done) | split | rw [State.foldl_core] | rw [foldl_fst_core] | rw [foldl_snd_core]
        | dsimp only | simp | rw [State.onSec_core] | rw [State.onSys_core] | with_reducible rfl | intro _))

@[simp ↓] theorem State.noteReach_core (p image line : Nat) (s : State) : (State.noteReach p image line s).core = s.core := by
  unfold State.noteReach
  first
    | (simp; done)
    | (repeat' (first
        | (simp; done) | split | rw [State.foldl_core] | rw [foldl_fst_core] | rw [foldl_snd_core]
        | dsimp only | simp | rw [State.onSec_core] | rw [State.onSys_core] | with_reducible rfl | intro _))

@[simp ↓] theorem State.takeMeasFor_core (k : Nat) (s : State) : (State.takeMeasFor k s).core = s.core := by
  unfold State.takeMeasFor
  first
    | (simp; done)
    | (repeat' (first
        | (simp; done) | split | rw [State.foldl_core] | rw [foldl_fst_core] | rw [foldl_snd_core]
        | dsimp only | simp | rw [State.onSec_core] | rw [State.onSys_core] | with_reducible rfl | intro _))

/-! ### CalOps -/

@[simp ↓] theorem State.measLine_core (p gen : Nat) (vals : List (List Nat)) (s : State) : (State.measLine p gen vals s).core = s.core := by
  unfold State.measLine
  first
    | (simp; done)
    | (repeat' (first
        | (simp; done) | split | rw [State.foldl_core] | rw [foldl_fst_core] | rw [foldl_snd_core]
        | dsimp only | simp | rw [State.onSec_core] | rw [State.onSys_core] | with_reducible rfl | intro _))

@[simp ↓] theorem State.endRun_core (p status : Nat) (s : State) : (State.endRun p status s).core = s.core := by
  unfold State.endRun
  first
    | (simp; done)
    | (repeat' (first
        | (simp; done) | split | rw [State.foldl_core] | rw [foldl_fst_core] | rw [foldl_snd_core]
        | dsimp only | simp | rw [State.onSec_core] | rw [State.onSys_core] | with_reducible rfl | intro _))

@[simp ↓] theorem State.acceptRun_core (p : Nat) (kc t : List Nat) (s : State) : (State.acceptRun p kc t s).core = s.core := by
  unfold State.acceptRun
  first
    | (simp; done)
    | (repeat' (first
        | (simp; done) | split | rw [State.foldl_core] | rw [foldl_fst_core] | rw [foldl_snd_core]
        | dsimp only | simp | rw [State.onSec_core] | rw [State.onSys_core] | with_reducible rfl | intro _))

@[simp ↓] theorem State.discardRun_core (p : Nat) (s : State) : (State.discardRun p s).core = s.core := by
  unfold State.discardRun
  first
    | (simp; done)
    | (repeat' (first
        | (simp; done) | split | rw [State.foldl_core] | rw [foldl_fst_core] | rw [foldl_snd_core]
        | dsimp only | simp | rw [State.onSec_core] | rw [State.onSys_core] | with_reducible rfl | intro _))

@[simp ↓] theorem State.endMeas_core (p : Nat) (s : State) : (State.endMeas p s).core = s.core := by
  unfold State.endMeas
  first
    | (simp; done)
    | (repeat' (first
        | (simp; done) | split | rw [State.foldl_core] | rw [foldl_fst_core] | rw [foldl_snd_core]
        | dsimp only | simp | rw [State.onSec_core] | rw [State.onSys_core] | with_reducible rfl | intro _))

@[simp ↓] theorem State.settleCal_core (p : Nat) (s : State) : (State.settleCal p s).core = s.core := by
  unfold State.settleCal
  first
    | (simp; done)
    | (repeat' (first
        | (simp; done) | split | rw [State.foldl_core] | rw [foldl_fst_core] | rw [foldl_snd_core]
        | dsimp only | simp | rw [State.onSec_core] | rw [State.onSys_core] | with_reducible rfl | intro _))

@[simp ↓] theorem State.noteGap_core (p : Nat) (what : LineOver) (s : State) : (State.noteGap p what s).core = s.core := by
  unfold State.noteGap
  first
    | (simp; done)
    | (repeat' (first
        | (simp; done) | split | rw [State.foldl_core] | rw [foldl_fst_core] | rw [foldl_snd_core]
        | dsimp only | simp | rw [State.onSec_core] | rw [State.onSys_core] | with_reducible rfl | intro _))

@[simp ↓] theorem State.calLine_core (p : Nat) (what : LineOver) (vals : List (List Nat)) (gen : Nat) (valid : Bool) (s : State) : (State.calLine p what vals gen valid s).core = s.core := by
  unfold State.calLine
  first
    | (simp; done)
    | (repeat' (first
        | (simp; done) | split | rw [State.foldl_core] | rw [foldl_fst_core] | rw [foldl_snd_core]
        | dsimp only | simp | rw [State.onSec_core] | rw [State.onSys_core] | with_reducible rfl | intro _))

@[simp ↓] theorem State.calByTemp_core (p : Nat) (s : State) : (State.calByTemp p s).core = s.core := by
  unfold State.calByTemp
  first
    | (simp; done)
    | (repeat' (first
        | (simp; done) | split | rw [State.foldl_core] | rw [foldl_fst_core] | rw [foldl_snd_core]
        | dsimp only | simp | rw [State.onSec_core] | rw [State.onSys_core] | with_reducible rfl | intro _))

/-! ### SeeRec -/

@[simp ↓] theorem State.areaItem_core (port : Nat) (s : State) (x : UpItem) : (State.areaItem port s x).core = s.core := by
  unfold State.areaItem
  first
    | (simp; done)
    | (repeat' (first
        | (simp; done) | split | rw [State.foldl_core] | rw [foldl_fst_core] | rw [foldl_snd_core]
        | dsimp only | simp | rw [State.onSec_core] | rw [State.onSys_core] | with_reducible rfl | intro _))

@[simp ↓] theorem State.openUpload_core (port wrap level : Nat) (s : State) : (State.openUpload port wrap level s).core = s.core := by
  unfold State.openUpload
  first
    | (simp; done)
    | (repeat' (first
        | (simp; done) | split | rw [State.foldl_core] | rw [foldl_fst_core] | rw [foldl_snd_core]
        | dsimp only | simp | rw [State.onSec_core] | rw [State.onSys_core] | with_reducible rfl | intro _))

@[simp ↓] theorem State.putItem_core (port : Nat) (s : State) (x : UpItem) : (State.putItem port s x).core = s.core := by
  unfold State.putItem
  first
    | (simp; done)
    | (repeat' (first
        | (simp; done) | split | rw [State.foldl_core] | rw [foldl_fst_core] | rw [foldl_snd_core]
        | dsimp only | simp | rw [State.onSec_core] | rw [State.onSys_core] | with_reducible rfl | intro _))

@[simp ↓] theorem State.dropUpload_core (port : Nat) (s : State) : (State.dropUpload port s).core = s.core := by
  unfold State.dropUpload
  first
    | (simp; done)
    | (repeat' (first
        | (simp; done) | split | rw [State.foldl_core] | rw [foldl_fst_core] | rw [foldl_snd_core]
        | dsimp only | simp | rw [State.onSec_core] | rw [State.onSys_core] | with_reducible rfl | intro _))

@[simp ↓] theorem State.writeItem_core (port tap : Nat) (data : List Byte) (s : State) : (State.writeItem port tap data s).core = s.core := by
  unfold State.writeItem
  first
    | (simp; done)
    | (repeat' (first
        | (simp; done) | split | rw [State.foldl_core] | rw [foldl_fst_core] | rw [foldl_snd_core]
        | dsimp only | simp | rw [State.onSec_core] | rw [State.onSys_core] | with_reducible rfl | intro _))

@[simp ↓] theorem State.flushItems_core (s : State) : (State.flushItems s).core = s.core := by
  unfold State.flushItems
  first
    | (simp; done)
    | (repeat' (first
        | (simp; done) | split | rw [State.foldl_core] | rw [foldl_fst_core] | rw [foldl_snd_core]
        | dsimp only | simp | rw [State.onSec_core] | rw [State.onSys_core] | with_reducible rfl | intro _))

@[simp ↓] theorem State.judgeUpload_core (port : Nat) (s : State) : (State.judgeUpload port s).core = s.core := by
  unfold State.judgeUpload
  first
    | (simp; done)
    | (repeat' (first
        | (simp; done) | split | rw [State.foldl_core] | rw [foldl_fst_core] | rw [foldl_snd_core]
        | dsimp only | simp | rw [State.onSec_core] | rw [State.onSys_core] | with_reducible rfl | intro _))

@[simp ↓] theorem State.tapBytes_core (port tap : Nat) (bs : List Byte) (s : State) : (State.tapBytes port tap bs s).core = s.core := by
  unfold State.tapBytes
  first
    | (simp; done)
    | (repeat' (first
        | (simp; done) | split | rw [State.foldl_core] | rw [foldl_fst_core] | rw [foldl_snd_core]
        | dsimp only | simp | rw [State.onSec_core] | rw [State.onSys_core] | with_reducible rfl | intro _))

@[simp ↓] theorem State.presentRec_core (marks : Bool) (streaks : List (Nat × Nat × Nat × Nat)) (s : State) : (State.presentRec marks streaks s).core = s.core := by
  unfold State.presentRec
  first
    | (simp; done)
    | (repeat' (first
        | (simp; done) | split | rw [State.foldl_core] | rw [foldl_fst_core] | rw [foldl_snd_core]
        | dsimp only | simp | rw [State.onSec_core] | rw [State.onSys_core] | with_reducible rfl | intro _))

@[simp ↓] theorem State.writeRec_core (port : Nat) (last : Bool) (s : State) : (State.writeRec port last s).core = s.core := by
  unfold State.writeRec
  first
    | (simp; done)
    | (repeat' (first
        | (simp; done) | split | rw [State.foldl_core] | rw [foldl_fst_core] | rw [foldl_snd_core]
        | dsimp only | simp | rw [State.onSec_core] | rw [State.onSys_core] | with_reducible rfl | intro _))

end Sys2Proof.Machine
end

