-- ==== Sys2Proof/Laws/Core9.lean ====
section
/-! SUPPORT. The shared operations of Dfl, SecOps, DomainOps, Memory leave the core of the state as it is. -/

set_option Elab.async false

namespace Sys2Proof.Machine

/-! ### Dfl -/

@[simp ↓] theorem State.failCtx_core (n code : Nat) (s : State) : (State.failCtx n code s).core = s.core := by
  unfold State.failCtx
  first
    | (simp; done)
    | (repeat' (first
        | (simp; done) | split | rw [State.foldl_core] | rw [foldl_fst_core] | rw [foldl_snd_core]
        | dsimp only | simp | rw [State.onSec_core] | rw [State.onSys_core] | with_reducible rfl | intro _))

@[simp ↓] theorem State.dflPace_core (c : Ctx) (s : State) : (State.dflPace c s).core = s.core := by
  unfold State.dflPace
  first
    | (simp; done)
    | (repeat' (first
        | (simp; done) | split | rw [State.foldl_core] | rw [foldl_fst_core] | rw [foldl_snd_core]
        | dsimp only | simp | rw [State.onSec_core] | rw [State.onSys_core] | with_reducible rfl | intro _))

@[simp ↓] theorem State.workCtx_core (n : Nat) (c : Ctx) (s : State) : (State.workCtx n c s).core = s.core := by
  unfold State.workCtx
  first
    | (simp; done)
    | (repeat' (first
        | (simp; done) | split | rw [State.foldl_core] | rw [foldl_fst_core] | rw [foldl_snd_core]
        | dsimp only | simp | rw [State.onSec_core] | rw [State.onSys_core] | with_reducible rfl | intro _))

@[simp ↓] theorem State.runCtx_core (n : Nat) (s : State) : (State.runCtx n s).core = s.core := by
  unfold State.runCtx
  split
  · rfl
  · rename_i c _
    extract_lets at_
    have h : ∀ r, at_ = some r → r.2.core = s.core := by
      intro r hr
      simp only [at_] at hr
      split at hr
      · cases hr; rfl
      · exact State.findSlot_core n s r hr
    clear_value at_
    split
    · rfl
    · rename_i r
      have h := h r rfl
      dsimp only
      split <;> simp [h]

@[simp ↓] theorem State.settleSlots_core (n : Nat) (s : State) : (State.settleSlots n s).core = s.core := by
  induction n generalizing s with
  | zero => rfl
  | succ k ih =>
    simp only [State.settleSlots]
    split
    · rfl
    · rw [ih]
      repeat' (first | (simp; done) | split)

@[simp ↓] theorem State.ctxGranted_core (n : Nat) (s : State) : (State.ctxGranted n s).core = s.core := by
  unfold State.ctxGranted
  first
    | (simp; done)
    | (repeat' (first
        | (simp; done) | split | rw [State.foldl_core] | rw [foldl_fst_core] | rw [foldl_snd_core]
        | dsimp only | simp | rw [State.onSec_core] | rw [State.onSys_core] | with_reducible rfl | intro _))

@[simp ↓] theorem execDflContextOpen_core (dt : Nat) (ctx : Fin 128) (wrap level : Nat) (deflate : Bool) (expect : Nat) (s : State) : Keeps s (execDflContextOpen dt ctx wrap level deflate expect s) := by
  unfold execDflContextOpen
  first
    | (simp; done)
    | (repeat' (first
        | (simp; done) | split | rw [State.foldl_core] | rw [foldl_fst_core] | rw [foldl_snd_core]
        | dsimp only | simp | rw [State.onSec_core] | rw [State.onSys_core] | with_reducible rfl | intro _))

@[simp ↓] theorem State.goOn_core (n : Nat) (s : State) : (State.goOn n s).core = s.core := by
  unfold State.goOn
  first
    | (simp; done)
    | (repeat' (first
        | (simp; done) | split | rw [State.foldl_core] | rw [foldl_fst_core] | rw [foldl_snd_core]
        | dsimp only | simp | rw [State.onSec_core] | rw [State.onSys_core] | with_reducible rfl | intro _))

@[simp ↓] theorem execDflInputArrive_core (dt : Nat) (ctx : Fin 128) (data : List Byte) (flush : Nat) (s : State) : Keeps s (execDflInputArrive dt ctx data flush s) := by
  unfold execDflInputArrive
  first
    | (simp; done)
    | (repeat' (first
        | (simp; done) | split | rw [State.foldl_core] | rw [foldl_fst_core] | rw [foldl_snd_core]
        | dsimp only | simp | rw [State.onSec_core] | rw [State.onSys_core] | with_reducible rfl | intro _))

@[simp ↓] theorem execDflOutputBuffer_core (dt : Nat) (ctx : Fin 128) (room : Nat) (s : State) : Keeps s (execDflOutputBuffer dt ctx room s) := by
  unfold execDflOutputBuffer
  first
    | (simp; done)
    | (repeat' (first
        | (simp; done) | split | rw [State.foldl_core] | rw [foldl_fst_core] | rw [foldl_snd_core]
        | dsimp only | simp | rw [State.onSec_core] | rw [State.onSys_core] | with_reducible rfl | intro _))

@[simp ↓] theorem execSaveArea_core (dt : Nat) (s : State) : Keeps s (execSaveArea dt s) := by
  unfold execSaveArea
  first
    | (simp; done)
    | (repeat' (first
        | (simp; done) | split | rw [State.foldl_core] | rw [foldl_fst_core] | rw [foldl_snd_core]
        | dsimp only | simp | rw [State.onSec_core] | rw [State.onSys_core] | with_reducible rfl | intro _))

@[simp ↓] theorem State.askSaveArea_core (s : State) : (State.askSaveArea s).core = s.core := by
  unfold State.askSaveArea
  first
    | (simp; done)
    | (repeat' (first
        | (simp; done) | split | rw [State.foldl_core] | rw [foldl_fst_core] | rw [foldl_snd_core]
        | dsimp only | simp | rw [State.onSec_core] | rw [State.onSys_core] | with_reducible rfl | intro _))

/-! ### SecOps -/

@[simp ↓] theorem State.readKeyRec_core (s : State) (k : Nat × Nat) : (State.readKeyRec s k).core = s.core := by
  unfold State.readKeyRec
  first
    | (simp; done)
    | (repeat' (first
        | (simp; done) | split | rw [State.foldl_core] | rw [foldl_fst_core] | rw [foldl_snd_core]
        | dsimp only | simp | rw [State.onSec_core] | rw [State.onSys_core] | with_reducible rfl | intro _))

@[simp ↓] theorem State.readKeys_core (s : State) : (State.readKeys s).core = s.core := by
  unfold State.readKeys
  first
    | (simp; done)
    | (repeat' (first
        | (simp; done) | split | rw [State.foldl_core] | rw [foldl_fst_core] | rw [foldl_snd_core]
        | dsimp only | simp | rw [State.onSec_core] | rw [State.onSys_core] | with_reducible rfl | intro _))

@[simp ↓] theorem State.fwReject_core (comp cause : Nat) (s : State) : (State.fwReject comp cause s).core = s.core := by
  unfold State.fwReject
  first
    | (simp; done)
    | (repeat' (first
        | (simp; done) | split | rw [State.foldl_core] | rw [foldl_fst_core] | rw [foldl_snd_core]
        | dsimp only | simp | rw [State.onSec_core] | rw [State.onSys_core] | with_reducible rfl | intro _))

@[simp ↓] theorem State.fwAccept_core (comp svn : Nat) (fromB : Bool) (s : State) : (State.fwAccept comp svn fromB s).core = s.core := by
  unfold State.fwAccept
  first
    | (simp; done)
    | (repeat' (first
        | (simp; done) | split | rw [State.foldl_core] | rw [foldl_fst_core] | rw [foldl_snd_core]
        | dsimp only | simp | rw [State.onSec_core] | rw [State.onSys_core] | with_reducible rfl | intro _))

@[simp ↓] theorem State.lypStore_core (l : LypSlot) (s : State) : (State.lypStore l s).core = s.core := by
  unfold State.lypStore
  first
    | (simp; done)
    | (repeat' (first
        | (simp; done) | split | rw [State.foldl_core] | rw [foldl_fst_core] | rw [foldl_snd_core]
        | dsimp only | simp | rw [State.onSec_core] | rw [State.onSys_core] | with_reducible rfl | intro _))

/-! ### DomainOps -/

@[simp ↓] theorem State.failWaiting_core (d : Nat) (s : State) : (State.failWaiting d s).core = s.core := by
  unfold State.failWaiting
  first
    | (simp; done)
    | (repeat' (first
        | (simp; done) | split | rw [State.foldl_core] | rw [foldl_fst_core] | rw [foldl_snd_core]
        | dsimp only | simp | rw [State.onSec_core] | rw [State.onSys_core] | with_reducible rfl | intro _))

@[simp ↓] theorem State.refuseDomain_core (cause d : Nat) (s : State) : (State.refuseDomain cause d s).core = s.core := by
  unfold State.refuseDomain
  first
    | (simp; done)
    | (repeat' (first
        | (simp; done) | split | rw [State.foldl_core] | rw [foldl_fst_core] | rw [foldl_snd_core]
        | dsimp only | simp | rw [State.onSec_core] | rw [State.onSys_core] | with_reducible rfl | intro _))

@[simp ↓] theorem State.relight_core (b : Nat) (s : State) : (State.relight b s).core = s.core := by
  unfold State.relight
  first
    | (simp; done)
    | (repeat' (first
        | (simp; done) | split | rw [State.foldl_core] | rw [foldl_fst_core] | rw [foldl_snd_core]
        | dsimp only | simp | rw [State.onSec_core] | rw [State.onSys_core] | with_reducible rfl | intro _))

@[simp ↓] theorem State.domainIsOn_core (d : Nat) (s : State) : (State.domainIsOn d s).core = s.core := by
  unfold State.domainIsOn
  first
    | (simp; done)
    | (repeat' (first
        | (simp; done) | split | rw [State.foldl_core] | rw [foldl_fst_core] | rw [foldl_snd_core]
        | dsimp only | simp | rw [State.onSec_core] | rw [State.onSys_core] | with_reducible rfl | intro _))

@[simp ↓] theorem State.reboot_core (straps : Straps) (cause : Nat) (s : State) :
    (State.reboot straps cause s).core =
      (s.pending, straps, false, s.sec.lc, s.sec.pendingLc) := by
  unfold State.reboot
  extract_lets s1 s2 s3 r
  have h : s3.core = s.core := by
    simp only [s3]
    split <;> simp [s1, s2]
  have e : s3.pending = s.pending ∧ s3.sys.straps = s.sys.straps ∧ s3.sys.lock = s.sys.lock ∧ s3.sec.lc = s.sec.lc ∧ s3.sec.pendingLc = s.sec.pendingLc := by
    simpa only [State.core_def, Prod.mk.injEq] using h
  clear_value s3
  have k : r.sec.lc = s3.sec.lc ∧ r.sec.pendingLc = s3.sec.pendingLc ∧ r.sys.straps = straps ∧ r.sys.lock = false := ⟨rfl, rfl, rfl, rfl⟩
  clear_value r
  simp [coreOf, e, k]

/-! ### Memory -/

@[simp ↓] theorem execRefDue_core (dt : Nat) (channel : Fin 8) (s : State) : Keeps s (execRefDue dt channel s) := by
  unfold execRefDue
  first
    | (simp; done)
    | (repeat' (first
        | (simp; done) | split | rw [State.foldl_core] | rw [foldl_fst_core] | rw [foldl_snd_core]
        | dsimp only | simp | rw [State.onSec_core] | rw [State.onSys_core] | with_reducible rfl | intro _))

@[simp ↓] theorem State.setHot_core (n : Nat) (hot : Bool) (s : State) : (State.setHot n hot s).core = s.core := by
  unfold State.setHot
  first
    | (simp; done)
    | (repeat' (first
        | (simp; done) | split | rw [State.foldl_core] | rw [foldl_fst_core] | rw [foldl_snd_core]
        | dsimp only | simp | rw [State.onSec_core] | rw [State.onSys_core] | with_reducible rfl | intro _))

@[simp ↓] theorem State.judgeHot_core (n : Nat) (s : State) : (State.judgeHot n s).core = s.core := by
  unfold State.judgeHot
  first
    | (simp; done)
    | (repeat' (first
        | (simp; done) | split | rw [State.foldl_core] | rw [foldl_fst_core] | rw [foldl_snd_core]
        | dsimp only | simp | rw [State.onSec_core] | rw [State.onSys_core] | with_reducible rfl | intro _))

@[simp ↓] theorem State.judgeDramHot_core (s : State) : (State.judgeDramHot s).core = s.core := by
  unfold State.judgeDramHot
  first
    | (simp; done)
    | (repeat' (first
        | (simp; done) | split | rw [State.foldl_core] | rw [foldl_fst_core] | rw [foldl_snd_core]
        | dsimp only | simp | rw [State.onSec_core] | rw [State.onSys_core] | with_reducible rfl | intro _))

@[simp ↓] theorem State.judgeDram_core (s : State) : (State.judgeDram s).core = s.core := by
  unfold State.judgeDram
  first
    | (simp; done)
    | (repeat' (first
        | (simp; done) | split | rw [State.foldl_core] | rw [foldl_fst_core] | rw [foldl_snd_core]
        | dsimp only | simp | rw [State.onSec_core] | rw [State.onSys_core] | with_reducible rfl | intro _))

@[simp ↓] theorem State.joinRef_core (n : Nat) (cmd : DramCmd) (name : String) (s : State) : (State.joinRef n cmd name s).core = s.core := by
  unfold State.joinRef
  first
    | (simp; done)
    | (repeat' (first
        | (simp; done) | split | rw [State.foldl_core] | rw [foldl_fst_core] | rw [foldl_snd_core]
        | dsimp only | simp | rw [State.onSec_core] | rw [State.onSys_core] | with_reducible rfl | intro _))

@[simp ↓] theorem execMprTempRead_core (dt : Nat) (channel : Fin 8) (range : Nat) (ok : Bool) (s : State) : Keeps s (execMprTempRead dt channel range ok s) := by
  unfold execMprTempRead
  first
    | (simp; done)
    | (repeat' (first
        | (simp; done) | split | rw [State.foldl_core] | rw [foldl_fst_core] | rw [foldl_snd_core]
        | dsimp only | simp | rw [State.onSec_core] | rw [State.onSys_core] | with_reducible rfl | intro _))

@[simp ↓] theorem execZqCal_core (dt : Nat) (channel : Fin 8) (s : State) : Keeps s (execZqCal dt channel s) := by
  unfold execZqCal
  first
    | (simp; done)
    | (repeat' (first
        | (simp; done) | split | rw [State.foldl_core] | rw [foldl_fst_core] | rw [foldl_snd_core]
        | dsimp only | simp | rw [State.onSec_core] | rw [State.onSys_core] | with_reducible rfl | intro _))

@[simp ↓] theorem State.queueFix_core (n addr : Nat) (s : State) : (State.queueFix n addr s).core = s.core := by
  unfold State.queueFix
  first
    | (simp; done)
    | (repeat' (first
        | (simp; done) | split | rw [State.foldl_core] | rw [foldl_fst_core] | rw [foldl_snd_core]
        | dsimp only | simp | rw [State.onSec_core] | rw [State.onSys_core] | with_reducible rfl | intro _))

@[simp ↓] theorem State.correctable_core (n addr : Nat) (s : State) : (State.correctable n addr s).core = s.core := by
  unfold State.correctable
  extract_lets s1 s2 s3 lim above said s4
  have h : s4.core = s.core := by simp [s4, s3, s2, s1]
  clear_value s4
  split <;> simp [h]

@[simp ↓] theorem State.spoilRing_core (b id o : Nat) (s : State) : (State.spoilRing b id o s).core = s.core := by
  unfold State.spoilRing
  first
    | (simp; done)
    | (repeat' (first
        | (simp; done) | split | rw [State.foldl_core] | rw [foldl_fst_core] | rw [foldl_snd_core]
        | dsimp only | simp | rw [State.onSec_core] | rw [State.onSys_core] | with_reducible rfl | intro _))

@[simp ↓] theorem State.spoilStore_core (copy : Bool) (o : Nat) (s : State) : (State.spoilStore copy o s).core = s.core := by
  unfold State.spoilStore
  first
    | (simp; done)
    | (repeat' (first
        | (simp; done) | split | rw [State.foldl_core] | rw [foldl_fst_core] | rw [foldl_snd_core]
        | dsimp only | simp | rw [State.onSec_core] | rw [State.onSys_core] | with_reducible rfl | intro _))

@[simp ↓] theorem State.spoilCoverage_core (o : Nat) (s : State) : (State.spoilCoverage o s).core = s.core := by
  unfold State.spoilCoverage
  first
    | (simp; done)
    | (repeat' (first
        | (simp; done) | split | rw [State.foldl_core] | rw [foldl_fst_core] | rw [foldl_snd_core]
        | dsimp only | simp | rw [State.onSec_core] | rw [State.onSys_core] | with_reducible rfl | intro _))

@[simp ↓] theorem State.spoilCovStore_core (copy : Bool) (o : Nat) (s : State) : (State.spoilCovStore copy o s).core = s.core := by
  unfold State.spoilCovStore
  first
    | (simp; done)
    | (repeat' (first
        | (simp; done) | split | rw [State.foldl_core] | rw [foldl_fst_core] | rw [foldl_snd_core]
        | dsimp only | simp | rw [State.onSec_core] | rw [State.onSys_core] | with_reducible rfl | intro _))

@[simp ↓] theorem State.spoilStats_core (ctx : Nat) (s : State) : (State.spoilStats ctx s).core = s.core := by
  unfold State.spoilStats
  first
    | (simp; done)
    | (repeat' (first
        | (simp; done) | split | rw [State.foldl_core] | rw [foldl_fst_core] | rw [foldl_snd_core]
        | dsimp only | simp | rw [State.onSec_core] | rw [State.onSys_core] | with_reducible rfl | intro _))

@[simp ↓] theorem State.spoilTally_core (o : Nat) (s : State) : (State.spoilTally o s).core = s.core := by
  unfold State.spoilTally
  first
    | (simp; done)
    | (repeat' (first
        | (simp; done) | split | rw [State.foldl_core] | rw [foldl_fst_core] | rw [foldl_snd_core]
        | dsimp only | simp | rw [State.onSec_core] | rw [State.onSys_core] | with_reducible rfl | intro _))

@[simp ↓] theorem State.spoilSaved_core (s : State) : (State.spoilSaved s).core = s.core := by
  unfold State.spoilSaved
  first
    | (simp; done)
    | (repeat' (first
        | (simp; done) | split | rw [State.foldl_core] | rw [foldl_fst_core] | rw [foldl_snd_core]
        | dsimp only | simp | rw [State.onSec_core] | rw [State.onSys_core] | with_reducible rfl | intro _))

@[simp ↓] theorem State.spoilHeld_core (addr : Nat) (s : State) : (State.spoilHeld addr s).core = s.core := by
  unfold State.spoilHeld
  first
    | (simp; done)
    | (repeat' (first
        | (simp; done) | split | rw [State.foldl_core] | rw [foldl_fst_core] | rw [foldl_snd_core]
        | dsimp only | simp | rw [State.onSec_core] | rw [State.onSys_core] | with_reducible rfl | intro _))

@[simp ↓] theorem State.spoil_core (addr : Nat) (s : State) : (State.spoil addr s).core = s.core := by
  unfold State.spoil
  first
    | (simp; done)
    | (repeat' (first
        | (simp; done) | split | rw [State.foldl_core] | rw [foldl_fst_core] | rw [foldl_snd_core]
        | dsimp only | simp | rw [State.onSec_core] | rw [State.onSys_core] | with_reducible rfl | intro _))

@[simp ↓] theorem State.uncorrectable_core (n addr : Nat) (s : State) : (State.uncorrectable n addr s).core = s.core := by
  unfold State.uncorrectable
  first
    | (simp; done)
    | (repeat' (first
        | (simp; done) | split | rw [State.foldl_core] | rw [foldl_fst_core] | rw [foldl_snd_core]
        | dsimp only | simp | rw [State.onSec_core] | rw [State.onSys_core] | with_reducible rfl | intro _))

@[simp ↓] theorem State.poisonRead_core (n word : Nat) (s : State) : (State.poisonRead n word s).core = s.core := by
  unfold State.poisonRead
  first
    | (simp; done)
    | (repeat' (first
        | (simp; done) | split | rw [State.foldl_core] | rw [foldl_fst_core] | rw [foldl_snd_core]
        | dsimp only | simp | rw [State.onSec_core] | rw [State.onSys_core] | with_reducible rfl | intro _))

@[simp ↓] theorem State.parityError_core (n : Nat) (s : State) : (State.parityError n s).core = s.core := by
  unfold State.parityError
  first
    | (simp; done)
    | (repeat' (first
        | (simp; done) | split | rw [State.foldl_core] | rw [foldl_fst_core] | rw [foldl_snd_core]
        | dsimp only | simp | rw [State.onSec_core] | rw [State.onSys_core] | with_reducible rfl | intro _))

@[simp ↓] theorem State.discarded_core (n : Nat) (read : Option Nat) (s : State) : (State.discarded n read s).2.core = s.core := by
  unfold State.discarded
  first
    | (simp; done)
    | (repeat' (first
        | (simp; done) | split | rw [State.foldl_core] | rw [foldl_fst_core] | rw [foldl_snd_core]
        | dsimp only | simp | rw [State.onSec_core] | rw [State.onSys_core] | with_reducible rfl | intro _))

@[simp ↓] theorem State.replayCommands_core (n k : Nat) (s : State) : (State.replayCommands n k s).core = s.core := by
  unfold State.replayCommands
  first
    | (simp; done)
    | (repeat' (first
        | (simp; done) | split | rw [State.foldl_core] | rw [foldl_fst_core] | rw [foldl_snd_core]
        | dsimp only | simp | rw [State.onSec_core] | rw [State.onSys_core] | with_reducible rfl | intro _))

@[simp ↓] theorem execCaParityAlert_core (dt : Nat) (alert : ParityAlert) (s : State) : Keeps s (execCaParityAlert dt alert s) := by
  unfold execCaParityAlert
  first
    | (simp; done)
    | (repeat' (first
        | (simp; done) | split | rw [State.foldl_core] | rw [foldl_fst_core] | rw [foldl_snd_core]
        | dsimp only | simp | rw [State.onSec_core] | rw [State.onSys_core] | with_reducible rfl | intro _))

@[simp ↓] theorem State.readWord_core (n word errors : Nat) (s : State) : (State.readWord n word errors s).core = s.core := by
  unfold State.readWord
  first
    | (simp; done)
    | (repeat' (first
        | (simp; done) | split | rw [State.foldl_core] | rw [foldl_fst_core] | rw [foldl_snd_core]
        | dsimp only | simp | rw [State.onSec_core] | rw [State.onSys_core] | with_reducible rfl | intro _))

@[simp ↓] theorem State.returnColumn_core (n word : Nat) (s : State) : (State.returnColumn n word s).core = s.core := by
  unfold State.returnColumn
  first
    | (simp; done)
    | (repeat' (first
        | (simp; done) | split | rw [State.foldl_core] | rw [foldl_fst_core] | rw [foldl_snd_core]
        | dsimp only | simp | rw [State.onSec_core] | rw [State.onSys_core] | with_reducible rfl | intro _))

@[simp ↓] theorem execDramReadReturn_core (dt : Nat) (channel : Fin 8) (addr errors : Nat) (s : State) : Keeps s (execDramReadReturn dt channel addr errors s) := by
  unfold execDramReadReturn
  first
    | (simp; done)
    | (repeat' (first
        | (simp; done) | split | rw [State.foldl_core] | rw [foldl_fst_core] | rw [foldl_snd_core]
        | dsimp only | simp | rw [State.onSec_core] | rw [State.onSys_core] | with_reducible rfl | intro _))

@[simp ↓] theorem execDramWordTest_core (dt : Nat) (addr : Nat) (lasting : Bool) (s : State) : Keeps s (execDramWordTest dt addr lasting s) := by
  unfold execDramWordTest
  first
    | (simp; done)
    | (repeat' (first
        | (simp; done) | split | rw [State.foldl_core] | rw [foldl_fst_core] | rw [foldl_snd_core]
        | dsimp only | simp | rw [State.onSec_core] | rw [State.onSys_core] | with_reducible rfl | intro _))

@[simp ↓] theorem State.scrubAsk_core (s : State) : (State.scrubAsk s).core = s.core := by
  unfold State.scrubAsk
  first
    | (simp; done)
    | (repeat' (first
        | (simp; done) | split | rw [State.foldl_core] | rw [foldl_fst_core] | rw [foldl_snd_core]
        | dsimp only | simp | rw [State.onSec_core] | rw [State.onSys_core] | with_reducible rfl | intro _))

@[simp ↓] theorem execScrubPage_core (dt : Nat) (errors uncorrectable : List Nat) (s : State) : Keeps s (execScrubPage dt errors uncorrectable s) := by
  unfold execScrubPage
  first
    | (simp; done)
    | (repeat' (first
        | (simp; done) | split | rw [State.foldl_core] | rw [foldl_fst_core] | rw [foldl_snd_core]
        | dsimp only | simp | rw [State.onSec_core] | rw [State.onSys_core] | with_reducible rfl | intro _))

@[simp ↓] theorem execScrubLate_core (dt : Nat) (s : State) : Keeps s (execScrubLate dt s) := by
  unfold execScrubLate
  first
    | (simp; done)
    | (repeat' (first
        | (simp; done) | split | rw [State.foldl_core] | rw [foldl_fst_core] | rw [foldl_snd_core]
        | dsimp only | simp | rw [State.onSec_core] | rw [State.onSys_core] | with_reducible rfl | intro _))

@[simp ↓] theorem execSelfRefreshEntry_core (dt : Nat) (s : State) : Keeps s (execSelfRefreshEntry dt s) := by
  unfold execSelfRefreshEntry
  first
    | (simp; done)
    | (repeat' (first
        | (simp; done) | split | rw [State.foldl_core] | rw [foldl_fst_core] | rw [foldl_snd_core]
        | dsimp only | simp | rw [State.onSec_core] | rw [State.onSys_core] | with_reducible rfl | intro _))

@[simp ↓] theorem State.exitSelfRefresh_core (s : State) : (State.exitSelfRefresh s).core = s.core := by
  unfold State.exitSelfRefresh
  first
    | (simp; done)
    | (repeat' (first
        | (simp; done) | split | rw [State.foldl_core] | rw [foldl_fst_core] | rw [foldl_snd_core]
        | dsimp only | simp | rw [State.onSec_core] | rw [State.onSys_core] | with_reducible rfl | intro _))

@[simp ↓] theorem execSelfRefreshExit_core (dt : Nat) (s : State) : Keeps s (execSelfRefreshExit dt s) := by
  unfold execSelfRefreshExit
  first
    | (simp; done)
    | (repeat' (first
        | (simp; done) | split | rw [State.foldl_core] | rw [foldl_fst_core] | rw [foldl_snd_core]
        | dsimp only | simp | rw [State.onSec_core] | rw [State.onSys_core] | with_reducible rfl | intro _))

@[simp ↓] theorem State.startTraining_core (s : State) : (State.startTraining s).core = s.core := by
  unfold State.startTraining
  first
    | (simp; done)
    | (repeat' (first
        | (simp; done) | split | rw [State.foldl_core] | rw [foldl_fst_core] | rw [foldl_snd_core]
        | dsimp only | simp | rw [State.onSec_core] | rw [State.onSys_core] | with_reducible rfl | intro _))

@[simp ↓] theorem State.endTraining_core (ok : List Bool) (s : State) (n : Nat) : (State.endTraining ok s n).core = s.core := by
  unfold State.endTraining
  first
    | (simp; done)
    | (repeat' (first
        | (simp; done) | split | rw [State.foldl_core] | rw [foldl_fst_core] | rw [foldl_snd_core]
        | dsimp only | simp | rw [State.onSec_core] | rw [State.onSys_core] | with_reducible rfl | intro _))

@[simp ↓] theorem execTrained_core (dt : Nat) (ok : List Bool) (s : State) : Keeps s (execTrained dt ok s) := by
  unfold execTrained
  first
    | (simp; done)
    | (repeat' (first
        | (simp; done) | split | rw [State.foldl_core] | rw [foldl_fst_core] | rw [foldl_snd_core]
        | dsimp only | simp | rw [State.onSec_core] | rw [State.onSys_core] | with_reducible rfl | intro _))

@[simp ↓] theorem execWipeDone_core (dt : Nat) (s : State) : Keeps s (execWipeDone dt s) := by
  unfold execWipeDone
  first
    | (simp; done)
    | (repeat' (first
        | (simp; done) | split | rw [State.foldl_core] | rw [foldl_fst_core] | rw [foldl_snd_core]
        | dsimp only | simp | rw [State.onSec_core] | rw [State.onSys_core] | with_reducible rfl | intro _))

@[simp ↓] theorem State.storeGeom_core (g : Nat) (s : State) : (State.storeGeom g s).core = s.core := by
  unfold State.storeGeom
  first
    | (simp; done)
    | (repeat' (first
        | (simp; done) | split | rw [State.foldl_core] | rw [foldl_fst_core] | rw [foldl_snd_core]
        | dsimp only | simp | rw [State.onSec_core] | rw [State.onSys_core] | with_reducible rfl | intro _))

@[simp ↓] theorem execMemcGeomWrite_core (dt : Nat) (data : Word) (s : State) : Keeps s (execMemcGeomWrite dt data s) := by
  unfold execMemcGeomWrite
  first
    | (simp; done)
    | (repeat' (first
        | (simp; done) | split | rw [State.foldl_core] | rw [foldl_fst_core] | rw [foldl_snd_core]
        | dsimp only | simp | rw [State.onSec_core] | rw [State.onSys_core] | with_reducible rfl | intro _))

@[simp ↓] theorem State.padSettle_core (s : State) : (State.padSettle s).core = s.core := by
  unfold State.padSettle
  first
    | (simp; done)
    | (repeat' (first
        | (simp; done) | split | rw [State.foldl_core] | rw [foldl_fst_core] | rw [foldl_snd_core]
        | dsimp only | simp | rw [State.onSec_core] | rw [State.onSys_core] | with_reducible rfl | intro _))

@[simp ↓] theorem execPaddockFree_core (dt : Nat) (region : Nat) (s : State) : Keeps s (execPaddockFree dt region s) := by
  unfold execPaddockFree
  first
    | (simp; done)
    | (repeat' (first
        | (simp; done) | split | rw [State.foldl_core] | rw [foldl_fst_core] | rw [foldl_snd_core]
        | dsimp only | simp | rw [State.onSec_core] | rw [State.onSys_core] | with_reducible rfl | intro _))

@[simp ↓] theorem execPageZeroDone_core (dt : Nat) (page : Nat) (s : State) : Keeps s (execPageZeroDone dt page s) := by
  unfold execPageZeroDone
  first
    | (simp; done)
    | (repeat' (first
        | (simp; done) | split | rw [State.foldl_core] | rw [foldl_fst_core] | rw [foldl_snd_core]
        | dsimp only | simp | rw [State.onSec_core] | rw [State.onSys_core] | with_reducible rfl | intro _))

@[simp ↓] theorem execPadRetire_core (dt : Nat) (data : Word) (s : State) : Keeps s (execPadRetire dt data s) := by
  unfold execPadRetire
  first
    | (simp; done)
    | (repeat' (first
        | (simp; done) | split | rw [State.foldl_core] | rw [foldl_fst_core] | rw [foldl_snd_core]
        | dsimp only | simp | rw [State.onSec_core] | rw [State.onSys_core] | with_reducible rfl | intro _))

end Sys2Proof.Machine
end

