-- ==== Sys2Proof/Laws/Core10.lean ====
section
/-! SUPPORT. The shared operations of Boot, SeeLine, See leave the core of the state as it is. -/

set_option Elab.async false

namespace Sys2Proof.Machine

/-! ### Boot -/

@[simp ↓] theorem execSramWipeDone_core (dt : Nat) (s : State) : Keeps s (execSramWipeDone dt s) := by
  unfold execSramWipeDone
  first
    | (simp; done)
    | (repeat' (first
        | (simp; done) | split | rw [State.foldl_core] | rw [foldl_fst_core] | rw [foldl_snd_core]
        | dsimp only | simp | rw [State.onSec_core] | rw [State.onSys_core] | with_reducible rfl | intro _))

@[simp ↓] theorem freeWords_core (n : Nat) (s : State) : (freeWords n s).2.core = s.core := by
  induction n generalizing s with
  | zero => rfl
  | succ n ih => simp [freeWords, ih]

@[simp ↓] theorem State.startC0_core (s : State) : (State.startC0 s).core = s.core := by
  unfold State.startC0
  extract_lets s1 s2 s3 r
  have h : s3.core = s.core := by simp [s3, s2, s1]
  clear_value s3
  split
  · exact h
  · simp [r, h]

@[simp ↓] theorem execC0ImageVerified_core (dt : Nat) (image : List Byte) (slotB : Bool) (s : State) : Keeps s (execC0ImageVerified dt image slotB s) := by
  unfold execC0ImageVerified
  first
    | (simp; done)
    | (repeat' (first
        | (simp; done) | split | rw [State.foldl_core] | rw [foldl_fst_core] | rw [foldl_snd_core]
        | dsimp only | simp | rw [State.onSec_core] | rw [State.onSys_core] | with_reducible rfl | intro _))

@[simp ↓] theorem State.startCore_core (s : State) (p : Nat × List Byte) : (State.startCore s p).core = s.core := by
  unfold State.startCore
  first
    | (simp; done)
    | (repeat' (first
        | (simp; done) | split | rw [State.foldl_core] | rw [foldl_fst_core] | rw [foldl_snd_core]
        | dsimp only | simp | rw [State.onSec_core] | rw [State.onSys_core] | with_reducible rfl | intro _))

@[simp ↓] theorem State.seedGeom_core (s : State) : (State.seedGeom s).core = s.core := by
  unfold State.seedGeom
  first
    | (simp; done)
    | (repeat' (first
        | (simp; done) | split | rw [State.foldl_core] | rw [foldl_fst_core] | rw [foldl_snd_core]
        | dsimp only | simp | rw [State.onSec_core] | rw [State.onSys_core] | with_reducible rfl | intro _))

@[simp ↓] theorem State.readRec_core (s : State) (k : Nat × Nat) : (State.readRec s k).core = s.core := by
  unfold State.readRec
  first
    | (simp; done)
    | (repeat' (first
        | (simp; done) | split | rw [State.foldl_core] | rw [foldl_fst_core] | rw [foldl_snd_core]
        | dsimp only | simp | rw [State.onSec_core] | rw [State.onSys_core] | with_reducible rfl | intro _))

@[simp ↓] theorem State.readRecords_core (s : State) : (State.readRecords s).core = s.core := by
  unfold State.readRecords
  first
    | (simp; done)
    | (repeat' (first
        | (simp; done) | split | rw [State.foldl_core] | rw [foldl_fst_core] | rw [foldl_snd_core]
        | dsimp only | simp | rw [State.onSec_core] | rw [State.onSys_core] | with_reducible rfl | intro _))

@[simp ↓] theorem execCoresStarted_core (dt : Nat) (images : List (List Byte)) (s : State) : Keeps s (execCoresStarted dt images s) := by
  unfold execCoresStarted
  first
    | (simp; done)
    | (repeat' (first
        | (simp; done) | split | rw [State.foldl_core] | rw [foldl_fst_core] | rw [foldl_snd_core]
        | dsimp only | simp | rw [State.onSec_core] | rw [State.onSys_core] | with_reducible rfl | intro _))

@[simp ↓] theorem State.raiseSvn_core (s : State) (c : Nat) : (State.raiseSvn s c).core = s.core := by
  unfold State.raiseSvn
  first
    | (simp; done)
    | (repeat' (first
        | (simp; done) | split | rw [State.foldl_core] | rw [foldl_fst_core] | rw [foldl_snd_core]
        | dsimp only | simp | rw [State.onSec_core] | rw [State.onSys_core] | with_reducible rfl | intro _))

@[simp ↓] theorem State.askCores_core (s : State) : (State.askCores s).core = s.core := by
  unfold State.askCores
  first
    | (simp; done)
    | (repeat' (first
        | (simp; done) | split | rw [State.foldl_core] | rw [foldl_fst_core] | rw [foldl_snd_core]
        | dsimp only | simp | rw [State.onSec_core] | rw [State.onSys_core] | with_reducible rfl | intro _))

@[simp ↓] theorem execDeviceReady_core (dt : Nat) (s : State) : Keeps s (execDeviceReady dt s) := by
  unfold execDeviceReady
  first
    | (simp; done)
    | (repeat' (first
        | (simp; done) | split | rw [State.foldl_core] | rw [foldl_fst_core] | rw [foldl_snd_core]
        | dsimp only | simp | rw [State.onSec_core] | rw [State.onSys_core] | with_reducible rfl | intro _))

/-! ### SeeLine -/

@[simp ↓] theorem State.imageLine_core (port : Nat) (p : Span) (y line : Nat) (s : State) : (State.imageLine port p y line s).1.core = s.core := by
  unfold State.imageLine
  first
    | (simp; done)
    | (repeat' (first
        | (simp; done) | split | rw [State.foldl_core] | rw [foldl_fst_core] | rw [foldl_snd_core]
        | dsimp only | simp | rw [State.onSec_core] | rw [State.onSys_core] | with_reducible rfl | intro _))

@[simp ↓] theorem State.addGutter_core (ps : List PaperSum) (s : State) : (State.addGutter ps s).core = s.core := by
  unfold State.addGutter
  first
    | (simp; done)
    | (repeat' (first
        | (simp; done) | split | rw [State.foldl_core] | rw [foldl_fst_core] | rw [foldl_snd_core]
        | dsimp only | simp | rw [State.onSec_core] | rw [State.onSys_core] | with_reducible rfl | intro _))

@[simp ↓] theorem State.registerLine_core (port number : Nat) (w : Int) (dpc : Nat) (vals : List (List Nat)) (s : State) : (State.registerLine port number w dpc vals s).core = s.core := by
  unfold State.registerLine
  first
    | (simp; done)
    | (repeat' (first
        | (simp; done) | split | rw [State.foldl_core] | rw [foldl_fst_core] | rw [foldl_snd_core]
        | dsimp only | simp | rw [State.onSec_core] | rw [State.onSys_core] | with_reducible rfl | intro _))

@[simp ↓] theorem State.finishLine_core (port : Nat) (s : State) (h : HistLine) : (State.finishLine port s h).core = s.core := by
  unfold State.finishLine
  first
    | (simp; done)
    | (repeat' (first
        | (simp; done) | split | rw [State.foldl_core] | rw [foldl_fst_core] | rw [foldl_snd_core]
        | dsimp only | simp | rw [State.onSec_core] | rw [State.onSys_core] | with_reducible rfl | intro _))

@[simp ↓] theorem State.takeLine_core (port : Nat) (s : State) : (State.takeLine port s).core = s.core := by
  unfold State.takeLine
  first
    | (simp; done)
    | (repeat' (first
        | (simp; done) | split | rw [State.foldl_core] | rw [foldl_fst_core] | rw [foldl_snd_core]
        | dsimp only | simp | rw [State.onSec_core] | rw [State.onSys_core] | with_reducible rfl | intro _))

@[simp ↓] theorem State.busyPaces_core (n at_ : Nat) (s : State) : (State.busyPaces n at_ s).2.core = s.core := by
  induction n generalizing at_ s with
  | zero => rfl
  | succ n ih => simp [State.busyPaces, ih]

@[simp ↓] theorem State.pipeTakes_core (v ctx : Nat) (s : State) : (State.pipeTakes v ctx s).core = s.core := by
  unfold State.pipeTakes
  first
    | (simp; done)
    | (repeat' (first
        | (simp; done) | split | rw [State.foldl_core] | rw [foldl_fst_core] | rw [foldl_snd_core]
        | dsimp only | simp | rw [State.onSec_core] | rw [State.onSys_core] | with_reducible rfl | intro _))

@[simp ↓] theorem State.pipeLine_core (v : Nat) (s : State) : (State.pipeLine v s).core = s.core := by
  unfold State.pipeLine
  first
    | (simp; done)
    | (repeat' (first
        | (simp; done) | split | rw [State.foldl_core] | rw [foldl_fst_core] | rw [foldl_snd_core]
        | dsimp only | simp | rw [State.onSec_core] | rw [State.onSys_core] | with_reducible rfl | intro _))

@[simp ↓] theorem State.drainPort_core (port : Nat) (s : State) : (State.drainPort port s).core = s.core := by
  unfold State.drainPort
  first
    | (simp; done)
    | (repeat' (first
        | (simp; done) | split | rw [State.foldl_core] | rw [foldl_fst_core] | rw [foldl_snd_core]
        | dsimp only | simp | rw [State.onSec_core] | rw [State.onSys_core] | with_reducible rfl | intro _))

@[simp ↓] theorem State.truncFrame_core (port : Nat) (s : State) : (State.truncFrame port s).core = s.core := by
  unfold State.truncFrame
  first
    | (simp; done)
    | (repeat' (first
        | (simp; done) | split | rw [State.foldl_core] | rw [foldl_fst_core] | rw [foldl_snd_core]
        | dsimp only | simp | rw [State.onSec_core] | rw [State.onSys_core] | with_reducible rfl | intro _))

@[simp ↓] theorem State.closeFrame_core (port : Nat) (s : State) : (State.closeFrame port s).core = s.core := by
  unfold State.closeFrame
  first
    | (simp; done)
    | (repeat' (first
        | (simp; done) | split | rw [State.foldl_core] | rw [foldl_fst_core] | rw [foldl_snd_core]
        | dsimp only | simp | rw [State.onSec_core] | rw [State.onSys_core] | with_reducible rfl | intro _))

@[simp ↓] theorem State.takeGains_core (port : Nat) (s : State) : (State.takeGains port s).core = s.core := by
  unfold State.takeGains
  first
    | (simp; done)
    | (repeat' (first
        | (simp; done) | split | rw [State.foldl_core] | rw [foldl_fst_core] | rw [foldl_snd_core]
        | dsimp only | simp | rw [State.onSec_core] | rw [State.onSys_core] | with_reducible rfl | intro _))

@[simp ↓] theorem State.startFrame_core (port : Nat) (s : State) : (State.startFrame port s).core = s.core := by
  unfold State.startFrame
  first
    | (simp; done)
    | (repeat' (first
        | (simp; done) | split | rw [State.foldl_core] | rw [foldl_fst_core] | rw [foldl_snd_core]
        | dsimp only | simp | rw [State.onSec_core] | rw [State.onSys_core] | with_reducible rfl | intro _))

/-! ### See -/

@[simp ↓] theorem State.camTable_core (ring slot op : Nat) (list : List PageEnt) (data : List Byte) (check : CamPort → List Byte → Bool) (hold : Nat × List Byte → CamPort → CamPort) (s : State) : (State.camTable ring slot op list data check hold s).core = s.core := by
  unfold State.camTable
  first
    | (simp; done)
    | (repeat' (first
        | (simp; done) | split | rw [State.foldl_core] | rw [foldl_fst_core] | rw [foldl_snd_core]
        | dsimp only | simp | rw [State.onSec_core] | rw [State.onSys_core] | with_reducible rfl | intro _))

@[simp ↓] theorem execCamCfgContext_core (dt : Nat) (ring : Fin 64) (slot : Nat) (list : List PageEnt) (data : List Byte) (s : State) : Keeps s (execCamCfgContext dt ring slot list data s) := by
  unfold execCamCfgContext
  first
    | (simp; done)
    | (repeat' (first
        | (simp; done) | split | rw [State.foldl_core] | rw [foldl_fst_core] | rw [foldl_snd_core]
        | dsimp only | simp | rw [State.onSec_core] | rw [State.onSys_core] | with_reducible rfl | intro _))

@[simp ↓] theorem execCamCfgDefect_core (dt : Nat) (ring : Fin 64) (slot : Nat) (list : List PageEnt) (data : List Byte) (s : State) : Keeps s (execCamCfgDefect dt ring slot list data s) := by
  unfold execCamCfgDefect
  first
    | (simp; done)
    | (repeat' (first
        | (simp; done) | split | rw [State.foldl_core] | rw [foldl_fst_core] | rw [foldl_snd_core]
        | dsimp only | simp | rw [State.onSec_core] | rw [State.onSys_core] | with_reducible rfl | intro _))

@[simp ↓] theorem execCamCfgShading_core (dt : Nat) (ring : Fin 64) (slot : Nat) (list : List PageEnt) (data : List Byte) (s : State) : Keeps s (execCamCfgShading dt ring slot list data s) := by
  unfold execCamCfgShading
  first
    | (simp; done)
    | (repeat' (first
        | (simp; done) | split | rw [State.foldl_core] | rw [foldl_fst_core] | rw [foldl_snd_core]
        | dsimp only | simp | rw [State.onSec_core] | rw [State.onSys_core] | with_reducible rfl | intro _))

@[simp ↓] theorem execCamCfgUpload_core (dt : Nat) (ring : Fin 64) (slot : Nat) (list : List PageEnt) (s : State) : Keeps s (execCamCfgUpload dt ring slot list s) := by
  unfold execCamCfgUpload
  first
    | (simp; done)
    | (repeat' (first
        | (simp; done) | split | rw [State.foldl_core] | rw [foldl_fst_core] | rw [foldl_snd_core]
        | dsimp only | simp | rw [State.onSec_core] | rw [State.onSys_core] | with_reducible rfl | intro _))

@[simp ↓] theorem State.i2cStart_core (bus : Nat) (s : State) (order : Nat) : (State.i2cStart bus s order).core = s.core := by
  unfold State.i2cStart
  first
    | (simp; done)
    | (repeat' (first
        | (simp; done) | split | rw [State.foldl_core] | rw [foldl_fst_core] | rw [foldl_snd_core]
        | dsimp only | simp | rw [State.onSec_core] | rw [State.onSys_core] | with_reducible rfl | intro _))

@[simp ↓] theorem State.i2cNext_core (bus : Nat) (s : State) : (State.i2cNext bus s).core = s.core := by
  unfold State.i2cNext
  first
    | (simp; done)
    | (repeat' (first
        | (simp; done) | split | rw [State.foldl_core] | rw [foldl_fst_core] | rw [foldl_snd_core]
        | dsimp only | simp | rw [State.onSec_core] | rw [State.onSys_core] | with_reducible rfl | intro _))

@[simp ↓] theorem execExposeSet_core (dt : Nat) (ring : Fin 64) (slot : Nat) (s : State) : Keeps s (execExposeSet dt ring slot s) := by
  unfold execExposeSet
  first
    | (simp; done)
    | (repeat' (first
        | (simp; done) | split | rw [State.foldl_core] | rw [foldl_fst_core] | rw [foldl_snd_core]
        | dsimp only | simp | rw [State.onSec_core] | rw [State.onSys_core] | with_reducible rfl | intro _))

@[simp ↓] theorem execI2cWriteDone_core (dt : Nat) (bus : Fin 2) (outcome : Fin 3) (s : State) : Keeps s (execI2cWriteDone dt bus outcome s) := by
  unfold execI2cWriteDone
  first
    | (simp; done)
    | (repeat' (first
        | (simp; done) | split | rw [State.foldl_core] | rw [foldl_fst_core] | rw [foldl_snd_core]
        | dsimp only | simp | rw [State.onSec_core] | rw [State.onSys_core] | with_reducible rfl | intro _))

@[simp ↓] theorem execSensorTempRead_core (dt : Nat) (port : Fin 6) (value : Word) (ok : Bool) (s : State) : Keeps s (execSensorTempRead dt port value ok s) := by
  unfold execSensorTempRead
  first
    | (simp; done)
    | (repeat' (first
        | (simp; done) | split | rw [State.foldl_core] | rw [foldl_fst_core] | rw [foldl_snd_core]
        | dsimp only | simp | rw [State.onSec_core] | rw [State.onSys_core] | with_reducible rfl | intro _))

@[simp ↓] theorem State.cfgPort_core (n w : Nat) (s : State) : (State.cfgPort n w s).core = s.core := by
  unfold State.cfgPort
  first
    | (simp; done)
    | (repeat' (first
        | (simp; done) | split | rw [State.foldl_core] | rw [foldl_fst_core] | rw [foldl_snd_core]
        | dsimp only | simp | rw [State.onSec_core] | rw [State.onSys_core] | with_reducible rfl | intro _))

@[simp ↓] theorem State.askStats_core (n : Nat) (s : State) : (State.askStats n s).core = s.core := by
  unfold State.askStats
  first
    | (simp; done)
    | (repeat' (first
        | (simp; done) | split | rw [State.foldl_core] | rw [foldl_fst_core] | rw [foldl_snd_core]
        | dsimp only | simp | rw [State.onSec_core] | rw [State.onSys_core] | with_reducible rfl | intro _))

@[simp ↓] theorem execPortEnable_core (dt : Nat) (port : Fin 6) (cfg : Word) (s : State) : Keeps s (execPortEnable dt port cfg s) := by
  unfold execPortEnable
  first
    | (simp; done)
    | (repeat' (first
        | (simp; done) | split | rw [State.foldl_core] | rw [foldl_fst_core] | rw [foldl_snd_core]
        | dsimp only | simp | rw [State.onSec_core] | rw [State.onSys_core] | with_reducible rfl | intro _))

@[simp ↓] theorem execCsiFrameStart_core (dt : Nat) (port : Fin 6) (s : State) : Keeps s (execCsiFrameStart dt port s) := by
  unfold execCsiFrameStart
  first
    | (simp; done)
    | (repeat' (first
        | (simp; done) | split | rw [State.foldl_core] | rw [foldl_fst_core] | rw [foldl_snd_core]
        | dsimp only | simp | rw [State.onSec_core] | rw [State.onSys_core] | with_reducible rfl | intro _))

@[simp ↓] theorem State.badLine_core (port : Nat) (s : State) : (State.badLine port s).core = s.core := by
  unfold State.badLine
  first
    | (simp; done)
    | (repeat' (first
        | (simp; done) | split | rw [State.foldl_core] | rw [foldl_fst_core] | rw [foldl_snd_core]
        | dsimp only | simp | rw [State.onSec_core] | rw [State.onSys_core] | with_reducible rfl | intro _))

@[simp ↓] theorem State.badSum_core (port : Nat) (s : State) : (State.badSum port s).core = s.core := by
  unfold State.badSum
  first
    | (simp; done)
    | (repeat' (first
        | (simp; done) | split | rw [State.foldl_core] | rw [foldl_fst_core] | rw [foldl_snd_core]
        | dsimp only | simp | rw [State.onSec_core] | rw [State.onSys_core] | with_reducible rfl | intro _))

@[simp ↓] theorem State.putLine_core (port : Nat) (pkt : CsiPkt) (s : State) : (State.putLine port pkt s).core = s.core := by
  unfold State.putLine
  first
    | (simp; done)
    | (repeat' (first
        | (simp; done) | split | rw [State.foldl_core] | rw [foldl_fst_core] | rw [foldl_snd_core]
        | dsimp only | simp | rw [State.onSec_core] | rw [State.onSys_core] | with_reducible rfl | intro _))

@[simp ↓] theorem State.takePacket_core (n : Nat) (r : Option (CsiPkt × Bool)) (s : State) : (State.takePacket n r s).core = s.core := by
  unfold State.takePacket
  first
    | (simp; done)
    | (repeat' (first
        | (simp; done) | split | rw [State.foldl_core] | rw [foldl_fst_core] | rw [foldl_snd_core]
        | dsimp only | simp | rw [State.onSec_core] | rw [State.onSys_core] | with_reducible rfl | intro _))

@[simp ↓] theorem execCsiLine_core (dt : Nat) (port : Fin 6) (data : List Byte) (s : State) : Keeps s (execCsiLine dt port data s) := by
  unfold execCsiLine
  first
    | (simp; done)
    | (repeat' (first
        | (simp; done) | split | rw [State.foldl_core] | rw [foldl_fst_core] | rw [foldl_snd_core]
        | dsimp only | simp | rw [State.onSec_core] | rw [State.onSys_core] | with_reducible rfl | intro _))

@[simp ↓] theorem execCsiFrameEnd_core (dt : Nat) (port : Fin 6) (s : State) : Keeps s (execCsiFrameEnd dt port s) := by
  unfold execCsiFrameEnd
  first
    | (simp; done)
    | (repeat' (first
        | (simp; done) | split | rw [State.foldl_core] | rw [foldl_fst_core] | rw [foldl_snd_core]
        | dsimp only | simp | rw [State.onSec_core] | rw [State.onSys_core] | with_reducible rfl | intro _))

@[simp ↓] theorem execPortSilent_core (dt : Nat) (port : Fin 6) (s : State) : Keeps s (execPortSilent dt port s) := by
  unfold execPortSilent
  first
    | (simp; done)
    | (repeat' (first
        | (simp; done) | split | rw [State.foldl_core] | rw [foldl_fst_core] | rw [foldl_snd_core]
        | dsimp only | simp | rw [State.onSec_core] | rw [State.onSys_core] | with_reducible rfl | intro _))

@[simp ↓] theorem execVpLine_core (dt : Nat) (pipe : Fin 4) (s : State) : Keeps s (execVpLine dt pipe s) := by
  unfold execVpLine
  first
    | (simp; done)
    | (repeat' (first
        | (simp; done) | split | rw [State.foldl_core] | rw [foldl_fst_core] | rw [foldl_snd_core]
        | dsimp only | simp | rw [State.onSec_core] | rw [State.onSys_core] | with_reducible rfl | intro _))

end Sys2Proof.Machine
end

