-- ==== Sys2Proof/Laws/Core11.lean ====
section
/-! SUPPORT. The shared operations of CalCmd, ThermOps, Drover, HostRings leave the core of the state as it is. -/

set_option Elab.async false

namespace Sys2Proof.Machine

/-! ### CalCmd -/

@[simp ↓] theorem State.joinRun_core (d : Desc) (s : State) : (State.joinRun d s).core = s.core := by
  unfold State.joinRun
  first
    | (simp; done)
    | (repeat' (first
        | (simp; done) | split | rw [State.foldl_core] | rw [foldl_fst_core] | rw [foldl_snd_core]
        | dsimp only | simp | rw [State.onSec_core] | rw [State.onSys_core] | with_reducible rfl | intro _))

@[simp ↓] theorem execCalRunTile_core (dt : Nat) (ring : Fin 64) (slot : Nat) (s : State) : Keeps s (execCalRunTile dt ring slot s) := by
  unfold execCalRunTile
  first
    | (simp; done)
    | (repeat' (first
        | (simp; done) | split | rw [State.foldl_core] | rw [foldl_fst_core] | rw [foldl_snd_core]
        | dsimp only | simp | rw [State.onSec_core] | rw [State.onSys_core] | with_reducible rfl | intro _))

@[simp ↓] theorem execCalRunStrip_core (dt : Nat) (ring : Fin 64) (slot : Nat) (s : State) : Keeps s (execCalRunStrip dt ring slot s) := by
  unfold execCalRunStrip
  first
    | (simp; done)
    | (repeat' (first
        | (simp; done) | split | rw [State.foldl_core] | rw [foldl_fst_core] | rw [foldl_snd_core]
        | dsimp only | simp | rw [State.onSec_core] | rw [State.onSys_core] | with_reducible rfl | intro _))

@[simp ↓] theorem execCalRunRead_core (dt : Nat) (ring : Fin 64) (slot : Nat) (read : RunRead) (s : State) : Keeps s (execCalRunRead dt ring slot read s) := by
  unfold execCalRunRead
  first
    | (simp; done)
    | (repeat' (first
        | (simp; done) | split | rw [State.foldl_core] | rw [foldl_fst_core] | rw [foldl_snd_core]
        | dsimp only | simp | rw [State.onSec_core] | rw [State.onSys_core] | with_reducible rfl | intro _))

@[simp ↓] theorem execCalRunWrite_core (dt : Nat) (ring : Fin 64) (slot : Nat) (list : List PageEnt) (data : List Byte) (s : State) : Keeps s (execCalRunWrite dt ring slot list data s) := by
  unfold execCalRunWrite
  first
    | (simp; done)
    | (repeat' (first
        | (simp; done) | split | rw [State.foldl_core] | rw [foldl_fst_core] | rw [foldl_snd_core]
        | dsimp only | simp | rw [State.onSec_core] | rw [State.onSys_core] | with_reducible rfl | intro _))

@[simp ↓] theorem execMramDeferredWrite_core (dt : Nat) (typ sel : Nat) (s : State) : Keeps s (execMramDeferredWrite dt typ sel s) := by
  unfold execMramDeferredWrite
  first
    | (simp; done)
    | (repeat' (first
        | (simp; done) | split | rw [State.foldl_core] | rw [foldl_fst_core] | rw [foldl_snd_core]
        | dsimp only | simp | rw [State.onSec_core] | rw [State.onSys_core] | with_reducible rfl | intro _))

@[simp ↓] theorem execSpliceSet_core (dt : Nat) (s : State) : Keeps s (execSpliceSet dt s) := by
  unfold execSpliceSet
  first
    | (simp; done)
    | (repeat' (first
        | (simp; done) | split | rw [State.foldl_core] | rw [foldl_fst_core] | rw [foldl_snd_core]
        | dsimp only | simp | rw [State.onSec_core] | rw [State.onSys_core] | with_reducible rfl | intro _))

@[simp ↓] theorem execSpliceExpire_core (dt : Nat) (s : State) : Keeps s (execSpliceExpire dt s) := by
  unfold execSpliceExpire
  first
    | (simp; done)
    | (repeat' (first
        | (simp; done) | split | rw [State.foldl_core] | rw [foldl_fst_core] | rw [foldl_snd_core]
        | dsimp only | simp | rw [State.onSec_core] | rw [State.onSys_core] | with_reducible rfl | intro _))

/-! ### ThermOps -/

@[simp ↓] theorem State.writeVout_core (s : State) : (State.writeVout s).core = s.core := by
  unfold State.writeVout
  first
    | (simp; done)
    | (repeat' (first
        | (simp; done) | split | rw [State.foldl_core] | rw [foldl_fst_core] | rw [foldl_snd_core]
        | dsimp only | simp | rw [State.onSec_core] | rw [State.onSys_core] | with_reducible rfl | intro _))

@[simp ↓] theorem State.stepVcore_core (target : Nat) (s : State) : (State.stepVcore target s).core = s.core := by
  unfold State.stepVcore
  first
    | (simp; done)
    | (repeat' (first
        | (simp; done) | split | rw [State.foldl_core] | rw [foldl_fst_core] | rw [foldl_snd_core]
        | dsimp only | simp | rw [State.onSec_core] | rw [State.onSys_core] | with_reducible rfl | intro _))

@[simp ↓] theorem State.judgeFloor_core (s : State) : (State.judgeFloor s).core = s.core := by
  unfold State.judgeFloor
  first
    | (simp; done)
    | (repeat' (first
        | (simp; done) | split | rw [State.foldl_core] | rw [foldl_fst_core] | rw [foldl_snd_core]
        | dsimp only | simp | rw [State.onSec_core] | rw [State.onSys_core] | with_reducible rfl | intro _))

@[simp ↓] theorem State.judgeRecovered_core (s : State) : (State.judgeRecovered s).core = s.core := by
  unfold State.judgeRecovered
  first
    | (simp; done)
    | (repeat' (first
        | (simp; done) | split | rw [State.foldl_core] | rw [foldl_fst_core] | rw [foldl_snd_core]
        | dsimp only | simp | rw [State.onSec_core] | rw [State.onSys_core] | with_reducible rfl | intro _))

@[simp ↓] theorem State.enterThrottle_core (s : State) : (State.enterThrottle s).core = s.core := by
  unfold State.enterThrottle
  first
    | (simp; done)
    | (repeat' (first
        | (simp; done) | split | rw [State.foldl_core] | rw [foldl_fst_core] | rw [foldl_snd_core]
        | dsimp only | simp | rw [State.onSec_core] | rw [State.onSys_core] | with_reducible rfl | intro _))

@[simp ↓] theorem State.judgeThrottle_core (s : State) : (State.judgeThrottle s).core = s.core := by
  unfold State.judgeThrottle
  first
    | (simp; done)
    | (repeat' (first
        | (simp; done) | split | rw [State.foldl_core] | rw [foldl_fst_core] | rw [foldl_snd_core]
        | dsimp only | simp | rw [State.onSec_core] | rw [State.onSys_core] | with_reducible rfl | intro _))

@[simp ↓] theorem State.throttleOff_core (s : State) : (State.throttleOff s).core = s.core := by
  unfold State.throttleOff
  first
    | (simp; done)
    | (repeat' (first
        | (simp; done) | split | rw [State.foldl_core] | rw [foldl_fst_core] | rw [foldl_snd_core]
        | dsimp only | simp | rw [State.onSec_core] | rw [State.onSys_core] | with_reducible rfl | intro _))

@[simp ↓] theorem State.takeCheck_core (s : State) : (State.takeCheck s).core = s.core := by
  unfold State.takeCheck
  first
    | (simp; done)
    | (repeat' (first
        | (simp; done) | split | rw [State.foldl_core] | rw [foldl_fst_core] | rw [foldl_snd_core]
        | dsimp only | simp | rw [State.onSec_core] | rw [State.onSys_core] | with_reducible rfl | intro _))

@[simp ↓] theorem State.judgeTj_core (s : State) : (State.judgeTj s).core = s.core := by
  unfold State.judgeTj
  first
    | (simp; done)
    | (repeat' (first
        | (simp; done) | split | rw [State.foldl_core] | rw [foldl_fst_core] | rw [foldl_snd_core]
        | dsimp only | simp | rw [State.onSec_core] | rw [State.onSys_core] | with_reducible rfl | intro _))

/-! ### Drover -/

@[simp ↓] theorem State.useGrant_core (h : Holder) (s : State) : (State.useGrant h s).core = s.core := by
  unfold State.useGrant
  first
    | (simp; done)
    | (repeat' (first
        | (simp; done) | split | rw [State.foldl_core] | rw [foldl_fst_core] | rw [foldl_snd_core]
        | dsimp only | simp | rw [State.onSec_core] | rw [State.onSys_core] | with_reducible rfl | intro _))

@[simp ↓] theorem execDroverGrant_core (dt : Nat) (s : State) : Keeps s (execDroverGrant dt s) := by
  unfold execDroverGrant
  first
    | (simp; done)
    | (repeat' (first
        | (simp; done) | split | rw [State.foldl_core] | rw [foldl_fst_core] | rw [foldl_snd_core]
        | dsimp only | simp | rw [State.onSec_core] | rw [State.onSys_core] | with_reducible rfl | intro _))

@[simp ↓] theorem execDroverReturn_core (dt : Nat) (cls index : Nat) (s : State) : Keeps s (execDroverReturn dt cls index s) := by
  unfold execDroverReturn
  first
    | (simp; done)
    | (repeat' (first
        | (simp; done) | split | rw [State.foldl_core] | rw [foldl_fst_core] | rw [foldl_snd_core]
        | dsimp only | simp | rw [State.onSec_core] | rw [State.onSys_core] | with_reducible rfl | intro _))

@[simp ↓] theorem execHoldLong_core (dt : Nat) (index : Nat) (s : State) : Keeps s (execHoldLong dt index s) := by
  unfold execHoldLong
  first
    | (simp; done)
    | (repeat' (first
        | (simp; done) | split | rw [State.foldl_core] | rw [foldl_fst_core] | rw [foldl_snd_core]
        | dsimp only | simp | rw [State.onSec_core] | rw [State.onSys_core] | with_reducible rfl | intro _))

@[simp ↓] theorem execDroverWait_core (dt : Nat) (index : Nat) (s : State) : Keeps s (execDroverWait dt index s) := by
  unfold execDroverWait
  first
    | (simp; done)
    | (repeat' (first
        | (simp; done) | split | rw [State.foldl_core] | rw [foldl_fst_core] | rw [foldl_snd_core]
        | dsimp only | simp | rw [State.onSec_core] | rw [State.onSys_core] | with_reducible rfl | intro _))

@[simp ↓] theorem execBudgetOver_core (dt : Nat) (s : State) : Keeps s (execBudgetOver dt s) := by
  unfold execBudgetOver
  first
    | (simp; done)
    | (repeat' (first
        | (simp; done) | split | rw [State.foldl_core] | rw [foldl_fst_core] | rw [foldl_snd_core]
        | dsimp only | simp | rw [State.onSec_core] | rw [State.onSys_core] | with_reducible rfl | intro _))

/-! ### HostRings -/

@[simp ↓] theorem State.writeProgress_core (n : Nat) (s : State) : (State.writeProgress n s).core = s.core := by
  unfold State.writeProgress
  first
    | (simp; done)
    | (repeat' (first
        | (simp; done) | split | rw [State.foldl_core] | rw [foldl_fst_core] | rw [foldl_snd_core]
        | dsimp only | simp | rw [State.onSec_core] | rw [State.onSys_core] | with_reducible rfl | intro _))

@[simp ↓] theorem State.leaveBackoff_core (s : State) : (State.leaveBackoff s).core = s.core := by
  unfold State.leaveBackoff
  first
    | (simp; done)
    | (repeat' (first
        | (simp; done) | split | rw [State.foldl_core] | rw [foldl_fst_core] | rw [foldl_snd_core]
        | dsimp only | simp | rw [State.onSec_core] | rw [State.onSys_core] | with_reducible rfl | intro _))

@[simp ↓] theorem State.signalRing_core (n : Nat) (s : State) : (State.signalRing n s).core = s.core := by
  unfold State.signalRing
  first
    | (simp; done)
    | (repeat' (first
        | (simp; done) | split | rw [State.foldl_core] | rw [foldl_fst_core] | rw [foldl_snd_core]
        | dsimp only | simp | rw [State.onSec_core] | rw [State.onSys_core] | with_reducible rfl | intro _))

@[simp ↓] theorem State.noteWritten_core (c : Completion) (s : State) : (State.noteWritten c s).core = s.core := by
  unfold State.noteWritten
  first
    | (simp; done)
    | (repeat' (first
        | (simp; done) | split | rw [State.foldl_core] | rw [foldl_fst_core] | rw [foldl_snd_core]
        | dsimp only | simp | rw [State.onSec_core] | rw [State.onSys_core] | with_reducible rfl | intro _))

@[simp ↓] theorem State.writeCompletion_core (c : Completion) (s : State) : (State.writeCompletion c s).core = s.core := by
  unfold State.writeCompletion
  first
    | (simp; done)
    | (repeat' (first
        | (simp; done) | split | rw [State.foldl_core] | rw [foldl_fst_core] | rw [foldl_snd_core]
        | dsimp only | simp | rw [State.onSec_core] | rw [State.onSys_core] | with_reducible rfl | intro _))

@[simp ↓] theorem State.drainRing_core (n : Nat) (s : State) : (State.drainRing n s).core = s.core := by
  unfold State.drainRing
  first
    | (simp; done)
    | (repeat' (first
        | (simp; done) | split | rw [State.foldl_core] | rw [foldl_fst_core] | rw [foldl_snd_core]
        | dsimp only | simp | rw [State.onSec_core] | rw [State.onSys_core] | with_reducible rfl | intro _))

@[simp ↓] theorem State.haltRing_core (n cause : Nat) (s : State) : (State.haltRing n cause s).core = s.core := by
  unfold State.haltRing
  first
    | (simp; done)
    | (repeat' (first
        | (simp; done) | split | rw [State.foldl_core] | rw [foldl_fst_core] | rw [foldl_snd_core]
        | dsimp only | simp | rw [State.onSec_core] | rw [State.onSys_core] | with_reducible rfl | intro _))

@[simp ↓] theorem execConfigRequest_core (dt : Nat) (s : State) : Keeps s (execConfigRequest dt s) := by
  unfold execConfigRequest
  first
    | (simp; done)
    | (repeat' (first
        | (simp; done) | split | rw [State.foldl_core] | rw [foldl_fst_core] | rw [foldl_snd_core]
        | dsimp only | simp | rw [State.onSec_core] | rw [State.onSys_core] | with_reducible rfl | intro _))

@[simp ↓] theorem State.endUpload_core (s : State) (port : Nat) : (State.endUpload s port).core = s.core := by
  unfold State.endUpload
  first
    | (simp; done)
    | (repeat' (first
        | (simp; done) | split | rw [State.foldl_core] | rw [foldl_fst_core] | rw [foldl_snd_core]
        | dsimp only | simp | rw [State.onSec_core] | rw [State.onSys_core] | with_reducible rfl | intro _))

@[simp ↓] theorem State.hifReset_core (s : State) : (State.hifReset s).core = s.core := by
  unfold State.hifReset
  first
    | (simp; done)
    | (repeat' (first
        | (simp; done) | split | rw [State.foldl_core] | rw [foldl_fst_core] | rw [foldl_snd_core]
        | dsimp only | simp | rw [State.onSec_core] | rw [State.onSys_core] | with_reducible rfl | intro _))

@[simp ↓] theorem execFunctionLevelReset_core (dt : Nat) (s : State) : Keeps s (execFunctionLevelReset dt s) := by
  unfold execFunctionLevelReset
  first
    | (simp; done)
    | (repeat' (first
        | (simp; done) | split | rw [State.foldl_core] | rw [foldl_fst_core] | rw [foldl_snd_core]
        | dsimp only | simp | rw [State.onSec_core] | rw [State.onSys_core] | with_reducible rfl | intro _))

@[simp ↓] theorem execPcieReset_core (dt : Nat) (s : State) : Keeps s (execPcieReset dt s) := by
  unfold execPcieReset
  first
    | (simp; done)
    | (repeat' (first
        | (simp; done) | split | rw [State.foldl_core] | rw [foldl_fst_core] | rw [foldl_snd_core]
        | dsimp only | simp | rw [State.onSec_core] | rw [State.onSys_core] | with_reducible rfl | intro _))

@[simp ↓] theorem execHifReady_core (dt : Nat) (s : State) : Keeps s (execHifReady dt s) := by
  unfold execHifReady
  first
    | (simp; done)
    | (repeat' (first
        | (simp; done) | split | rw [State.foldl_core] | rw [foldl_fst_core] | rw [foldl_snd_core]
        | dsimp only | simp | rw [State.onSec_core] | rw [State.onSys_core] | with_reducible rfl | intro _))

@[simp ↓] theorem execPcieLinkTrained_core (dt rate width : Nat) (s : State) : Keeps s (execPcieLinkTrained dt rate width s) := by
  unfold execPcieLinkTrained
  first
    | (simp; done)
    | (repeat' (first
        | (simp; done) | split | rw [State.foldl_core] | rw [foldl_fst_core] | rw [foldl_snd_core]
        | dsimp only | simp | rw [State.onSec_core] | rw [State.onSys_core] | with_reducible rfl | intro _))

@[simp ↓] theorem execPcieLinkDown_core (dt : Nat) (s : State) : Keeps s (execPcieLinkDown dt s) := by
  unfold execPcieLinkDown
  first
    | (simp; done)
    | (repeat' (first
        | (simp; done) | split | rw [State.foldl_core] | rw [foldl_fst_core] | rw [foldl_snd_core]
        | dsimp only | simp | rw [State.onSec_core] | rw [State.onSys_core] | with_reducible rfl | intro _))

@[simp ↓] theorem execRingEnable_core (dt : Nat) (ring : Fin 64) (cfg : Word) (s : State) : Keeps s (execRingEnable dt ring cfg s) := by
  unfold execRingEnable
  first
    | (simp; done)
    | (repeat' (first
        | (simp; done) | split | rw [State.foldl_core] | rw [foldl_fst_core] | rw [foldl_snd_core]
        | dsimp only | simp | rw [State.onSec_core] | rw [State.onSys_core] | with_reducible rfl | intro _))

@[simp ↓] theorem execRingDisable_core (dt : Nat) (ring : Fin 64) (cfg : Word) (s : State) : Keeps s (execRingDisable dt ring cfg s) := by
  unfold execRingDisable
  first
    | (simp; done)
    | (repeat' (first
        | (simp; done) | split | rw [State.foldl_core] | rw [foldl_fst_core] | rw [foldl_snd_core]
        | dsimp only | simp | rw [State.onSec_core] | rw [State.onSys_core] | with_reducible rfl | intro _))

@[simp ↓] theorem State.poll_core (s : State) : (State.poll s).core = s.core := by
  unfold State.poll
  first
    | (simp; done)
    | (repeat' (first
        | (simp; done) | split | rw [State.foldl_core] | rw [foldl_fst_core] | rw [foldl_snd_core]
        | dsimp only | simp | rw [State.onSec_core] | rw [State.onSys_core] | with_reducible rfl | intro _))

@[simp ↓] theorem execDoorbellPoll_core (dt : Nat) (s : State) : Keeps s (execDoorbellPoll dt s) := by
  unfold execDoorbellPoll
  first
    | (simp; done)
    | (repeat' (first
        | (simp; done) | split | rw [State.foldl_core] | rw [foldl_fst_core] | rw [foldl_snd_core]
        | dsimp only | simp | rw [State.onSec_core] | rw [State.onSys_core] | with_reducible rfl | intro _))

@[simp ↓] theorem execDbKick_core (dt : Nat) (s : State) : Keeps s (execDbKick dt s) := by
  unfold execDbKick
  first
    | (simp; done)
    | (repeat' (first
        | (simp; done) | split | rw [State.foldl_core] | rw [foldl_fst_core] | rw [foldl_snd_core]
        | dsimp only | simp | rw [State.onSec_core] | rw [State.onSys_core] | with_reducible rfl | intro _))

@[simp ↓] theorem State.takeDoorbell_core (n value : Nat) (s : State) : (State.takeDoorbell n value s).core = s.core := by
  unfold State.takeDoorbell
  first
    | (simp; done)
    | (repeat' (first
        | (simp; done) | split | rw [State.foldl_core] | rw [foldl_fst_core] | rw [foldl_snd_core]
        | dsimp only | simp | rw [State.onSec_core] | rw [State.onSys_core] | with_reducible rfl | intro _))

@[simp ↓] theorem State.actDoorbell_core (n value : Nat) (s : State) : (State.actDoorbell n value s).core = s.core := by
  unfold State.actDoorbell
  first
    | (simp; done)
    | (repeat' (first
        | (simp; done) | split | rw [State.foldl_core] | rw [foldl_fst_core] | rw [foldl_snd_core]
        | dsimp only | simp | rw [State.onSec_core] | rw [State.onSys_core] | with_reducible rfl | intro _))

@[simp ↓] theorem execDoorbellReadDone_core (dt : Nat) (bells : List Word) (s : State) : Keeps s (execDoorbellReadDone dt bells s) := by
  unfold execDoorbellReadDone
  first
    | (simp; done)
    | (repeat' (first
        | (simp; done) | split | rw [State.foldl_core] | rw [foldl_fst_core] | rw [foldl_snd_core]
        | dsimp only | simp | rw [State.onSec_core] | rw [State.onSys_core] | with_reducible rfl | intro _))

@[simp ↓] theorem execDoorbellReadFail_core (dt : Nat) (s : State) : Keeps s (execDoorbellReadFail dt s) := by
  unfold execDoorbellReadFail
  first
    | (simp; done)
    | (repeat' (first
        | (simp; done) | split | rw [State.foldl_core] | rw [foldl_fst_core] | rw [foldl_snd_core]
        | dsimp only | simp | rw [State.onSec_core] | rw [State.onSys_core] | with_reducible rfl | intro _))

@[simp ↓] theorem execDbBackoff_core (dt : Nat) (s : State) : Keeps s (execDbBackoff dt s) := by
  unfold execDbBackoff
  first
    | (simp; done)
    | (repeat' (first
        | (simp; done) | split | rw [State.foldl_core] | rw [foldl_fst_core] | rw [foldl_snd_core]
        | dsimp only | simp | rw [State.onSec_core] | rw [State.onSys_core] | with_reducible rfl | intro _))

@[simp ↓] theorem execDescriptorFetch_core (dt : Nat) (s : State) : Keeps s (execDescriptorFetch dt s) := by
  unfold execDescriptorFetch
  first
    | (simp; done)
    | (repeat' (first
        | (simp; done) | split | rw [State.foldl_core] | rw [foldl_fst_core] | rw [foldl_snd_core]
        | dsimp only | simp | rw [State.onSec_core] | rw [State.onSys_core] | with_reducible rfl | intro _))

@[simp ↓] theorem State.countRead_core (n : Nat) (s : State) : (State.countRead n s).core = s.core := by
  unfold State.countRead
  first
    | (simp; done)
    | (repeat' (first
        | (simp; done) | split | rw [State.foldl_core] | rw [foldl_fst_core] | rw [foldl_snd_core]
        | dsimp only | simp | rw [State.onSec_core] | rw [State.onSys_core] | with_reducible rfl | intro _))

@[simp ↓] theorem State.reachSkipped_core (n slot : Nat) (s : State) : (State.reachSkipped n slot s).core = s.core := by
  unfold State.reachSkipped
  first
    | (simp; done)
    | (repeat' (first
        | (simp; done) | split | rw [State.foldl_core] | rw [foldl_fst_core] | rw [foldl_snd_core]
        | dsimp only | simp | rw [State.onSec_core] | rw [State.onSys_core] | with_reducible rfl | intro _))

@[simp ↓] theorem execDescriptorArrive_core (dt : Nat) (ring : Fin 64) (bytes : List Byte) (s : State) : Keeps s (execDescriptorArrive dt ring bytes s) := by
  unfold execDescriptorArrive
  first
    | (simp; done)
    | (repeat' (first
        | (simp; done) | split | rw [State.foldl_core] | rw [foldl_fst_core] | rw [foldl_snd_core]
        | dsimp only | simp | rw [State.onSec_core] | rw [State.onSys_core] | with_reducible rfl | intro _))

@[simp ↓] theorem execDescriptorReadFail_core (dt : Nat) (ring : Fin 64) (n : Nat) (s : State) : Keeps s (execDescriptorReadFail dt ring n s) := by
  unfold execDescriptorReadFail
  first
    | (simp; done)
    | (repeat' (first
        | (simp; done) | split | rw [State.foldl_core] | rw [foldl_fst_core] | rw [foldl_snd_core]
        | dsimp only | simp | rw [State.onSec_core] | rw [State.onSys_core] | with_reducible rfl | intro _))

@[simp ↓] theorem execCompletionWrite_core (dt : Nat) (s : State) : Keeps s (execCompletionWrite dt s) := by
  unfold execCompletionWrite
  first
    | (simp; done)
    | (repeat' (first
        | (simp; done) | split | rw [State.foldl_core] | rw [foldl_fst_core] | rw [foldl_snd_core]
        | dsimp only | simp | rw [State.onSec_core] | rw [State.onSys_core] | with_reducible rfl | intro _))

@[simp ↓] theorem execCompletionDrain_core (dt : Nat) (ring : Fin 64) (s : State) : Keeps s (execCompletionDrain dt ring s) := by
  unfold execCompletionDrain
  first
    | (simp; done)
    | (repeat' (first
        | (simp; done) | split | rw [State.foldl_core] | rw [foldl_fst_core] | rw [foldl_snd_core]
        | dsimp only | simp | rw [State.onSec_core] | rw [State.onSys_core] | with_reducible rfl | intro _))

@[simp ↓] theorem execCompletionModTimeout_core (dt : Nat) (ring : Fin 64) (s : State) : Keeps s (execCompletionModTimeout dt ring s) := by
  unfold execCompletionModTimeout
  first
    | (simp; done)
    | (repeat' (first
        | (simp; done) | split | rw [State.foldl_core] | rw [foldl_fst_core] | rw [foldl_snd_core]
        | dsimp only | simp | rw [State.onSec_core] | rw [State.onSys_core] | with_reducible rfl | intro _))

@[simp ↓] theorem execMsixUnmask_core (dt : Nat) (vector : Fin 256) (s : State) : Keeps s (execMsixUnmask dt vector s) := by
  unfold execMsixUnmask
  first
    | (simp; done)
    | (repeat' (first
        | (simp; done) | split | rw [State.foldl_core] | rw [foldl_fst_core] | rw [foldl_snd_core]
        | dsimp only | simp | rw [State.onSec_core] | rw [State.onSys_core] | with_reducible rfl | intro _))

@[simp ↓] theorem execFence_core (dt : Nat) (ring : Fin 64) (slot : Nat) (s : State) : Keeps s (execFence dt ring slot s) := by
  unfold execFence
  first
    | (simp; done)
    | (repeat' (first
        | (simp; done) | split | rw [State.foldl_core] | rw [foldl_fst_core] | rw [foldl_snd_core]
        | dsimp only | simp | rw [State.onSec_core] | rw [State.onSys_core] | with_reducible rfl | intro _))

@[simp ↓] theorem execFenceRelease_core (dt : Nat) (ring : Fin 64) (slot : Nat) (s : State) : Keeps s (execFenceRelease dt ring slot s) := by
  unfold execFenceRelease
  first
    | (simp; done)
    | (repeat' (first
        | (simp; done) | split | rw [State.foldl_core] | rw [foldl_fst_core] | rw [foldl_snd_core]
        | dsimp only | simp | rw [State.onSec_core] | rw [State.onSys_core] | with_reducible rfl | intro _))

@[simp ↓] theorem State.abortUnread_core (n slot tag : Nat) (s : State) : (State.abortUnread n slot tag s).core = s.core := by
  unfold State.abortUnread
  first
    | (simp; done)
    | (repeat' (first
        | (simp; done) | split | rw [State.foldl_core] | rw [foldl_fst_core] | rw [foldl_snd_core]
        | dsimp only | simp | rw [State.onSec_core] | rw [State.onSys_core] | with_reducible rfl | intro _))

@[simp ↓] theorem State.completeAfter_core (d : Desc) (status target : Nat) (s : State) : (State.completeAfter d status target s).core = s.core := by
  unfold State.completeAfter
  first
    | (simp; done)
    | (repeat' (first
        | (simp; done) | split | rw [State.foldl_core] | rw [foldl_fst_core] | rw [foldl_snd_core]
        | dsimp only | simp | rw [State.onSec_core] | rw [State.onSys_core] | with_reducible rfl | intro _))

@[simp ↓] theorem State.decideAbort_core (d : Desc) (s : State) : (State.decideAbort d s).core = s.core := by
  unfold State.decideAbort
  first
    | (simp; done)
    | (repeat' (first
        | (simp; done) | split | rw [State.foldl_core] | rw [foldl_fst_core] | rw [foldl_snd_core]
        | dsimp only | simp | rw [State.onSec_core] | rw [State.onSys_core] | with_reducible rfl | intro _))

@[simp ↓] theorem execAbort_core (dt : Nat) (ring : Fin 64) (slot : Nat) (s : State) : Keeps s (execAbort dt ring slot s) := by
  unfold execAbort
  first
    | (simp; done)
    | (repeat' (first
        | (simp; done) | split | rw [State.foldl_core] | rw [foldl_fst_core] | rw [foldl_snd_core]
        | dsimp only | simp | rw [State.onSec_core] | rw [State.onSys_core] | with_reducible rfl | intro _))

end Sys2Proof.Machine
end

