-- ==== Sys2Proof/Laws/Core12.lean ====
section
/-! SUPPORT. The shared operations of JetOps, LinkCmd leave the core of the state as it is. -/

set_option Elab.async false

namespace Sys2Proof.Machine

/-! ### JetOps -/

@[simp ↓] theorem State.barCond_core (b c : Nat) (ref own : Bool) (s : State) : (State.barCond b c ref own s).core = s.core := by
  unfold State.barCond
  first
    | (simp; done)
    | (repeat' (first
        | (simp; done) | split | rw [State.foldl_core] | rw [foldl_fst_core] | rw [foldl_snd_core]
        | dsimp only | simp | rw [State.onSec_core] | rw [State.onSys_core] | with_reducible rfl | intro _))

@[simp ↓] theorem State.onBand_core (b : Nat) (key : Int) (f : RingBand → RingBand) (s : State) : (State.onBand b key f s).core = s.core := by
  unfold State.onBand
  first
    | (simp; done)
    | (repeat' (first
        | (simp; done) | split | rw [State.foldl_core] | rw [foldl_fst_core] | rw [foldl_snd_core]
        | dsimp only | simp | rw [State.onSec_core] | rw [State.onSys_core] | with_reducible rfl | intro _))

@[simp ↓] theorem State.hurtTicks_core (a b : Int) (s : State) : (State.hurtTicks a b s).core = s.core := by
  unfold State.hurtTicks
  first
    | (simp; done)
    | (repeat' (first
        | (simp; done) | split | rw [State.foldl_core] | rw [foldl_fst_core] | rw [foldl_snd_core]
        | dsimp only | simp | rw [State.onSec_core] | rw [State.onSys_core] | with_reducible rfl | intro _))

@[simp ↓] theorem State.rejectAtTick_core (m : Int) (s : State) : (State.rejectAtTick m s).core = s.core := by
  unfold State.rejectAtTick
  first
    | (simp; done)
    | (repeat' (first
        | (simp; done) | split | rw [State.foldl_core] | rw [foldl_fst_core] | rw [foldl_snd_core]
        | dsimp only | simp | rw [State.onSec_core] | rw [State.onSys_core] | with_reducible rfl | intro _))

@[simp ↓] theorem State.markUnderrun_core (b : Nat) (key : Int) (line : Nat) (s : State) : (State.markUnderrun b key line s).core = s.core := by
  unfold State.markUnderrun
  first
    | (simp; done)
    | (repeat' (first
        | (simp; done) | split | rw [State.foldl_core] | rw [foldl_fst_core] | rw [foldl_snd_core]
        | dsimp only | simp | rw [State.onSec_core] | rw [State.onSys_core] | with_reducible rfl | intro _))

@[simp ↓] theorem State.underrun_core (b : Nat) (key : Int) (line : Nat) (s : State) : (State.underrun b key line s).core = s.core := by
  unfold State.underrun
  first
    | (simp; done)
    | (repeat' (first
        | (simp; done) | split | rw [State.foldl_core] | rw [foldl_fst_core] | rw [foldl_snd_core]
        | dsimp only | simp | rw [State.onSec_core] | rw [State.onSys_core] | with_reducible rfl | intro _))

@[simp ↓] theorem State.judgeOver1_core (b : Nat) (s : State) (t : Int) : (State.judgeOver1 b s t).core = s.core := by
  unfold State.judgeOver1
  first
    | (simp; done)
    | (repeat' (first
        | (simp; done) | split | rw [State.foldl_core] | rw [foldl_fst_core] | rw [foldl_snd_core]
        | dsimp only | simp | rw [State.onSec_core] | rw [State.onSys_core] | with_reducible rfl | intro _))

@[simp ↓] theorem State.leaveMissed_core (b : Nat) (s : State) : (State.leaveMissed b s).core = s.core := by
  unfold State.leaveMissed
  first
    | (simp; done)
    | (repeat' (first
        | (simp; done) | split | rw [State.foldl_core] | rw [foldl_fst_core] | rw [foldl_snd_core]
        | dsimp only | simp | rw [State.onSec_core] | rw [State.onSys_core] | with_reducible rfl | intro _))

@[simp ↓] theorem State.queueDot_core (b h : Nat) (m : Int) (codeBits sub : Nat) (cs : List Nat) (s : State) : (State.queueDot b h m codeBits sub cs s).core = s.core := by
  unfold State.queueDot
  first
    | (simp; done)
    | (repeat' (first
        | (simp; done) | split | rw [State.foldl_core] | rw [foldl_fst_core] | rw [foldl_snd_core]
        | dsimp only | simp | rw [State.onSec_core] | rw [State.onSys_core] | with_reducible rfl | intro _))

@[simp ↓] theorem State.scanLine_core (b h : Nat) (t : Int) (lo hi : Nat) (s : State) : (State.scanLine b h t lo hi s).core = s.core := by
  unfold State.scanLine
  first
    | (simp; done)
    | (repeat' (first
        | (simp; done) | split | rw [State.foldl_core] | rw [foldl_fst_core] | rw [foldl_snd_core]
        | dsimp only | simp | rw [State.onSec_core] | rw [State.onSys_core] | with_reducible rfl | intro _))

@[simp ↓] theorem State.scanHalf_core (b h : Nat) (m : Int) (es : List RemapEntry) (offs : List Nat) (s : State) : (State.scanHalf b h m es offs s).core = s.core := by
  unfold State.scanHalf
  first
    | (simp; done)
    | (repeat' (first
        | (simp; done) | split | rw [State.foldl_core] | rw [foldl_fst_core] | rw [foldl_snd_core]
        | dsimp only | simp | rw [State.onSec_core] | rw [State.onSys_core] | with_reducible rfl | intro _))

@[simp ↓] theorem State.sendHalf_core (b : Nat) (m : Int) (r : State × List Nat) (h : Nat) : (State.sendHalf b m r h).1.core = r.1.core := by
  unfold State.sendHalf
  first
    | (simp; done)
    | (repeat' (first
        | (simp; done) | split | rw [State.foldl_core] | rw [foldl_fst_core] | rw [foldl_snd_core]
        | dsimp only | simp | rw [State.onSec_core] | rw [State.onSys_core] | with_reducible rfl | intro _))

@[simp ↓] theorem State.sendTick_core (b : Nat) (m : Int) (s : State) : (State.sendTick b m s).core = s.core := by
  unfold State.sendTick
  first
    | (simp; done)
    | (repeat' (first
        | (simp; done) | split | rw [State.foldl_core] | rw [foldl_fst_core] | rw [foldl_snd_core]
        | dsimp only | simp | rw [State.onSec_core] | rw [State.onSys_core] | with_reducible rfl | intro _))

@[simp ↓] theorem State.dropDot_core (b : Nat) (m : Int) (row : Nat) (s : State) : (State.dropDot b m row s).core = s.core := by
  unfold State.dropDot
  first
    | (simp; done)
    | (repeat' (first
        | (simp; done) | split | rw [State.foldl_core] | rw [foldl_fst_core] | rw [foldl_snd_core]
        | dsimp only | simp | rw [State.onSec_core] | rw [State.onSys_core] | with_reducible rfl | intro _))

@[simp ↓] theorem State.lateHalf_core (b : Nat) (m : Int) (r : State × Bool) (h : Nat) : (State.lateHalf b m r h).1.core = r.1.core := by
  unfold State.lateHalf
  first
    | (simp; done)
    | (repeat' (first
        | (simp; done) | split | rw [State.foldl_core] | rw [foldl_fst_core] | rw [foldl_snd_core]
        | dsimp only | simp | rw [State.onSec_core] | rw [State.onSys_core] | with_reducible rfl | intro _))

@[simp ↓] theorem State.lateReplay_core (b : Nat) (m : Int) (s : State) : (State.lateReplay b m s).1.core = s.core := by
  unfold State.lateReplay
  first
    | (simp; done)
    | (repeat' (first
        | (simp; done) | split | rw [State.foldl_core] | rw [foldl_fst_core] | rw [foldl_snd_core]
        | dsimp only | simp | rw [State.onSec_core] | rw [State.onSys_core] | with_reducible rfl | intro _))

@[simp ↓] theorem State.judgeLate_core (b : Nat) (m : Int) (s : State) : (State.judgeLate b m s).core = s.core := by
  unfold State.judgeLate
  first
    | (simp; done)
    | (repeat' (first
        | (simp; done) | split | rw [State.foldl_core] | rw [foldl_fst_core] | rw [foldl_snd_core]
        | dsimp only | simp | rw [State.onSec_core] | rw [State.onSys_core] | with_reducible rfl | intro _))

@[simp ↓] theorem State.lineLost_core (b : Nat) (m : Int) (s : State) : (State.lineLost b m s).core = s.core := by
  unfold State.lineLost
  first
    | (simp; done)
    | (repeat' (first
        | (simp; done) | split | rw [State.foldl_core] | rw [foldl_fst_core] | rw [foldl_snd_core]
        | dsimp only | simp | rw [State.onSec_core] | rw [State.onSys_core] | with_reducible rfl | intro _))

@[simp ↓] theorem State.judgeLost_core (b : Nat) (l : Lost) (s : State) : (State.judgeLost b l s).core = s.core := by
  unfold State.judgeLost
  first
    | (simp; done)
    | (repeat' (first
        | (simp; done) | split | rw [State.foldl_core] | rw [foldl_fst_core] | rw [foldl_snd_core]
        | dsimp only | simp | rw [State.onSec_core] | rw [State.onSys_core] | with_reducible rfl | intro _))

@[simp ↓] theorem State.endDrill_core (b : Nat) (passed : Bool) (s : State) : (State.endDrill b passed s).core = s.core := by
  unfold State.endDrill
  first
    | (simp; done)
    | (repeat' (first
        | (simp; done) | split | rw [State.foldl_core] | rw [foldl_fst_core] | rw [foldl_snd_core]
        | dsimp only | simp | rw [State.onSec_core] | rw [State.onSys_core] | with_reducible rfl | intro _))

@[simp ↓] theorem State.lineFault_core (src b : Nat) (origin : Origin) (l : Lost) (s : State) : (State.lineFault src b origin l s).core = s.core := by
  unfold State.lineFault
  first
    | (simp; done)
    | (repeat' (first
        | (simp; done) | split | rw [State.foldl_core] | rw [foldl_fst_core] | rw [foldl_snd_core]
        | dsimp only | simp | rw [State.onSec_core] | rw [State.onSys_core] | with_reducible rfl | intro _))

@[simp ↓] theorem State.fireTested_core (b : Nat) (lasting : Bool) (s : State) : (State.fireTested b lasting s).core = s.core := by
  unfold State.fireTested
  first
    | (simp; done)
    | (repeat' (first
        | (simp; done) | split | rw [State.foldl_core] | rw [foldl_fst_core] | rw [foldl_snd_core]
        | dsimp only | simp | rw [State.onSec_core] | rw [State.onSys_core] | with_reducible rfl | intro _))

@[simp ↓] theorem State.testFailed_core (b : Nat) (s : State) : (State.testFailed b s).core = s.core := by
  unfold State.testFailed
  first
    | (simp; done)
    | (repeat' (first
        | (simp; done) | split | rw [State.foldl_core] | rw [foldl_fst_core] | rw [foldl_snd_core]
        | dsimp only | simp | rw [State.onSec_core] | rw [State.onSys_core] | with_reducible rfl | intro _))

@[simp ↓] theorem State.testEcho_core (b lane : Nat) (x : LineTest) (s : State) : (State.testEcho b lane x s).core = s.core := by
  unfold State.testEcho
  first
    | (simp; done)
    | (repeat' (first
        | (simp; done) | split | rw [State.foldl_core] | rw [foldl_fst_core] | rw [foldl_snd_core]
        | dsimp only | simp | rw [State.onSec_core] | rw [State.onSys_core] | with_reducible rfl | intro _))

@[simp ↓] theorem State.tickPulse_core (b : Nat) (m : Int) (mark : Bool) (s : State) : (State.tickPulse b m mark s).core = s.core := by
  unfold State.tickPulse
  first
    | (simp; done)
    | (repeat' (first
        | (simp; done) | split | rw [State.foldl_core] | rw [foldl_fst_core] | rw [foldl_snd_core]
        | dsimp only | simp | rw [State.onSec_core] | rw [State.onSys_core] | with_reducible rfl | intro _))

@[simp ↓] theorem State.rasterGap_core (b : Nat) (m : Int) (s : State) : (State.rasterGap b m s).core = s.core := by
  unfold State.rasterGap
  first
    | (simp; done)
    | (repeat' (first
        | (simp; done) | split | rw [State.foldl_core] | rw [foldl_fst_core] | rw [foldl_snd_core]
        | dsimp only | simp | rw [State.onSec_core] | rw [State.onSys_core] | with_reducible rfl | intro _))

@[simp ↓] theorem State.rasterLine0_core (b : Nat) (p : Span) (issued : Bool) (s : State) : (State.rasterLine0 b p issued s).core = s.core := by
  unfold State.rasterLine0
  first
    | (simp; done)
    | (repeat' (first
        | (simp; done) | split | rw [State.foldl_core] | rw [foldl_fst_core] | rw [foldl_snd_core]
        | dsimp only | simp | rw [State.onSec_core] | rw [State.onSys_core] | with_reducible rfl | intro _))

@[simp ↓] theorem State.rasterLine_core (b : Nat) (p : Span) (i : Nat) (s : State) : (State.rasterLine b p i s).core = s.core := by
  unfold State.rasterLine
  first
    | (simp; done)
    | (repeat' (first
        | (simp; done) | split | rw [State.foldl_core] | rw [foldl_fst_core] | rw [foldl_snd_core]
        | dsimp only | simp | rw [State.onSec_core] | rw [State.onSys_core] | with_reducible rfl | intro _))

@[simp ↓] theorem State.imageDone_core (b : Nat) (p : Span) (s : State) : (State.imageDone b p s).core = s.core := by
  unfold State.imageDone
  first
    | (simp; done)
    | (repeat' (first
        | (simp; done) | split | rw [State.foldl_core] | rw [foldl_fst_core] | rw [foldl_snd_core]
        | dsimp only | simp | rw [State.onSec_core] | rw [State.onSys_core] | with_reducible rfl | intro _))

@[simp ↓] theorem State.trimSpans_core (b : Nat) (m : Int) (s : State) : (State.trimSpans b m s).core = s.core := by
  unfold State.trimSpans
  first
    | (simp; done)
    | (repeat' (first
        | (simp; done) | split | rw [State.foldl_core] | rw [foldl_fst_core] | rw [foldl_snd_core]
        | dsimp only | simp | rw [State.onSec_core] | rw [State.onSys_core] | with_reducible rfl | intro _))

@[simp ↓] theorem State.raster_core (b : Nat) (m : Int) (issued : Bool) (s : State) : (State.raster b m issued s).core = s.core := by
  unfold State.raster
  first
    | (simp; done)
    | (repeat' (first
        | (simp; done) | split | rw [State.foldl_core] | rw [foldl_fst_core] | rw [foldl_snd_core]
        | dsimp only | simp | rw [State.onSec_core] | rw [State.onSys_core] | with_reducible rfl | intro _))

@[simp ↓] theorem State.withhold_core (b : Nat) (m : Int) (line0 : Bool) (s : State) : (State.withhold b m line0 s).core = s.core := by
  unfold State.withhold
  first
    | (simp; done)
    | (repeat' (first
        | (simp; done) | split | rw [State.foldl_core] | rw [foldl_fst_core] | rw [foldl_snd_core]
        | dsimp only | simp | rw [State.onSec_core] | rw [State.onSys_core] | with_reducible rfl | intro _))

@[simp ↓] theorem State.renewSync_core (b : Nat) (tick : Int) (s : State) : (State.renewSync b tick s).core = s.core := by
  unfold State.renewSync
  first
    | (simp; done)
    | (repeat' (first
        | (simp; done) | split | rw [State.foldl_core] | rw [foldl_fst_core] | rw [foldl_snd_core]
        | dsimp only | simp | rw [State.onSec_core] | rw [State.onSys_core] | with_reducible rfl | intro _))

@[simp ↓] theorem State.issue_core (b : Nat) (m : Int) (line0 : Bool) (rows : List Nat) (s : State) : (State.issue b m line0 rows s).core = s.core := by
  unfold State.issue
  first
    | (simp; done)
    | (repeat' (first
        | (simp; done) | split | rw [State.foldl_core] | rw [foldl_fst_core] | rw [foldl_snd_core]
        | dsimp only | simp | rw [State.onSec_core] | rw [State.onSys_core] | with_reducible rfl | intro _))

@[simp ↓] theorem State.lineEvent_core (b : Nat) (m : Int) (differ stalled : Bool) (s : State) : (State.lineEvent b m differ stalled s).core = s.core := by
  unfold State.lineEvent
  first
    | (simp; done)
    | (repeat' (first
        | (simp; done) | split | rw [State.foldl_core] | rw [foldl_fst_core] | rw [foldl_snd_core]
        | dsimp only | simp | rw [State.onSec_core] | rw [State.onSys_core] | with_reducible rfl | intro _))

@[simp ↓] theorem State.fireNext_core (b : Nat) (held differ stalled : Bool) (s : State) : (State.fireNext b held differ stalled s).core = s.core := by
  unfold State.fireNext
  first
    | (simp; done)
    | (repeat' (first
        | (simp; done) | split | rw [State.foldl_core] | rw [foldl_fst_core] | rw [foldl_snd_core]
        | dsimp only | simp | rw [State.onSec_core] | rw [State.onSys_core] | with_reducible rfl | intro _))

/-! ### LinkCmd -/

@[simp ↓] theorem State.countCorr_core (n corr : Nat) (s : State) : (State.countCorr n corr s).core = s.core := by
  unfold State.countCorr
  first
    | (simp; done)
    | (repeat' (first
        | (simp; done) | split | rw [State.foldl_core] | rw [foldl_fst_core] | rw [foldl_snd_core]
        | dsimp only | simp | rw [State.onSec_core] | rw [State.onSys_core] | with_reducible rfl | intro _))

@[simp ↓] theorem execLaneTrain_core (dt : Nat) (lane : Fin 32) (s : State) : Keeps s (execLaneTrain dt lane s) := by
  unfold execLaneTrain
  first
    | (simp; done)
    | (repeat' (first
        | (simp; done) | split | rw [State.foldl_core] | rw [foldl_fst_core] | rw [foldl_snd_core]
        | dsimp only | simp | rw [State.onSec_core] | rw [State.onSys_core] | with_reducible rfl | intro _))

@[simp ↓] theorem execLaneOos_core (dt : Nat) (lane : Fin 32) (out : Bool) (s : State) : Keeps s (execLaneOos dt lane out s) := by
  unfold execLaneOos
  first
    | (simp; done)
    | (repeat' (first
        | (simp; done) | split | rw [State.foldl_core] | rw [foldl_fst_core] | rw [foldl_snd_core]
        | dsimp only | simp | rw [State.onSec_core] | rw [State.onSys_core] | with_reducible rfl | intro _))

@[simp ↓] theorem execLaneQuietDone_core (dt : Nat) (lane : Fin 32) (s : State) : Keeps s (execLaneQuietDone dt lane s) := by
  unfold execLaneQuietDone
  first
    | (simp; done)
    | (repeat' (first
        | (simp; done) | split | rw [State.foldl_core] | rw [foldl_fst_core] | rw [foldl_snd_core]
        | dsimp only | simp | rw [State.onSec_core] | rw [State.onSys_core] | with_reducible rfl | intro _))

@[simp ↓] theorem execLaneEqAdapted_core (dt : Nat) (lane : Fin 32) (eq : Word) (s : State) : Keeps s (execLaneEqAdapted dt lane eq s) := by
  unfold execLaneEqAdapted
  first
    | (simp; done)
    | (repeat' (first
        | (simp; done) | split | rw [State.foldl_core] | rw [foldl_fst_core] | rw [foldl_snd_core]
        | dsimp only | simp | rw [State.onSec_core] | rw [State.onSys_core] | with_reducible rfl | intro _))

@[simp ↓] theorem execLaneEqTimeout_core (dt : Nat) (lane : Fin 32) (s : State) : Keeps s (execLaneEqTimeout dt lane s) := by
  unfold execLaneEqTimeout
  first
    | (simp; done)
    | (repeat' (first
        | (simp; done) | split | rw [State.foldl_core] | rw [foldl_fst_core] | rw [foldl_snd_core]
        | dsimp only | simp | rw [State.onSec_core] | rw [State.onSys_core] | with_reducible rfl | intro _))

@[simp ↓] theorem execLaneLockTimeout_core (dt : Nat) (lane : Fin 32) (s : State) : Keeps s (execLaneLockTimeout dt lane s) := by
  unfold execLaneLockTimeout
  first
    | (simp; done)
    | (repeat' (first
        | (simp; done) | split | rw [State.foldl_core] | rw [foldl_fst_core] | rw [foldl_snd_core]
        | dsimp only | simp | rw [State.onSec_core] | rw [State.onSys_core] | with_reducible rfl | intro _))

@[simp ↓] theorem State.serveFir_core (n fir : Nat) (s : State) : (State.serveFir n fir s).core = s.core := by
  unfold State.serveFir
  first
    | (simp; done)
    | (repeat' (first
        | (simp; done) | split | rw [State.foldl_core] | rw [foldl_fst_core] | rw [foldl_snd_core]
        | dsimp only | simp | rw [State.onSec_core] | rw [State.onSys_core] | with_reducible rfl | intro _))

@[simp ↓] theorem execTrainingSetReceive_core (dt : Nat) (lane : Fin 32) (bytes : List Byte) (s : State) : Keeps s (execTrainingSetReceive dt lane bytes s) := by
  unfold execTrainingSetReceive
  first
    | (simp; done)
    | (repeat' (first
        | (simp; done) | split | rw [State.foldl_core] | rw [foldl_fst_core] | rw [foldl_snd_core]
        | dsimp only | simp | rw [State.onSec_core] | rw [State.onSys_core] | with_reducible rfl | intro _))

@[simp ↓] theorem State.takeInsert_core (n len : Nat) (p : List Byte) (s : State) : (State.takeInsert n len p s).core = s.core := by
  unfold State.takeInsert
  first
    | (simp; done)
    | (repeat' (first
        | (simp; done) | split | rw [State.foldl_core] | rw [foldl_fst_core] | rw [foldl_snd_core]
        | dsimp only | simp | rw [State.onSec_core] | rw [State.onSys_core] | with_reducible rfl | intro _))

@[simp ↓] theorem State.serveMarker_core (n : Nat) (bytes : List Byte) (s : State) : (State.serveMarker n bytes s).core = s.core := by
  unfold State.serveMarker
  first
    | (simp; done)
    | (repeat' (first
        | (simp; done) | split | rw [State.foldl_core] | rw [foldl_fst_core] | rw [foldl_snd_core]
        | dsimp only | simp | rw [State.onSec_core] | rw [State.onSys_core] | with_reducible rfl | intro _))

@[simp ↓] theorem State.badCodeword_core (n : Nat) (s : State) : (State.badCodeword n s).core = s.core := by
  unfold State.badCodeword
  first
    | (simp; done)
    | (repeat' (first
        | (simp; done) | split | rw [State.foldl_core] | rw [foldl_fst_core] | rw [foldl_snd_core]
        | dsimp only | simp | rw [State.onSec_core] | rw [State.onSys_core] | with_reducible rfl | intro _))

@[simp ↓] theorem State.missMarker_core (n : Nat) (known : Option (List Byte)) (s : State) : (State.missMarker n known s).core = s.core := by
  unfold State.missMarker
  first
    | (simp; done)
    | (repeat' (first
        | (simp; done) | split | rw [State.foldl_core] | rw [foldl_fst_core] | rw [foldl_snd_core]
        | dsimp only | simp | rw [State.onSec_core] | rw [State.onSys_core] | with_reducible rfl | intro _))

@[simp ↓] theorem State.markerFec_core (n : Nat) (fec : Option Nat) (s : State) : (State.markerFec n fec s).core = s.core := by
  unfold State.markerFec
  first
    | (simp; done)
    | (repeat' (first
        | (simp; done) | split | rw [State.foldl_core] | rw [foldl_fst_core] | rw [foldl_snd_core]
        | dsimp only | simp | rw [State.onSec_core] | rw [State.onSys_core] | with_reducible rfl | intro _))

@[simp ↓] theorem State.judgeSkew_core (n : Nat) (s : State) : (State.judgeSkew n s).core = s.core := by
  unfold State.judgeSkew
  first
    | (simp; done)
    | (repeat' (first
        | (simp; done) | split | rw [State.foldl_core] | rw [foldl_fst_core] | rw [foldl_snd_core]
        | dsimp only | simp | rw [State.onSec_core] | rw [State.onSys_core] | with_reducible rfl | intro _))

@[simp ↓] theorem execMarkerReceive_core (dt : Nat) (lane : Fin 32) (word : MarkerWord) (s : State) : Keeps s (execMarkerReceive dt lane word s) := by
  unfold execMarkerReceive
  first
    | (simp; done)
    | (repeat' (first
        | (simp; done) | split | rw [State.foldl_core] | rw [foldl_fst_core] | rw [foldl_snd_core]
        | dsimp only | simp | rw [State.onSec_core] | rw [State.onSys_core] | with_reducible rfl | intro _))

@[simp ↓] theorem execMarkerMissing_core (dt : Nat) (lane : Fin 32) (s : State) : Keeps s (execMarkerMissing dt lane s) := by
  unfold execMarkerMissing
  first
    | (simp; done)
    | (repeat' (first
        | (simp; done) | split | rw [State.foldl_core] | rw [foldl_fst_core] | rw [foldl_snd_core]
        | dsimp only | simp | rw [State.onSec_core] | rw [State.onSys_core] | with_reducible rfl | intro _))

@[simp ↓] theorem State.takeStream_core (n first : Nat) (area : List Byte) (s : State) : (State.takeStream n first area s).core = s.core := by
  unfold State.takeStream
  first
    | (simp; done)
    | (repeat' (first
        | (simp; done) | split | rw [State.foldl_core] | rw [foldl_fst_core] | rw [foldl_snd_core]
        | dsimp only | simp | rw [State.onSec_core] | rw [State.onSys_core] | with_reducible rfl | intro _))

@[simp ↓] theorem State.goodCodeword_core (n kind : Nat) (bytes : List Byte) (corr : Nat) (s : State) : (State.goodCodeword n kind bytes corr s).core = s.core := by
  unfold State.goodCodeword
  first
    | (simp; done)
    | (repeat' (first
        | (simp; done) | split | rw [State.foldl_core] | rw [foldl_fst_core] | rw [foldl_snd_core]
        | dsimp only | simp | rw [State.onSec_core] | rw [State.onSys_core] | with_reducible rfl | intro _))

@[simp ↓] theorem execCodewordReceive_core (dt : Nat) (lane : Fin 32) (symbols : List Nat) (s : State) : Keeps s (execCodewordReceive dt lane symbols s) := by
  unfold execCodewordReceive
  first
    | (simp; done)
    | (repeat' (first
        | (simp; done) | split | rw [State.foldl_core] | rw [foldl_fst_core] | rw [foldl_snd_core]
        | dsimp only | simp | rw [State.onSec_core] | rw [State.onSys_core] | with_reducible rfl | intro _))

@[simp ↓] theorem execLaneSignalLoss_core (dt : Nat) (lane : Fin 32) (s : State) : Keeps s (execLaneSignalLoss dt lane s) := by
  unfold execLaneSignalLoss
  first
    | (simp; done)
    | (repeat' (first
        | (simp; done) | split | rw [State.foldl_core] | rw [foldl_fst_core] | rw [foldl_snd_core]
        | dsimp only | simp | rw [State.onSec_core] | rw [State.onSys_core] | with_reducible rfl | intro _))

@[simp ↓] theorem execFecWarn_core (dt : Nat) (lane : Fin 32) (s : State) : Keeps s (execFecWarn dt lane s) := by
  unfold execFecWarn
  first
    | (simp; done)
    | (repeat' (first
        | (simp; done) | split | rw [State.foldl_core] | rw [foldl_fst_core] | rw [foldl_snd_core]
        | dsimp only | simp | rw [State.onSec_core] | rw [State.onSys_core] | with_reducible rfl | intro _))

@[simp ↓] theorem State.trainBar_core (arg b : Nat) (s : State) : (State.trainBar arg b s).core = s.core := by
  unfold State.trainBar
  first
    | (simp; done)
    | (repeat' (first
        | (simp; done) | split | rw [State.foldl_core] | rw [foldl_fst_core] | rw [foldl_snd_core]
        | dsimp only | simp | rw [State.onSec_core] | rw [State.onSys_core] | with_reducible rfl | intro _))

@[simp ↓] theorem execBarCfgTrain_core (dt : Nat) (ring : Fin 64) (slot : Nat) (s : State) : Keeps s (execBarCfgTrain dt ring slot s) := by
  unfold execBarCfgTrain
  first
    | (simp; done)
    | (repeat' (first
        | (simp; done) | split | rw [State.foldl_core] | rw [foldl_fst_core] | rw [foldl_snd_core]
        | dsimp only | simp | rw [State.onSec_core] | rw [State.onSys_core] | with_reducible rfl | intro _))

@[simp ↓] theorem State.barRequest_core (d : Desc) (isStat : Bool) (pktOf : Nat → List Byte) (s : State) : (State.barRequest d isStat pktOf s).core = s.core := by
  unfold State.barRequest
  first
    | (simp; done)
    | (repeat' (first
        | (simp; done) | split | rw [State.foldl_core] | rw [foldl_fst_core] | rw [foldl_snd_core]
        | dsimp only | simp | rw [State.onSec_core] | rw [State.onSys_core] | with_reducible rfl | intro _))

@[simp ↓] theorem execBarCfgWrite_core (dt : Nat) (ring : Fin 64) (slot : Nat) (s : State) : Keeps s (execBarCfgWrite dt ring slot s) := by
  unfold execBarCfgWrite
  first
    | (simp; done)
    | (repeat' (first
        | (simp; done) | split | rw [State.foldl_core] | rw [foldl_fst_core] | rw [foldl_snd_core]
        | dsimp only | simp | rw [State.onSec_core] | rw [State.onSys_core] | with_reducible rfl | intro _))

@[simp ↓] theorem execBarCfgRead_core (dt : Nat) (ring : Fin 64) (slot : Nat) (s : State) : Keeps s (execBarCfgRead dt ring slot s) := by
  unfold execBarCfgRead
  first
    | (simp; done)
    | (repeat' (first
        | (simp; done) | split | rw [State.foldl_core] | rw [foldl_fst_core] | rw [foldl_snd_core]
        | dsimp only | simp | rw [State.onSec_core] | rw [State.onSys_core] | with_reducible rfl | intro _))

@[simp ↓] theorem execBarCfgSleep_core (dt : Nat) (ring : Fin 64) (slot : Nat) (s : State) : Keeps s (execBarCfgSleep dt ring slot s) := by
  unfold execBarCfgSleep
  first
    | (simp; done)
    | (repeat' (first
        | (simp; done) | split | rw [State.foldl_core] | rw [foldl_fst_core] | rw [foldl_snd_core]
        | dsimp only | simp | rw [State.onSec_core] | rw [State.onSys_core] | with_reducible rfl | intro _))

@[simp ↓] theorem execBarCfgWake_core (dt : Nat) (ring : Fin 64) (slot : Nat) (s : State) : Keeps s (execBarCfgWake dt ring slot s) := by
  unfold execBarCfgWake
  first
    | (simp; done)
    | (repeat' (first
        | (simp; done) | split | rw [State.foldl_core] | rw [foldl_fst_core] | rw [foldl_snd_core]
        | dsimp only | simp | rw [State.onSec_core] | rw [State.onSys_core] | with_reducible rfl | intro _))

@[simp ↓] theorem State.reqComplete_core (r : HubReq) (late : Bool) (s : State) : (State.reqComplete r late s).core = s.core := by
  unfold State.reqComplete
  first
    | (simp; done)
    | (repeat' (first
        | (simp; done) | split | rw [State.foldl_core] | rw [foldl_fst_core] | rw [foldl_snd_core]
        | dsimp only | simp | rw [State.onSec_core] | rw [State.onSys_core] | with_reducible rfl | intro _))

@[simp ↓] theorem State.replyEffect_core (b : Nat) (r : HubReq) (ok : Bool) (words : List Byte) (s : State) : (State.replyEffect b r ok words s).core = s.core := by
  unfold State.replyEffect
  first
    | (simp; done)
    | (repeat' (first
        | (simp; done) | split | rw [State.foldl_core] | rw [foldl_fst_core] | rw [foldl_snd_core]
        | dsimp only | simp | rw [State.onSec_core] | rw [State.onSys_core] | with_reducible rfl | intro _))

@[simp ↓] theorem State.takeReply_core (n : Nat) (isStat : Bool) (p : List Byte) (s : State) : (State.takeReply n isStat p s).core = s.core := by
  unfold State.takeReply
  first
    | (simp; done)
    | (repeat' (first
        | (simp; done) | split | rw [State.foldl_core] | rw [foldl_fst_core] | rw [foldl_snd_core]
        | dsimp only | simp | rw [State.onSec_core] | rw [State.onSys_core] | with_reducible rfl | intro _))

@[simp ↓] theorem State.upPacket_core (n typ : Nat) (p : List Byte) (f : State → State) (s : State) (h_f : ∀ t, (f t).core = t.core) : (State.upPacket n typ p f s).core = s.core := by
  unfold State.upPacket
  first
    | (simp [*]; done)
    | (repeat' (first
        | (simp [*]; done) | split | rw [State.foldl_core] | rw [foldl_fst_core] | rw [foldl_snd_core]
        | dsimp only | simp [*] | rw [State.onSec_core] | rw [State.onSys_core] | with_reducible rfl | intro _))

@[simp ↓] theorem execCfgAckReceive_core (dt : Nat) (lane : Fin 32) (pkt : List Byte) (s : State) : Keeps s (execCfgAckReceive dt lane pkt s) := by
  unfold execCfgAckReceive
  first
    | (simp; done)
    | (repeat' (first
        | (simp; done) | split | rw [State.foldl_core] | rw [foldl_fst_core] | rw [foldl_snd_core]
        | dsimp only | simp | rw [State.onSec_core] | rw [State.onSys_core] | with_reducible rfl | intro _))

@[simp ↓] theorem execStatDataReceive_core (dt : Nat) (lane : Fin 32) (pkt : List Byte) (s : State) : Keeps s (execStatDataReceive dt lane pkt s) := by
  unfold execStatDataReceive
  first
    | (simp; done)
    | (repeat' (first
        | (simp; done) | split | rw [State.foldl_core] | rw [foldl_fst_core] | rw [foldl_snd_core]
        | dsimp only | simp | rw [State.onSec_core] | rw [State.onSys_core] | with_reducible rfl | intro _))

@[simp ↓] theorem execCfgAckTimeout_core (dt : Nat) (bar : Fin 8) (ctag : Nat) (s : State) : Keeps s (execCfgAckTimeout dt bar ctag s) := by
  unfold execCfgAckTimeout
  first
    | (simp; done)
    | (repeat' (first
        | (simp; done) | split | rw [State.foldl_core] | rw [foldl_fst_core] | rw [foldl_snd_core]
        | dsimp only | simp | rw [State.onSec_core] | rw [State.onSys_core] | with_reducible rfl | intro _))

@[simp ↓] theorem execHubSleepReceive_core (dt : Nat) (lane : Fin 32) (pkt : List Byte) (s : State) : Keeps s (execHubSleepReceive dt lane pkt s) := by
  unfold execHubSleepReceive
  first
    | (simp; done)
    | (repeat' (first
        | (simp; done) | split | rw [State.foldl_core] | rw [foldl_fst_core] | rw [foldl_snd_core]
        | dsimp only | simp | rw [State.onSec_core] | rw [State.onSys_core] | with_reducible rfl | intro _))

@[simp ↓] theorem execHubWakeReceive_core (dt : Nat) (lane : Fin 32) (pkt : List Byte) (s : State) : Keeps s (execHubWakeReceive dt lane pkt s) := by
  unfold execHubWakeReceive
  first
    | (simp; done)
    | (repeat' (first
        | (simp; done) | split | rw [State.foldl_core] | rw [foldl_fst_core] | rw [foldl_snd_core]
        | dsimp only | simp | rw [State.onSec_core] | rw [State.onSys_core] | with_reducible rfl | intro _))

@[simp ↓] theorem execDsSleepEnter_core (dt : Nat) (bar : Fin 8) (s : State) : Keeps s (execDsSleepEnter dt bar s) := by
  unfold execDsSleepEnter
  first
    | (simp; done)
    | (repeat' (first
        | (simp; done) | split | rw [State.foldl_core] | rw [foldl_fst_core] | rw [foldl_snd_core]
        | dsimp only | simp | rw [State.onSec_core] | rw [State.onSys_core] | with_reducible rfl | intro _))

@[simp ↓] theorem execUsSleepEnter_core (dt : Nat) (bar : Fin 8) (s : State) : Keeps s (execUsSleepEnter dt bar s) := by
  unfold execUsSleepEnter
  first
    | (simp; done)
    | (repeat' (first
        | (simp; done) | split | rw [State.foldl_core] | rw [foldl_fst_core] | rw [foldl_snd_core]
        | dsimp only | simp | rw [State.onSec_core] | rw [State.onSys_core] | with_reducible rfl | intro _))

@[simp ↓] theorem execWakeComplete_core (dt : Nat) (bar : Fin 8) (upstream : Bool) (s : State) : Keeps s (execWakeComplete dt bar upstream s) := by
  unfold execWakeComplete
  first
    | (simp; done)
    | (repeat' (first
        | (simp; done) | split | rw [State.foldl_core] | rw [foldl_fst_core] | rw [foldl_snd_core]
        | dsimp only | simp | rw [State.onSec_core] | rw [State.onSys_core] | with_reducible rfl | intro _))

@[simp ↓] theorem execWakeLate_core (dt : Nat) (bar : Fin 8) (upstream : Bool) (lane : Fin 32) (s : State) : Keeps s (execWakeLate dt bar upstream lane s) := by
  unfold execWakeLate
  first
    | (simp; done)
    | (repeat' (first
        | (simp; done) | split | rw [State.foldl_core] | rw [foldl_fst_core] | rw [foldl_snd_core]
        | dsimp only | simp | rw [State.onSec_core] | rw [State.onSys_core] | with_reducible rfl | intro _))

end Sys2Proof.Machine
end

