-- ==== Sys2Proof/Laws/Core13.lean ====
section
/-! SUPPORT. The shared operations of JetCmd, Mailbox, TableCmd leave the core of the state as it is. -/

set_option Elab.async false

namespace Sys2Proof.Machine

/-! ### JetCmd -/

@[simp ↓] theorem execFireTick_core (dt : Nat) (bar : Fin 8) (found : TickCheck) (s : State) : Keeps s (execFireTick dt bar found s) := by
  unfold execFireTick
  first
    | (simp; done)
    | (repeat' (first
        | (simp; done) | split | rw [State.foldl_core] | rw [foldl_fst_core] | rw [foldl_snd_core]
        | dsimp only | simp | rw [State.onSec_core] | rw [State.onSys_core] | with_reducible rfl | intro _))

@[simp ↓] theorem execBurstTick_core (dt : Nat) (tick : BurstAt) (s : State) : Keeps s (execBurstTick dt tick s) := by
  unfold execBurstTick
  first
    | (simp; done)
    | (repeat' (first
        | (simp; done) | split | rw [State.foldl_core] | rw [foldl_fst_core] | rw [foldl_snd_core]
        | dsimp only | simp | rw [State.onSec_core] | rw [State.onSys_core] | with_reducible rfl | intro _))

@[simp ↓] theorem execFirePulseEnd_core (dt : Nat) (bar : Fin 8) (s : State) : Keeps s (execFirePulseEnd dt bar s) := by
  unfold execFirePulseEnd
  first
    | (simp; done)
    | (repeat' (first
        | (simp; done) | split | rw [State.foldl_core] | rw [foldl_fst_core] | rw [foldl_snd_core]
        | dsimp only | simp | rw [State.onSec_core] | rw [State.onSys_core] | with_reducible rfl | intro _))

@[simp ↓] theorem execDotSendStart_core (dt : Nat) (bar : Fin 8) (s : State) : Keeps s (execDotSendStart dt bar s) := by
  unfold execDotSendStart
  first
    | (simp; done)
    | (repeat' (first
        | (simp; done) | split | rw [State.foldl_core] | rw [foldl_fst_core] | rw [foldl_snd_core]
        | dsimp only | simp | rw [State.onSec_core] | rw [State.onSys_core] | with_reducible rfl | intro _))

@[simp ↓] theorem State.judgeHalves_core (b : Nat) (s : State) : (State.judgeHalves b s).core = s.core := by
  unfold State.judgeHalves
  first
    | (simp; done)
    | (repeat' (first
        | (simp; done) | split | rw [State.foldl_core] | rw [foldl_fst_core] | rw [foldl_snd_core]
        | dsimp only | simp | rw [State.onSec_core] | rw [State.onSys_core] | with_reducible rfl | intro _))

@[simp ↓] theorem execBarArm_core (dt : Nat) (bar : Fin 8) (s : State) : Keeps s (execBarArm dt bar s) := by
  unfold execBarArm
  first
    | (simp; done)
    | (repeat' (first
        | (simp; done) | split | rw [State.foldl_core] | rw [foldl_fst_core] | rw [foldl_snd_core]
        | dsimp only | simp | rw [State.onSec_core] | rw [State.onSys_core] | with_reducible rfl | intro _))

@[simp ↓] theorem execBarDisarm_core (dt : Nat) (bar : Fin 8) (s : State) : Keeps s (execBarDisarm dt bar s) := by
  unfold execBarDisarm
  first
    | (simp; done)
    | (repeat' (first
        | (simp; done) | split | rw [State.foldl_core] | rw [foldl_fst_core] | rw [foldl_snd_core]
        | dsimp only | simp | rw [State.onSec_core] | rw [State.onSys_core] | with_reducible rfl | intro _))

@[simp ↓] theorem execHvEnWrite_core (dt : Nat) (bar : Fin 8) (level : Bool) (s : State) : Keeps s (execHvEnWrite dt bar level s) := by
  unfold execHvEnWrite
  first
    | (simp; done)
    | (repeat' (first
        | (simp; done) | split | rw [State.foldl_core] | rw [foldl_fst_core] | rw [foldl_snd_core]
        | dsimp only | simp | rw [State.onSec_core] | rw [State.onSys_core] | with_reducible rfl | intro _))

@[simp ↓] theorem execDrillRequest_core (dt : Nat) (bar : Fin 8) (s : State) : Keeps s (execDrillRequest dt bar s) := by
  unfold execDrillRequest
  first
    | (simp; done)
    | (repeat' (first
        | (simp; done) | split | rw [State.foldl_core] | rw [foldl_fst_core] | rw [foldl_snd_core]
        | dsimp only | simp | rw [State.onSec_core] | rw [State.onSys_core] | with_reducible rfl | intro _))

@[simp ↓] theorem execDrillStart_core (dt : Nat) (bar : Fin 8) (s : State) : Keeps s (execDrillStart dt bar s) := by
  unfold execDrillStart
  first
    | (simp; done)
    | (repeat' (first
        | (simp; done) | split | rw [State.foldl_core] | rw [foldl_fst_core] | rw [foldl_snd_core]
        | dsimp only | simp | rw [State.onSec_core] | rw [State.onSys_core] | with_reducible rfl | intro _))

@[simp ↓] theorem execFireRepair_core (dt : Nat) (bar : Fin 8) (lineB : Bool) (s : State) : Keeps s (execFireRepair dt bar lineB s) := by
  unfold execFireRepair
  first
    | (simp; done)
    | (repeat' (first
        | (simp; done) | split | rw [State.foldl_core] | rw [foldl_fst_core] | rw [foldl_snd_core]
        | dsimp only | simp | rw [State.onSec_core] | rw [State.onSys_core] | with_reducible rfl | intro _))

@[simp ↓] theorem execFirePadFault_core (dt : Nat) (line : FireLine) (s : State) : Keeps s (execFirePadFault dt line s) := by
  unfold execFirePadFault
  first
    | (simp; done)
    | (repeat' (first
        | (simp; done) | split | rw [State.foldl_core] | rw [foldl_fst_core] | rw [foldl_snd_core]
        | dsimp only | simp | rw [State.onSec_core] | rw [State.onSys_core] | with_reducible rfl | intro _))

@[simp ↓] theorem execEchoTimeout_core (dt : Nat) (bar : Fin 8) (s : State) : Keeps s (execEchoTimeout dt bar s) := by
  unfold execEchoTimeout
  first
    | (simp; done)
    | (repeat' (first
        | (simp; done) | split | rw [State.foldl_core] | rw [foldl_fst_core] | rw [foldl_snd_core]
        | dsimp only | simp | rw [State.onSec_core] | rw [State.onSys_core] | with_reducible rfl | intro _))

@[simp ↓] theorem State.echoMatch_core (b : Nat) (a : Awaiting) (s : State) : (State.echoMatch b a s).core = s.core := by
  unfold State.echoMatch
  first
    | (simp; done)
    | (repeat' (first
        | (simp; done) | split | rw [State.foldl_core] | rw [foldl_fst_core] | rw [foldl_snd_core]
        | dsimp only | simp | rw [State.onSec_core] | rw [State.onSys_core] | with_reducible rfl | intro _))

@[simp ↓] theorem State.takeEcho_core (b lane : Nat) (p : List Byte) (s : State) : (State.takeEcho b lane p s).core = s.core := by
  unfold State.takeEcho
  first
    | (simp; done)
    | (repeat' (first
        | (simp; done) | split | rw [State.foldl_core] | rw [foldl_fst_core] | rw [foldl_snd_core]
        | dsimp only | simp | rw [State.onSec_core] | rw [State.onSys_core] | with_reducible rfl | intro _))

@[simp ↓] theorem execEchoReceive_core (dt : Nat) (lane : Fin 32) (pkt : List Byte) (s : State) : Keeps s (execEchoReceive dt lane pkt s) := by
  unfold execEchoReceive
  first
    | (simp; done)
    | (repeat' (first
        | (simp; done) | split | rw [State.foldl_core] | rw [foldl_fst_core] | rw [foldl_snd_core]
        | dsimp only | simp | rw [State.onSec_core] | rw [State.onSys_core] | with_reducible rfl | intro _))

@[simp ↓] theorem execFireSelfTest_core (dt : Nat) (bar : Fin 8) (s : State) : Keeps s (execFireSelfTest dt bar s) := by
  unfold execFireSelfTest
  first
    | (simp; done)
    | (repeat' (first
        | (simp; done) | split | rw [State.foldl_core] | rw [foldl_fst_core] | rw [foldl_snd_core]
        | dsimp only | simp | rw [State.onSec_core] | rw [State.onSys_core] | with_reducible rfl | intro _))

/-! ### Mailbox -/

@[simp ↓] theorem State.onStage_core (agent : Nat) (f : Stage → Stage) (s : State) : (State.onStage agent f s).core = s.core := by
  unfold State.onStage
  first
    | (simp; done)
    | (repeat' (first
        | (simp; done) | split | rw [State.foldl_core] | rw [foldl_fst_core] | rw [foldl_snd_core]
        | dsimp only | simp | rw [State.onSec_core] | rw [State.onSys_core] | with_reducible rfl | intro _))

@[simp ↓] theorem State.tellReceiver_core (agent : Nat) (s : State) : (State.tellReceiver agent s).core = s.core := by
  unfold State.tellReceiver
  first
    | (simp; done)
    | (repeat' (first
        | (simp; done) | split | rw [State.foldl_core] | rw [foldl_fst_core] | rw [foldl_snd_core]
        | dsimp only | simp | rw [State.onSec_core] | rw [State.onSys_core] | with_reducible rfl | intro _))

@[simp ↓] theorem execMbxPost_core (dt : Nat) (agent : Fin 7) (data : Word) (s : State) : Keeps s (execMbxPost dt agent data s) := by
  unfold execMbxPost
  first
    | (simp; done)
    | (repeat' (first
        | (simp; done) | split | rw [State.foldl_core] | rw [foldl_fst_core] | rw [foldl_snd_core]
        | dsimp only | simp | rw [State.onSec_core] | rw [State.onSys_core] | with_reducible rfl | intro _))

@[simp ↓] theorem execMbxAck_core (dt : Nat) (agent : Fin 7) (box : Fin 16) (data : Word) (s : State) : Keeps s (execMbxAck dt agent box data s) := by
  unfold execMbxAck
  first
    | (simp; done)
    | (repeat' (first
        | (simp; done) | split | rw [State.foldl_core] | rw [foldl_fst_core] | rw [foldl_snd_core]
        | dsimp only | simp | rw [State.onSec_core] | rw [State.onSys_core] | with_reducible rfl | intro _))

@[simp ↓] theorem execMbxClear_core (dt : Nat) (agent : Fin 7) (box : Fin 16) (data : Word) (s : State) : Keeps s (execMbxClear dt agent box data s) := by
  unfold execMbxClear
  first
    | (simp; done)
    | (repeat' (first
        | (simp; done) | split | rw [State.foldl_core] | rw [foldl_fst_core] | rw [foldl_snd_core]
        | dsimp only | simp | rw [State.onSec_core] | rw [State.onSys_core] | with_reducible rfl | intro _))

@[simp ↓] theorem execMbxWakeLate_core (dt : Nat) (box : Fin 16) (s : State) : Keeps s (execMbxWakeLate dt box s) := by
  unfold execMbxWakeLate
  first
    | (simp; done)
    | (repeat' (first
        | (simp; done) | split | rw [State.foldl_core] | rw [foldl_fst_core] | rw [foldl_snd_core]
        | dsimp only | simp | rw [State.onSec_core] | rw [State.onSys_core] | with_reducible rfl | intro _))

@[simp ↓] theorem State.stileTake_core (n a : Nat) (s : State) : (State.stileTake n a s).core = s.core := by
  unfold State.stileTake
  first
    | (simp; done)
    | (repeat' (first
        | (simp; done) | split | rw [State.foldl_core] | rw [foldl_fst_core] | rw [foldl_snd_core]
        | dsimp only | simp | rw [State.onSec_core] | rw [State.onSys_core] | with_reducible rfl | intro _))

@[simp ↓] theorem execStileRead_core (dt : Nat) (agent : Fin 7) (stile : Fin 8) (s : State) : Keeps s (execStileRead dt agent stile s) := by
  unfold execStileRead
  first
    | (simp; done)
    | (repeat' (first
        | (simp; done) | split | rw [State.foldl_core] | rw [foldl_fst_core] | rw [foldl_snd_core]
        | dsimp only | simp | rw [State.onSec_core] | rw [State.onSys_core] | with_reducible rfl | intro _))

@[simp ↓] theorem execStileRelease_core (dt : Nat) (stile : Fin 8) (data : Word) (s : State) : Keeps s (execStileRelease dt stile data s) := by
  unfold execStileRelease
  first
    | (simp; done)
    | (repeat' (first
        | (simp; done) | split | rw [State.foldl_core] | rw [foldl_fst_core] | rw [foldl_snd_core]
        | dsimp only | simp | rw [State.onSec_core] | rw [State.onSys_core] | with_reducible rfl | intro _))

@[simp ↓] theorem execStileLong_core (dt : Nat) (stile : Fin 8) (s : State) : Keeps s (execStileLong dt stile s) := by
  unfold execStileLong
  first
    | (simp; done)
    | (repeat' (first
        | (simp; done) | split | rw [State.foldl_core] | rw [foldl_fst_core] | rw [foldl_snd_core]
        | dsimp only | simp | rw [State.onSec_core] | rw [State.onSys_core] | with_reducible rfl | intro _))

@[simp ↓] theorem State.resetCore_core (core cause : Nat) (s : State) : (State.resetCore core cause s).core = s.core := by
  unfold State.resetCore
  first
    | (simp; done)
    | (repeat' (first
        | (simp; done) | split | rw [State.foldl_core] | rw [foldl_fst_core] | rw [foldl_snd_core]
        | dsimp only | simp | rw [State.onSec_core] | rw [State.onSys_core] | with_reducible rfl | intro _))

@[simp ↓] theorem execCoreResetWrite_core (dt : Nat) (data : Word) (s : State) : Keeps s (execCoreResetWrite dt data s) := by
  unfold execCoreResetWrite
  first
    | (simp; done)
    | (repeat' (first
        | (simp; done) | split | rw [State.foldl_core] | rw [foldl_fst_core] | rw [foldl_snd_core]
        | dsimp only | simp | rw [State.onSec_core] | rw [State.onSys_core] | with_reducible rfl | intro _))

@[simp ↓] theorem execFwDroverRequest_core (dt : Nat) (core : Fin 4) (data : Word) (s : State) : Keeps s (execFwDroverRequest dt core data s) := by
  unfold execFwDroverRequest
  first
    | (simp; done)
    | (repeat' (first
        | (simp; done) | split | rw [State.foldl_core] | rw [foldl_fst_core] | rw [foldl_snd_core]
        | dsimp only | simp | rw [State.onSec_core] | rw [State.onSys_core] | with_reducible rfl | intro _))

@[simp ↓] theorem execFwDroverWithdraw_core (dt : Nat) (core : Fin 4) (data : Word) (s : State) : Keeps s (execFwDroverWithdraw dt core data s) := by
  unfold execFwDroverWithdraw
  first
    | (simp; done)
    | (repeat' (first
        | (simp; done) | split | rw [State.foldl_core] | rw [foldl_fst_core] | rw [foldl_snd_core]
        | dsimp only | simp | rw [State.onSec_core] | rw [State.onSys_core] | with_reducible rfl | intro _))

/-! ### TableCmd -/

@[simp ↓] theorem execTableLoad_core (dt : Nat) (ring : Fin 64) (slot : Nat) (s : State) : Keeps s (execTableLoad dt ring slot s) := by
  unfold execTableLoad
  first
    | (simp; done)
    | (repeat' (first
        | (simp; done) | split | rw [State.foldl_core] | rw [foldl_fst_core] | rw [foldl_snd_core]
        | dsimp only | simp | rw [State.onSec_core] | rw [State.onSys_core] | with_reducible rfl | intro _))

@[simp ↓] theorem State.endLoad_core (order : Nat) (s : State) : (State.endLoad order s).core = s.core := by
  unfold State.endLoad
  first
    | (simp; done)
    | (repeat' (first
        | (simp; done) | split | rw [State.foldl_core] | rw [foldl_fst_core] | rw [foldl_snd_core]
        | dsimp only | simp | rw [State.onSec_core] | rw [State.onSys_core] | with_reducible rfl | intro _))

@[simp ↓] theorem State.holdInk_core (order : Nat) (b : Bind) (p : Nat × Nat × Nat × List Byte) (s : State) : (State.holdInk order b p s).core = s.core := by
  unfold State.holdInk
  first
    | (simp; done)
    | (repeat' (first
        | (simp; done) | split | rw [State.foldl_core] | rw [foldl_fst_core] | rw [foldl_snd_core]
        | dsimp only | simp | rw [State.onSec_core] | rw [State.onSys_core] | with_reducible rfl | intro _))

@[simp ↓] theorem State.holdMeas_core (b : Bind) (p : Nat × Nat × Nat × List Byte) (s : State) : (State.holdMeas b p s).core = s.core := by
  unfold State.holdMeas
  first
    | (simp; done)
    | (repeat' (first
        | (simp; done) | split | rw [State.foldl_core] | rw [foldl_fst_core] | rw [foldl_snd_core]
        | dsimp only | simp | rw [State.onSec_core] | rw [State.onSys_core] | with_reducible rfl | intro _))

@[simp ↓] theorem State.holdIl_core (bar : Nat) (b : Bind) (data : List Byte) (s : State) : (State.holdIl bar b data s).core = s.core := by
  unfold State.holdIl
  first
    | (simp; done)
    | (repeat' (first
        | (simp; done) | split | rw [State.foldl_core] | rw [foldl_fst_core] | rw [foldl_snd_core]
        | dsimp only | simp | rw [State.onSec_core] | rw [State.onSys_core] | with_reducible rfl | intro _))

@[simp ↓] theorem State.holdDict_core (slot : Nat) (b : Bind) (data : List Byte) (s : State) : (State.holdDict slot b data s).core = s.core := by
  unfold State.holdDict
  first
    | (simp; done)
    | (repeat' (first
        | (simp; done) | split | rw [State.foldl_core] | rw [foldl_fst_core] | rw [foldl_snd_core]
        | dsimp only | simp | rw [State.onSec_core] | rw [State.onSys_core] | with_reducible rfl | intro _))

@[simp ↓] theorem State.holdTable_core (order typ index sub : Nat) (b : Bind) (data : List Byte) (s : State) : (State.holdTable order typ index sub b data s).core = s.core := by
  unfold State.holdTable
  first
    | (simp; done)
    | (repeat' (first
        | (simp; done) | split | rw [State.foldl_core] | rw [foldl_fst_core] | rw [foldl_snd_core]
        | dsimp only | simp | rw [State.onSec_core] | rw [State.onSys_core] | with_reducible rfl | intro _))

@[simp ↓] theorem State.tableArrived_core (d : Desc) (data : List Byte) (s : State) : (State.tableArrived d data s).core = s.core := by
  unfold State.tableArrived
  first
    | (simp; done)
    | (repeat' (first
        | (simp; done) | split | rw [State.foldl_core] | rw [foldl_fst_core] | rw [foldl_snd_core]
        | dsimp only | simp | rw [State.onSec_core] | rw [State.onSys_core] | with_reducible rfl | intro _))

@[simp ↓] theorem execTableHeld_core (dt : Nat) (ring : Fin 64) (slot : Nat) (list : List PageEnt) (data : List Byte) (s : State) : Keeps s (execTableHeld dt ring slot list data s) := by
  unfold execTableHeld
  first
    | (simp; done)
    | (repeat' (first
        | (simp; done) | split | rw [State.foldl_core] | rw [foldl_fst_core] | rw [foldl_snd_core]
        | dsimp only | simp | rw [State.onSec_core] | rw [State.onSys_core] | with_reducible rfl | intro _))

@[simp ↓] theorem State.flipTable_core (s : State) (f : Nat × Nat × Nat) : (State.flipTable s f).core = s.core := by
  unfold State.flipTable
  first
    | (simp; done)
    | (repeat' (first
        | (simp; done) | split | rw [State.foldl_core] | rw [foldl_fst_core] | rw [foldl_snd_core]
        | dsimp only | simp | rw [State.onSec_core] | rw [State.onSys_core] | with_reducible rfl | intro _))

@[simp ↓] theorem execTableVerify_core (dt : Nat) (flips : List (Nat × Nat × Nat)) (s : State) : Keeps s (execTableVerify dt flips s) := by
  unfold execTableVerify
  first
    | (simp; done)
    | (repeat' (first
        | (simp; done) | split | rw [State.foldl_core] | rw [foldl_fst_core] | rw [foldl_snd_core]
        | dsimp only | simp | rw [State.onSec_core] | rw [State.onSys_core] | with_reducible rfl | intro _))

@[simp ↓] theorem State.judgePace_core (s : State) (e : Nat) : (State.judgePace s e).core = s.core := by
  unfold State.judgePace
  first
    | (simp; done)
    | (repeat' (first
        | (simp; done) | split | rw [State.foldl_core] | rw [foldl_fst_core] | rw [foldl_snd_core]
        | dsimp only | simp | rw [State.onSec_core] | rw [State.onSys_core] | with_reducible rfl | intro _))

@[simp ↓] theorem execPaceSample_core (dt : Nat) (busy : List Nat) (s : State) : Keeps s (execPaceSample dt busy s) := by
  unfold execPaceSample
  first
    | (simp; done)
    | (repeat' (first
        | (simp; done) | split | rw [State.foldl_core] | rw [foldl_fst_core] | rw [foldl_snd_core]
        | dsimp only | simp | rw [State.onSec_core] | rw [State.onSys_core] | with_reducible rfl | intro _))

@[simp ↓] theorem execCeilingRecompute_core (dt : Nat) (s : State) : Keeps s (execCeilingRecompute dt s) := by
  unfold execCeilingRecompute
  first
    | (simp; done)
    | (repeat' (first
        | (simp; done) | split | rw [State.foldl_core] | rw [foldl_fst_core] | rw [foldl_snd_core]
        | dsimp only | simp | rw [State.onSec_core] | rw [State.onSys_core] | with_reducible rfl | intro _))

end Sys2Proof.Machine
end

