-- ==== Sys2Proof/Laws/Core14.lean ====
section
/-! SUPPORT. The shared operations of NozzleCmd, Therm, RegSet, Net leave the core of the state as it is. -/

set_option Elab.async false

namespace Sys2Proof.Machine

/-! ### NozzleCmd -/

@[simp ↓] theorem State.mapStart_core (d : Desc) (s : State) : (State.mapStart d s).core = s.core := by
  unfold State.mapStart
  first
    | (simp; done)
    | (repeat' (first
        | (simp; done) | split | rw [State.foldl_core] | rw [foldl_fst_core] | rw [foldl_snd_core]
        | dsimp only | simp | rw [State.onSec_core] | rw [State.onSys_core] | with_reducible rfl | intro _))

@[simp ↓] theorem State.remapArrived_core (d : Desc) (region : Nat) (data : List Byte) (s : State) : (State.remapArrived d region data s).core = s.core := by
  unfold State.remapArrived
  first
    | (simp; done)
    | (repeat' (first
        | (simp; done) | split | rw [State.foldl_core] | rw [foldl_fst_core] | rw [foldl_snd_core]
        | dsimp only | simp | rw [State.onSec_core] | rw [State.onSys_core] | with_reducible rfl | intro _))

@[simp ↓] theorem State.remapCopy_core (d : Desc) (list : List PageEnt) (data : List Byte) (s : State) : (State.remapCopy d list data s).core = s.core := by
  unfold State.remapCopy
  first
    | (simp; done)
    | (repeat' (first
        | (simp; done) | split | rw [State.foldl_core] | rw [foldl_fst_core] | rw [foldl_snd_core]
        | dsimp only | simp | rw [State.onSec_core] | rw [State.onSys_core] | with_reducible rfl | intro _))

@[simp ↓] theorem execNozzleMapRemap_core (dt : Nat) (ring : Fin 64) (slot : Nat) (list : List PageEnt) (data : List Byte) (s : State) : Keeps s (execNozzleMapRemap dt ring slot list data s) := by
  unfold execNozzleMapRemap
  first
    | (simp; done)
    | (repeat' (first
        | (simp; done) | split | rw [State.foldl_core] | rw [foldl_fst_core] | rw [foldl_snd_core]
        | dsimp only | simp | rw [State.onSec_core] | rw [State.onSys_core] | with_reducible rfl | intro _))

@[simp ↓] theorem execNozzleMapStatusLoad_core (dt : Nat) (ring : Fin 64) (slot : Nat) (list : List PageEnt) (data : List Byte) (s : State) : Keeps s (execNozzleMapStatusLoad dt ring slot list data s) := by
  unfold execNozzleMapStatusLoad
  first
    | (simp; done)
    | (repeat' (first
        | (simp; done) | split | rw [State.foldl_core] | rw [foldl_fst_core] | rw [foldl_snd_core]
        | dsimp only | simp | rw [State.onSec_core] | rw [State.onSys_core] | with_reducible rfl | intro _))

@[simp ↓] theorem execNozzleMapStatusRead_core (dt : Nat) (ring : Fin 64) (slot : Nat) (list : List PageEnt) (s : State) : Keeps s (execNozzleMapStatusRead dt ring slot list s) := by
  unfold execNozzleMapStatusRead
  first
    | (simp; done)
    | (repeat' (first
        | (simp; done) | split | rw [State.foldl_core] | rw [foldl_fst_core] | rw [foldl_snd_core]
        | dsimp only | simp | rw [State.onSec_core] | rw [State.onSys_core] | with_reducible rfl | intro _))

@[simp ↓] theorem execNozzleMapSet_core (dt : Nat) (ring : Fin 64) (slot : Nat) (s : State) : Keeps s (execNozzleMapSet dt ring slot s) := by
  unfold execNozzleMapSet
  first
    | (simp; done)
    | (repeat' (first
        | (simp; done) | split | rw [State.foldl_core] | rw [foldl_fst_core] | rw [foldl_snd_core]
        | dsimp only | simp | rw [State.onSec_core] | rw [State.onSys_core] | with_reducible rfl | intro _))

@[simp ↓] theorem execNozzleMapRetest_core (dt : Nat) (ring : Fin 64) (slot : Nat) (s : State) : Keeps s (execNozzleMapRetest dt ring slot s) := by
  unfold execNozzleMapRetest
  first
    | (simp; done)
    | (repeat' (first
        | (simp; done) | split | rw [State.foldl_core] | rw [foldl_fst_core] | rw [foldl_snd_core]
        | dsimp only | simp | rw [State.onSec_core] | rw [State.onSys_core] | with_reducible rfl | intro _))

@[simp ↓] theorem State.reportPackets_core (n typ : Nat) (f : List Byte → State → Bool × State) (ev : Nat) (pkts : List (List Byte)) (s : State) (h_f : ∀ a0 t, (f a0 t).2.core = t.core) : (State.reportPackets n typ f ev pkts s).core = s.core := by
  unfold State.reportPackets
  first
    | (simp [*]; done)
    | (repeat' (first
        | (simp [*]; done) | split | rw [State.foldl_core] | rw [foldl_fst_core] | rw [foldl_snd_core]
        | dsimp only | simp [*] | rw [State.onSec_core] | rw [State.onSys_core] | with_reducible rfl | intro _))

@[simp ↓] theorem execGateReport_core (dt : Nat) (lane : Fin 32) (pkts : List (List Byte)) (s : State) : Keeps s (execGateReport dt lane pkts s) := by
  unfold execGateReport
  first
    | (simp; done)
    | (repeat' (first
        | (simp; done) | split | rw [State.foldl_core] | rw [foldl_fst_core] | rw [foldl_snd_core]
        | dsimp only | simp | rw [State.onSec_core] | rw [State.onSys_core] | with_reducible rfl | intro _))

@[simp ↓] theorem execImpReport_core (dt : Nat) (lane : Fin 32) (pkts : List (List Byte)) (s : State) : Keeps s (execImpReport dt lane pkts s) := by
  unfold execImpReport
  first
    | (simp; done)
    | (repeat' (first
        | (simp; done) | split | rw [State.foldl_core] | rw [foldl_fst_core] | rw [foldl_snd_core]
        | dsimp only | simp | rw [State.onSec_core] | rw [State.onSys_core] | with_reducible rfl | intro _))

@[simp ↓] theorem execImpRequest_core (dt : Nat) (bar : Fin 8) (s : State) : Keeps s (execImpRequest dt bar s) := by
  unfold execImpRequest
  first
    | (simp; done)
    | (repeat' (first
        | (simp; done) | split | rw [State.foldl_core] | rw [foldl_fst_core] | rw [foldl_snd_core]
        | dsimp only | simp | rw [State.onSec_core] | rw [State.onSys_core] | with_reducible rfl | intro _))

@[simp ↓] theorem execNhSnapshotWrite_core (dt : Nat) (s : State) : Keeps s (execNhSnapshotWrite dt s) := by
  unfold execNhSnapshotWrite
  first
    | (simp; done)
    | (repeat' (first
        | (simp; done) | split | rw [State.foldl_core] | rw [foldl_fst_core] | rw [foldl_snd_core]
        | dsimp only | simp | rw [State.onSec_core] | rw [State.onSys_core] | with_reducible rfl | intro _))

@[simp ↓] theorem execDdStale_core (dt : Nat) (bar : Fin 8) (s : State) : Keeps s (execDdStale dt bar s) := by
  unfold execDdStale
  first
    | (simp; done)
    | (repeat' (first
        | (simp; done) | split | rw [State.foldl_core] | rw [foldl_fst_core] | rw [foldl_snd_core]
        | dsimp only | simp | rw [State.onSec_core] | rw [State.onSys_core] | with_reducible rfl | intro _))

/-! ### Therm -/

@[simp ↓] theorem execPowerSample_core (dt : Nat) (mw : List Nat) (s : State) : Keeps s (execPowerSample dt mw s) := by
  unfold execPowerSample
  first
    | (simp; done)
    | (repeat' (first
        | (simp; done) | split | rw [State.foldl_core] | rw [foldl_fst_core] | rw [foldl_snd_core]
        | dsimp only | simp | rw [State.onSec_core] | rw [State.onSys_core] | with_reducible rfl | intro _))

@[simp ↓] theorem State.takeThermal_core (first : Bool) (s : State) : (State.takeThermal first s).core = s.core := by
  unfold State.takeThermal
  first
    | (simp; done)
    | (repeat' (first
        | (simp; done) | split | rw [State.foldl_core] | rw [foldl_fst_core] | rw [foldl_snd_core]
        | dsimp only | simp | rw [State.onSec_core] | rw [State.onSys_core] | with_reducible rfl | intro _))

@[simp ↓] theorem execThermalSample_core (dt : Nat) (s : State) : Keeps s (execThermalSample dt s) := by
  unfold execThermalSample
  first
    | (simp; done)
    | (repeat' (first
        | (simp; done) | split | rw [State.foldl_core] | rw [foldl_fst_core] | rw [foldl_snd_core]
        | dsimp only | simp | rw [State.onSec_core] | rw [State.onSys_core] | with_reducible rfl | intro _))

@[simp ↓] theorem execVcoreStepTimer_core (dt : Nat) (s : State) : Keeps s (execVcoreStepTimer dt s) := by
  unfold execVcoreStepTimer
  first
    | (simp; done)
    | (repeat' (first
        | (simp; done) | split | rw [State.foldl_core] | rw [foldl_fst_core] | rw [foldl_snd_core]
        | dsimp only | simp | rw [State.onSec_core] | rw [State.onSys_core] | with_reducible rfl | intro _))

@[simp ↓] theorem execVcoreStep_core (dt : Nat) (s : State) : Keeps s (execVcoreStep dt s) := by
  unfold execVcoreStep
  first
    | (simp; done)
    | (repeat' (first
        | (simp; done) | split | rw [State.foldl_core] | rw [foldl_fst_core] | rw [foldl_snd_core]
        | dsimp only | simp | rw [State.onSec_core] | rw [State.onSys_core] | with_reducible rfl | intro _))

@[simp ↓] theorem execPmbus_core (dt : Nat) (s : State) : Keeps s (execPmbus dt s) := by
  unfold execPmbus
  first
    | (simp; done)
    | (repeat' (first
        | (simp; done) | split | rw [State.foldl_core] | rw [foldl_fst_core] | rw [foldl_snd_core]
        | dsimp only | simp | rw [State.onSec_core] | rw [State.onSys_core] | with_reducible rfl | intro _))

@[simp ↓] theorem execVoutRead_core (dt : Nat) (value : Nat) (s : State) : Keeps s (execVoutRead dt value s) := by
  unfold execVoutRead
  first
    | (simp; done)
    | (repeat' (first
        | (simp; done) | split | rw [State.foldl_core] | rw [foldl_fst_core] | rw [foldl_snd_core]
        | dsimp only | simp | rw [State.onSec_core] | rw [State.onSys_core] | with_reducible rfl | intro _))

@[simp ↓] theorem execPmbusEnable_core (dt : Nat) (mode : Word) (vout : Nat) (s : State) : Keeps s (execPmbusEnable dt mode vout s) := by
  unfold execPmbusEnable
  first
    | (simp; done)
    | (repeat' (first
        | (simp; done) | split | rw [State.foldl_core] | rw [foldl_fst_core] | rw [foldl_snd_core]
        | dsimp only | simp | rw [State.onSec_core] | rw [State.onSys_core] | with_reducible rfl | intro _))

@[simp ↓] theorem execThermRefRead_core (dt : Nat) (value : Int) (ok : Bool) (s : State) : Keeps s (execThermRefRead dt value ok s) := by
  unfold execThermRefRead
  first
    | (simp; done)
    | (repeat' (first
        | (simp; done) | split | rw [State.foldl_core] | rw [foldl_fst_core] | rw [foldl_snd_core]
        | dsimp only | simp | rw [State.onSec_core] | rw [State.onSys_core] | with_reducible rfl | intro _))

@[simp ↓] theorem execRefStale_core (dt : Nat) (s : State) : Keeps s (execRefStale dt s) := by
  unfold execRefStale
  first
    | (simp; done)
    | (repeat' (first
        | (simp; done) | split | rw [State.foldl_core] | rw [foldl_fst_core] | rw [foldl_snd_core]
        | dsimp only | simp | rw [State.onSec_core] | rw [State.onSys_core] | with_reducible rfl | intro _))

@[simp ↓] theorem execModelDiverge_core (dt : Nat) (s : State) : Keeps s (execModelDiverge dt s) := by
  unfold execModelDiverge
  first
    | (simp; done)
    | (repeat' (first
        | (simp; done) | split | rw [State.foldl_core] | rw [foldl_fst_core] | rw [foldl_snd_core]
        | dsimp only | simp | rw [State.onSec_core] | rw [State.onSys_core] | with_reducible rfl | intro _))

@[simp ↓] theorem execShutRelease_core (dt : Nat) (s : State) : Keeps s (execShutRelease dt s) := by
  unfold execShutRelease
  first
    | (simp; done)
    | (repeat' (first
        | (simp; done) | split | rw [State.foldl_core] | rw [foldl_fst_core] | rw [foldl_snd_core]
        | dsimp only | simp | rw [State.onSec_core] | rw [State.onSys_core] | with_reducible rfl | intro _))

/-! ### RegSet -/

@[simp ↓] theorem State.strobe_core (byNow bySched byStep : Bool) (s : State) : (State.strobe byNow bySched byStep s).core = s.core := by
  unfold State.strobe
  first
    | (simp; done)
    | (repeat' (first
        | (simp; done) | split | rw [State.foldl_core] | rw [foldl_fst_core] | rw [foldl_snd_core]
        | dsimp only | simp | rw [State.onSec_core] | rw [State.onSys_core] | with_reducible rfl | intro _))

/-! ### Net -/

@[simp ↓] theorem State.servoTo_core (x : Servo) (s : State) : (State.servoTo x s).core = s.core := by
  unfold State.servoTo
  first
    | (simp; done)
    | (repeat' (first
        | (simp; done) | split | rw [State.foldl_core] | rw [foldl_fst_core] | rw [foldl_snd_core]
        | dsimp only | simp | rw [State.onSec_core] | rw [State.onSys_core] | with_reducible rfl | intro _))

@[simp ↓] theorem State.servoUpdate_core (o : Int) (s : State) : (State.servoUpdate o s).core = s.core := by
  unfold State.servoUpdate
  first
    | (simp; done)
    | (repeat' (first
        | (simp; done) | split | rw [State.foldl_core] | rw [foldl_fst_core] | rw [foldl_snd_core]
        | dsimp only | simp | rw [State.onSec_core] | rw [State.onSys_core] | with_reducible rfl | intro _))

@[simp ↓] theorem State.noteOffset_core (o : Int) (s : State) : (State.noteOffset o s).core = s.core := by
  unfold State.noteOffset
  first
    | (simp; done)
    | (repeat' (first
        | (simp; done) | split | rw [State.foldl_core] | rw [foldl_fst_core] | rw [foldl_snd_core]
        | dsimp only | simp | rw [State.onSec_core] | rw [State.onSys_core] | with_reducible rfl | intro _))

@[simp ↓] theorem State.stepTime_core (o : Int) (s : State) : (State.stepTime o s).core = s.core := by
  unfold State.stepTime
  first
    | (simp; done)
    | (repeat' (first
        | (simp; done) | split | rw [State.foldl_core] | rw [foldl_fst_core] | rw [foldl_snd_core]
        | dsimp only | simp | rw [State.onSec_core] | rw [State.onSys_core] | with_reducible rfl | intro _))

@[simp ↓] theorem State.refuseOffset_core (s : State) : (State.refuseOffset s).core = s.core := by
  unfold State.refuseOffset
  first
    | (simp; done)
    | (repeat' (first
        | (simp; done) | split | rw [State.foldl_core] | rw [foldl_fst_core] | rw [foldl_snd_core]
        | dsimp only | simp | rw [State.onSec_core] | rw [State.onSys_core] | with_reducible rfl | intro _))

@[simp ↓] theorem State.judgeOffset_core (o : Int) (s : State) : (State.judgeOffset o s).core = s.core := by
  unfold State.judgeOffset
  first
    | (simp; done)
    | (repeat' (first
        | (simp; done) | split | rw [State.foldl_core] | rw [foldl_fst_core] | rw [foldl_snd_core]
        | dsimp only | simp | rw [State.onSec_core] | rw [State.onSys_core] | with_reducible rfl | intro _))

@[simp ↓] theorem execServoOffset_core (dt : Nat) (lo : Word) (s : State) : Keeps s (execServoOffset dt lo s) := by
  unfold execServoOffset
  first
    | (simp; done)
    | (repeat' (first
        | (simp; done) | split | rw [State.foldl_core] | rw [foldl_fst_core] | rw [foldl_snd_core]
        | dsimp only | simp | rw [State.onSec_core] | rw [State.onSys_core] | with_reducible rfl | intro _))

@[simp ↓] theorem execServoHoldover_core (dt : Nat) (s : State) : Keeps s (execServoHoldover dt s) := by
  unfold execServoHoldover
  first
    | (simp; done)
    | (repeat' (first
        | (simp; done) | split | rw [State.foldl_core] | rw [foldl_fst_core] | rw [foldl_snd_core]
        | dsimp only | simp | rw [State.onSec_core] | rw [State.onSys_core] | with_reducible rfl | intro _))

@[simp ↓] theorem execServoRestart_core (dt : Nat) (s : State) : Keeps s (execServoRestart dt s) := by
  unfold execServoRestart
  first
    | (simp; done)
    | (repeat' (first
        | (simp; done) | split | rw [State.foldl_core] | rw [foldl_fst_core] | rw [foldl_snd_core]
        | dsimp only | simp | rw [State.onSec_core] | rw [State.onSys_core] | with_reducible rfl | intro _))

@[simp ↓] theorem execTimeWrap_core (dt : Nat) (s : State) : Keeps s (execTimeWrap dt s) := by
  unfold execTimeWrap
  first
    | (simp; done)
    | (repeat' (first
        | (simp; done) | split | rw [State.foldl_core] | rw [foldl_fst_core] | rw [foldl_snd_core]
        | dsimp only | simp | rw [State.onSec_core] | rw [State.onSys_core] | with_reducible rfl | intro _))

@[simp ↓] theorem execSnapNow_core (dt : Nat) (s : State) : Keeps s (execSnapNow dt s) := by
  unfold execSnapNow
  first
    | (simp; done)
    | (repeat' (first
        | (simp; done) | split | rw [State.foldl_core] | rw [foldl_fst_core] | rw [foldl_snd_core]
        | dsimp only | simp | rw [State.onSec_core] | rw [State.onSys_core] | with_reducible rfl | intro _))

@[simp ↓] theorem execSnapArm_core (dt : Nat) (s : State) : Keeps s (execSnapArm dt s) := by
  unfold execSnapArm
  first
    | (simp; done)
    | (repeat' (first
        | (simp; done) | split | rw [State.foldl_core] | rw [foldl_fst_core] | rw [foldl_snd_core]
        | dsimp only | simp | rw [State.onSec_core] | rw [State.onSys_core] | with_reducible rfl | intro _))

@[simp ↓] theorem execSnapScheduled_core (dt : Nat) (s : State) : Keeps s (execSnapScheduled dt s) := by
  unfold execSnapScheduled
  first
    | (simp; done)
    | (repeat' (first
        | (simp; done) | split | rw [State.foldl_core] | rw [foldl_fst_core] | rw [foldl_snd_core]
        | dsimp only | simp | rw [State.onSec_core] | rw [State.onSys_core] | with_reducible rfl | intro _))

@[simp ↓] theorem State.onNetPort_core (p : Nat) (f : Port → Port) (s : State) : (State.onNetPort p f s).core = s.core := by
  unfold State.onNetPort
  first
    | (simp; done)
    | (repeat' (first
        | (simp; done) | split | rw [State.foldl_core] | rw [foldl_fst_core] | rw [foldl_snd_core]
        | dsimp only | simp | rw [State.onSec_core] | rw [State.onSys_core] | with_reducible rfl | intro _))

@[simp ↓] theorem State.queueStamp_core (p : Nat) (tx : Bool) (x : Stamp) (s : State) : (State.queueStamp p tx x s).core = s.core := by
  unfold State.queueStamp
  first
    | (simp; done)
    | (repeat' (first
        | (simp; done) | split | rw [State.foldl_core] | rw [foldl_fst_core] | rw [foldl_snd_core]
        | dsimp only | simp | rw [State.onSec_core] | rw [State.onSys_core] | with_reducible rfl | intro _))

@[simp ↓] theorem execNetFrameReceive_core (dt : Nat) (port : Fin 2) (frame : List Byte) (s : State) : Keeps s (execNetFrameReceive dt port frame s) := by
  unfold execNetFrameReceive
  first
    | (simp; done)
    | (repeat' (first
        | (simp; done) | split | rw [State.foldl_core] | rw [foldl_fst_core] | rw [foldl_snd_core]
        | dsimp only | simp | rw [State.onSec_core] | rw [State.onSys_core] | with_reducible rfl | intro _))

@[simp ↓] theorem execPtpEventSend_core (dt : Nat) (port : Fin 2) (frame : List Byte) (s : State) : Keeps s (execPtpEventSend dt port frame s) := by
  unfold execPtpEventSend
  first
    | (simp; done)
    | (repeat' (first
        | (simp; done) | split | rw [State.foldl_core] | rw [foldl_fst_core] | rw [foldl_snd_core]
        | dsimp only | simp | rw [State.onSec_core] | rw [State.onSys_core] | with_reducible rfl | intro _))

@[simp ↓] theorem State.setLink_core (p : Nat) (up : Bool) (s : State) : (State.setLink p up s).core = s.core := by
  unfold State.setLink
  first
    | (simp; done)
    | (repeat' (first
        | (simp; done) | split | rw [State.foldl_core] | rw [foldl_fst_core] | rw [foldl_snd_core]
        | dsimp only | simp | rw [State.onSec_core] | rw [State.onSys_core] | with_reducible rfl | intro _))

@[simp ↓] theorem execNetLink_core (dt : Nat) (port : Fin 2) (up : Bool) (s : State) : Keeps s (execNetLink dt port up s) := by
  unfold execNetLink
  first
    | (simp; done)
    | (repeat' (first
        | (simp; done) | split | rw [State.foldl_core] | rw [foldl_fst_core] | rw [foldl_snd_core]
        | dsimp only | simp | rw [State.onSec_core] | rw [State.onSys_core] | with_reducible rfl | intro _))

@[simp ↓] theorem State.sendCeil_core (cause : Bool) (s : State) : (State.sendCeil cause s).core = s.core := by
  unfold State.sendCeil
  first
    | (simp; done)
    | (repeat' (first
        | (simp; done) | split | rw [State.foldl_core] | rw [foldl_fst_core] | rw [foldl_snd_core]
        | dsimp only | simp | rw [State.onSec_core] | rw [State.onSys_core] | with_reducible rfl | intro _))

@[simp ↓] theorem execCeilMsgPeriodic_core (dt : Nat) (s : State) : Keeps s (execCeilMsgPeriodic dt s) := by
  unfold execCeilMsgPeriodic
  first
    | (simp; done)
    | (repeat' (first
        | (simp; done) | split | rw [State.foldl_core] | rw [foldl_fst_core] | rw [foldl_snd_core]
        | dsimp only | simp | rw [State.onSec_core] | rw [State.onSys_core] | with_reducible rfl | intro _))

@[simp ↓] theorem execCeilMsgCause_core (dt : Nat) (s : State) : Keeps s (execCeilMsgCause dt s) := by
  unfold execCeilMsgCause
  first
    | (simp; done)
    | (repeat' (first
        | (simp; done) | split | rw [State.foldl_core] | rw [foldl_fst_core] | rw [foldl_snd_core]
        | dsimp only | simp | rw [State.onSec_core] | rw [State.onSys_core] | with_reducible rfl | intro _))

end Sys2Proof.Machine
end

