-- ==== Sys2Proof/Laws/Core15.lean ====
section
/-! SUPPORT. The shared operations of Fold, HoldCmd, Power, Read, Sec, Tally leave the core of the state as it is. -/

set_option Elab.async false

namespace Sys2Proof.Machine

/-! ### Fold -/

@[simp ↓] theorem execFoldForce_core (dt : Nat) (word : Fin 4) (data : Word) (s : State) : Keeps s (execFoldForce dt word data s) := by
  unfold execFoldForce
  first
    | (simp; done)
    | (repeat' (first
        | (simp; done) | split | rw [State.foldl_core] | rw [foldl_fst_core] | rw [foldl_snd_core]
        | dsimp only | simp | rw [State.onSec_core] | rw [State.onSys_core] | with_reducible rfl | intro _))

@[simp ↓] theorem State.markInjected_core (src : Nat) (s : State) : (State.markInjected src s).core = s.core := by
  unfold State.markInjected
  first
    | (simp; done)
    | (repeat' (first
        | (simp; done) | split | rw [State.foldl_core] | rw [foldl_fst_core] | rw [foldl_snd_core]
        | dsimp only | simp | rw [State.onSec_core] | rw [State.onSys_core] | with_reducible rfl | intro _))

@[simp ↓] theorem anyUnit_core (n : Nat) (s : State) : (anyUnit n s).2.core = s.core := by
  unfold anyUnit
  simp

@[simp ↓] theorem scopeUnit_core (bars : Nat) (n : Nat) (s : State) : (scopeUnit bars n s).2.core = s.core := by
  unfold scopeUnit
  dsimp only
  repeat' split
  all_goals simp

@[simp ↓] theorem State.injectAs_core (unit : UnitOf) (all src : Nat) (s : State) (h_unit : ∀ a0 t, (unit a0 t).2.core = t.core) : (State.injectAs unit all src s).core = s.core := by
  unfold State.injectAs
  first
    | (simp [*]; done)
    | (repeat' (first
        | (simp [*]; done) | split | rw [State.foldl_core] | rw [foldl_fst_core] | rw [foldl_snd_core]
        | dsimp only | simp [*] | rw [State.onSec_core] | rw [State.onSys_core] | with_reducible rfl | intro _))

@[simp ↓] theorem State.inject_core (src : Nat) (s : State) : (State.inject src s).core = s.core := by
  unfold State.inject
  first
    | (simp; done)
    | (repeat' (first
        | (simp; done) | split | rw [State.foldl_core] | rw [foldl_fst_core] | rw [foldl_snd_core]
        | dsimp only | simp | rw [State.onSec_core] | rw [State.onSys_core] | with_reducible rfl | intro _))

@[simp ↓] theorem State.replayFault_core (src bars : Nat) (s : State) : (State.replayFault src bars s).core = s.core := by
  unfold State.replayFault
  first
    | (simp; done)
    | (repeat' (first
        | (simp; done) | split | rw [State.foldl_core] | rw [foldl_fst_core] | rw [foldl_snd_core]
        | dsimp only | simp | rw [State.onSec_core] | rw [State.onSys_core] | with_reducible rfl | intro _))

@[simp ↓] theorem execFaultInject_core (dt : Nat) (data : Word) (s : State) : Keeps s (execFaultInject dt data s) := by
  unfold execFaultInject
  first
    | (simp; done)
    | (repeat' (first
        | (simp; done) | split | rw [State.foldl_core] | rw [foldl_fst_core] | rw [foldl_snd_core]
        | dsimp only | simp | rw [State.onSec_core] | rw [State.onSys_core] | with_reducible rfl | intro _))

@[simp ↓] theorem execClassAcknowledge_core (dt : Nat) (data : Word) (s : State) : Keeps s (execClassAcknowledge dt data s) := by
  unfold execClassAcknowledge
  first
    | (simp; done)
    | (repeat' (first
        | (simp; done) | split | rw [State.foldl_core] | rw [foldl_fst_core] | rw [foldl_snd_core]
        | dsimp only | simp | rw [State.onSec_core] | rw [State.onSys_core] | with_reducible rfl | intro _))

@[simp ↓] theorem State.endHold_core (s : State) (b : Nat) : (State.endHold s b).core = s.core := by
  unfold State.endHold
  first
    | (simp; done)
    | (repeat' (first
        | (simp; done) | split | rw [State.foldl_core] | rw [foldl_fst_core] | rw [foldl_snd_core]
        | dsimp only | simp | rw [State.onSec_core] | rw [State.onSys_core] | with_reducible rfl | intro _))

@[simp ↓] theorem State.setAgain_core (src : Nat) (s : State) : (State.setAgain src s).core = s.core := by
  unfold State.setAgain
  first
    | (simp; done)
    | (repeat' (first
        | (simp; done) | split | rw [State.foldl_core] | rw [foldl_fst_core] | rw [foldl_snd_core]
        | dsimp only | simp | rw [State.onSec_core] | rw [State.onSys_core] | with_reducible rfl | intro _))

@[simp ↓] theorem State.clearSticky_core (word : Nat) (lasting : Bool) (data : Nat) (s : State) : (State.clearSticky word lasting data s).core = s.core := by
  unfold State.clearSticky
  first
    | (simp; done)
    | (repeat' (first
        | (simp; done) | split | rw [State.foldl_core] | rw [foldl_fst_core] | rw [foldl_snd_core]
        | dsimp only | simp | rw [State.onSec_core] | rw [State.onSys_core] | with_reducible rfl | intro _))

@[simp ↓] theorem execStickyClear_core (dt : Nat) (word : Fin 4) (lasting : Bool) (data : Word) (s : State) : Keeps s (execStickyClear dt word lasting data s) := by
  unfold execStickyClear
  first
    | (simp; done)
    | (repeat' (first
        | (simp; done) | split | rw [State.foldl_core] | rw [foldl_fst_core] | rw [foldl_snd_core]
        | dsimp only | simp | rw [State.onSec_core] | rw [State.onSys_core] | with_reducible rfl | intro _))

@[simp ↓] theorem execSelfTest_core (dt : Nat) (source : Fin 128) (target : Nat) (lasting : Bool) (s : State) : Keeps s (execSelfTest dt source target lasting s) := by
  unfold execSelfTest
  first
    | (simp; done)
    | (repeat' (first
        | (simp; done) | split | rw [State.foldl_core] | rw [foldl_fst_core] | rw [foldl_snd_core]
        | dsimp only | simp | rw [State.onSec_core] | rw [State.onSys_core] | with_reducible rfl | intro _))

@[simp ↓] theorem State.sramCount_core (s : State) : (State.sramCount s).core = s.core := by
  unfold State.sramCount
  simp only [State.onFold_core, State.bump_core]

@[simp ↓] theorem State.sramJudge_core (s : State) : (State.sramJudge s).core = s.core := by
  unfold State.sramJudge
  first
    | (simp; done)
    | (repeat' (first
        | (simp; done) | split | rw [State.foldl_core] | rw [foldl_fst_core] | rw [foldl_snd_core]
        | dsimp only | simp | rw [State.onSec_core] | rw [State.onSys_core] | with_reducible rfl | intro _))

@[simp ↓] theorem execSramError_core (dt : Nat) (store : Nat) (uncorrectable : Bool) (s : State) : Keeps s (execSramError dt store uncorrectable s) := by
  unfold execSramError
  first
    | (simp; done)
    | (repeat' (first
        | (simp; done) | split | rw [State.foldl_core] | rw [foldl_fst_core] | rw [foldl_snd_core]
        | dsimp only | simp | rw [State.onSec_core] | rw [State.onSys_core] | with_reducible rfl | intro _))

@[simp ↓] theorem execCrookEnter_core (dt : Nat) (data : Word) (s : State) : Keeps s (execCrookEnter dt data s) := by
  unfold execCrookEnter
  first
    | (simp; done)
    | (repeat' (first
        | (simp; done) | split | rw [State.foldl_core] | rw [foldl_fst_core] | rw [foldl_snd_core]
        | dsimp only | simp | rw [State.onSec_core] | rw [State.onSys_core] | with_reducible rfl | intro _))

@[simp ↓] theorem execCrookRelease_core (dt : Nat) (data : Word) (s : State) : Keeps s (execCrookRelease dt data s) := by
  unfold execCrookRelease
  first
    | (simp; done)
    | (repeat' (first
        | (simp; done) | split | rw [State.foldl_core] | rw [foldl_fst_core] | rw [foldl_snd_core]
        | dsimp only | simp | rw [State.onSec_core] | rw [State.onSys_core] | with_reducible rfl | intro _))

/-! ### HoldCmd -/

@[simp ↓] theorem execHoldFillDone_core (dt : Nat) (s : State) : Keeps s (execHoldFillDone dt s) := by
  unfold execHoldFillDone
  first
    | (simp; done)
    | (repeat' (first
        | (simp; done) | split | rw [State.foldl_core] | rw [foldl_fst_core] | rw [foldl_snd_core]
        | dsimp only | simp | rw [State.onSec_core] | rw [State.onSys_core] | with_reducible rfl | intro _))

@[simp ↓] theorem execGrazeStart_core (dt : Nat) (s : State) : Keeps s (execGrazeStart dt s) := by
  unfold execGrazeStart
  first
    | (simp; done)
    | (repeat' (first
        | (simp; done) | split | rw [State.foldl_core] | rw [foldl_fst_core] | rw [foldl_snd_core]
        | dsimp only | simp | rw [State.onSec_core] | rw [State.onSys_core] | with_reducible rfl | intro _))

@[simp ↓] theorem execGrazeComplete_core (dt : Nat) (s : State) : Keeps s (execGrazeComplete dt s) := by
  unfold execGrazeComplete
  first
    | (simp; done)
    | (repeat' (first
        | (simp; done) | split | rw [State.foldl_core] | rw [foldl_fst_core] | rw [foldl_snd_core]
        | dsimp only | simp | rw [State.onSec_core] | rw [State.onSys_core] | with_reducible rfl | intro _))

@[simp ↓] theorem execHoldSnapshot_core (dt : Nat) (s : State) : Keeps s (execHoldSnapshot dt s) := by
  unfold execHoldSnapshot
  first
    | (simp; done)
    | (repeat' (first
        | (simp; done) | split | rw [State.foldl_core] | rw [foldl_fst_core] | rw [foldl_snd_core]
        | dsimp only | simp | rw [State.onSec_core] | rw [State.onSys_core] | with_reducible rfl | intro _))

@[simp ↓] theorem execHoldRestart_core (dt : Nat) (s : State) : Keeps s (execHoldRestart dt s) := by
  unfold execHoldRestart
  first
    | (simp; done)
    | (repeat' (first
        | (simp; done) | split | rw [State.foldl_core] | rw [foldl_fst_core] | rw [foldl_snd_core]
        | dsimp only | simp | rw [State.onSec_core] | rw [State.onSys_core] | with_reducible rfl | intro _))

/-! ### Power -/

@[simp ↓] theorem execDomainRequest_core (dt : Nat) (domain : Fin 10) (data : Word) (s : State) : Keeps s (execDomainRequest dt domain data s) := by
  unfold execDomainRequest
  first
    | (simp; done)
    | (repeat' (first
        | (simp; done) | split | rw [State.foldl_core] | rw [foldl_fst_core] | rw [foldl_snd_core]
        | dsimp only | simp | rw [State.onSec_core] | rw [State.onSys_core] | with_reducible rfl | intro _))

@[simp ↓] theorem execDomainChange_core (dt : Nat) (domain : Fin 10) (s : State) : Keeps s (execDomainChange dt domain s) := by
  unfold execDomainChange
  first
    | (simp; done)
    | (repeat' (first
        | (simp; done) | split | rw [State.foldl_core] | rw [foldl_fst_core] | rw [foldl_snd_core]
        | dsimp only | simp | rw [State.onSec_core] | rw [State.onSys_core] | with_reducible rfl | intro _))

@[simp ↓] theorem execDomainPowerUp_core (dt : Nat) (domain : Fin 10) (s : State) : Keeps s (execDomainPowerUp dt domain s) := by
  unfold execDomainPowerUp
  first
    | (simp; done)
    | (repeat' (first
        | (simp; done) | split | rw [State.foldl_core] | rw [foldl_fst_core] | rw [foldl_snd_core]
        | dsimp only | simp | rw [State.onSec_core] | rw [State.onSys_core] | with_reducible rfl | intro _))

@[simp ↓] theorem execDomainOn_core (dt : Nat) (domain : Fin 10) (s : State) : Keeps s (execDomainOn dt domain s) := by
  unfold execDomainOn
  first
    | (simp; done)
    | (repeat' (first
        | (simp; done) | split | rw [State.foldl_core] | rw [foldl_fst_core] | rw [foldl_snd_core]
        | dsimp only | simp | rw [State.onSec_core] | rw [State.onSys_core] | with_reducible rfl | intro _))

@[simp ↓] theorem execDomainUpTimeout_core (dt : Nat) (domain : Fin 10) (s : State) : Keeps s (execDomainUpTimeout dt domain s) := by
  unfold execDomainUpTimeout
  first
    | (simp; done)
    | (repeat' (first
        | (simp; done) | split | rw [State.foldl_core] | rw [foldl_fst_core] | rw [foldl_snd_core]
        | dsimp only | simp | rw [State.onSec_core] | rw [State.onSys_core] | with_reducible rfl | intro _))

@[simp ↓] theorem execShelfWake_core (_dt : Nat) (s : State) : Keeps s (execShelfWake _dt s) := by
  unfold execShelfWake
  first
    | (simp; done)
    | (repeat' (first
        | (simp; done) | split | rw [State.foldl_core] | rw [foldl_fst_core] | rw [foldl_snd_core]
        | dsimp only | simp | rw [State.onSec_core] | rw [State.onSys_core] | with_reducible rfl | intro _))

/-! ### Read -/

@[simp ↓] theorem State.readEffect_core (agent off : Nat) (x : RegSpec) (i : Nat) (s : State) : (State.readEffect agent off x i s).core = s.core := by
  unfold State.readEffect
  first
    | (simp; done)
    | (repeat' (first
        | (simp; done) | split | rw [State.foldl_core] | rw [foldl_fst_core] | rw [foldl_snd_core]
        | dsimp only | simp | rw [State.onSec_core] | rw [State.onSys_core] | with_reducible rfl | intro _))

@[simp ↓] theorem State.readReg_core (agent off : Nat) (s : State) : (State.readReg agent off s).core = s.core := by
  unfold State.readReg
  first
    | (simp; done)
    | (repeat' (first
        | (simp; done) | split | rw [State.foldl_core] | rw [foldl_fst_core] | rw [foldl_snd_core]
        | dsimp only | simp | rw [State.onSec_core] | rw [State.onSys_core] | with_reducible rfl | intro _))

@[simp ↓] theorem execRcFieldRead_core (dt : Nat) (agent : Fin 7) (off : Nat) (s : State) : Keeps s (execRcFieldRead dt agent off s) := by
  unfold execRcFieldRead
  first
    | (simp; done)
    | (repeat' (first
        | (simp; done) | split | rw [State.foldl_core] | rw [foldl_fst_core] | rw [foldl_snd_core]
        | dsimp only | simp | rw [State.onSec_core] | rw [State.onSys_core] | with_reducible rfl | intro _))

@[simp ↓] theorem execWideQuantityRead_core (dt : Nat) (agent : Fin 7) (off : Nat) (s : State) : Keeps s (execWideQuantityRead dt agent off s) := by
  unfold execWideQuantityRead
  first
    | (simp; done)
    | (repeat' (first
        | (simp; done) | split | rw [State.foldl_core] | rw [foldl_fst_core] | rw [foldl_snd_core]
        | dsimp only | simp | rw [State.onSec_core] | rw [State.onSys_core] | with_reducible rfl | intro _))

/-! ### Sec -/

@[simp ↓] theorem execTokenSubmit_core (dt : Nat) (data : Word) (s : State) : Keeps s (execTokenSubmit dt data s) := by
  unfold execTokenSubmit
  first
    | (simp; done)
    | (repeat' (first
        | (simp; done) | split | rw [State.foldl_core] | rw [foldl_fst_core] | rw [foldl_snd_core]
        | dsimp only | simp | rw [State.onSec_core] | rw [State.onSys_core] | with_reducible rfl | intro _))

@[simp ↓] theorem execTamper_core (dt : Nat) (s : State) : Keeps s (execTamper dt s) := by
  unfold execTamper
  first
    | (simp; done)
    | (repeat' (first
        | (simp; done) | split | rw [State.foldl_core] | rw [foldl_fst_core] | rw [foldl_snd_core]
        | dsimp only | simp | rw [State.onSec_core] | rw [State.onSys_core] | with_reducible rfl | intro _))

@[simp ↓] theorem execRecoveryLoad_core (dt : Nat) (data : Word) (s : State) : Keeps s (execRecoveryLoad dt data s) := by
  unfold execRecoveryLoad
  first
    | (simp; done)
    | (repeat' (first
        | (simp; done) | split | rw [State.foldl_core] | rw [foldl_fst_core] | rw [foldl_snd_core]
        | dsimp only | simp | rw [State.onSec_core] | rw [State.onSys_core] | with_reducible rfl | intro _))

@[simp ↓] theorem execTrngHealth_core (dt : Nat) (failing : Bool) (s : State) : Keeps s (execTrngHealth dt failing s) := by
  unfold execTrngHealth
  first
    | (simp; done)
    | (repeat' (first
        | (simp; done) | split | rw [State.foldl_core] | rw [foldl_fst_core] | rw [foldl_snd_core]
        | dsimp only | simp | rw [State.onSec_core] | rw [State.onSys_core] | with_reducible rfl | intro _))

@[simp ↓] theorem execDebugSessionExpire_core (dt : Nat) (s : State) : Keeps s (execDebugSessionExpire dt s) := by
  unfold execDebugSessionExpire
  first
    | (simp; done)
    | (repeat' (first
        | (simp; done) | split | rw [State.foldl_core] | rw [foldl_fst_core] | rw [foldl_snd_core]
        | dsimp only | simp | rw [State.onSec_core] | rw [State.onSys_core] | with_reducible rfl | intro _))

@[simp ↓] theorem State.markRefuse_core (d : Desc) (st : Nat) (s : State) : (State.markRefuse d st s).core = s.core := by
  unfold State.markRefuse
  first
    | (simp; done)
    | (repeat' (first
        | (simp; done) | split | rw [State.foldl_core] | rw [foldl_fst_core] | rw [foldl_snd_core]
        | dsimp only | simp | rw [State.onSec_core] | rw [State.onSys_core] | with_reducible rfl | intro _))

@[simp ↓] theorem execMarkPkgContent_core (dt : Nat) (ring : Fin 64) (slot : Nat) (list : List PageEnt) (data : List Byte) (s : State) : Keeps s (execMarkPkgContent dt ring slot list data s) := by
  unfold execMarkPkgContent
  first
    | (simp; done)
    | (repeat' (first
        | (simp; done) | split | rw [State.foldl_core] | rw [foldl_fst_core] | rw [foldl_snd_core]
        | dsimp only | simp | rw [State.onSec_core] | rw [State.onSys_core] | with_reducible rfl | intro _))

@[simp ↓] theorem execMarkPkgCsp_core (dt : Nat) (ring : Fin 64) (slot : Nat) (list : List PageEnt) (data : List Byte) (s : State) : Keeps s (execMarkPkgCsp dt ring slot list data s) := by
  unfold execMarkPkgCsp
  first
    | (simp; done)
    | (repeat' (first
        | (simp; done) | split | rw [State.foldl_core] | rw [foldl_fst_core] | rw [foldl_snd_core]
        | dsimp only | simp | rw [State.onSec_core] | rw [State.onSys_core] | with_reducible rfl | intro _))

@[simp ↓] theorem execMarkPkgKey_core (dt : Nat) (ring : Fin 64) (slot : Nat) (list : List PageEnt) (data : List Byte) (s : State) : Keeps s (execMarkPkgKey dt ring slot list data s) := by
  unfold execMarkPkgKey
  first
    | (simp; done)
    | (repeat' (first
        | (simp; done) | split | rw [State.foldl_core] | rw [foldl_fst_core] | rw [foldl_snd_core]
        | dsimp only | simp | rw [State.onSec_core] | rw [State.onSys_core] | with_reducible rfl | intro _))

/-! ### Tally -/

@[simp ↓] theorem State.beginRecording_core (d : Desc) (r : Region) (s : State) : (State.beginRecording d r s).core = s.core := by
  unfold State.beginRecording
  first
    | (simp; done)
    | (repeat' (first
        | (simp; done) | split | rw [State.foldl_core] | rw [foldl_fst_core] | rw [foldl_snd_core]
        | dsimp only | simp | rw [State.onSec_core] | rw [State.onSys_core] | with_reducible rfl | intro _))

@[simp ↓] theorem State.tallySettle_core (s : State) : (State.tallySettle s).core = s.core := by
  unfold State.tallySettle
  first
    | (simp; done)
    | (repeat' (first
        | (simp; done) | split | rw [State.foldl_core] | rw [foldl_fst_core] | rw [foldl_snd_core]
        | dsimp only | simp | rw [State.onSec_core] | rw [State.onSys_core] | with_reducible rfl | intro _))

@[simp ↓] theorem execTallyStart_core (dt : Nat) (ring : Fin 64) (slot : Nat) (s : State) : Keeps s (execTallyStart dt ring slot s) := by
  unfold execTallyStart
  first
    | (simp; done)
    | (repeat' (first
        | (simp; done) | split | rw [State.foldl_core] | rw [foldl_fst_core] | rw [foldl_snd_core]
        | dsimp only | simp | rw [State.onSec_core] | rw [State.onSys_core] | with_reducible rfl | intro _))

@[simp ↓] theorem execPaddockGrant_core (dt : Nat) (s : State) : Keeps s (execPaddockGrant dt s) := by
  unfold execPaddockGrant
  first
    | (simp; done)
    | (repeat' (first
        | (simp; done) | split | rw [State.foldl_core] | rw [foldl_fst_core] | rw [foldl_snd_core]
        | dsimp only | simp | rw [State.onSec_core] | rw [State.onSys_core] | with_reducible rfl | intro _))

@[simp ↓] theorem execTallyStop_core (dt : Nat) (ring : Fin 64) (slot : Nat) (s : State) : Keeps s (execTallyStop dt ring slot s) := by
  unfold execTallyStop
  first
    | (simp; done)
    | (repeat' (first
        | (simp; done) | split | rw [State.foldl_core] | rw [foldl_fst_core] | rw [foldl_snd_core]
        | dsimp only | simp | rw [State.onSec_core] | rw [State.onSys_core] | with_reducible rfl | intro _))

@[simp ↓] theorem execChunk_core (dt : Nat) (s : State) : Keeps s (execChunk dt s) := by
  unfold execChunk
  first
    | (simp; done)
    | (repeat' (first
        | (simp; done) | split | rw [State.foldl_core] | rw [foldl_fst_core] | rw [foldl_snd_core]
        | dsimp only | simp | rw [State.onSec_core] | rw [State.onSys_core] | with_reducible rfl | intro _))

@[simp ↓] theorem execLost_core (dt n : Nat) (s : State) : Keeps s (execLost dt n s) := by
  unfold execLost
  first
    | (simp; done)
    | (repeat' (first
        | (simp; done) | split | rw [State.foldl_core] | rw [foldl_fst_core] | rw [foldl_snd_core]
        | dsimp only | simp | rw [State.onSec_core] | rw [State.onSys_core] | with_reducible rfl | intro _))

@[simp ↓] theorem execTallyExport_core (dt : Nat) (ring : Fin 64) (slot : Nat) (list : List PageEnt) (s : State) : Keeps s (execTallyExport dt ring slot list s) := by
  unfold execTallyExport
  first
    | (simp; done)
    | (repeat' (first
        | (simp; done) | split | rw [State.foldl_core] | rw [foldl_fst_core] | rw [foldl_snd_core]
        | dsimp only | simp | rw [State.onSec_core] | rw [State.onSys_core] | with_reducible rfl | intro _))

@[simp ↓] theorem execSnapHold_core (dt : Nat) (data : Word) (s : State) : Keeps s (execSnapHold dt data s) := by
  unfold execSnapHold
  first
    | (simp; done)
    | (repeat' (first
        | (simp; done) | split | rw [State.foldl_core] | rw [foldl_fst_core] | rw [foldl_snd_core]
        | dsimp only | simp | rw [State.onSec_core] | rw [State.onSys_core] | with_reducible rfl | intro _))

@[simp ↓] theorem execTallySnapDump_core (dt : Nat) (ring : Fin 64) (slot : Nat) (list : List PageEnt) (s : State) : Keeps s (execTallySnapDump dt ring slot list s) := by
  unfold execTallySnapDump
  first
    | (simp; done)
    | (repeat' (first
        | (simp; done) | split | rw [State.foldl_core] | rw [foldl_fst_core] | rw [foldl_snd_core]
        | dsimp only | simp | rw [State.onSec_core] | rw [State.onSys_core] | with_reducible rfl | intro _))

@[simp ↓] theorem State.replayError_core (code : Nat) (s : State) : (State.replayError code s).core = s.core := by
  unfold State.replayError
  first
    | (simp; done)
    | (repeat' (first
        | (simp; done) | split | rw [State.foldl_core] | rw [foldl_fst_core] | rw [foldl_snd_core]
        | dsimp only | simp | rw [State.onSec_core] | rw [State.onSys_core] | with_reducible rfl | intro _))

@[simp ↓] theorem State.holdOutputs_core (s : State) : (State.holdOutputs s).core = s.core := by
  unfold State.holdOutputs
  first
    | (simp; done)
    | (repeat' (first
        | (simp; done) | split | rw [State.foldl_core] | rw [foldl_fst_core] | rw [foldl_snd_core]
        | dsimp only | simp | rw [State.onSec_core] | rw [State.onSys_core] | with_reducible rfl | intro _))

@[simp ↓] theorem State.loadStart_core (p : List Byte) (s : State) : (State.loadStart p s).core = s.core := by
  unfold State.loadStart
  first
    | (simp; done)
    | (repeat' (first
        | (simp; done) | split | rw [State.foldl_core] | rw [foldl_fst_core] | rw [foldl_snd_core]
        | dsimp only | simp | rw [State.onSec_core] | rw [State.onSys_core] | with_reducible rfl | intro _))

@[simp ↓] theorem State.beginReplay_core (wraps : Nat) (e : Entry) (rest : List Entry) (stopOnDiv : Bool) (s : State) : (State.beginReplay wraps e rest stopOnDiv s).core = s.core := by
  unfold State.beginReplay
  first
    | (simp; done)
    | (repeat' (first
        | (simp; done) | split | rw [State.foldl_core] | rw [foldl_fst_core] | rw [foldl_snd_core]
        | dsimp only | simp | rw [State.onSec_core] | rw [State.onSys_core] | with_reducible rfl | intro _))

@[simp ↓] theorem State.replayFrom_core (d : Desc) (r : List (Nat × List Entry) × Nat) (s : State) : (State.replayFrom d r s).core = s.core := by
  unfold State.replayFrom
  first
    | (simp; done)
    | (repeat' (first
        | (simp; done) | split | rw [State.foldl_core] | rw [foldl_fst_core] | rw [foldl_snd_core]
        | dsimp only | simp | rw [State.onSec_core] | rw [State.onSys_core] | with_reducible rfl | intro _))

@[simp ↓] theorem execTallyReplay_core (dt : Nat) (ring : Fin 64) (slot : Nat) (list : List PageEnt) (data : List Byte) (s : State) : Keeps s (execTallyReplay dt ring slot list data s) := by
  unfold execTallyReplay
  first
    | (simp; done)
    | (repeat' (first
        | (simp; done) | split | rw [State.foldl_core] | rw [foldl_fst_core] | rw [foldl_snd_core]
        | dsimp only | simp | rw [State.onSec_core] | rw [State.onSys_core] | with_reducible rfl | intro _))

@[simp ↓] theorem execReplayHalt_core (dt : Nat) (s : State) : Keeps s (execReplayHalt dt s) := by
  unfold execReplayHalt
  first
    | (simp; done)
    | (repeat' (first
        | (simp; done) | split | rw [State.foldl_core] | rw [foldl_fst_core] | rw [foldl_snd_core]
        | dsimp only | simp | rw [State.onSec_core] | rw [State.onSys_core] | with_reducible rfl | intro _))

@[simp ↓] theorem execReplayWaitTimeout_core (dt : Nat) (s : State) : Keeps s (execReplayWaitTimeout dt s) := by
  unfold execReplayWaitTimeout
  first
    | (simp; done)
    | (repeat' (first
        | (simp; done) | split | rw [State.foldl_core] | rw [foldl_fst_core] | rw [foldl_snd_core]
        | dsimp only | simp | rw [State.onSec_core] | rw [State.onSys_core] | with_reducible rfl | intro _))

@[simp ↓] theorem execReplayStop_core (dt : Nat) (s : State) : Keeps s (execReplayStop dt s) := by
  unfold execReplayStop
  first
    | (simp; done)
    | (repeat' (first
        | (simp; done) | split | rw [State.foldl_core] | rw [foldl_fst_core] | rw [foldl_snd_core]
        | dsimp only | simp | rw [State.onSec_core] | rw [State.onSys_core] | with_reducible rfl | intro _))

@[simp ↓] theorem execReplaySessionExpire_core (dt : Nat) (s : State) : Keeps s (execReplaySessionExpire dt s) := by
  unfold execReplaySessionExpire
  first
    | (simp; done)
    | (repeat' (first
        | (simp; done) | split | rw [State.foldl_core] | rw [foldl_fst_core] | rw [foldl_snd_core]
        | dsimp only | simp | rw [State.onSec_core] | rw [State.onSys_core] | with_reducible rfl | intro _))

end Sys2Proof.Machine
end

