-- ==== Sys2Proof/Laws/Core16.lean ====
section
/-! SUPPORT. The shared operations of Wheel, Write, Replay leave the core of the state as it is. -/

set_option Elab.async false

namespace Sys2Proof.Machine

/-! ### Wheel -/

@[simp ↓] theorem execWheelEnable_core (dt : Nat) (wheel : Fin 2) (cfg : Word) (s : State) : Keeps s (execWheelEnable dt wheel cfg s) := by
  unfold execWheelEnable
  first
    | (simp; done)
    | (repeat' (first
        | (simp; done) | split | rw [State.foldl_core] | rw [foldl_fst_core] | rw [foldl_snd_core]
        | dsimp only | simp | rw [State.onSec_core] | rw [State.onSys_core] | with_reducible rfl | intro _))

@[simp ↓] theorem State.inputChange_core (w : Nat) (inputB level : Bool) (s : State) : (State.inputChange w inputB level s).core = s.core := by
  unfold State.inputChange
  first
    | (simp; done)
    | (repeat' (first
        | (simp; done) | split | rw [State.foldl_core] | rw [foldl_fst_core] | rw [foldl_snd_core]
        | dsimp only | simp | rw [State.onSec_core] | rw [State.onSys_core] | with_reducible rfl | intro _))

@[simp ↓] theorem execWheelInputChange_core (dt : Nat) (wheel : Fin 2) (inputB : Bool) (level : Bool) (s : State) : Keeps s (execWheelInputChange dt wheel inputB level s) := by
  unfold execWheelInputChange
  first
    | (simp; done)
    | (repeat' (first
        | (simp; done) | split | rw [State.foldl_core] | rw [foldl_fst_core] | rw [foldl_snd_core]
        | dsimp only | simp | rw [State.onSec_core] | rw [State.onSys_core] | with_reducible rfl | intro _))

@[simp ↓] theorem execWheelTransitionAccept_core (dt : Nat) (wheel : Fin 2) (inputB : Bool) (s : State) : Keeps s (execWheelTransitionAccept dt wheel inputB s) := by
  unfold execWheelTransitionAccept
  first
    | (simp; done)
    | (repeat' (first
        | (simp; done) | split | rw [State.foldl_core] | rw [foldl_fst_core] | rw [foldl_snd_core]
        | dsimp only | simp | rw [State.onSec_core] | rw [State.onSys_core] | with_reducible rfl | intro _))

@[simp ↓] theorem execStillTimeout_core (dt : Nat) (wheel : Fin 2) (s : State) : Keeps s (execStillTimeout dt wheel s) := by
  unfold execStillTimeout
  first
    | (simp; done)
    | (repeat' (first
        | (simp; done) | split | rw [State.foldl_core] | rw [foldl_fst_core] | rw [foldl_snd_core]
        | dsimp only | simp | rw [State.onSec_core] | rw [State.onSys_core] | with_reducible rfl | intro _))

@[simp ↓] theorem State.endCoast_core (w : Nat) (s : State) : (State.endCoast w s).core = s.core := by
  unfold State.endCoast
  first
    | (simp; done)
    | (repeat' (first
        | (simp; done) | split | rw [State.foldl_core] | rw [foldl_fst_core] | rw [foldl_snd_core]
        | dsimp only | simp | rw [State.onSec_core] | rw [State.onSys_core] | with_reducible rfl | intro _))

@[simp ↓] theorem execCoastEnd_core (dt : Nat) (s : State) : Keeps s (execCoastEnd dt s) := by
  unfold execCoastEnd
  first
    | (simp; done)
    | (repeat' (first
        | (simp; done) | split | rw [State.foldl_core] | rw [foldl_fst_core] | rw [foldl_snd_core]
        | dsimp only | simp | rw [State.onSec_core] | rw [State.onSys_core] | with_reducible rfl | intro _))

@[simp ↓] theorem execEncPulseEnd_core (dt : Nat) (s : State) : Keeps s (execEncPulseEnd dt s) := by
  unfold execEncPulseEnd
  first
    | (simp; done)
    | (repeat' (first
        | (simp; done) | split | rw [State.foldl_core] | rw [foldl_fst_core] | rw [foldl_snd_core]
        | dsimp only | simp | rw [State.onSec_core] | rw [State.onSys_core] | with_reducible rfl | intro _))

@[simp ↓] theorem execTickPllUnlock_core (dt : Nat) (s : State) : Keeps s (execTickPllUnlock dt s) := by
  unfold execTickPllUnlock
  first
    | (simp; done)
    | (repeat' (first
        | (simp; done) | split | rw [State.foldl_core] | rw [foldl_fst_core] | rw [foldl_snd_core]
        | dsimp only | simp | rw [State.onSec_core] | rw [State.onSys_core] | with_reducible rfl | intro _))

@[simp ↓] theorem execTickPllLock_core (dt : Nat) (s : State) : Keeps s (execTickPllLock dt s) := by
  unfold execTickPllLock
  first
    | (simp; done)
    | (repeat' (first
        | (simp; done) | split | rw [State.foldl_core] | rw [foldl_fst_core] | rw [foldl_snd_core]
        | dsimp only | simp | rw [State.onSec_core] | rw [State.onSys_core] | with_reducible rfl | intro _))

@[simp ↓] theorem execLineClockBoundary_core (dt : Nat) (s : State) : Keeps s (execLineClockBoundary dt s) := by
  unfold execLineClockBoundary
  first
    | (simp; done)
    | (repeat' (first
        | (simp; done) | split | rw [State.foldl_core] | rw [foldl_fst_core] | rw [foldl_snd_core]
        | dsimp only | simp | rw [State.onSec_core] | rw [State.onSys_core] | with_reducible rfl | intro _))

/-! ### Write -/

@[simp ↓] theorem State.putWord_core (x : RegSpec) (i data keep : Nat) (s : State) : (State.putWord x i data keep s).core = s.core := by
  unfold State.putWord
  first
    | (simp; done)
    | (repeat' (first
        | (simp; done) | split | rw [State.foldl_core] | rw [foldl_fst_core] | rw [foldl_snd_core]
        | dsimp only | simp | rw [State.onSec_core] | rw [State.onSys_core] | with_reducible rfl | intro _))

@[simp ↓] theorem State.thenDo_core (c : State → Res) (s : State) (h : Keeps s (c s)) : (State.thenDo c s).core = s.core := by
  unfold State.thenDo
  split
  · rename_i t e
    exact h t e
  · rfl
  · rfl

@[simp ↓] theorem State.writeHif_core (x : RegSpec) (i data : Nat) (s : State) : (State.writeHif x i data s).core = s.core := by
  unfold State.writeHif
  first
    | (simp; done)
    | (repeat' (first
        | (simp; done) | split | rw [State.foldl_core] | rw [foldl_fst_core] | rw [foldl_snd_core]
        | dsimp only | simp | rw [State.onSec_core] | rw [State.onSys_core] | with_reducible rfl | intro _))

@[simp ↓] theorem State.writeBell_core (x : RegSpec) (i data : Nat) (s : State) : (State.writeBell x i data s).core = s.core := by
  unfold State.writeBell
  first
    | (simp; done)
    | (repeat' (first
        | (simp; done) | split | rw [State.foldl_core] | rw [foldl_fst_core] | rw [foldl_snd_core]
        | dsimp only | simp | rw [State.onSec_core] | rw [State.onSys_core] | with_reducible rfl | intro _))

@[simp ↓] theorem State.writeBarCtrl_core (x : RegSpec) (i data : Nat) (s : State) : (State.writeBarCtrl x i data s).core = s.core := by
  unfold State.writeBarCtrl
  first
    | (simp; done)
    | (repeat' (first
        | (simp; done) | split | rw [State.foldl_core] | rw [foldl_fst_core] | rw [foldl_snd_core]
        | dsimp only | simp | rw [State.onSec_core] | rw [State.onSys_core] | with_reducible rfl | intro _))

@[simp ↓] theorem State.writeLink_core (x : RegSpec) (i data : Nat) (s : State) : (State.writeLink x i data s).core = s.core := by
  unfold State.writeLink
  first
    | (simp; done)
    | (repeat' (first
        | (simp; done) | split | rw [State.foldl_core] | rw [foldl_fst_core] | rw [foldl_snd_core]
        | dsimp only | simp | rw [State.onSec_core] | rw [State.onSys_core] | with_reducible rfl | intro _))

@[simp ↓] theorem State.writeNhLimits_core (x : RegSpec) (i data : Nat) (s : State) : (State.writeNhLimits x i data s).core = s.core := by
  unfold State.writeNhLimits
  first
    | (simp; done)
    | (repeat' (first
        | (simp; done) | split | rw [State.foldl_core] | rw [foldl_fst_core] | rw [foldl_snd_core]
        | dsimp only | simp | rw [State.onSec_core] | rw [State.onSys_core] | with_reducible rfl | intro _))

@[simp ↓] theorem State.writePortCfg_core (x : RegSpec) (i data : Nat) (s : State) : (State.writePortCfg x i data s).core = s.core := by
  unfold State.writePortCfg
  first
    | (simp; done)
    | (repeat' (first
        | (simp; done) | split | rw [State.foldl_core] | rw [foldl_fst_core] | rw [foldl_snd_core]
        | dsimp only | simp | rw [State.onSec_core] | rw [State.onSys_core] | with_reducible rfl | intro _))

@[simp ↓] theorem State.writeHold_core (x : RegSpec) (i data : Nat) (s : State) : (State.writeHold x i data s).core = s.core := by
  unfold State.writeHold
  first
    | (simp; done)
    | (repeat' (first
        | (simp; done) | split | rw [State.foldl_core] | rw [foldl_fst_core] | rw [foldl_snd_core]
        | dsimp only | simp | rw [State.onSec_core] | rw [State.onSys_core] | with_reducible rfl | intro _))

@[simp ↓] theorem State.writeMem_core (x : RegSpec) (i agent data : Nat) (s : State) : (State.writeMem x i agent data s).core = s.core := by
  unfold State.writeMem
  first
    | (simp; done)
    | (repeat' (first
        | (simp; done) | split | rw [State.foldl_core] | rw [foldl_fst_core] | rw [foldl_snd_core]
        | dsimp only | simp | rw [State.onSec_core] | rw [State.onSys_core] | with_reducible rfl | intro _))

@[simp ↓] theorem State.writeNet_core (x : RegSpec) (i agent data : Nat) (s : State) : (State.writeNet x i agent data s).core = s.core := by
  unfold State.writeNet
  first
    | (simp; done)
    | (repeat' (first
        | (simp; done) | split | rw [State.foldl_core] | rw [foldl_fst_core] | rw [foldl_snd_core]
        | dsimp only | simp | rw [State.onSec_core] | rw [State.onSys_core] | with_reducible rfl | intro _))

@[simp ↓] theorem State.writeTherm_core (x : RegSpec) (i agent data : Nat) (s : State) : (State.writeTherm x i agent data s).core = s.core := by
  unfold State.writeTherm
  first
    | (simp; done)
    | (repeat' (first
        | (simp; done) | split | rw [State.foldl_core] | rw [foldl_fst_core] | rw [foldl_snd_core]
        | dsimp only | simp | rw [State.onSec_core] | rw [State.onSys_core] | with_reducible rfl | intro _))

@[simp ↓] theorem State.writeFold_core (x : RegSpec) (i data : Nat) (s : State) : (State.writeFold x i data s).core = s.core := by
  unfold State.writeFold
  first
    | (simp; done)
    | (repeat' (first
        | (simp; done) | split | rw [State.foldl_core] | rw [foldl_fst_core] | rw [foldl_snd_core]
        | dsimp only | simp | rw [State.onSec_core] | rw [State.onSys_core] | with_reducible rfl | intro _))

@[simp ↓] theorem State.writeMbx_core (x : RegSpec) (i agent data : Nat) (s : State) : (State.writeMbx x i agent data s).core = s.core := by
  unfold State.writeMbx
  first
    | (simp; done)
    | (repeat' (first
        | (simp; done) | split | rw [State.foldl_core] | rw [foldl_fst_core] | rw [foldl_snd_core]
        | dsimp only | simp | rw [State.onSec_core] | rw [State.onSys_core] | with_reducible rfl | intro _))

@[simp ↓] theorem State.writeTop_core (x : RegSpec) (i data : Nat) (s : State) : (State.writeTop x i data s).core = s.core := by
  unfold State.writeTop
  first
    | (simp; done)
    | (repeat' (first
        | (simp; done) | split | rw [State.foldl_core] | rw [foldl_fst_core] | rw [foldl_snd_core]
        | dsimp only | simp | rw [State.onSec_core] | rw [State.onSys_core] | with_reducible rfl | intro _))

/-! ### Replay -/

@[simp ↓] theorem State.replayOver_core (s : State) : (State.replayOver s).core = s.core := by
  unfold State.replayOver
  first
    | (simp; done)
    | (repeat' (first
        | (simp; done) | split | rw [State.foldl_core] | rw [foldl_fst_core] | rw [foldl_snd_core]
        | dsimp only | simp | rw [State.onSec_core] | rw [State.onSys_core] | with_reducible rfl | intro _))

@[simp ↓] theorem State.replayBroken_core (s : State) : (State.replayBroken s).core = s.core := by
  unfold State.replayBroken
  first
    | (simp; done)
    | (repeat' (first
        | (simp; done) | split | rw [State.foldl_core] | rw [foldl_fst_core] | rw [foldl_snd_core]
        | dsimp only | simp | rw [State.onSec_core] | rw [State.onSys_core] | with_reducible rfl | intro _))

@[simp ↓] theorem State.expect_core (e : Entry) (s : State) : (State.expect e s).core = s.core := by
  unfold State.expect
  first
    | (simp; done)
    | (repeat' (first
        | (simp; done) | split | rw [State.foldl_core] | rw [foldl_fst_core] | rw [foldl_snd_core]
        | dsimp only | simp | rw [State.onSec_core] | rw [State.onSys_core] | with_reducible rfl | intro _))

@[simp ↓] theorem State.replayEdge_core (e : Entry) (s : State) : (State.replayEdge e s).core = s.core := by
  unfold State.replayEdge
  first
    | (simp; done)
    | (repeat' (first
        | (simp; done) | split | rw [State.foldl_core] | rw [foldl_fst_core] | rw [foldl_snd_core]
        | dsimp only | simp | rw [State.onSec_core] | rw [State.onSys_core] | with_reducible rfl | intro _))

@[simp ↓] theorem State.replayFrame_core (port : Nat) (p : List Byte) (s : State) : (State.replayFrame port p s).core = s.core := by
  unfold State.replayFrame
  first
    | (simp; done)
    | (repeat' (first
        | (simp; done) | split | rw [State.foldl_core] | rw [foldl_fst_core] | rw [foldl_snd_core]
        | dsimp only | simp | rw [State.onSec_core] | rw [State.onSys_core] | with_reducible rfl | intro _))

@[simp ↓] theorem State.replayStats_core (port : Nat) (p : List Byte) (s : State) : (State.replayStats port p s).core = s.core := by
  unfold State.replayStats
  first
    | (simp; done)
    | (repeat' (first
        | (simp; done) | split | rw [State.foldl_core] | rw [foldl_fst_core] | rw [foldl_snd_core]
        | dsimp only | simp | rw [State.onSec_core] | rw [State.onSys_core] | with_reducible rfl | intro _))

end Sys2Proof.Machine
end

