-- ==== Sys2Proof/Laws/Follow.lean ====
section
/-! SUPPORT. What a device reset and a start do to the core of the state (R401, R470, R532), and with them every command. -/

set_option Elab.async false

namespace Sys2Proof.Machine

/-- The queue and the straps stay; the set-up lock stays, or all registers are at their reset values; the latch stays, or a pending
transition has been completed. -/
def Follows (s t : State) : Prop :=
  t.pending = s.pending ∧ t.sys.straps = s.sys.straps ∧
    (t.sys.lock = s.sys.lock ∨ t.sys.lock = true ∨ t.regs = []) ∧
    (t.sec.lc = s.sec.lc ∧ t.sec.pendingLc = s.sec.pendingLc ∨
      t.sec.lc = s.sec.pendingLc.getD s.sec.lc ∧ t.sec.pendingLc = none)

theorem follows_of_core {s t : State} (h : t.core = s.core) : Follows s t := by
  simp only [State.core_def, Prod.mk.injEq] at h
  exact ⟨h.1, h.2.1, .inl h.2.2.1, .inl h.2.2.2⟩

theorem follows_congr {s s' t : State} (h : s'.core = s.core) (f : Follows s' t) : Follows s t := by
  simp only [State.core_def, Prod.mk.injEq] at h
  obtain ⟨a, b, c, d⟩ := f
  rw [h.1] at a; rw [h.2.1] at b; rw [h.2.2.1] at c; rw [h.2.2.2.1, h.2.2.2.2] at d
  exact ⟨a, b, c, d⟩

theorem follows_trans {s t u : State} (f : Follows s t) (h : u.core = t.core) (r : u.regs = t.regs) : Follows s u := by
  simp only [State.core_def, Prod.mk.injEq] at h
  obtain ⟨a, b, c, d⟩ := f
  refine ⟨h.1.trans a, h.2.1.trans b, ?_, ?_⟩
  · rw [h.2.2.1, r]; exact c
  · rw [h.2.2.2.1, h.2.2.2.2]; exact d

theorem State.romWipes_core (s : State) :
    (State.romWipes s).core = (s.pending, s.sys.straps, s.sys.lock, s.sec.pendingLc.getD s.sec.lc, none) := by
  unfold State.romWipes
  extract_lets t
  have h : t.core = (s.pending, s.sys.straps, s.sys.lock, s.sec.pendingLc.getD s.sec.lc, none) := by
    simp only [t]
    split
    · rename_i l e
      simp [State.core_def, e]
    · rename_i e
      simp [State.core_def, e]
  clear_value t
  split
  · simpa using h
  · exact h

theorem State.romWipes_regs (s : State) : (State.romWipes s).regs = s.regs := by
  unfold State.romWipes
  repeat' (first | rfl | split | dsimp only)

theorem State.reboot_regs (straps : Straps) (cause : Nat) (s : State) : (State.reboot straps cause s).regs = [] := rfl

theorem State.deviceReset_regs (cause : Nat) (s : State) : (State.deviceReset cause s).regs = [] := by
  unfold State.deviceReset
  extract_lets s1
  rw [State.romWipes_regs, State.reboot_regs]

theorem State.romWipes_reboot_follows (cause : Nat) (s : State) : Follows s (s.reboot s.sys.straps cause).romWipes := by
  have h := State.reboot_core s.sys.straps cause s
  have g := State.romWipes_core (s.reboot s.sys.straps cause)
  have e := (State.romWipes_regs (s.reboot s.sys.straps cause)).trans (State.reboot_regs _ _ _)
  generalize s.reboot s.sys.straps cause = r at h g e
  generalize r.romWipes = t at g e
  simp only [State.core_def, Prod.mk.injEq] at h g
  obtain ⟨a, b, c, d, f⟩ := h
  rw [a, b, c, d, f] at g
  exact ⟨g.1, g.2.1, .inr (.inr e), .inr g.2.2.2⟩

theorem State.deviceReset_follows (cause : Nat) (s : State) : Follows s (State.deviceReset cause s) := by
  unfold State.deviceReset
  extract_lets s1
  exact follows_congr (by simp [s1]) (State.romWipes_reboot_follows cause s1)

/-- Shelf keeps the queue, the straps and the latch; every register is at its reset value (R400). -/
theorem State.enterShelf_follows (entry : Nat) (s : State) : Follows s (State.enterShelf entry s) := by
  have h := State.reboot_core s.sys.straps 0 s
  have e : (s.reboot s.sys.straps 0).regs = [] := rfl
  unfold State.enterShelf
  generalize s.reboot s.sys.straps 0 = r at h e
  simp only [State.core_def, Prod.mk.injEq] at h
  exact ⟨h.1, h.2.1, .inr (.inr e), .inl h.2.2.2⟩

theorem State.settleShelf_follows (s : State) : Follows s (State.settleShelf s) := by
  unfold State.settleShelf
  split
  · exact State.enterShelf_follows 1 s
  · exact follows_of_core rfl

/-- A command that gives a next state gives one that follows. -/
def Leads (s : State) (r : Res) : Prop := ∀ t, r = .next t → Follows s t

theorem leads_next {s t : State} (h : Follows s t) : Leads s (.next t) := fun _ e => by cases e; exact h

theorem leads_of_keeps {s : State} {r : Res} (h : Keeps s r) : Leads s r := fun t e => follows_of_core (h t e)

theorem execPorstFall_leads (dt : Nat) (s : State) : Leads s (execPorstFall dt s) := by
  unfold execPorstFall
  split
  · exact leads_next (follows_of_core rfl)
  · exact leads_next (follows_trans (State.deviceReset_follows 0 s) (by simp) (by simp))

theorem execSysReset_leads (dt : Nat) (data : Word) (s : State) : Leads s (execSysReset dt data s) := by
  unfold execSysReset
  split
  · exact leads_next (follows_of_core rfl)
  · dsimp only
    split
    · exact leads_next (follows_of_core (by simp))
    · split
      · exact leads_next (follows_congr (by simp) (State.deviceReset_follows 1 _))
      · exact leads_next (follows_of_core (by simp))

theorem execWatchdogExpire_leads (dt : Nat) (core : Fin 4) (s : State) : Leads s (execWatchdogExpire dt core s) := by
  unfold execWatchdogExpire
  split
  · exact leads_next (follows_of_core rfl)
  · dsimp only
    split
    · exact leads_next (follows_of_core (by simp))
    · apply leads_next
      split
      · exact follows_congr (by simp) (State.deviceReset_follows 2 _)
      · exact follows_of_core (by simp)

theorem execLcTransitionReset_leads (dt : Nat) (s : State) : Leads s (execLcTransitionReset dt s) := by
  unfold execLcTransitionReset
  split
  · exact leads_next (follows_of_core rfl)
  · dsimp only
    split
    · exact leads_next (follows_congr (by simp) (State.deviceReset_follows 3 _))
    · exact leads_next (follows_of_core (by simp))

theorem execShelfEnter_leads (dt : Nat) (data : Word) (s : State) : Leads s (execShelfEnter dt data s) := by
  unfold execShelfEnter
  split
  · exact leads_next (follows_of_core rfl)
  · dsimp only
    split
    · exact leads_next (follows_of_core (by simp))
    · split
      · exact leads_next (follows_of_core (by simp))
      · split
        · exact leads_next (follows_of_core (by simp))
        · exact leads_next (follows_congr (by simp) (State.settleShelf_follows _))

theorem execMainRailLoss_leads (dt : Nat) (s : State) : Leads s (execMainRailLoss dt s) := by
  unfold execMainRailLoss
  split
  · exact leads_next (follows_of_core rfl)
  · apply leads_next
    refine follows_congr ?_ (State.enterShelf_follows 2 _)
    split <;> simp

theorem execMramWriteDone_leads (dt : Nat) (back : Readback) (s : State) :
    Leads s (execMramWriteDone dt back s) := by
  unfold execMramWriteDone
  split
  · exact leads_next (follows_of_core rfl)
  · dsimp only
    split
    · exact leads_next (follows_of_core (by simp))
    · split
      · exact leads_next (follows_congr (by simp) (State.settleShelf_follows _))
      · exact leads_next (follows_congr (by simp) (State.settleShelf_follows _))

theorem execSetupLock_leads (dt : Nat) (s : State) : Leads s (execSetupLock dt s) := by
  unfold execSetupLock
  split
  · exact leads_next (follows_of_core rfl)
  · dsimp only
    split
    · exact leads_next (follows_of_core (by simp))
    · apply leads_next
      have e : (State.noteWrite 1 Reg.SYS_LOCK.off 1 (s.elapse dt)).core = s.core := by simp
      generalize State.noteWrite 1 Reg.SYS_LOCK.off 1 (s.elapse dt) = u at e
      exact follows_congr e ⟨rfl, rfl, .inr (.inl rfl), .inl ⟨rfl, rfl⟩⟩

theorem State.thenDo_follows {c : State → Res} {s : State} (h : Leads s (c s)) : Follows s (State.thenDo c s) := by
  unfold State.thenDo
  split
  · rename_i t e
    exact h t e
  · exact follows_of_core rfl
  · exact follows_of_core rfl

theorem State.writeSys_follows (x : RegSpec) (i data : Nat) (s : State) : Follows s (State.writeSys x i data s) := by
  unfold State.writeSys
  extract_lets w
  split
  · exact follows_of_core (by simp)
  · exact State.thenDo_follows (execShelfEnter_leads _ _ _)
  · exact State.thenDo_follows (execSysReset_leads _ _ _)
  · split
    · exact State.thenDo_follows (execSetupLock_leads _ _)
    · exact follows_of_core rfl
  · exact follows_of_core (by simp)

theorem State.writeAt_follows (x : RegSpec) (i agent data off : Nat) (s : State) : Follows s (State.writeAt x i agent data off s) := by
  unfold State.writeAt
  by_cases h : off < 0x100000
  · rw [if_pos h]
    exact State.writeSys_follows x i data s
  · rw [if_neg h]
    exact follows_of_core (by simp only [State.core_ite, State.writeHif_core, State.writeMbx_core, State.writeFold_core,
      State.writeTherm_core, State.writeMem_core, State.writeHold_core, State.writeBell_core, State.writeLink_core,
      State.writeNet_core, State.writeTop_core, State.writeBarCtrl_core, State.writePortCfg_core, State.writeNhLimits_core, State.putWord_core, ite_self])

theorem State.writeReg_follows (agent off data : Nat) (s : State) : Follows s (State.writeReg agent off data s) := by
  unfold State.writeReg
  split
  · exact follows_trans (follows_congr (by simp) (State.writeAt_follows _ _ agent data off _)) (State.onTally_core _ _) (by simp)
  · exact follows_of_core rfl

theorem execRegisterWrite_leads (dt : Nat) (agent : Fin 7) (off : Nat) (be : BitVec 4) (data : Word) (s : State) :
    Leads s (execRegisterWrite dt agent off be data s) := by
  unfold execRegisterWrite
  split
  · exact leads_next (follows_of_core rfl)
  · dsimp only
    split
    · exact leads_next (follows_of_core (by simp))
    · exact leads_next (follows_congr (by simp) (State.writeReg_follows _ _ _ _))

theorem State.present_follows (e : Entry) (s : State) : Follows s (State.present e s) := by
  unfold State.present
  dsimp only
  split
  case h_5 => exact State.writeReg_follows _ _ _ _
  all_goals exact follows_of_core (by (repeat' split) <;> simp)

theorem execReplayEntry_leads (dt : Nat) (s : State) : Leads s (execReplayEntry dt s) := by
  unfold execReplayEntry
  split
  · exact leads_next (follows_of_core rfl)
  · dsimp only
    split
    · exact leads_next (follows_of_core (by simp))
    · split
      · exact leads_next (follows_of_core (by simp))
      · split
        · exact leads_next (follows_of_core (by simp))
        · exact leads_next (follows_congr (by simp) (State.present_follows _ _))

/-- The latch after PORST_RISE: the straps are new, the rest follows. -/
theorem execPorstRise_spec (dt : Nat) (straps : BitVec 10) (s t : State) (h : execPorstRise dt straps s = .next t) :
    t.pending = s.pending ∧ (t.sys.lock = s.sys.lock ∨ t.regs = []) ∧
      (t.sec.lc = s.sec.lc ∧ t.sec.pendingLc = s.sec.pendingLc ∨
        t.sec.lc = s.sec.pendingLc.getD s.sec.lc ∧ t.sec.pendingLc = none) := by
  unfold execPorstRise at h
  split at h
  · cases h; exact ⟨rfl, .inl rfl, .inl ⟨rfl, rfl⟩⟩
  · have a := State.reboot_core (strapsOf straps.toNat) 0 s
    have g := State.romWipes_core (s.reboot (strapsOf straps.toNat) 0)
    have e : (s.reboot (strapsOf straps.toNat) 0).romWipes.regs = [] := by rw [State.romWipes_regs]; rfl
    generalize s.reboot (strapsOf straps.toNat) 0 = r at h a g e
    generalize r.romWipes = w at h g e
    cases h
    simp only [State.core_def, Prod.mk.injEq] at a g
    obtain ⟨a, b, c, d, f⟩ := a
    rw [a, d, f] at g
    exact ⟨g.1, .inr e, .inr g.2.2.2⟩

/-- A signer has authority only for a transition of R469. -/
theorem lcAllowed_edge (a b : Lc) (n : Nat) (h : lcAllowed a b n = true) : lcEdge a b = true := by
  cases a <;> cases b <;> simp_all [lcAllowed, lcEdge]

/-- A transition token that passes every check names a transition of R469. -/
theorem State.tokenStep_edge (s : State) (t : List Byte) (h : s.tokenStep t = 0) (k : leAt t 4 1 = 1) :
    lcEdge s.sec.lc ((lcOf (leAt t 5 1)).getD s.sec.lc) = true := by
  unfold State.tokenStep at h
  dsimp only at h
  (repeat' split at h) <;> try (simp at h; done)
  rename_i hh
  simp [State.tokenAllowed, k] at hh
  cases e : lcOf (leAt t 5 1) with
  | none => simp [e] at hh
  | some l =>
    simp [e] at hh
    simpa using lcAllowed_edge _ _ _ hh.2.1

theorem State.commitLc_core (t : List Byte) (target : Lc) (s : State) :
    (State.commitLc t target s).core = (s.pending, s.sys.straps, s.sys.lock, s.sec.lc, some target) := by
  unfold State.commitLc
  extract_lets a b c
  have h : a.core = s.core := by
    simp only [a]
    split <;> simp
  clear_value a
  have g : b.core = (s.pending, s.sys.straps, s.sys.lock, s.sec.lc, some target) := by
    simp only [State.core_def, Prod.mk.injEq] at h
    simp [b, State.core_def, h]
  clear_value b
  simpa [c] using g

/-- An accepted token changes the queue, the straps and the latch only as a transition of R469. -/
theorem State.actOn_core (t : List Byte) (s : State) (h : s.tokenStep t = 0) :
    (State.actOn t s).2.core = s.core ∨
      ∃ l, lcEdge s.sec.lc l = true ∧ (State.actOn t s).2.core = (s.pending, s.sys.straps, s.sys.lock, s.sec.lc, some l) := by
  unfold State.actOn
  dsimp only
  split
  · rename_i k
    split
    · exact .inl rfl
    · exact .inr ⟨_, State.tokenStep_edge s t h k, State.commitLc_core _ _ _⟩
  all_goals exact .inl (by simp)

/-- TOKEN_DONE leaves the queue, the straps and the state in the latch; what it writes as pending is a transition of R469. -/
theorem execTokenDone_spec (dt : Nat) (token nonce : List Byte) (s t : State) (h : execTokenDone dt token nonce s = .next t) :
    t.core = s.core ∨ ∃ l, lcEdge s.sec.lc l = true ∧ t.core = (s.pending, s.sys.straps, s.sys.lock, s.sec.lc, some l) := by
  have e : (s.elapse dt).core = s.core := by simp
  unfold execTokenDone at h
  split at h
  · cases h; exact .inl rfl
  · split at h
    · cases h
    · dsimp only at h
      generalize s.elapse dt = u at e h
      split at h
      · cases h; exact .inl e
      · have e1 : (u.onSec (fun x => { x with busy := false })).core = s.core := by simpa using e
        generalize u.onSec (fun x => { x with busy := false }) = v at e1 h
        split at h
        · cases h; exact .inl (by simpa using e1)
        · generalize hn : (if v.sec.readLost = true then 1 else v.tokenStep token) = n at h
          split at h
          · rename_i hk
            have hk : v.tokenStep token = 0 := by
              rw [hk] at hn
              split at hn
              · cases hn
              · exact hn
            have a := State.actOn_core token v hk
            generalize v.actOn token = r at a h
            cases h
            simp only [State.raiseEv_core, State.onSec_core, implies_true]
            simp only [State.core_def, Prod.mk.injEq] at e1 a ⊢
            rw [e1.1, e1.2.1, e1.2.2.1, e1.2.2.2.1, e1.2.2.2.2] at a
            exact a
          · cases h; exact .inl (by simpa using e1)

end Sys2Proof.Machine
end

