-- ==== Sys2Proof/Laws/Ops.lean ====
section
/-! SUPPORT. What the operations that most commands share leave as it is: one lemma per operation and part of the state. -/

set_option Elab.async false

namespace Sys2Proof.Machine

/-! ### free -/

@[simp] theorem State.free_now (s : State) : (State.free s).2.now = s.now := by
  unfold State.free
  repeat' (first | rfl | (simp; done) | split | dsimp only)
@[simp] theorem State.free_regs (s : State) : (State.free s).2.regs = s.regs := by
  unfold State.free
  repeat' (first | rfl | (simp; done) | split | dsimp only)
@[simp] theorem State.free_sys (s : State) : (State.free s).2.sys = s.sys := by
  unfold State.free
  repeat' (first | rfl | (simp; done) | split | dsimp only)
@[simp] theorem State.free_hif (s : State) : (State.free s).2.hif = s.hif := by
  unfold State.free
  repeat' (first | rfl | (simp; done) | split | dsimp only)
@[simp] theorem State.free_fold (s : State) : (State.free s).2.fold = s.fold := by
  unfold State.free
  repeat' (first | rfl | (simp; done) | split | dsimp only)
@[simp] theorem State.free_crook (s : State) : (State.free s).2.crook = s.crook := by
  unfold State.free
  repeat' (first | rfl | (simp; done) | split | dsimp only)
@[simp] theorem State.free_power (s : State) : (State.free s).2.power = s.power := by
  unfold State.free
  repeat' (first | rfl | (simp; done) | split | dsimp only)
@[simp] theorem State.free_therm (s : State) : (State.free s).2.therm = s.therm := by
  unfold State.free
  repeat' (first | rfl | (simp; done) | split | dsimp only)
@[simp] theorem State.free_memc (s : State) : (State.free s).2.memc = s.memc := by
  unfold State.free
  repeat' (first | rfl | (simp; done) | split | dsimp only)
@[simp] theorem State.free_paddock (s : State) : (State.free s).2.paddock = s.paddock := by
  unfold State.free
  repeat' (first | rfl | (simp; done) | split | dsimp only)
@[simp] theorem State.free_dfl (s : State) : (State.free s).2.dfl = s.dfl := by
  unfold State.free
  repeat' (first | rfl | (simp; done) | split | dsimp only)
@[simp] theorem State.free_mbx (s : State) : (State.free s).2.mbx = s.mbx := by
  unfold State.free
  repeat' (first | rfl | (simp; done) | split | dsimp only)
@[simp] theorem State.free_sec (s : State) : (State.free s).2.sec = s.sec := by
  unfold State.free
  repeat' (first | rfl | (simp; done) | split | dsimp only)
@[simp] theorem State.free_cal (s : State) : (State.free s).2.cal = s.cal := by
  unfold State.free
  repeat' (first | rfl | (simp; done) | split | dsimp only)
@[simp] theorem State.free_tally (s : State) : (State.free s).2.tally = s.tally := by
  unfold State.free
  repeat' (first | rfl | (simp; done) | split | dsimp only)
@[simp] theorem State.free_net (s : State) : (State.free s).2.net = s.net := by
  unfold State.free
  repeat' (first | rfl | (simp; done) | split | dsimp only)
@[simp] theorem State.free_bell (s : State) : (State.free s).2.bell = s.bell := by
  unfold State.free
  repeat' (first | rfl | (simp; done) | split | dsimp only)
@[simp] theorem State.free_lay (s : State) : (State.free s).2.lay = s.lay := by
  unfold State.free
  repeat' (first | rfl | (simp; done) | split | dsimp only)
@[simp] theorem State.free_ink (s : State) : (State.free s).2.ink = s.ink := by
  unfold State.free
  repeat' (first | rfl | (simp; done) | split | dsimp only)
@[simp] theorem State.free_jet (s : State) : (State.free s).2.jet = s.jet := by
  unfold State.free
  repeat' (first | rfl | (simp; done) | split | dsimp only)
@[simp] theorem State.free_link (s : State) : (State.free s).2.link = s.link := by
  unfold State.free
  repeat' (first | rfl | (simp; done) | split | dsimp only)
@[simp] theorem State.free_nozzle (s : State) : (State.free s).2.nozzle = s.nozzle := by
  unfold State.free
  repeat' (first | rfl | (simp; done) | split | dsimp only)
@[simp] theorem State.free_see (s : State) : (State.free s).2.see = s.see := by
  unfold State.free
  repeat' (first | rfl | (simp; done) | split | dsimp only)
@[simp] theorem State.free_hold (s : State) : (State.free s).2.hold = s.hold := by
  unfold State.free
  repeat' (first | rfl | (simp; done) | split | dsimp only)
@[simp] theorem State.free_out (s : State) : (State.free s).2.out = s.out := by
  unfold State.free
  repeat' (first | rfl | (simp; done) | split | dsimp only)
@[simp] theorem State.free_pending (s : State) : (State.free s).2.pending = s.pending := by
  unfold State.free
  repeat' (first | rfl | (simp; done) | split | dsimp only)

/-! ### setSticky -/

@[simp] theorem State.setSticky_now (r : Reg) (m : Nat) (s : State) : (State.setSticky r m s).now = s.now := by
  unfold State.setSticky
  repeat' (first | rfl | (simp; done) | split | dsimp only)
@[simp] theorem State.setSticky_hif (r : Reg) (m : Nat) (s : State) : (State.setSticky r m s).hif = s.hif := by
  unfold State.setSticky
  repeat' (first | rfl | (simp; done) | split | dsimp only)
@[simp] theorem State.setSticky_fold (r : Reg) (m : Nat) (s : State) : (State.setSticky r m s).fold = s.fold := by
  unfold State.setSticky
  repeat' (first | rfl | (simp; done) | split | dsimp only)
@[simp] theorem State.setSticky_crook (r : Reg) (m : Nat) (s : State) : (State.setSticky r m s).crook = s.crook := by
  unfold State.setSticky
  repeat' (first | rfl | (simp; done) | split | dsimp only)
@[simp] theorem State.setSticky_power (r : Reg) (m : Nat) (s : State) : (State.setSticky r m s).power = s.power := by
  unfold State.setSticky
  repeat' (first | rfl | (simp; done) | split | dsimp only)
@[simp] theorem State.setSticky_therm (r : Reg) (m : Nat) (s : State) : (State.setSticky r m s).therm = s.therm := by
  unfold State.setSticky
  repeat' (first | rfl | (simp; done) | split | dsimp only)
@[simp] theorem State.setSticky_memc (r : Reg) (m : Nat) (s : State) : (State.setSticky r m s).memc = s.memc := by
  unfold State.setSticky
  repeat' (first | rfl | (simp; done) | split | dsimp only)
@[simp] theorem State.setSticky_paddock (r : Reg) (m : Nat) (s : State) : (State.setSticky r m s).paddock = s.paddock := by
  unfold State.setSticky
  repeat' (first | rfl | (simp; done) | split | dsimp only)
@[simp] theorem State.setSticky_dfl (r : Reg) (m : Nat) (s : State) : (State.setSticky r m s).dfl = s.dfl := by
  unfold State.setSticky
  repeat' (first | rfl | (simp; done) | split | dsimp only)
@[simp] theorem State.setSticky_mbx (r : Reg) (m : Nat) (s : State) : (State.setSticky r m s).mbx = s.mbx := by
  unfold State.setSticky
  repeat' (first | rfl | (simp; done) | split | dsimp only)
@[simp] theorem State.setSticky_sec (r : Reg) (m : Nat) (s : State) : (State.setSticky r m s).sec = s.sec := by
  unfold State.setSticky
  repeat' (first | rfl | (simp; done) | split | dsimp only)
@[simp] theorem State.setSticky_cal (r : Reg) (m : Nat) (s : State) : (State.setSticky r m s).cal = s.cal := by
  unfold State.setSticky
  repeat' (first | rfl | (simp; done) | split | dsimp only)
@[simp] theorem State.setSticky_tally (r : Reg) (m : Nat) (s : State) : (State.setSticky r m s).tally = s.tally := by
  unfold State.setSticky
  repeat' (first | rfl | (simp; done) | split | dsimp only)
@[simp] theorem State.setSticky_net (r : Reg) (m : Nat) (s : State) : (State.setSticky r m s).net = s.net := by
  unfold State.setSticky
  repeat' (first | rfl | (simp; done) | split | dsimp only)
@[simp] theorem State.setSticky_bell (r : Reg) (m : Nat) (s : State) : (State.setSticky r m s).bell = s.bell := by
  unfold State.setSticky
  repeat' (first | rfl | (simp; done) | split | dsimp only)
@[simp] theorem State.setSticky_lay (r : Reg) (m : Nat) (s : State) : (State.setSticky r m s).lay = s.lay := by
  unfold State.setSticky
  repeat' (first | rfl | (simp; done) | split | dsimp only)
@[simp] theorem State.setSticky_ink (r : Reg) (m : Nat) (s : State) : (State.setSticky r m s).ink = s.ink := by
  unfold State.setSticky
  repeat' (first | rfl | (simp; done) | split | dsimp only)
@[simp] theorem State.setSticky_jet (r : Reg) (m : Nat) (s : State) : (State.setSticky r m s).jet = s.jet := by
  unfold State.setSticky
  repeat' (first | rfl | (simp; done) | split | dsimp only)
@[simp] theorem State.setSticky_link (r : Reg) (m : Nat) (s : State) : (State.setSticky r m s).link = s.link := by
  unfold State.setSticky
  repeat' (first | rfl | (simp; done) | split | dsimp only)
@[simp] theorem State.setSticky_nozzle (r : Reg) (m : Nat) (s : State) : (State.setSticky r m s).nozzle = s.nozzle := by
  unfold State.setSticky
  repeat' (first | rfl | (simp; done) | split | dsimp only)
@[simp] theorem State.setSticky_see (r : Reg) (m : Nat) (s : State) : (State.setSticky r m s).see = s.see := by
  unfold State.setSticky
  repeat' (first | rfl | (simp; done) | split | dsimp only)
@[simp] theorem State.setSticky_hold (r : Reg) (m : Nat) (s : State) : (State.setSticky r m s).hold = s.hold := by
  unfold State.setSticky
  repeat' (first | rfl | (simp; done) | split | dsimp only)
@[simp] theorem State.setSticky_freeCount (r : Reg) (m : Nat) (s : State) : (State.setSticky r m s).freeCount = s.freeCount := by
  unfold State.setSticky
  repeat' (first | rfl | (simp; done) | split | dsimp only)
@[simp] theorem State.setSticky_out (r : Reg) (m : Nat) (s : State) : (State.setSticky r m s).out = s.out := by
  unfold State.setSticky
  repeat' (first | rfl | (simp; done) | split | dsimp only)
@[simp] theorem State.setSticky_pending (r : Reg) (m : Nat) (s : State) : (State.setSticky r m s).pending = s.pending := by
  unfold State.setSticky
  repeat' (first | rfl | (simp; done) | split | dsimp only)

/-! ### requestVector -/

@[simp] theorem State.requestVector_now (v : Nat) (s : State) : (State.requestVector v s).now = s.now := by
  unfold State.requestVector
  repeat' (first | rfl | (simp; done) | split | dsimp only)
@[simp] theorem State.requestVector_regs (v : Nat) (s : State) : (State.requestVector v s).regs = s.regs := by
  unfold State.requestVector
  repeat' (first | rfl | (simp; done) | split | dsimp only)
@[simp] theorem State.requestVector_sys (v : Nat) (s : State) : (State.requestVector v s).sys = s.sys := by
  unfold State.requestVector
  repeat' (first | rfl | (simp; done) | split | dsimp only)
@[simp] theorem State.requestVector_fold (v : Nat) (s : State) : (State.requestVector v s).fold = s.fold := by
  unfold State.requestVector
  repeat' (first | rfl | (simp; done) | split | dsimp only)
@[simp] theorem State.requestVector_crook (v : Nat) (s : State) : (State.requestVector v s).crook = s.crook := by
  unfold State.requestVector
  repeat' (first | rfl | (simp; done) | split | dsimp only)
@[simp] theorem State.requestVector_power (v : Nat) (s : State) : (State.requestVector v s).power = s.power := by
  unfold State.requestVector
  repeat' (first | rfl | (simp; done) | split | dsimp only)
@[simp] theorem State.requestVector_therm (v : Nat) (s : State) : (State.requestVector v s).therm = s.therm := by
  unfold State.requestVector
  repeat' (first | rfl | (simp; done) | split | dsimp only)
@[simp] theorem State.requestVector_memc (v : Nat) (s : State) : (State.requestVector v s).memc = s.memc := by
  unfold State.requestVector
  repeat' (first | rfl | (simp; done) | split | dsimp only)
@[simp] theorem State.requestVector_paddock (v : Nat) (s : State) : (State.requestVector v s).paddock = s.paddock := by
  unfold State.requestVector
  repeat' (first | rfl | (simp; done) | split | dsimp only)
@[simp] theorem State.requestVector_dfl (v : Nat) (s : State) : (State.requestVector v s).dfl = s.dfl := by
  unfold State.requestVector
  repeat' (first | rfl | (simp; done) | split | dsimp only)
@[simp] theorem State.requestVector_mbx (v : Nat) (s : State) : (State.requestVector v s).mbx = s.mbx := by
  unfold State.requestVector
  repeat' (first | rfl | (simp; done) | split | dsimp only)
@[simp] theorem State.requestVector_sec (v : Nat) (s : State) : (State.requestVector v s).sec = s.sec := by
  unfold State.requestVector
  repeat' (first | rfl | (simp; done) | split | dsimp only)
@[simp] theorem State.requestVector_cal (v : Nat) (s : State) : (State.requestVector v s).cal = s.cal := by
  unfold State.requestVector
  repeat' (first | rfl | (simp; done) | split | dsimp only)
@[simp] theorem State.requestVector_tally (v : Nat) (s : State) : (State.requestVector v s).tally = s.tally := by
  unfold State.requestVector
  repeat' (first | rfl | (simp; done) | split | dsimp only)
@[simp] theorem State.requestVector_net (v : Nat) (s : State) : (State.requestVector v s).net = s.net := by
  unfold State.requestVector
  repeat' (first | rfl | (simp; done) | split | dsimp only)
@[simp] theorem State.requestVector_bell (v : Nat) (s : State) : (State.requestVector v s).bell = s.bell := by
  unfold State.requestVector
  repeat' (first | rfl | (simp; done) | split | dsimp only)
@[simp] theorem State.requestVector_lay (v : Nat) (s : State) : (State.requestVector v s).lay = s.lay := by
  unfold State.requestVector
  repeat' (first | rfl | (simp; done) | split | dsimp only)
@[simp] theorem State.requestVector_ink (v : Nat) (s : State) : (State.requestVector v s).ink = s.ink := by
  unfold State.requestVector
  repeat' (first | rfl | (simp; done) | split | dsimp only)
@[simp] theorem State.requestVector_jet (v : Nat) (s : State) : (State.requestVector v s).jet = s.jet := by
  unfold State.requestVector
  repeat' (first | rfl | (simp; done) | split | dsimp only)
@[simp] theorem State.requestVector_link (v : Nat) (s : State) : (State.requestVector v s).link = s.link := by
  unfold State.requestVector
  repeat' (first | rfl | (simp; done) | split | dsimp only)
@[simp] theorem State.requestVector_nozzle (v : Nat) (s : State) : (State.requestVector v s).nozzle = s.nozzle := by
  unfold State.requestVector
  repeat' (first | rfl | (simp; done) | split | dsimp only)
@[simp] theorem State.requestVector_see (v : Nat) (s : State) : (State.requestVector v s).see = s.see := by
  unfold State.requestVector
  repeat' (first | rfl | (simp; done) | split | dsimp only)
@[simp] theorem State.requestVector_hold (v : Nat) (s : State) : (State.requestVector v s).hold = s.hold := by
  unfold State.requestVector
  repeat' (first | rfl | (simp; done) | split | dsimp only)
@[simp] theorem State.requestVector_freeCount (v : Nat) (s : State) : (State.requestVector v s).freeCount = s.freeCount := by
  unfold State.requestVector
  repeat' (first | rfl | (simp; done) | split | dsimp only)
@[simp] theorem State.requestVector_pending (v : Nat) (s : State) : (State.requestVector v s).pending = s.pending := by
  unfold State.requestVector
  repeat' (first | rfl | (simp; done) | split | dsimp only)

/-! ### raiseEv -/

@[simp] theorem State.raiseEv_now (n : Nat) (s : State) : (State.raiseEv n s).now = s.now := by
  unfold State.raiseEv
  repeat' (first | rfl | (simp; done) | split | dsimp only)
@[simp] theorem State.raiseEv_fold (n : Nat) (s : State) : (State.raiseEv n s).fold = s.fold := by
  unfold State.raiseEv
  repeat' (first | rfl | (simp; done) | split | dsimp only)
@[simp] theorem State.raiseEv_crook (n : Nat) (s : State) : (State.raiseEv n s).crook = s.crook := by
  unfold State.raiseEv
  repeat' (first | rfl | (simp; done) | split | dsimp only)
@[simp] theorem State.raiseEv_power (n : Nat) (s : State) : (State.raiseEv n s).power = s.power := by
  unfold State.raiseEv
  repeat' (first | rfl | (simp; done) | split | dsimp only)
@[simp] theorem State.raiseEv_therm (n : Nat) (s : State) : (State.raiseEv n s).therm = s.therm := by
  unfold State.raiseEv
  repeat' (first | rfl | (simp; done) | split | dsimp only)
@[simp] theorem State.raiseEv_memc (n : Nat) (s : State) : (State.raiseEv n s).memc = s.memc := by
  unfold State.raiseEv
  repeat' (first | rfl | (simp; done) | split | dsimp only)
@[simp] theorem State.raiseEv_paddock (n : Nat) (s : State) : (State.raiseEv n s).paddock = s.paddock := by
  unfold State.raiseEv
  repeat' (first | rfl | (simp; done) | split | dsimp only)
@[simp] theorem State.raiseEv_dfl (n : Nat) (s : State) : (State.raiseEv n s).dfl = s.dfl := by
  unfold State.raiseEv
  repeat' (first | rfl | (simp; done) | split | dsimp only)
@[simp] theorem State.raiseEv_mbx (n : Nat) (s : State) : (State.raiseEv n s).mbx = s.mbx := by
  unfold State.raiseEv
  repeat' (first | rfl | (simp; done) | split | dsimp only)
@[simp] theorem State.raiseEv_sec (n : Nat) (s : State) : (State.raiseEv n s).sec = s.sec := by
  unfold State.raiseEv
  repeat' (first | rfl | (simp; done) | split | dsimp only)
@[simp] theorem State.raiseEv_cal (n : Nat) (s : State) : (State.raiseEv n s).cal = s.cal := by
  unfold State.raiseEv
  repeat' (first | rfl | (simp; done) | split | dsimp only)
@[simp] theorem State.raiseEv_tally (n : Nat) (s : State) : (State.raiseEv n s).tally = s.tally := by
  unfold State.raiseEv
  repeat' (first | rfl | (simp; done) | split | dsimp only)
@[simp] theorem State.raiseEv_net (n : Nat) (s : State) : (State.raiseEv n s).net = s.net := by
  unfold State.raiseEv
  repeat' (first | rfl | (simp; done) | split | dsimp only)
@[simp] theorem State.raiseEv_bell (n : Nat) (s : State) : (State.raiseEv n s).bell = s.bell := by
  unfold State.raiseEv
  repeat' (first | rfl | (simp; done) | split | dsimp only)
@[simp] theorem State.raiseEv_lay (n : Nat) (s : State) : (State.raiseEv n s).lay = s.lay := by
  unfold State.raiseEv
  repeat' (first | rfl | (simp; done) | split | dsimp only)
@[simp] theorem State.raiseEv_ink (n : Nat) (s : State) : (State.raiseEv n s).ink = s.ink := by
  unfold State.raiseEv
  repeat' (first | rfl | (simp; done) | split | dsimp only)
@[simp] theorem State.raiseEv_jet (n : Nat) (s : State) : (State.raiseEv n s).jet = s.jet := by
  unfold State.raiseEv
  repeat' (first | rfl | (simp; done) | split | dsimp only)
@[simp] theorem State.raiseEv_link (n : Nat) (s : State) : (State.raiseEv n s).link = s.link := by
  unfold State.raiseEv
  repeat' (first | rfl | (simp; done) | split | dsimp only)
@[simp] theorem State.raiseEv_nozzle (n : Nat) (s : State) : (State.raiseEv n s).nozzle = s.nozzle := by
  unfold State.raiseEv
  repeat' (first | rfl | (simp; done) | split | dsimp only)
@[simp] theorem State.raiseEv_see (n : Nat) (s : State) : (State.raiseEv n s).see = s.see := by
  unfold State.raiseEv
  repeat' (first | rfl | (simp; done) | split | dsimp only)
@[simp] theorem State.raiseEv_hold (n : Nat) (s : State) : (State.raiseEv n s).hold = s.hold := by
  unfold State.raiseEv
  repeat' (first | rfl | (simp; done) | split | dsimp only)
@[simp] theorem State.raiseEv_freeCount (n : Nat) (s : State) : (State.raiseEv n s).freeCount = s.freeCount := by
  unfold State.raiseEv
  repeat' (first | rfl | (simp; done) | split | dsimp only)
@[simp] theorem State.raiseEv_pending (n : Nat) (s : State) : (State.raiseEv n s).pending = s.pending := by
  unfold State.raiseEv
  repeat' (first | rfl | (simp; done) | split | dsimp only)

/-! ### droverAsk -/

@[simp] theorem State.droverAsk_now (cls tokens : Nat) (h : Holder) (s : State) : (State.droverAsk cls tokens h s).now = s.now := by
  unfold State.droverAsk
  repeat' (first | rfl | (simp; done) | split | dsimp only)
@[simp] theorem State.droverAsk_regs (cls tokens : Nat) (h : Holder) (s : State) : (State.droverAsk cls tokens h s).regs = s.regs := by
  unfold State.droverAsk
  repeat' (first | rfl | (simp; done) | split | dsimp only)
@[simp] theorem State.droverAsk_sys (cls tokens : Nat) (h : Holder) (s : State) : (State.droverAsk cls tokens h s).sys = s.sys := by
  unfold State.droverAsk
  repeat' (first | rfl | (simp; done) | split | dsimp only)
@[simp] theorem State.droverAsk_hif (cls tokens : Nat) (h : Holder) (s : State) : (State.droverAsk cls tokens h s).hif = s.hif := by
  unfold State.droverAsk
  repeat' (first | rfl | (simp; done) | split | dsimp only)
@[simp] theorem State.droverAsk_fold (cls tokens : Nat) (h : Holder) (s : State) : (State.droverAsk cls tokens h s).fold = s.fold := by
  unfold State.droverAsk
  repeat' (first | rfl | (simp; done) | split | dsimp only)
@[simp] theorem State.droverAsk_crook (cls tokens : Nat) (h : Holder) (s : State) : (State.droverAsk cls tokens h s).crook = s.crook := by
  unfold State.droverAsk
  repeat' (first | rfl | (simp; done) | split | dsimp only)
@[simp] theorem State.droverAsk_therm (cls tokens : Nat) (h : Holder) (s : State) : (State.droverAsk cls tokens h s).therm = s.therm := by
  unfold State.droverAsk
  repeat' (first | rfl | (simp; done) | split | dsimp only)
@[simp] theorem State.droverAsk_memc (cls tokens : Nat) (h : Holder) (s : State) : (State.droverAsk cls tokens h s).memc = s.memc := by
  unfold State.droverAsk
  repeat' (first | rfl | (simp; done) | split | dsimp only)
@[simp] theorem State.droverAsk_paddock (cls tokens : Nat) (h : Holder) (s : State) : (State.droverAsk cls tokens h s).paddock = s.paddock := by
  unfold State.droverAsk
  repeat' (first | rfl | (simp; done) | split | dsimp only)
@[simp] theorem State.droverAsk_dfl (cls tokens : Nat) (h : Holder) (s : State) : (State.droverAsk cls tokens h s).dfl = s.dfl := by
  unfold State.droverAsk
  repeat' (first | rfl | (simp; done) | split | dsimp only)
@[simp] theorem State.droverAsk_mbx (cls tokens : Nat) (h : Holder) (s : State) : (State.droverAsk cls tokens h s).mbx = s.mbx := by
  unfold State.droverAsk
  repeat' (first | rfl | (simp; done) | split | dsimp only)
@[simp] theorem State.droverAsk_sec (cls tokens : Nat) (h : Holder) (s : State) : (State.droverAsk cls tokens h s).sec = s.sec := by
  unfold State.droverAsk
  repeat' (first | rfl | (simp; done) | split | dsimp only)
@[simp] theorem State.droverAsk_cal (cls tokens : Nat) (h : Holder) (s : State) : (State.droverAsk cls tokens h s).cal = s.cal := by
  unfold State.droverAsk
  repeat' (first | rfl | (simp; done) | split | dsimp only)
@[simp] theorem State.droverAsk_tally (cls tokens : Nat) (h : Holder) (s : State) : (State.droverAsk cls tokens h s).tally = s.tally := by
  unfold State.droverAsk
  repeat' (first | rfl | (simp; done) | split | dsimp only)
@[simp] theorem State.droverAsk_net (cls tokens : Nat) (h : Holder) (s : State) : (State.droverAsk cls tokens h s).net = s.net := by
  unfold State.droverAsk
  repeat' (first | rfl | (simp; done) | split | dsimp only)
@[simp] theorem State.droverAsk_bell (cls tokens : Nat) (h : Holder) (s : State) : (State.droverAsk cls tokens h s).bell = s.bell := by
  unfold State.droverAsk
  repeat' (first | rfl | (simp; done) | split | dsimp only)
@[simp] theorem State.droverAsk_lay (cls tokens : Nat) (h : Holder) (s : State) : (State.droverAsk cls tokens h s).lay = s.lay := by
  unfold State.droverAsk
  repeat' (first | rfl | (simp; done) | split | dsimp only)
@[simp] theorem State.droverAsk_ink (cls tokens : Nat) (h : Holder) (s : State) : (State.droverAsk cls tokens h s).ink = s.ink := by
  unfold State.droverAsk
  repeat' (first | rfl | (simp; done) | split | dsimp only)
@[simp] theorem State.droverAsk_jet (cls tokens : Nat) (h : Holder) (s : State) : (State.droverAsk cls tokens h s).jet = s.jet := by
  unfold State.droverAsk
  repeat' (first | rfl | (simp; done) | split | dsimp only)
@[simp] theorem State.droverAsk_link (cls tokens : Nat) (h : Holder) (s : State) : (State.droverAsk cls tokens h s).link = s.link := by
  unfold State.droverAsk
  repeat' (first | rfl | (simp; done) | split | dsimp only)
@[simp] theorem State.droverAsk_nozzle (cls tokens : Nat) (h : Holder) (s : State) : (State.droverAsk cls tokens h s).nozzle = s.nozzle := by
  unfold State.droverAsk
  repeat' (first | rfl | (simp; done) | split | dsimp only)
@[simp] theorem State.droverAsk_see (cls tokens : Nat) (h : Holder) (s : State) : (State.droverAsk cls tokens h s).see = s.see := by
  unfold State.droverAsk
  repeat' (first | rfl | (simp; done) | split | dsimp only)
@[simp] theorem State.droverAsk_hold (cls tokens : Nat) (h : Holder) (s : State) : (State.droverAsk cls tokens h s).hold = s.hold := by
  unfold State.droverAsk
  repeat' (first | rfl | (simp; done) | split | dsimp only)
@[simp] theorem State.droverAsk_freeCount (cls tokens : Nat) (h : Holder) (s : State) : (State.droverAsk cls tokens h s).freeCount = s.freeCount := by
  unfold State.droverAsk
  repeat' (first | rfl | (simp; done) | split | dsimp only)
@[simp] theorem State.droverAsk_out (cls tokens : Nat) (h : Holder) (s : State) : (State.droverAsk cls tokens h s).out = s.out := by
  unfold State.droverAsk
  repeat' (first | rfl | (simp; done) | split | dsimp only)
@[simp] theorem State.droverAsk_pending (cls tokens : Nat) (h : Holder) (s : State) : (State.droverAsk cls tokens h s).pending = s.pending := by
  unfold State.droverAsk
  repeat' (first | rfl | (simp; done) | split | dsimp only)

/-! ### droverDrop -/

@[simp] theorem State.droverDrop_now (h : Holder) (s : State) : (State.droverDrop h s).now = s.now := by
  unfold State.droverDrop
  repeat' (first | rfl | (simp; done) | split | dsimp only)
@[simp] theorem State.droverDrop_regs (h : Holder) (s : State) : (State.droverDrop h s).regs = s.regs := by
  unfold State.droverDrop
  repeat' (first | rfl | (simp; done) | split | dsimp only)
@[simp] theorem State.droverDrop_sys (h : Holder) (s : State) : (State.droverDrop h s).sys = s.sys := by
  unfold State.droverDrop
  repeat' (first | rfl | (simp; done) | split | dsimp only)
@[simp] theorem State.droverDrop_hif (h : Holder) (s : State) : (State.droverDrop h s).hif = s.hif := by
  unfold State.droverDrop
  repeat' (first | rfl | (simp; done) | split | dsimp only)
@[simp] theorem State.droverDrop_fold (h : Holder) (s : State) : (State.droverDrop h s).fold = s.fold := by
  unfold State.droverDrop
  repeat' (first | rfl | (simp; done) | split | dsimp only)
@[simp] theorem State.droverDrop_crook (h : Holder) (s : State) : (State.droverDrop h s).crook = s.crook := by
  unfold State.droverDrop
  repeat' (first | rfl | (simp; done) | split | dsimp only)
@[simp] theorem State.droverDrop_therm (h : Holder) (s : State) : (State.droverDrop h s).therm = s.therm := by
  unfold State.droverDrop
  repeat' (first | rfl | (simp; done) | split | dsimp only)
@[simp] theorem State.droverDrop_memc (h : Holder) (s : State) : (State.droverDrop h s).memc = s.memc := by
  unfold State.droverDrop
  repeat' (first | rfl | (simp; done) | split | dsimp only)
@[simp] theorem State.droverDrop_paddock (h : Holder) (s : State) : (State.droverDrop h s).paddock = s.paddock := by
  unfold State.droverDrop
  repeat' (first | rfl | (simp; done) | split | dsimp only)
@[simp] theorem State.droverDrop_dfl (h : Holder) (s : State) : (State.droverDrop h s).dfl = s.dfl := by
  unfold State.droverDrop
  repeat' (first | rfl | (simp; done) | split | dsimp only)
@[simp] theorem State.droverDrop_mbx (h : Holder) (s : State) : (State.droverDrop h s).mbx = s.mbx := by
  unfold State.droverDrop
  repeat' (first | rfl | (simp; done) | split | dsimp only)
@[simp] theorem State.droverDrop_sec (h : Holder) (s : State) : (State.droverDrop h s).sec = s.sec := by
  unfold State.droverDrop
  repeat' (first | rfl | (simp; done) | split | dsimp only)
@[simp] theorem State.droverDrop_cal (h : Holder) (s : State) : (State.droverDrop h s).cal = s.cal := by
  unfold State.droverDrop
  repeat' (first | rfl | (simp; done) | split | dsimp only)
@[simp] theorem State.droverDrop_tally (h : Holder) (s : State) : (State.droverDrop h s).tally = s.tally := by
  unfold State.droverDrop
  repeat' (first | rfl | (simp; done) | split | dsimp only)
@[simp] theorem State.droverDrop_net (h : Holder) (s : State) : (State.droverDrop h s).net = s.net := by
  unfold State.droverDrop
  repeat' (first | rfl | (simp; done) | split | dsimp only)
@[simp] theorem State.droverDrop_bell (h : Holder) (s : State) : (State.droverDrop h s).bell = s.bell := by
  unfold State.droverDrop
  repeat' (first | rfl | (simp; done) | split | dsimp only)
@[simp] theorem State.droverDrop_lay (h : Holder) (s : State) : (State.droverDrop h s).lay = s.lay := by
  unfold State.droverDrop
  repeat' (first | rfl | (simp; done) | split | dsimp only)
@[simp] theorem State.droverDrop_ink (h : Holder) (s : State) : (State.droverDrop h s).ink = s.ink := by
  unfold State.droverDrop
  repeat' (first | rfl | (simp; done) | split | dsimp only)
@[simp] theorem State.droverDrop_jet (h : Holder) (s : State) : (State.droverDrop h s).jet = s.jet := by
  unfold State.droverDrop
  repeat' (first | rfl | (simp; done) | split | dsimp only)
@[simp] theorem State.droverDrop_link (h : Holder) (s : State) : (State.droverDrop h s).link = s.link := by
  unfold State.droverDrop
  repeat' (first | rfl | (simp; done) | split | dsimp only)
@[simp] theorem State.droverDrop_nozzle (h : Holder) (s : State) : (State.droverDrop h s).nozzle = s.nozzle := by
  unfold State.droverDrop
  repeat' (first | rfl | (simp; done) | split | dsimp only)
@[simp] theorem State.droverDrop_see (h : Holder) (s : State) : (State.droverDrop h s).see = s.see := by
  unfold State.droverDrop
  repeat' (first | rfl | (simp; done) | split | dsimp only)
@[simp] theorem State.droverDrop_hold (h : Holder) (s : State) : (State.droverDrop h s).hold = s.hold := by
  unfold State.droverDrop
  repeat' (first | rfl | (simp; done) | split | dsimp only)
@[simp] theorem State.droverDrop_freeCount (h : Holder) (s : State) : (State.droverDrop h s).freeCount = s.freeCount := by
  unfold State.droverDrop
  repeat' (first | rfl | (simp; done) | split | dsimp only)
@[simp] theorem State.droverDrop_out (h : Holder) (s : State) : (State.droverDrop h s).out = s.out := by
  unfold State.droverDrop
  repeat' (first | rfl | (simp; done) | split | dsimp only)
@[simp] theorem State.droverDrop_pending (h : Holder) (s : State) : (State.droverDrop h s).pending = s.pending := by
  unfold State.droverDrop
  repeat' (first | rfl | (simp; done) | split | dsimp only)

/-! ### start -/

@[simp] theorem State.start_now (d : Desc) (s : State) : (State.start d s).now = s.now := by
  unfold State.start
  repeat' (first | rfl | (simp; done) | split | dsimp only)
@[simp] theorem State.start_regs (d : Desc) (s : State) : (State.start d s).regs = s.regs := by
  unfold State.start
  repeat' (first | rfl | (simp; done) | split | dsimp only)
@[simp] theorem State.start_sys (d : Desc) (s : State) : (State.start d s).sys = s.sys := by
  unfold State.start
  repeat' (first | rfl | (simp; done) | split | dsimp only)
@[simp] theorem State.start_fold (d : Desc) (s : State) : (State.start d s).fold = s.fold := by
  unfold State.start
  repeat' (first | rfl | (simp; done) | split | dsimp only)
@[simp] theorem State.start_crook (d : Desc) (s : State) : (State.start d s).crook = s.crook := by
  unfold State.start
  repeat' (first | rfl | (simp; done) | split | dsimp only)
@[simp] theorem State.start_power (d : Desc) (s : State) : (State.start d s).power = s.power := by
  unfold State.start
  repeat' (first | rfl | (simp; done) | split | dsimp only)
@[simp] theorem State.start_therm (d : Desc) (s : State) : (State.start d s).therm = s.therm := by
  unfold State.start
  repeat' (first | rfl | (simp; done) | split | dsimp only)
@[simp] theorem State.start_memc (d : Desc) (s : State) : (State.start d s).memc = s.memc := by
  unfold State.start
  repeat' (first | rfl | (simp; done) | split | dsimp only)
@[simp] theorem State.start_paddock (d : Desc) (s : State) : (State.start d s).paddock = s.paddock := by
  unfold State.start
  repeat' (first | rfl | (simp; done) | split | dsimp only)
@[simp] theorem State.start_dfl (d : Desc) (s : State) : (State.start d s).dfl = s.dfl := by
  unfold State.start
  repeat' (first | rfl | (simp; done) | split | dsimp only)
@[simp] theorem State.start_mbx (d : Desc) (s : State) : (State.start d s).mbx = s.mbx := by
  unfold State.start
  repeat' (first | rfl | (simp; done) | split | dsimp only)
@[simp] theorem State.start_sec (d : Desc) (s : State) : (State.start d s).sec = s.sec := by
  unfold State.start
  repeat' (first | rfl | (simp; done) | split | dsimp only)
@[simp] theorem State.start_cal (d : Desc) (s : State) : (State.start d s).cal = s.cal := by
  unfold State.start
  repeat' (first | rfl | (simp; done) | split | dsimp only)
@[simp] theorem State.start_tally (d : Desc) (s : State) : (State.start d s).tally = s.tally := by
  unfold State.start
  repeat' (first | rfl | (simp; done) | split | dsimp only)
@[simp] theorem State.start_net (d : Desc) (s : State) : (State.start d s).net = s.net := by
  unfold State.start
  repeat' (first | rfl | (simp; done) | split | dsimp only)
@[simp] theorem State.start_bell (d : Desc) (s : State) : (State.start d s).bell = s.bell := by
  unfold State.start
  repeat' (first | rfl | (simp; done) | split | dsimp only)
@[simp] theorem State.start_lay (d : Desc) (s : State) : (State.start d s).lay = s.lay := by
  unfold State.start
  repeat' (first | rfl | (simp; done) | split | dsimp only)
@[simp] theorem State.start_ink (d : Desc) (s : State) : (State.start d s).ink = s.ink := by
  unfold State.start
  repeat' (first | rfl | (simp; done) | split | dsimp only)
@[simp] theorem State.start_jet (d : Desc) (s : State) : (State.start d s).jet = s.jet := by
  unfold State.start
  repeat' (first | rfl | (simp; done) | split | dsimp only)
@[simp] theorem State.start_link (d : Desc) (s : State) : (State.start d s).link = s.link := by
  unfold State.start
  repeat' (first | rfl | (simp; done) | split | dsimp only)
@[simp] theorem State.start_nozzle (d : Desc) (s : State) : (State.start d s).nozzle = s.nozzle := by
  unfold State.start
  repeat' (first | rfl | (simp; done) | split | dsimp only)
@[simp] theorem State.start_see (d : Desc) (s : State) : (State.start d s).see = s.see := by
  unfold State.start
  repeat' (first | rfl | (simp; done) | split | dsimp only)
@[simp] theorem State.start_hold (d : Desc) (s : State) : (State.start d s).hold = s.hold := by
  unfold State.start
  repeat' (first | rfl | (simp; done) | split | dsimp only)
@[simp] theorem State.start_freeCount (d : Desc) (s : State) : (State.start d s).freeCount = s.freeCount := by
  unfold State.start
  repeat' (first | rfl | (simp; done) | split | dsimp only)
@[simp] theorem State.start_out (d : Desc) (s : State) : (State.start d s).out = s.out := by
  unfold State.start
  repeat' (first | rfl | (simp; done) | split | dsimp only)
@[simp] theorem State.start_pending (d : Desc) (s : State) : (State.start d s).pending = s.pending := by
  unfold State.start
  repeat' (first | rfl | (simp; done) | split | dsimp only)

/-! ### retire -/

@[simp] theorem State.retire_now (d : Desc) (s : State) : (State.retire d s).now = s.now := by
  unfold State.retire
  repeat' (first | rfl | (simp; done) | split | dsimp only)
@[simp] theorem State.retire_regs (d : Desc) (s : State) : (State.retire d s).regs = s.regs := by
  unfold State.retire
  repeat' (first | rfl | (simp; done) | split | dsimp only)
@[simp] theorem State.retire_sys (d : Desc) (s : State) : (State.retire d s).sys = s.sys := by
  unfold State.retire
  repeat' (first | rfl | (simp; done) | split | dsimp only)
@[simp] theorem State.retire_fold (d : Desc) (s : State) : (State.retire d s).fold = s.fold := by
  unfold State.retire
  repeat' (first | rfl | (simp; done) | split | dsimp only)
@[simp] theorem State.retire_crook (d : Desc) (s : State) : (State.retire d s).crook = s.crook := by
  unfold State.retire
  repeat' (first | rfl | (simp; done) | split | dsimp only)
@[simp] theorem State.retire_power (d : Desc) (s : State) : (State.retire d s).power = s.power := by
  unfold State.retire
  repeat' (first | rfl | (simp; done) | split | dsimp only)
@[simp] theorem State.retire_therm (d : Desc) (s : State) : (State.retire d s).therm = s.therm := by
  unfold State.retire
  repeat' (first | rfl | (simp; done) | split | dsimp only)
@[simp] theorem State.retire_memc (d : Desc) (s : State) : (State.retire d s).memc = s.memc := by
  unfold State.retire
  repeat' (first | rfl | (simp; done) | split | dsimp only)
@[simp] theorem State.retire_paddock (d : Desc) (s : State) : (State.retire d s).paddock = s.paddock := by
  unfold State.retire
  repeat' (first | rfl | (simp; done) | split | dsimp only)
@[simp] theorem State.retire_dfl (d : Desc) (s : State) : (State.retire d s).dfl = s.dfl := by
  unfold State.retire
  repeat' (first | rfl | (simp; done) | split | dsimp only)
@[simp] theorem State.retire_mbx (d : Desc) (s : State) : (State.retire d s).mbx = s.mbx := by
  unfold State.retire
  repeat' (first | rfl | (simp; done) | split | dsimp only)
@[simp] theorem State.retire_sec (d : Desc) (s : State) : (State.retire d s).sec = s.sec := by
  unfold State.retire
  repeat' (first | rfl | (simp; done) | split | dsimp only)
@[simp] theorem State.retire_cal (d : Desc) (s : State) : (State.retire d s).cal = s.cal := by
  unfold State.retire
  repeat' (first | rfl | (simp; done) | split | dsimp only)
@[simp] theorem State.retire_tally (d : Desc) (s : State) : (State.retire d s).tally = s.tally := by
  unfold State.retire
  repeat' (first | rfl | (simp; done) | split | dsimp only)
@[simp] theorem State.retire_net (d : Desc) (s : State) : (State.retire d s).net = s.net := by
  unfold State.retire
  repeat' (first | rfl | (simp; done) | split | dsimp only)
@[simp] theorem State.retire_bell (d : Desc) (s : State) : (State.retire d s).bell = s.bell := by
  unfold State.retire
  repeat' (first | rfl | (simp; done) | split | dsimp only)
@[simp] theorem State.retire_lay (d : Desc) (s : State) : (State.retire d s).lay = s.lay := by
  unfold State.retire
  repeat' (first | rfl | (simp; done) | split | dsimp only)
@[simp] theorem State.retire_ink (d : Desc) (s : State) : (State.retire d s).ink = s.ink := by
  unfold State.retire
  repeat' (first | rfl | (simp; done) | split | dsimp only)
@[simp] theorem State.retire_jet (d : Desc) (s : State) : (State.retire d s).jet = s.jet := by
  unfold State.retire
  repeat' (first | rfl | (simp; done) | split | dsimp only)
@[simp] theorem State.retire_link (d : Desc) (s : State) : (State.retire d s).link = s.link := by
  unfold State.retire
  repeat' (first | rfl | (simp; done) | split | dsimp only)
@[simp] theorem State.retire_nozzle (d : Desc) (s : State) : (State.retire d s).nozzle = s.nozzle := by
  unfold State.retire
  repeat' (first | rfl | (simp; done) | split | dsimp only)
@[simp] theorem State.retire_see (d : Desc) (s : State) : (State.retire d s).see = s.see := by
  unfold State.retire
  repeat' (first | rfl | (simp; done) | split | dsimp only)
@[simp] theorem State.retire_hold (d : Desc) (s : State) : (State.retire d s).hold = s.hold := by
  unfold State.retire
  repeat' (first | rfl | (simp; done) | split | dsimp only)
@[simp] theorem State.retire_freeCount (d : Desc) (s : State) : (State.retire d s).freeCount = s.freeCount := by
  unfold State.retire
  repeat' (first | rfl | (simp; done) | split | dsimp only)
@[simp] theorem State.retire_out (d : Desc) (s : State) : (State.retire d s).out = s.out := by
  unfold State.retire
  repeat' (first | rfl | (simp; done) | split | dsimp only)
@[simp] theorem State.retire_pending (d : Desc) (s : State) : (State.retire d s).pending = s.pending := by
  unfold State.retire
  repeat' (first | rfl | (simp; done) | split | dsimp only)

/-! ### completeAs -/

@[simp] theorem State.completeAs_now (d : Desc) (status result : Nat) (final : Bool) (s : State) : (State.completeAs d status result final s).now = s.now := by
  unfold State.completeAs
  repeat' (first | rfl | (simp; done) | split | dsimp only)
@[simp] theorem State.completeAs_regs (d : Desc) (status result : Nat) (final : Bool) (s : State) : (State.completeAs d status result final s).regs = s.regs := by
  unfold State.completeAs
  repeat' (first | rfl | (simp; done) | split | dsimp only)
@[simp] theorem State.completeAs_sys (d : Desc) (status result : Nat) (final : Bool) (s : State) : (State.completeAs d status result final s).sys = s.sys := by
  unfold State.completeAs
  repeat' (first | rfl | (simp; done) | split | dsimp only)
@[simp] theorem State.completeAs_fold (d : Desc) (status result : Nat) (final : Bool) (s : State) : (State.completeAs d status result final s).fold = s.fold := by
  unfold State.completeAs
  repeat' (first | rfl | (simp; done) | split | dsimp only)
@[simp] theorem State.completeAs_crook (d : Desc) (status result : Nat) (final : Bool) (s : State) : (State.completeAs d status result final s).crook = s.crook := by
  unfold State.completeAs
  repeat' (first | rfl | (simp; done) | split | dsimp only)
@[simp] theorem State.completeAs_power (d : Desc) (status result : Nat) (final : Bool) (s : State) : (State.completeAs d status result final s).power = s.power := by
  unfold State.completeAs
  repeat' (first | rfl | (simp; done) | split | dsimp only)
@[simp] theorem State.completeAs_therm (d : Desc) (status result : Nat) (final : Bool) (s : State) : (State.completeAs d status result final s).therm = s.therm := by
  unfold State.completeAs
  repeat' (first | rfl | (simp; done) | split | dsimp only)
@[simp] theorem State.completeAs_memc (d : Desc) (status result : Nat) (final : Bool) (s : State) : (State.completeAs d status result final s).memc = s.memc := by
  unfold State.completeAs
  repeat' (first | rfl | (simp; done) | split | dsimp only)
@[simp] theorem State.completeAs_paddock (d : Desc) (status result : Nat) (final : Bool) (s : State) : (State.completeAs d status result final s).paddock = s.paddock := by
  unfold State.completeAs
  repeat' (first | rfl | (simp; done) | split | dsimp only)
@[simp] theorem State.completeAs_dfl (d : Desc) (status result : Nat) (final : Bool) (s : State) : (State.completeAs d status result final s).dfl = s.dfl := by
  unfold State.completeAs
  repeat' (first | rfl | (simp; done) | split | dsimp only)
@[simp] theorem State.completeAs_mbx (d : Desc) (status result : Nat) (final : Bool) (s : State) : (State.completeAs d status result final s).mbx = s.mbx := by
  unfold State.completeAs
  repeat' (first | rfl | (simp; done) | split | dsimp only)
@[simp] theorem State.completeAs_sec (d : Desc) (status result : Nat) (final : Bool) (s : State) : (State.completeAs d status result final s).sec = s.sec := by
  unfold State.completeAs
  repeat' (first | rfl | (simp; done) | split | dsimp only)
@[simp] theorem State.completeAs_cal (d : Desc) (status result : Nat) (final : Bool) (s : State) : (State.completeAs d status result final s).cal = s.cal := by
  unfold State.completeAs
  repeat' (first | rfl | (simp; done) | split | dsimp only)
@[simp] theorem State.completeAs_tally (d : Desc) (status result : Nat) (final : Bool) (s : State) : (State.completeAs d status result final s).tally = s.tally := by
  unfold State.completeAs
  repeat' (first | rfl | (simp; done) | split | dsimp only)
@[simp] theorem State.completeAs_net (d : Desc) (status result : Nat) (final : Bool) (s : State) : (State.completeAs d status result final s).net = s.net := by
  unfold State.completeAs
  repeat' (first | rfl | (simp; done) | split | dsimp only)
@[simp] theorem State.completeAs_bell (d : Desc) (status result : Nat) (final : Bool) (s : State) : (State.completeAs d status result final s).bell = s.bell := by
  unfold State.completeAs
  repeat' (first | rfl | (simp; done) | split | dsimp only)
@[simp] theorem State.completeAs_lay (d : Desc) (status result : Nat) (final : Bool) (s : State) : (State.completeAs d status result final s).lay = s.lay := by
  unfold State.completeAs
  repeat' (first | rfl | (simp; done) | split | dsimp only)
@[simp] theorem State.completeAs_ink (d : Desc) (status result : Nat) (final : Bool) (s : State) : (State.completeAs d status result final s).ink = s.ink := by
  unfold State.completeAs
  repeat' (first | rfl | (simp; done) | split | dsimp only)
@[simp] theorem State.completeAs_jet (d : Desc) (status result : Nat) (final : Bool) (s : State) : (State.completeAs d status result final s).jet = s.jet := by
  unfold State.completeAs
  repeat' (first | rfl | (simp; done) | split | dsimp only)
@[simp] theorem State.completeAs_link (d : Desc) (status result : Nat) (final : Bool) (s : State) : (State.completeAs d status result final s).link = s.link := by
  unfold State.completeAs
  repeat' (first | rfl | (simp; done) | split | dsimp only)
@[simp] theorem State.completeAs_nozzle (d : Desc) (status result : Nat) (final : Bool) (s : State) : (State.completeAs d status result final s).nozzle = s.nozzle := by
  unfold State.completeAs
  repeat' (first | rfl | (simp; done) | split | dsimp only)
@[simp] theorem State.completeAs_see (d : Desc) (status result : Nat) (final : Bool) (s : State) : (State.completeAs d status result final s).see = s.see := by
  unfold State.completeAs
  repeat' (first | rfl | (simp; done) | split | dsimp only)
@[simp] theorem State.completeAs_hold (d : Desc) (status result : Nat) (final : Bool) (s : State) : (State.completeAs d status result final s).hold = s.hold := by
  unfold State.completeAs
  repeat' (first | rfl | (simp; done) | split | dsimp only)
@[simp] theorem State.completeAs_freeCount (d : Desc) (status result : Nat) (final : Bool) (s : State) : (State.completeAs d status result final s).freeCount = s.freeCount := by
  unfold State.completeAs
  repeat' (first | rfl | (simp; done) | split | dsimp only)
@[simp] theorem State.completeAs_out (d : Desc) (status result : Nat) (final : Bool) (s : State) : (State.completeAs d status result final s).out = s.out := by
  unfold State.completeAs
  repeat' (first | rfl | (simp; done) | split | dsimp only)
@[simp] theorem State.completeAs_pending (d : Desc) (status result : Nat) (final : Bool) (s : State) : (State.completeAs d status result final s).pending = s.pending := by
  unfold State.completeAs
  repeat' (first | rfl | (simp; done) | split | dsimp only)

/-! ### complete -/

@[simp] theorem State.complete_now (d : Desc) (status result : Nat) (s : State) : (State.complete d status result s).now = s.now := by
  unfold State.complete
  repeat' (first | rfl | (simp; done) | split | dsimp only)
@[simp] theorem State.complete_regs (d : Desc) (status result : Nat) (s : State) : (State.complete d status result s).regs = s.regs := by
  unfold State.complete
  repeat' (first | rfl | (simp; done) | split | dsimp only)
@[simp] theorem State.complete_sys (d : Desc) (status result : Nat) (s : State) : (State.complete d status result s).sys = s.sys := by
  unfold State.complete
  repeat' (first | rfl | (simp; done) | split | dsimp only)
@[simp] theorem State.complete_fold (d : Desc) (status result : Nat) (s : State) : (State.complete d status result s).fold = s.fold := by
  unfold State.complete
  repeat' (first | rfl | (simp; done) | split | dsimp only)
@[simp] theorem State.complete_crook (d : Desc) (status result : Nat) (s : State) : (State.complete d status result s).crook = s.crook := by
  unfold State.complete
  repeat' (first | rfl | (simp; done) | split | dsimp only)
@[simp] theorem State.complete_power (d : Desc) (status result : Nat) (s : State) : (State.complete d status result s).power = s.power := by
  unfold State.complete
  repeat' (first | rfl | (simp; done) | split | dsimp only)
@[simp] theorem State.complete_therm (d : Desc) (status result : Nat) (s : State) : (State.complete d status result s).therm = s.therm := by
  unfold State.complete
  repeat' (first | rfl | (simp; done) | split | dsimp only)
@[simp] theorem State.complete_memc (d : Desc) (status result : Nat) (s : State) : (State.complete d status result s).memc = s.memc := by
  unfold State.complete
  repeat' (first | rfl | (simp; done) | split | dsimp only)
@[simp] theorem State.complete_paddock (d : Desc) (status result : Nat) (s : State) : (State.complete d status result s).paddock = s.paddock := by
  unfold State.complete
  repeat' (first | rfl | (simp; done) | split | dsimp only)
@[simp] theorem State.complete_dfl (d : Desc) (status result : Nat) (s : State) : (State.complete d status result s).dfl = s.dfl := by
  unfold State.complete
  repeat' (first | rfl | (simp; done) | split | dsimp only)
@[simp] theorem State.complete_mbx (d : Desc) (status result : Nat) (s : State) : (State.complete d status result s).mbx = s.mbx := by
  unfold State.complete
  repeat' (first | rfl | (simp; done) | split | dsimp only)
@[simp] theorem State.complete_sec (d : Desc) (status result : Nat) (s : State) : (State.complete d status result s).sec = s.sec := by
  unfold State.complete
  repeat' (first | rfl | (simp; done) | split | dsimp only)
@[simp] theorem State.complete_cal (d : Desc) (status result : Nat) (s : State) : (State.complete d status result s).cal = s.cal := by
  unfold State.complete
  repeat' (first | rfl | (simp; done) | split | dsimp only)
@[simp] theorem State.complete_tally (d : Desc) (status result : Nat) (s : State) : (State.complete d status result s).tally = s.tally := by
  unfold State.complete
  repeat' (first | rfl | (simp; done) | split | dsimp only)
@[simp] theorem State.complete_net (d : Desc) (status result : Nat) (s : State) : (State.complete d status result s).net = s.net := by
  unfold State.complete
  repeat' (first | rfl | (simp; done) | split | dsimp only)
@[simp] theorem State.complete_bell (d : Desc) (status result : Nat) (s : State) : (State.complete d status result s).bell = s.bell := by
  unfold State.complete
  repeat' (first | rfl | (simp; done) | split | dsimp only)
@[simp] theorem State.complete_lay (d : Desc) (status result : Nat) (s : State) : (State.complete d status result s).lay = s.lay := by
  unfold State.complete
  repeat' (first | rfl | (simp; done) | split | dsimp only)
@[simp] theorem State.complete_ink (d : Desc) (status result : Nat) (s : State) : (State.complete d status result s).ink = s.ink := by
  unfold State.complete
  repeat' (first | rfl | (simp; done) | split | dsimp only)
@[simp] theorem State.complete_jet (d : Desc) (status result : Nat) (s : State) : (State.complete d status result s).jet = s.jet := by
  unfold State.complete
  repeat' (first | rfl | (simp; done) | split | dsimp only)
@[simp] theorem State.complete_link (d : Desc) (status result : Nat) (s : State) : (State.complete d status result s).link = s.link := by
  unfold State.complete
  repeat' (first | rfl | (simp; done) | split | dsimp only)
@[simp] theorem State.complete_nozzle (d : Desc) (status result : Nat) (s : State) : (State.complete d status result s).nozzle = s.nozzle := by
  unfold State.complete
  repeat' (first | rfl | (simp; done) | split | dsimp only)
@[simp] theorem State.complete_see (d : Desc) (status result : Nat) (s : State) : (State.complete d status result s).see = s.see := by
  unfold State.complete
  repeat' (first | rfl | (simp; done) | split | dsimp only)
@[simp] theorem State.complete_hold (d : Desc) (status result : Nat) (s : State) : (State.complete d status result s).hold = s.hold := by
  unfold State.complete
  repeat' (first | rfl | (simp; done) | split | dsimp only)
@[simp] theorem State.complete_freeCount (d : Desc) (status result : Nat) (s : State) : (State.complete d status result s).freeCount = s.freeCount := by
  unfold State.complete
  repeat' (first | rfl | (simp; done) | split | dsimp only)
@[simp] theorem State.complete_out (d : Desc) (status result : Nat) (s : State) : (State.complete d status result s).out = s.out := by
  unfold State.complete
  repeat' (first | rfl | (simp; done) | split | dsimp only)
@[simp] theorem State.complete_pending (d : Desc) (status result : Nat) (s : State) : (State.complete d status result s).pending = s.pending := by
  unfold State.complete
  repeat' (first | rfl | (simp; done) | split | dsimp only)

/-! ### completeAt -/

@[simp] theorem State.completeAt_now (order status result : Nat) (s : State) : (State.completeAt order status result s).now = s.now := by
  unfold State.completeAt
  repeat' (first | rfl | (simp; done) | split | dsimp only)
@[simp] theorem State.completeAt_regs (order status result : Nat) (s : State) : (State.completeAt order status result s).regs = s.regs := by
  unfold State.completeAt
  repeat' (first | rfl | (simp; done) | split | dsimp only)
@[simp] theorem State.completeAt_sys (order status result : Nat) (s : State) : (State.completeAt order status result s).sys = s.sys := by
  unfold State.completeAt
  repeat' (first | rfl | (simp; done) | split | dsimp only)
@[simp] theorem State.completeAt_fold (order status result : Nat) (s : State) : (State.completeAt order status result s).fold = s.fold := by
  unfold State.completeAt
  repeat' (first | rfl | (simp; done) | split | dsimp only)
@[simp] theorem State.completeAt_crook (order status result : Nat) (s : State) : (State.completeAt order status result s).crook = s.crook := by
  unfold State.completeAt
  repeat' (first | rfl | (simp; done) | split | dsimp only)
@[simp] theorem State.completeAt_power (order status result : Nat) (s : State) : (State.completeAt order status result s).power = s.power := by
  unfold State.completeAt
  repeat' (first | rfl | (simp; done) | split | dsimp only)
@[simp] theorem State.completeAt_therm (order status result : Nat) (s : State) : (State.completeAt order status result s).therm = s.therm := by
  unfold State.completeAt
  repeat' (first | rfl | (simp; done) | split | dsimp only)
@[simp] theorem State.completeAt_memc (order status result : Nat) (s : State) : (State.completeAt order status result s).memc = s.memc := by
  unfold State.completeAt
  repeat' (first | rfl | (simp; done) | split | dsimp only)
@[simp] theorem State.completeAt_paddock (order status result : Nat) (s : State) : (State.completeAt order status result s).paddock = s.paddock := by
  unfold State.completeAt
  repeat' (first | rfl | (simp; done) | split | dsimp only)
@[simp] theorem State.completeAt_dfl (order status result : Nat) (s : State) : (State.completeAt order status result s).dfl = s.dfl := by
  unfold State.completeAt
  repeat' (first | rfl | (simp; done) | split | dsimp only)
@[simp] theorem State.completeAt_mbx (order status result : Nat) (s : State) : (State.completeAt order status result s).mbx = s.mbx := by
  unfold State.completeAt
  repeat' (first | rfl | (simp; done) | split | dsimp only)
@[simp] theorem State.completeAt_sec (order status result : Nat) (s : State) : (State.completeAt order status result s).sec = s.sec := by
  unfold State.completeAt
  repeat' (first | rfl | (simp; done) | split | dsimp only)
@[simp] theorem State.completeAt_cal (order status result : Nat) (s : State) : (State.completeAt order status result s).cal = s.cal := by
  unfold State.completeAt
  repeat' (first | rfl | (simp; done) | split | dsimp only)
@[simp] theorem State.completeAt_tally (order status result : Nat) (s : State) : (State.completeAt order status result s).tally = s.tally := by
  unfold State.completeAt
  repeat' (first | rfl | (simp; done) | split | dsimp only)
@[simp] theorem State.completeAt_net (order status result : Nat) (s : State) : (State.completeAt order status result s).net = s.net := by
  unfold State.completeAt
  repeat' (first | rfl | (simp; done) | split | dsimp only)
@[simp] theorem State.completeAt_bell (order status result : Nat) (s : State) : (State.completeAt order status result s).bell = s.bell := by
  unfold State.completeAt
  repeat' (first | rfl | (simp; done) | split | dsimp only)
@[simp] theorem State.completeAt_lay (order status result : Nat) (s : State) : (State.completeAt order status result s).lay = s.lay := by
  unfold State.completeAt
  repeat' (first | rfl | (simp; done) | split | dsimp only)
@[simp] theorem State.completeAt_ink (order status result : Nat) (s : State) : (State.completeAt order status result s).ink = s.ink := by
  unfold State.completeAt
  repeat' (first | rfl | (simp; done) | split | dsimp only)
@[simp] theorem State.completeAt_jet (order status result : Nat) (s : State) : (State.completeAt order status result s).jet = s.jet := by
  unfold State.completeAt
  repeat' (first | rfl | (simp; done) | split | dsimp only)
@[simp] theorem State.completeAt_link (order status result : Nat) (s : State) : (State.completeAt order status result s).link = s.link := by
  unfold State.completeAt
  repeat' (first | rfl | (simp; done) | split | dsimp only)
@[simp] theorem State.completeAt_nozzle (order status result : Nat) (s : State) : (State.completeAt order status result s).nozzle = s.nozzle := by
  unfold State.completeAt
  repeat' (first | rfl | (simp; done) | split | dsimp only)
@[simp] theorem State.completeAt_see (order status result : Nat) (s : State) : (State.completeAt order status result s).see = s.see := by
  unfold State.completeAt
  repeat' (first | rfl | (simp; done) | split | dsimp only)
@[simp] theorem State.completeAt_hold (order status result : Nat) (s : State) : (State.completeAt order status result s).hold = s.hold := by
  unfold State.completeAt
  repeat' (first | rfl | (simp; done) | split | dsimp only)
@[simp] theorem State.completeAt_freeCount (order status result : Nat) (s : State) : (State.completeAt order status result s).freeCount = s.freeCount := by
  unfold State.completeAt
  repeat' (first | rfl | (simp; done) | split | dsimp only)
@[simp] theorem State.completeAt_out (order status result : Nat) (s : State) : (State.completeAt order status result s).out = s.out := by
  unfold State.completeAt
  repeat' (first | rfl | (simp; done) | split | dsimp only)
@[simp] theorem State.completeAt_pending (order status result : Nat) (s : State) : (State.completeAt order status result s).pending = s.pending := by
  unfold State.completeAt
  repeat' (first | rfl | (simp; done) | split | dsimp only)

/-! ### release -/

@[simp] theorem State.release_now (order : Nat) (s : State) : (State.release order s).now = s.now := by
  unfold State.release
  repeat' (first | rfl | (simp; done) | split | dsimp only)
@[simp] theorem State.release_regs (order : Nat) (s : State) : (State.release order s).regs = s.regs := by
  unfold State.release
  repeat' (first | rfl | (simp; done) | split | dsimp only)
@[simp] theorem State.release_sys (order : Nat) (s : State) : (State.release order s).sys = s.sys := by
  unfold State.release
  repeat' (first | rfl | (simp; done) | split | dsimp only)
@[simp] theorem State.release_fold (order : Nat) (s : State) : (State.release order s).fold = s.fold := by
  unfold State.release
  repeat' (first | rfl | (simp; done) | split | dsimp only)
@[simp] theorem State.release_crook (order : Nat) (s : State) : (State.release order s).crook = s.crook := by
  unfold State.release
  repeat' (first | rfl | (simp; done) | split | dsimp only)
@[simp] theorem State.release_power (order : Nat) (s : State) : (State.release order s).power = s.power := by
  unfold State.release
  repeat' (first | rfl | (simp; done) | split | dsimp only)
@[simp] theorem State.release_therm (order : Nat) (s : State) : (State.release order s).therm = s.therm := by
  unfold State.release
  repeat' (first | rfl | (simp; done) | split | dsimp only)
@[simp] theorem State.release_memc (order : Nat) (s : State) : (State.release order s).memc = s.memc := by
  unfold State.release
  repeat' (first | rfl | (simp; done) | split | dsimp only)
@[simp] theorem State.release_paddock (order : Nat) (s : State) : (State.release order s).paddock = s.paddock := by
  unfold State.release
  repeat' (first | rfl | (simp; done) | split | dsimp only)
@[simp] theorem State.release_dfl (order : Nat) (s : State) : (State.release order s).dfl = s.dfl := by
  unfold State.release
  repeat' (first | rfl | (simp; done) | split | dsimp only)
@[simp] theorem State.release_mbx (order : Nat) (s : State) : (State.release order s).mbx = s.mbx := by
  unfold State.release
  repeat' (first | rfl | (simp; done) | split | dsimp only)
@[simp] theorem State.release_sec (order : Nat) (s : State) : (State.release order s).sec = s.sec := by
  unfold State.release
  repeat' (first | rfl | (simp; done) | split | dsimp only)
@[simp] theorem State.release_cal (order : Nat) (s : State) : (State.release order s).cal = s.cal := by
  unfold State.release
  repeat' (first | rfl | (simp; done) | split | dsimp only)
@[simp] theorem State.release_tally (order : Nat) (s : State) : (State.release order s).tally = s.tally := by
  unfold State.release
  repeat' (first | rfl | (simp; done) | split | dsimp only)
@[simp] theorem State.release_net (order : Nat) (s : State) : (State.release order s).net = s.net := by
  unfold State.release
  repeat' (first | rfl | (simp; done) | split | dsimp only)
@[simp] theorem State.release_bell (order : Nat) (s : State) : (State.release order s).bell = s.bell := by
  unfold State.release
  repeat' (first | rfl | (simp; done) | split | dsimp only)
@[simp] theorem State.release_lay (order : Nat) (s : State) : (State.release order s).lay = s.lay := by
  unfold State.release
  repeat' (first | rfl | (simp; done) | split | dsimp only)
@[simp] theorem State.release_ink (order : Nat) (s : State) : (State.release order s).ink = s.ink := by
  unfold State.release
  repeat' (first | rfl | (simp; done) | split | dsimp only)
@[simp] theorem State.release_jet (order : Nat) (s : State) : (State.release order s).jet = s.jet := by
  unfold State.release
  repeat' (first | rfl | (simp; done) | split | dsimp only)
@[simp] theorem State.release_link (order : Nat) (s : State) : (State.release order s).link = s.link := by
  unfold State.release
  repeat' (first | rfl | (simp; done) | split | dsimp only)
@[simp] theorem State.release_nozzle (order : Nat) (s : State) : (State.release order s).nozzle = s.nozzle := by
  unfold State.release
  repeat' (first | rfl | (simp; done) | split | dsimp only)
@[simp] theorem State.release_see (order : Nat) (s : State) : (State.release order s).see = s.see := by
  unfold State.release
  repeat' (first | rfl | (simp; done) | split | dsimp only)
@[simp] theorem State.release_hold (order : Nat) (s : State) : (State.release order s).hold = s.hold := by
  unfold State.release
  repeat' (first | rfl | (simp; done) | split | dsimp only)
@[simp] theorem State.release_freeCount (order : Nat) (s : State) : (State.release order s).freeCount = s.freeCount := by
  unfold State.release
  repeat' (first | rfl | (simp; done) | split | dsimp only)
@[simp] theorem State.release_out (order : Nat) (s : State) : (State.release order s).out = s.out := by
  unfold State.release
  repeat' (first | rfl | (simp; done) | split | dsimp only)
@[simp] theorem State.release_pending (order : Nat) (s : State) : (State.release order s).pending = s.pending := by
  unfold State.release
  repeat' (first | rfl | (simp; done) | split | dsimp only)

/-! ### padFreeId -/

@[simp] theorem State.padFreeId_now (id : Nat) (s : State) : (State.padFreeId id s).now = s.now := by
  unfold State.padFreeId
  repeat' (first | rfl | (simp; done) | split | dsimp only)
@[simp] theorem State.padFreeId_regs (id : Nat) (s : State) : (State.padFreeId id s).regs = s.regs := by
  unfold State.padFreeId
  repeat' (first | rfl | (simp; done) | split | dsimp only)
@[simp] theorem State.padFreeId_sys (id : Nat) (s : State) : (State.padFreeId id s).sys = s.sys := by
  unfold State.padFreeId
  repeat' (first | rfl | (simp; done) | split | dsimp only)
@[simp] theorem State.padFreeId_hif (id : Nat) (s : State) : (State.padFreeId id s).hif = s.hif := by
  unfold State.padFreeId
  repeat' (first | rfl | (simp; done) | split | dsimp only)
@[simp] theorem State.padFreeId_fold (id : Nat) (s : State) : (State.padFreeId id s).fold = s.fold := by
  unfold State.padFreeId
  repeat' (first | rfl | (simp; done) | split | dsimp only)
@[simp] theorem State.padFreeId_crook (id : Nat) (s : State) : (State.padFreeId id s).crook = s.crook := by
  unfold State.padFreeId
  repeat' (first | rfl | (simp; done) | split | dsimp only)
@[simp] theorem State.padFreeId_power (id : Nat) (s : State) : (State.padFreeId id s).power = s.power := by
  unfold State.padFreeId
  repeat' (first | rfl | (simp; done) | split | dsimp only)
@[simp] theorem State.padFreeId_therm (id : Nat) (s : State) : (State.padFreeId id s).therm = s.therm := by
  unfold State.padFreeId
  repeat' (first | rfl | (simp; done) | split | dsimp only)
@[simp] theorem State.padFreeId_memc (id : Nat) (s : State) : (State.padFreeId id s).memc = s.memc := by
  unfold State.padFreeId
  repeat' (first | rfl | (simp; done) | split | dsimp only)
@[simp] theorem State.padFreeId_dfl (id : Nat) (s : State) : (State.padFreeId id s).dfl = s.dfl := by
  unfold State.padFreeId
  repeat' (first | rfl | (simp; done) | split | dsimp only)
@[simp] theorem State.padFreeId_mbx (id : Nat) (s : State) : (State.padFreeId id s).mbx = s.mbx := by
  unfold State.padFreeId
  repeat' (first | rfl | (simp; done) | split | dsimp only)
@[simp] theorem State.padFreeId_sec (id : Nat) (s : State) : (State.padFreeId id s).sec = s.sec := by
  unfold State.padFreeId
  repeat' (first | rfl | (simp; done) | split | dsimp only)
@[simp] theorem State.padFreeId_cal (id : Nat) (s : State) : (State.padFreeId id s).cal = s.cal := by
  unfold State.padFreeId
  repeat' (first | rfl | (simp; done) | split | dsimp only)
@[simp] theorem State.padFreeId_tally (id : Nat) (s : State) : (State.padFreeId id s).tally = s.tally := by
  unfold State.padFreeId
  repeat' (first | rfl | (simp; done) | split | dsimp only)
@[simp] theorem State.padFreeId_net (id : Nat) (s : State) : (State.padFreeId id s).net = s.net := by
  unfold State.padFreeId
  repeat' (first | rfl | (simp; done) | split | dsimp only)
@[simp] theorem State.padFreeId_bell (id : Nat) (s : State) : (State.padFreeId id s).bell = s.bell := by
  unfold State.padFreeId
  repeat' (first | rfl | (simp; done) | split | dsimp only)
@[simp] theorem State.padFreeId_lay (id : Nat) (s : State) : (State.padFreeId id s).lay = s.lay := by
  unfold State.padFreeId
  repeat' (first | rfl | (simp; done) | split | dsimp only)
@[simp] theorem State.padFreeId_ink (id : Nat) (s : State) : (State.padFreeId id s).ink = s.ink := by
  unfold State.padFreeId
  repeat' (first | rfl | (simp; done) | split | dsimp only)
@[simp] theorem State.padFreeId_jet (id : Nat) (s : State) : (State.padFreeId id s).jet = s.jet := by
  unfold State.padFreeId
  repeat' (first | rfl | (simp; done) | split | dsimp only)
@[simp] theorem State.padFreeId_link (id : Nat) (s : State) : (State.padFreeId id s).link = s.link := by
  unfold State.padFreeId
  repeat' (first | rfl | (simp; done) | split | dsimp only)
@[simp] theorem State.padFreeId_nozzle (id : Nat) (s : State) : (State.padFreeId id s).nozzle = s.nozzle := by
  unfold State.padFreeId
  repeat' (first | rfl | (simp; done) | split | dsimp only)
@[simp] theorem State.padFreeId_see (id : Nat) (s : State) : (State.padFreeId id s).see = s.see := by
  unfold State.padFreeId
  repeat' (first | rfl | (simp; done) | split | dsimp only)
@[simp] theorem State.padFreeId_hold (id : Nat) (s : State) : (State.padFreeId id s).hold = s.hold := by
  unfold State.padFreeId
  repeat' (first | rfl | (simp; done) | split | dsimp only)
@[simp] theorem State.padFreeId_out (id : Nat) (s : State) : (State.padFreeId id s).out = s.out := by
  unfold State.padFreeId
  repeat' (first | rfl | (simp; done) | split | dsimp only)
@[simp] theorem State.padFreeId_pending (id : Nat) (s : State) : (State.padFreeId id s).pending = s.pending := by
  unfold State.padFreeId
  repeat' (first | rfl | (simp; done) | split | dsimp only)

/-! ### refuseDomain -/

@[simp] theorem State.refuseDomain_now (cause d : Nat) (s : State) : (State.refuseDomain cause d s).now = s.now := by
  unfold State.refuseDomain
  repeat' (first | rfl | (simp; done) | split | dsimp only)
@[simp] theorem State.refuseDomain_fold (cause d : Nat) (s : State) : (State.refuseDomain cause d s).fold = s.fold := by
  unfold State.refuseDomain
  repeat' (first | rfl | (simp; done) | split | dsimp only)
@[simp] theorem State.refuseDomain_crook (cause d : Nat) (s : State) : (State.refuseDomain cause d s).crook = s.crook := by
  unfold State.refuseDomain
  repeat' (first | rfl | (simp; done) | split | dsimp only)
@[simp] theorem State.refuseDomain_therm (cause d : Nat) (s : State) : (State.refuseDomain cause d s).therm = s.therm := by
  unfold State.refuseDomain
  repeat' (first | rfl | (simp; done) | split | dsimp only)
@[simp] theorem State.refuseDomain_memc (cause d : Nat) (s : State) : (State.refuseDomain cause d s).memc = s.memc := by
  unfold State.refuseDomain
  repeat' (first | rfl | (simp; done) | split | dsimp only)
@[simp] theorem State.refuseDomain_paddock (cause d : Nat) (s : State) : (State.refuseDomain cause d s).paddock = s.paddock := by
  unfold State.refuseDomain
  repeat' (first | rfl | (simp; done) | split | dsimp only)
@[simp] theorem State.refuseDomain_dfl (cause d : Nat) (s : State) : (State.refuseDomain cause d s).dfl = s.dfl := by
  unfold State.refuseDomain
  repeat' (first | rfl | (simp; done) | split | dsimp only)
@[simp] theorem State.refuseDomain_mbx (cause d : Nat) (s : State) : (State.refuseDomain cause d s).mbx = s.mbx := by
  unfold State.refuseDomain
  repeat' (first | rfl | (simp; done) | split | dsimp only)
@[simp] theorem State.refuseDomain_sec (cause d : Nat) (s : State) : (State.refuseDomain cause d s).sec = s.sec := by
  unfold State.refuseDomain
  repeat' (first | rfl | (simp; done) | split | dsimp only)
@[simp] theorem State.refuseDomain_cal (cause d : Nat) (s : State) : (State.refuseDomain cause d s).cal = s.cal := by
  unfold State.refuseDomain
  repeat' (first | rfl | (simp; done) | split | dsimp only)
@[simp] theorem State.refuseDomain_tally (cause d : Nat) (s : State) : (State.refuseDomain cause d s).tally = s.tally := by
  unfold State.refuseDomain
  repeat' (first | rfl | (simp; done) | split | dsimp only)
@[simp] theorem State.refuseDomain_net (cause d : Nat) (s : State) : (State.refuseDomain cause d s).net = s.net := by
  unfold State.refuseDomain
  repeat' (first | rfl | (simp; done) | split | dsimp only)
@[simp] theorem State.refuseDomain_bell (cause d : Nat) (s : State) : (State.refuseDomain cause d s).bell = s.bell := by
  unfold State.refuseDomain
  repeat' (first | rfl | (simp; done) | split | dsimp only)
@[simp] theorem State.refuseDomain_lay (cause d : Nat) (s : State) : (State.refuseDomain cause d s).lay = s.lay := by
  unfold State.refuseDomain
  repeat' (first | rfl | (simp; done) | split | dsimp only)
@[simp] theorem State.refuseDomain_ink (cause d : Nat) (s : State) : (State.refuseDomain cause d s).ink = s.ink := by
  unfold State.refuseDomain
  repeat' (first | rfl | (simp; done) | split | dsimp only)
@[simp] theorem State.refuseDomain_jet (cause d : Nat) (s : State) : (State.refuseDomain cause d s).jet = s.jet := by
  unfold State.refuseDomain
  repeat' (first | rfl | (simp; done) | split | dsimp only)
@[simp] theorem State.refuseDomain_link (cause d : Nat) (s : State) : (State.refuseDomain cause d s).link = s.link := by
  unfold State.refuseDomain
  repeat' (first | rfl | (simp; done) | split | dsimp only)
@[simp] theorem State.refuseDomain_nozzle (cause d : Nat) (s : State) : (State.refuseDomain cause d s).nozzle = s.nozzle := by
  unfold State.refuseDomain
  repeat' (first | rfl | (simp; done) | split | dsimp only)
@[simp] theorem State.refuseDomain_see (cause d : Nat) (s : State) : (State.refuseDomain cause d s).see = s.see := by
  unfold State.refuseDomain
  repeat' (first | rfl | (simp; done) | split | dsimp only)
@[simp] theorem State.refuseDomain_hold (cause d : Nat) (s : State) : (State.refuseDomain cause d s).hold = s.hold := by
  unfold State.refuseDomain
  repeat' (first | rfl | (simp; done) | split | dsimp only)
@[simp] theorem State.refuseDomain_freeCount (cause d : Nat) (s : State) : (State.refuseDomain cause d s).freeCount = s.freeCount := by
  unfold State.refuseDomain
  repeat' (first | rfl | (simp; done) | split | dsimp only)
@[simp] theorem State.refuseDomain_pending (cause d : Nat) (s : State) : (State.refuseDomain cause d s).pending = s.pending := by
  unfold State.refuseDomain
  repeat' (first | rfl | (simp; done) | split | dsimp only)

/-! ### putWord -/

@[simp] theorem State.putWord_now (x : RegSpec) (i data keep : Nat) (s : State) : (State.putWord x i data keep s).now = s.now := by
  unfold State.putWord
  repeat' (first | rfl | (simp; done) | split | dsimp only)
@[simp] theorem State.putWord_hif (x : RegSpec) (i data keep : Nat) (s : State) : (State.putWord x i data keep s).hif = s.hif := by
  unfold State.putWord
  repeat' (first | rfl | (simp; done) | split | dsimp only)
@[simp] theorem State.putWord_fold (x : RegSpec) (i data keep : Nat) (s : State) : (State.putWord x i data keep s).fold = s.fold := by
  unfold State.putWord
  repeat' (first | rfl | (simp; done) | split | dsimp only)
@[simp] theorem State.putWord_crook (x : RegSpec) (i data keep : Nat) (s : State) : (State.putWord x i data keep s).crook = s.crook := by
  unfold State.putWord
  repeat' (first | rfl | (simp; done) | split | dsimp only)
@[simp] theorem State.putWord_power (x : RegSpec) (i data keep : Nat) (s : State) : (State.putWord x i data keep s).power = s.power := by
  unfold State.putWord
  repeat' (first | rfl | (simp; done) | split | dsimp only)
@[simp] theorem State.putWord_therm (x : RegSpec) (i data keep : Nat) (s : State) : (State.putWord x i data keep s).therm = s.therm := by
  unfold State.putWord
  repeat' (first | rfl | (simp; done) | split | dsimp only)
@[simp] theorem State.putWord_memc (x : RegSpec) (i data keep : Nat) (s : State) : (State.putWord x i data keep s).memc = s.memc := by
  unfold State.putWord
  repeat' (first | rfl | (simp; done) | split | dsimp only)
@[simp] theorem State.putWord_paddock (x : RegSpec) (i data keep : Nat) (s : State) : (State.putWord x i data keep s).paddock = s.paddock := by
  unfold State.putWord
  repeat' (first | rfl | (simp; done) | split | dsimp only)
@[simp] theorem State.putWord_dfl (x : RegSpec) (i data keep : Nat) (s : State) : (State.putWord x i data keep s).dfl = s.dfl := by
  unfold State.putWord
  repeat' (first | rfl | (simp; done) | split | dsimp only)
@[simp] theorem State.putWord_mbx (x : RegSpec) (i data keep : Nat) (s : State) : (State.putWord x i data keep s).mbx = s.mbx := by
  unfold State.putWord
  repeat' (first | rfl | (simp; done) | split | dsimp only)
@[simp] theorem State.putWord_sec (x : RegSpec) (i data keep : Nat) (s : State) : (State.putWord x i data keep s).sec = s.sec := by
  unfold State.putWord
  repeat' (first | rfl | (simp; done) | split | dsimp only)
@[simp] theorem State.putWord_cal (x : RegSpec) (i data keep : Nat) (s : State) : (State.putWord x i data keep s).cal = s.cal := by
  unfold State.putWord
  repeat' (first | rfl | (simp; done) | split | dsimp only)
@[simp] theorem State.putWord_tally (x : RegSpec) (i data keep : Nat) (s : State) : (State.putWord x i data keep s).tally = s.tally := by
  unfold State.putWord
  repeat' (first | rfl | (simp; done) | split | dsimp only)
@[simp] theorem State.putWord_net (x : RegSpec) (i data keep : Nat) (s : State) : (State.putWord x i data keep s).net = s.net := by
  unfold State.putWord
  repeat' (first | rfl | (simp; done) | split | dsimp only)
@[simp] theorem State.putWord_bell (x : RegSpec) (i data keep : Nat) (s : State) : (State.putWord x i data keep s).bell = s.bell := by
  unfold State.putWord
  repeat' (first | rfl | (simp; done) | split | dsimp only)
@[simp] theorem State.putWord_lay (x : RegSpec) (i data keep : Nat) (s : State) : (State.putWord x i data keep s).lay = s.lay := by
  unfold State.putWord
  repeat' (first | rfl | (simp; done) | split | dsimp only)
@[simp] theorem State.putWord_ink (x : RegSpec) (i data keep : Nat) (s : State) : (State.putWord x i data keep s).ink = s.ink := by
  unfold State.putWord
  repeat' (first | rfl | (simp; done) | split | dsimp only)
@[simp] theorem State.putWord_jet (x : RegSpec) (i data keep : Nat) (s : State) : (State.putWord x i data keep s).jet = s.jet := by
  unfold State.putWord
  repeat' (first | rfl | (simp; done) | split | dsimp only)
@[simp] theorem State.putWord_link (x : RegSpec) (i data keep : Nat) (s : State) : (State.putWord x i data keep s).link = s.link := by
  unfold State.putWord
  repeat' (first | rfl | (simp; done) | split | dsimp only)
@[simp] theorem State.putWord_nozzle (x : RegSpec) (i data keep : Nat) (s : State) : (State.putWord x i data keep s).nozzle = s.nozzle := by
  unfold State.putWord
  repeat' (first | rfl | (simp; done) | split | dsimp only)
@[simp] theorem State.putWord_see (x : RegSpec) (i data keep : Nat) (s : State) : (State.putWord x i data keep s).see = s.see := by
  unfold State.putWord
  repeat' (first | rfl | (simp; done) | split | dsimp only)
@[simp] theorem State.putWord_hold (x : RegSpec) (i data keep : Nat) (s : State) : (State.putWord x i data keep s).hold = s.hold := by
  unfold State.putWord
  repeat' (first | rfl | (simp; done) | split | dsimp only)
@[simp] theorem State.putWord_freeCount (x : RegSpec) (i data keep : Nat) (s : State) : (State.putWord x i data keep s).freeCount = s.freeCount := by
  unfold State.putWord
  repeat' (first | rfl | (simp; done) | split | dsimp only)
@[simp] theorem State.putWord_out (x : RegSpec) (i data keep : Nat) (s : State) : (State.putWord x i data keep s).out = s.out := by
  unfold State.putWord
  repeat' (first | rfl | (simp; done) | split | dsimp only)
@[simp] theorem State.putWord_pending (x : RegSpec) (i data keep : Nat) (s : State) : (State.putWord x i data keep s).pending = s.pending := by
  unfold State.putWord
  repeat' (first | rfl | (simp; done) | split | dsimp only)

end Sys2Proof.Machine
end

