-- ==== Sys2Proof/Laws/Regs.lean ====
section
/-! SUPPORT. The register file: what is read after a register is set or returns to its reset value, the canonical form, and the bits
of the masks of fields. -/

set_option Elab.async false

namespace Sys2Proof.Machine

/-! ### The file -/

theorem rfGet_rfDel (l : List (Nat × Nat)) (o q : Nat) : rfGet (rfDel l o) q = if q = o then none else rfGet l q := by
  induction l with
  | nil => simp [rfDel, rfGet]
  | cons a l ih =>
    obtain ⟨k, v⟩ := a
    simp only [rfDel]
    split
    · rename_i e
      rw [ih]; subst e
      simp only [rfGet]
      split
      · rfl
      · rename_i e; rw [if_neg (by omega)]
    · simp only [rfGet]
      split
      · rw [if_neg (by omega)]
      · rw [ih]

theorem rfGet_rfPut (l : List (Nat × Nat)) (o v q : Nat) : rfGet (rfPut l o v) q = if q = o then some v else rfGet l q := by
  induction l with
  | nil => simp only [rfPut, rfGet]; split <;> split <;> first | rfl | omega
  | cons a l ih =>
    obtain ⟨k, x⟩ := a
    simp only [rfPut]
    split
    · simp only [rfGet]; (repeat' split) <;> first | rfl | omega
    · split
      · simp only [rfGet]; (repeat' split) <;> first | rfl | omega
      · simp only [rfGet, ih]; (repeat' split) <;> first | rfl | omega

theorem rfSorted_cons (a : Nat × Nat) (l) : rfSorted (a :: l) = true ↔ (∀ b ∈ l, a.1 < b.1) ∧ rfSorted l = true := by
  induction l generalizing a with
  | nil => simp [rfSorted]
  | cons b l ih =>
    simp only [rfSorted, Bool.and_eq_true, decide_eq_true_eq, ih b]
    constructor
    · rintro ⟨h, k, m⟩
      refine ⟨?_, k, m⟩
      intro c hc
      rcases List.mem_cons.1 hc with rfl | hc
      · exact h
      · exact Nat.lt_trans h (k c hc)
    · rintro ⟨h, k, m⟩
      exact ⟨h b (by simp), k, m⟩

theorem mem_of_mem_rfDel (l : List (Nat × Nat)) (o) (b) (h : b ∈ rfDel l o) : b ∈ l := by
  induction l with
  | nil => exact h
  | cons a l ih =>
    obtain ⟨k, v⟩ := a
    simp only [rfDel] at h
    split at h
    · exact List.mem_cons_of_mem _ (ih h)
    · rcases List.mem_cons.1 h with h | h
      · simp [h]
      · exact List.mem_cons_of_mem _ (ih h)

theorem rfSorted_rfDel (l : List (Nat × Nat)) (o) (h : rfSorted l = true) : rfSorted (rfDel l o) = true := by
  induction l with
  | nil => rfl
  | cons a l ih =>
    obtain ⟨k, v⟩ := a
    rw [rfSorted_cons] at h
    simp only [rfDel]
    split
    · exact ih h.2
    · rw [rfSorted_cons]
      exact ⟨fun b hb => h.1 b (mem_of_mem_rfDel _ _ _ hb), ih h.2⟩

theorem mem_of_mem_rfPut (l : List (Nat × Nat)) (o v) (b) (h : b ∈ rfPut l o v) : b = (o, v) ∨ b ∈ l := by
  induction l with
  | nil => simpa [rfPut] using h
  | cons a l ih =>
    obtain ⟨k, x⟩ := a
    simp only [rfPut] at h
    split at h
    · simpa using h
    · split at h
      · rcases List.mem_cons.1 h with h | h <;> simp [h]
      · rcases List.mem_cons.1 h with h | h
        · simp [h]
        · rcases ih h with h | h <;> simp [h]

theorem rfSorted_rfPut (l : List (Nat × Nat)) (o v) (h : rfSorted l = true) : rfSorted (rfPut l o v) = true := by
  induction l with
  | nil => rfl
  | cons a l ih =>
    obtain ⟨k, x⟩ := a
    simp only [rfPut]
    split
    · rw [rfSorted_cons]
      refine ⟨?_, h⟩
      intro b hb
      rcases List.mem_cons.1 hb with rfl | hb
      · assumption
      · exact Nat.lt_trans (by assumption) (((rfSorted_cons _ _).1 h).1 b hb)
    · rw [rfSorted_cons] at h
      split
      · rename_i e; subst e
        rw [rfSorted_cons]; exact h
      · rw [rfSorted_cons]
        refine ⟨?_, ih h.2⟩
        intro b hb
        rcases mem_of_mem_rfPut _ _ _ _ hb with rfl | hb
        · simp only; omega
        · exact h.1 b hb

/-! ### Masks -/

theorem FieldSpec.mask_testBit (f : FieldSpec) (h : f.lo ≤ f.hi) (k : Nat) : f.mask.testBit k = (decide (f.lo ≤ k) && decide (k ≤ f.hi)) := by
  unfold FieldSpec.mask
  rw [Nat.mul_comm, Nat.testBit_two_pow_mul, Nat.testBit_two_pow_sub_one]
  by_cases a : f.lo ≤ k <;> simp [a]; omega

theorem foldl_or_testBit (l : List Nat) (a k : Nat) : (l.foldl (· ||| ·) a).testBit k = (a.testBit k || l.any (fun x => x.testBit k)) := by
  induction l generalizing a with
  | nil => simp
  | cons x l ih => simp [ih, Bool.or_assoc]

theorem accMask_testBit (p : Access → Bool) (fs : List FieldSpec) (h : ∀ f ∈ fs, f.lo ≤ f.hi) (k : Nat) :
    (accMask p fs).testBit k = fs.any (fun f => p f.acc && decide (f.lo ≤ k) && decide (k ≤ f.hi)) := by
  unfold accMask
  rw [foldl_or_testBit]
  simp only [Nat.zero_testBit, Bool.false_or, List.any_map, List.any_filter]
  apply Bool.eq_iff_iff.2
  simp only [List.any_eq_true, Function.comp, Bool.and_eq_true]
  constructor
  · rintro ⟨f, hf, a, b⟩
    rw [FieldSpec.mask_testBit f (h f hf)] at b
    simp only [Bool.and_eq_true] at b
    exact ⟨f, hf, ⟨a, b.1⟩, b.2⟩
  · rintro ⟨f, hf, ⟨a, b⟩, c⟩
    refine ⟨f, hf, a, ?_⟩
    rw [FieldSpec.mask_testBit f (h f hf)]; simp only [Bool.and_eq_true]; exact ⟨b, c⟩

theorem clearBits_testBit (v m k : Nat) : (clearBits v m).testBit k = (v.testBit k && !m.testBit k) := by
  unfold clearBits
  simp only [Nat.testBit_xor, Nat.testBit_and]
  cases v.testBit k <;> cases m.testBit k <;> rfl

end Sys2Proof.Machine
end

