-- ==== Sys2Proof/Tests/Slice0.lean ====
section
/-! SUPPORT. Tests of the model: the well-formedness checks refuse ill-formed commands; a witness for the hypotheses of every
statement; and small tests whose expected results come from the register tables and rules of the spec. -/

set_option Elab.async false

set_option linter.unusedVariables false

open Sys2Proof Sys2Proof.Machine

namespace Sys2Proof.Tests

/-! ### States and operands for the witnesses -/

/-- The state after reset. -/
abbrev R : State := State.reset

/-- The state after reset, t ticks later, with no time-driven effect. -/
def later (t : Nat) : State := { R with now := t }

/-- The 64 bytes of a descriptor of an opcode, with the bytes named. -/
def bytes64 (opcode : Nat) (xs : List (Nat × Nat)) : List Byte :=
  (List.range 64).map (fun i => BitVec.ofNat 8 (if i = 0 then opcode else (xs.lookup i).getD 0))

/-- A descriptor of ring 0, slot 0. -/
def dsc (opcode : Nat) (xs : List (Nat × Nat)) : Desc := ⟨0, 0, bytes64 opcode xs, 0, 0, false, false, false⟩

/-- A state with one descriptor in flight. -/
def holding (d : Desc) (s : State) : State := s.onHif (fun h => { h with inflight := [d] })

/-- A completion. -/
def done0 : Completion := default

/-- Ring 0 a completion ring of 64 slots, ring 1 a submission ring that names it. -/
def ringed : State :=
  (((((R.onSys (fun x => { x with ready := true })).onHif (fun h => { h with ready := true })).setF
    (Fld.HIF_RING_CFG_enable 0) 1).setF (Fld.HIF_RING_CFG_kind 0) 1).setF (Fld.HIF_RING_CFG_size_log2 0) 6).setF
    (Fld.HIF_RING_CFG_enable 1) 1 |> State.setF (Fld.HIF_RING_CFG_size_log2 1) 6

def job1 : Job := { (default : Job) with num := 1, accepted := true }

def inJob (s : State) : State := s.onLay (fun l => { l with job := some job1 })

def comp1 : Comp := { (default : Comp) with length := 128 }

def started10 : Desc := { dsc 0x10 [] with started := true }

def padded (h : PHolder) (s : State) : State := s.onPaddock (fun p => { p with regions := [⟨0, 2, h, []⟩] })

def mwrite : MWrite := default

def entry0 : Entry := ⟨0x01, 0, 0, []⟩

def grant0 : Entry := ⟨0x60, 0, 0, []⟩

/-- A replay that waits for a recorded grant. -/
def waiting : State :=
  { R with now := 10 ^ 12, tally := { R.tally with state := .replay, expected := [grant0] } }

/-- Lane 0 ACTIVE. -/
def active : State := R.onLane 0 (fun l => { l with tstate := .active })

/-- Port 0 enabled. -/
def camera : State := R.onPort 0 (fun p => { p with enabled := true })

/-- Channel 0 active, alone. -/
def dram : State :=
  R.onMemc (fun m => { m with n := 1, channels := m.channels.modify 0 (fun c => { c with state := .active }) })

def mapped : State :=
  R.onBar 0 (fun x => x.onHalf 0 (fun y => { y with remap := some ⟨[⟨0, 0, 0, false, false, false⟩], 0, 1, 0⟩ }))

def slot0 : RecSlot := { (default : RecSlot) with state := .valid, payload := List.replicate 272 0 }

def withRec (typ : Nat) (s : State) : State :=
  s.onCal (fun c => { c with recs := [⟨typ, 0, slot0, RecSlot.none, none, false, false⟩] })

def context0 : List Byte := (List.range 192).map (fun i => if i = 146 || i = 149 then 1 else 0)

def ctx0 : Ctx := default

def linked : State := (R.setF (Fld.NET_PORT_CFG_enable 0) 1).onNetPort 0 (fun n => { n with link := true })

def frame0 : List Byte := List.replicate 14 255

def ptp0 : List Byte := List.replicate 12 0 ++ [0x88, 0xF7] ++ List.replicate 44 0

def streamed0 : Content := { (default : Content) with streamed := true, dead := false, tags := false, ents := [⟨0, 0, 0⟩], reads := [⟨0, 0, 0, .asked⟩] }

/-! ### Well-formedness: one ill-formed term for each check -/

theorem test_wf_slot_1 :
    Instr.wf (.hostReadFail 0 0 65536 []) = false ∧
    Instr.wf (.jobOpen 0 0 65536) = false ∧
    Instr.wf (.jobClose 0 0 65536) = false ∧
    Instr.wf (.layerSet 0 0 65536 []) = false ∧
    Instr.wf (.layerFree 0 0 65536) = false ∧
    Instr.wf (.imageCommit 0 0 65536) = false ∧
    Instr.wf (.tableLoad 0 0 65536) = false ∧
    Instr.wf (.tableHeld 0 0 65536 [] []) = false ∧
    Instr.wf (.nozzleMapRemap 0 0 65536 [] []) = false ∧
    Instr.wf (.nozzleMapStatusLoad 0 0 65536 [] []) = false ∧
    Instr.wf (.nozzleMapStatusRead 0 0 65536 []) = false ∧
    Instr.wf (.nozzleMapSet 0 0 65536) = false ∧
    Instr.wf (.nozzleMapRetest 0 0 65536) = false :=
  by decide

theorem test_wf_slot_2 :
    Instr.wf (.barCfgTrain 0 0 65536) = false ∧
    Instr.wf (.barCfgWrite 0 0 65536) = false ∧
    Instr.wf (.barCfgRead 0 0 65536) = false ∧
    Instr.wf (.barCfgSleep 0 0 65536) = false ∧
    Instr.wf (.barCfgWake 0 0 65536) = false ∧
    Instr.wf (.calRunTile 0 0 65536) = false ∧
    Instr.wf (.calRunStrip 0 0 65536) = false ∧
    Instr.wf (.calRunRead 0 0 65536 ⟨[], []⟩) = false ∧
    Instr.wf (.calRunWrite 0 0 65536 [] []) = false ∧
    Instr.wf (.camCfgContext 0 0 65536 [] []) = false ∧
    Instr.wf (.camCfgDefect 0 0 65536 [] []) = false ∧
    Instr.wf (.camCfgShading 0 0 65536 [] []) = false ∧
    Instr.wf (.camCfgUpload 0 0 65536 []) = false :=
  by decide

theorem test_wf_slot_3 :
    Instr.wf (.exposeSet 0 0 65536) = false ∧
    Instr.wf (.tallyStart 0 0 65536) = false ∧
    Instr.wf (.tallyStop 0 0 65536) = false ∧
    Instr.wf (.tallyExport 0 0 65536 []) = false ∧
    Instr.wf (.tallyReplay 0 0 65536 [] []) = false ∧
    Instr.wf (.tallySnapDump 0 0 65536 []) = false ∧
    Instr.wf (.markPkgContent 0 0 65536 [] []) = false ∧
    Instr.wf (.markPkgCsp 0 0 65536 [] []) = false ∧
    Instr.wf (.markPkgKey 0 0 65536 [] []) = false ∧
    Instr.wf (.fence 0 0 65536) = false ∧
    Instr.wf (.fenceRelease 0 0 65536) = false ∧
    Instr.wf (.abort 0 0 65536) = false ∧
    Instr.wf (.stagingComplete 0 0 65536 []) = false :=
  by decide

theorem test_wf_slot_4 :
    Instr.wf (.stageWaitTimeout 0 0 65536) = false ∧
    Instr.wf (.streamedPageArrive 0 0 65536 0 []) = false :=
  by decide

theorem test_wf_registerWrite :
    Instr.wf (.registerWrite 0 0 67108864 0 0) = false :=
  by decide +kernel

theorem test_wf_rcFieldRead :
    Instr.wf (.rcFieldRead 0 0 67108864) = false :=
  by decide +kernel

theorem test_wf_wideQuantityRead :
    Instr.wf (.wideQuantityRead 0 0 67108864) = false :=
  by decide +kernel

theorem test_wf_doorbellReadDone :
    Instr.wf (.doorbellReadDone 0 [0]) = false :=
  by decide +kernel

theorem test_wf_descriptorArrive :
    Instr.wf (.descriptorArrive 0 0 [0]) = false :=
  by decide +kernel

theorem test_wf_paceSample :
    Instr.wf (.paceSample 0 [0]) = false :=
  by decide +kernel

theorem test_wf_codewordReceive :
    Instr.wf (.codewordReceive 0 0 (List.replicate 2720 4)) = false :=
  by decide +kernel

theorem test_wf_scrubPage :
    Instr.wf (.scrubPage 0 [4] []) = false :=
  by decide +kernel

theorem test_wf_trained :
    Instr.wf (.trained 0 []) = false :=
  by decide +kernel

theorem test_wf_dflContextOpen :
    Instr.wf (.dflContextOpen 0 0 3 0 false 0) = false :=
  by decide +kernel

theorem test_wf_netFrameReceive :
    Instr.wf (.netFrameReceive 0 0 []) = false :=
  by decide +kernel

theorem test_wf_powerSample :
    Instr.wf (.powerSample 0 [0]) = false :=
  by decide +kernel

theorem test_wf_tokenDone :
    Instr.wf (.tokenDone 0 [] []) = false :=
  by decide +kernel

theorem test_wf_ptpEventSend :
    Instr.wf (.ptpEventSend 0 0 []) = false :=
  by decide +kernel

theorem test_wf_coresStarted :
    Instr.wf (.coresStarted 0 []) = false :=
  by decide +kernel

theorem test_wf_mramWriteDone :
    Instr.wf (.mramWriteDone 0 ⟨0, 0, 1⟩) = false :=
  by decide +kernel

/-! ### Witnesses: states and operands that meet the hypotheses of the statements -/

theorem witness_StartUpCommandsComplete :
    (∃ (s : State) (dt : Nat), (s.down = false)) ∧
    (∃ (s : State) (dt : Nat) (straps : BitVec 10), (s.sys.porst = true) ∧ (s.power.inShelf = false)) ∧
    (∃ (s : State) (dt : Nat) (data : Word), (s.down = false) ∧ ((s.elapse dt).writeOpen 1 Reg.SYS_RST.off = true) ∧ (bits data.toNat 31 16 = 0xD1E5) ∧ (bitOf data.toNat 0 = true)) ∧
    (∃ (s : State) (dt : Nat), (s.down = false) ∧ ((s.elapse dt).sys.sramWiped = false) ∧ (¬ ((s.elapse dt).bootSource = 1 ∧ (s.elapse dt).sec.lc ≠ .scrap))) ∧
    (∃ (s : State) (dt : Nat) (image : List Byte) (slotB : Bool), (s.down = false) ∧ ((s.elapse dt).sys.sramWiped = true) ∧ ((s.elapse dt).sys.c0 = false) ∧ ((s.elapse dt).sec.lc ≠ .scrap) ∧ ((s.elapse dt).sec.recovery = false)) ∧
    (∃ (s : State) (dt : Nat) (images : List (List Byte)), (s.down = false) ∧ (images.length = 3) ∧ ((s.elapse dt).sys.c0 = true) ∧ ((s.elapse dt).sys.cores = false) ∧ (([1, 2, 3].foldl (fun s c => s.startCore (c, images.getD (c - 1) [])) (s.elapse dt)).sec.accepted.all (fun a => a) = true)) ∧
    (∃ (s : State) (dt : Nat), (s.down = false) ∧ ((s.elapse dt).sys.ready = false) ∧ ((s.elapse dt).readyHolds = true)) ∧
    (∃ (s : State) (dt : Nat), (s.down = false) ∧ ((s.elapse dt).writeOpen 1 Reg.SYS_LOCK.off = true)) :=
  ⟨⟨(R), 0, by decide +kernel⟩,
    ⟨(R.onSys (fun x => { x with porst := true })), 0, 0, by decide +kernel⟩,
    ⟨(R), 0, 0xD1E50001, by decide +kernel⟩,
    ⟨(R), 0, by decide +kernel⟩,
    ⟨(R.onSys (fun x => { x with sramWiped := true })), 0, [], false, by decide +kernel⟩,
    ⟨((R.onSys (fun x => { x with c0 := true })).onSec (fun x => { x with accepted := [true, true, true, true] })), 0, ([[], [], []]), by decide +kernel⟩,
    ⟨((((R.onSys (fun x => { x with sramWiped := true, c0 := true, cores := true, records := true })).onMbx (fun m => { m with cores := m.cores.map (fun c => { c with run := true }) })).onHif (fun h => { h with ready := true })).onMemc (fun m => { m with trained := true, n := 1 }) |> State.onTherm (fun t => { t with started := true })), 0, by decide +kernel⟩,
    ⟨(R), 0, by decide +kernel⟩⟩

theorem witness_EndpointCommandsComplete :
    (∃ (s : State) (dt : Nat), (s.down = false)) ∧
    (∃ (s : State) (dt : Nat), (s.down = false)) ∧
    (∃ (s : State) (dt : Nat), (s.down = false)) ∧
    (∃ (s : State) (dt : Nat), (s.down = false)) ∧
    (∃ (s : State) (dt : Nat) (rate : Nat) (width : Nat), (s.down = false)) ∧
    (∃ (s : State) (dt : Nat), (s.down = false)) :=
  ⟨⟨(R), 0, by decide +kernel⟩,
    ⟨(R), 0, by decide +kernel⟩,
    ⟨(R), 0, by decide +kernel⟩,
    ⟨(R), 0, by decide +kernel⟩,
    ⟨(R), 0, 0, 0, by decide +kernel⟩,
    ⟨(R), 0, by decide +kernel⟩⟩

theorem witness_RegisterAccessesComplete :
    (∃ (s : State) (dt : Nat) (agent : Fin 7) (off : Nat), (s.down = false)) ∧
    (∃ (s : State) (dt : Nat) (agent : Fin 7) (off : Nat), (s.down = false)) ∧
    (∃ (s : State) (dt : Nat) (agent : Fin 7) (off : Nat) (be : BitVec 4) (data : Word), (s.down = false) ∧ (be.toNat = 15) ∧ (agent.val ≠ 0) ∧ (agent.val ≠ 6) ∧ ((s.elapse dt).writeOpen agent.val off = true) ∧ ((regAt off).isSome = true)) :=
  ⟨⟨(R), 0, 0, 0, by decide +kernel⟩,
    ⟨(R), 0, 0, 0, by decide +kernel⟩,
    ⟨(R), 0, 1, 16, 15, 0, by decide +kernel⟩⟩

theorem witness_RingSwitchesComplete :
    (∃ (s : State) (dt : Nat) (ring : Fin 64) (cfg : Word), (s.down = false) ∧ ((s.elapse dt).writeOpen 1 (Reg.HIF_RING_CFG ring.val).off = true) ∧ (((s.elapse dt).noteWrite 1 (Reg.HIF_RING_CFG ring.val).off cfg.toNat).sys.ready = true) ∧ (((s.elapse dt).noteWrite 1 (Reg.HIF_RING_CFG ring.val).off cfg.toNat).ringOn ring.val = false) ∧ (6 ≤ (((s.elapse dt).noteWrite 1 (Reg.HIF_RING_CFG ring.val).off cfg.toNat).setReg (Reg.HIF_RING_CFG ring.val) ((cfg.toNat &&& ringCfgMask) % 2 ^ 31)).f (Fld.HIF_RING_CFG_size_log2 ring.val)) ∧ ((((s.elapse dt).noteWrite 1 (Reg.HIF_RING_CFG ring.val).off cfg.toNat).setReg (Reg.HIF_RING_CFG ring.val) ((cfg.toNat &&& ringCfgMask) % 2 ^ 31)).f (Fld.HIF_RING_CFG_size_log2 ring.val) ≤ 16) ∧ ((((s.elapse dt).noteWrite 1 (Reg.HIF_RING_CFG ring.val).off cfg.toNat).setReg (Reg.HIF_RING_CFG ring.val) ((cfg.toNat &&& ringCfgMask) % 2 ^ 31)).isCring ring.val = true ∨ ((((s.elapse dt).noteWrite 1 (Reg.HIF_RING_CFG ring.val).off cfg.toNat).setReg (Reg.HIF_RING_CFG ring.val) ((cfg.toNat &&& ringCfgMask) % 2 ^ 31)).ringOn ((((s.elapse dt).noteWrite 1 (Reg.HIF_RING_CFG ring.val).off cfg.toNat).setReg (Reg.HIF_RING_CFG ring.val) ((cfg.toNat &&& ringCfgMask) % 2 ^ 31)).f (Fld.HIF_RING_CFG_cring ring.val)) = true ∧ (((s.elapse dt).noteWrite 1 (Reg.HIF_RING_CFG ring.val).off cfg.toNat).setReg (Reg.HIF_RING_CFG ring.val) ((cfg.toNat &&& ringCfgMask) % 2 ^ 31)).isCring ((((s.elapse dt).noteWrite 1 (Reg.HIF_RING_CFG ring.val).off cfg.toNat).setReg (Reg.HIF_RING_CFG ring.val) ((cfg.toNat &&& ringCfgMask) % 2 ^ 31)).f (Fld.HIF_RING_CFG_cring ring.val)) = true))) ∧
    (∃ (s : State) (dt : Nat) (ring : Fin 64) (cfg : Word), (s.down = false) ∧ ((s.elapse dt).writeOpen 1 (Reg.HIF_RING_CFG ring.val).off = true)) ∧
    (∃ (s : State) (dt : Nat), (s.down = false) ∧ ((s.elapse dt).writeOpen 1 Reg.HIF_DB_KICK.off = true) ∧ ((((s.elapse dt).noteWrite 1 Reg.HIF_DB_KICK.off 1).leaveBackoff).readsOut < 512) ∧ ((((s.elapse dt).noteWrite 1 Reg.HIF_DB_KICK.off 1).leaveBackoff).hif.ready = true) ∧ ((((s.elapse dt).noteWrite 1 Reg.HIF_DB_KICK.off 1).leaveBackoff).hif.mute = false)) ∧
    (∃ (s : State) (dt : Nat) (vector : Fin 256), (s.down = false) ∧ ((s.elapse dt).writeOpen 1 (Reg.MSIX_VCTRL vector.val).off = true) ∧ ((((s.elapse dt).noteWrite 1 (Reg.MSIX_VCTRL vector.val).off 0).setF ⟨Reg.MSIX_VCTRL vector.val, 0, 0⟩ 0).hif.pba.contains vector.val = true)) :=
  ⟨⟨(R.onSys (fun x => { x with ready := true })), 0, 0, 0x81060000, by decide +kernel⟩,
    ⟨(R), 0, 0, 0, by decide +kernel⟩,
    ⟨(R.onHif (fun h => { h with ready := true })), 0, by decide +kernel⟩,
    ⟨(R.onHif (fun h => { h with pba := [0] })), 0, 0, by decide +kernel⟩⟩

theorem witness_DoorbellCommandsComplete :
    (∃ (s : State) (dt : Nat), (s.down = false) ∧ ((s.elapse dt).readsOut < 512) ∧ ((s.elapse dt).fb Fld.HIF_CTRL_db_enable = true) ∧ ((s.elapse dt).hif.ready = true) ∧ ((s.elapse dt).hif.mute = false) ∧ ((s.elapse dt).hif.pollAt.all (fun t => decide (t + (s.elapse dt).pollEvery ≤ (s.elapse dt).now)) = true)) ∧
    (∃ (s : State) (dt : Nat) (bells : List Word) (t : Nat) (ts : List Nat), (s.down = false) ∧ (bells.length = 64) ∧ ((s.elapse dt).hif.polls = t :: ts)) ∧
    (∃ (s : State) (dt : Nat) (t : Nat) (ts : List Nat), (s.down = false) ∧ ((s.elapse dt).hif.polls = t :: ts)) ∧
    (∃ (s : State) (dt : Nat), (s.down = false) ∧ ((s.elapse dt).fb Fld.HIF_CTRL_db_enable = true) ∧ ((s.elapse dt).hif.ready = true) ∧ ((s.elapse dt).fb Fld.HIF_DB_CFG_backoff_en = true) ∧ ((s.elapse dt).hif.slow = false) ∧ ((s.elapse dt).hif.lastChange + 10000000 ≤ (s.elapse dt).now)) :=
  ⟨⟨((R.onHif (fun h => { h with ready := true })).setF Fld.HIF_CTRL_db_enable 1), 0, by decide +kernel⟩,
    ⟨(R.onHif (fun h => { h with polls := [0] })), 0, (List.replicate 64 0), 0, [], by decide +kernel⟩,
    ⟨(R.onHif (fun h => { h with polls := [0] })), 0, 0, [], by decide +kernel⟩,
    ⟨((((later 10000000).setF Fld.HIF_DB_CFG_backoff_en 1).setF Fld.HIF_CTRL_db_enable 1).onHif (fun h => { h with ready := true })), 0, by decide +kernel⟩⟩

theorem witness_DescriptorTrafficCompletes :
    (∃ (s : State) (dt : Nat) (r : Nat) (n : Nat), (s.down = false) ∧ ((s.elapse dt).fb Fld.HIF_CTRL_quiesce = false) ∧ ((s.elapse dt).sys.ready = true) ∧ ((s.elapse dt).hif.ready = true) ∧ ((s.elapse dt).hif.mute = false) ∧ ((s.elapse dt).nextRing = some r) ∧ (n = min (min 16 ((s.elapse dt).fetchable r)) (1024 - (s.elapse dt).inFlight)) ∧ (0 < n) ∧ ((s.elapse dt).readsOut ≤ 510)) ∧
    (∃ (s : State) (dt : Nat) (ring : Fin 64) (bytes : List Byte) (d : Desc), (s.down = false) ∧ (bytes.length = 64) ∧ ((s.elapse dt).ringOn ring.val = true) ∧ ((s.elapse dt).isCring ring.val = false) ∧ (diff32 ((s.elapse dt).ring ring.val).fetched ((s.elapse dt).ring ring.val).count ≠ 0) ∧ (((s.elapse dt).ring ring.val).skips.contains ((s.elapse dt).ring ring.val).count = false) ∧ (d = ⟨ring.val, ((s.elapse dt).ring ring.val).count % (s.elapse dt).ringSize ring.val, bytes, (s.elapse dt).hif.nextOrder, (s.elapse dt).f (Fld.HIF_RING_CFG_cring ring.val), false, false, false⟩) ∧ ((({ (s.elapse dt) with hif := { (s.elapse dt).hif with inflight := (s.elapse dt).hif.inflight ++ [d], nextOrder := (s.elapse dt).hif.nextOrder + 1 } }.countRead ring.val).observe 0x21 ring.val (leBytes 4 d.slot ++ leBytes 4 (crc32c bytes))).checkDesc d = none) ∧ ((({ (s.elapse dt) with hif := { (s.elapse dt).hif with inflight := (s.elapse dt).hif.inflight ++ [d], nextOrder := (s.elapse dt).hif.nextOrder + 1 } }.countRead ring.val).observe 0x21 ring.val (leBytes 4 d.slot ++ leBytes 4 (crc32c bytes))).replaying = false)) ∧
    (∃ (s : State) (dt : Nat) (ring : Fin 64) (n : Nat), (s.down = false) ∧ (((s.elapse dt).ring ring.val).reads.contains (n, n) = true)) ∧
    (∃ (s : State) (dt : Nat) (ring : Fin 64) (slot : Nat) (pages : List Nat) (d : Desc), (s.down = false) ∧ (pages = []) ∧ ((s.elapse dt).liveAs ring.val slot Desc.readsHost = some d)) ∧
    (∃ (s : State) (dt : Nat) (ring : Fin 64) (slot : Nat) (d : Desc), (s.down = false) ∧ ((s.elapse dt).startable ring.val slot 0x7E = some d)) ∧
    (∃ (s : State) (dt : Nat) (ring : Fin 64) (slot : Nat) (d : Desc), (s.down = false) ∧ ((s.elapse dt).liveAs ring.val slot (fun d => decide (d.opcode = 0x7E) && d.started) = some d) ∧ ((s.elapse dt).hif.inflight.any (fenceWaits d) = false) ∧ ((s.elapse dt).hif.held.any (abortWaits d) = false)) ∧
    (∃ (s : State) (dt : Nat) (ring : Fin 64) (slot : Nat) (d : Desc), (s.down = false) ∧ ((s.elapse dt).startable ring.val slot 0x7F = some d)) :=
  ⟨⟨(ringed.onRing 1 (fun x => { x with door := 1 })), 0, 1, 1, by decide +kernel⟩,
    ⟨(ringed.onRing 1 (fun x => { x with fetched := 1 })), 0, 1, (bytes64 0x02 []), (⟨1, 0, bytes64 0x02 [], 0, 0, false, false, false⟩), by decide +kernel⟩,
    ⟨(R.onRing 0 (fun x => { x with fetched := 1, reads := [(1, 1)] })), 0, 0, 1, by decide +kernel⟩,
    ⟨(holding (dsc 0x10 []) R), 0, 0, 0, [], (dsc 0x10 []), by decide +kernel⟩,
    ⟨(holding (dsc 0x7E []) R), 0, 0, 0, (dsc 0x7E []), by decide +kernel⟩,
    ⟨(holding { dsc 0x7E [] with started := true } R), 0, 0, 0, ({ dsc 0x7E [] with started := true }), by decide +kernel⟩,
    ⟨(holding (dsc 0x7F []) R), 0, 0, 0, (dsc 0x7F []), by decide +kernel⟩⟩

theorem witness_CompletionTrafficCompletes :
    (∃ (s : State) (dt : Nat) (c : Completion), (s.down = false) ∧ ((s.elapse dt).hif.held.find? (s.elapse dt).writable = some c)) ∧
    (∃ (s : State) (dt : Nat) (ring : Fin 64), (s.down = false)) ∧
    (∃ (s : State) (dt : Nat) (ring : Fin 64), (s.down = false) ∧ ((s.elapse dt).ringOn ring.val = true) ∧ ((s.elapse dt).f (Fld.HIF_RING_MOD_mod_time ring.val) ≠ 0) ∧ (((s.elapse dt).ring ring.val).unsig ≠ 0) ∧ (((s.elapse dt).ring ring.val).unsigSince + (s.elapse dt).f (Fld.HIF_RING_MOD_mod_time ring.val) * 100 ≤ (s.elapse dt).now)) :=
  ⟨⟨(ringed.onHif (fun h => { h with held := [done0] })), 0, done0, by decide +kernel⟩,
    ⟨(R), 0, 0, by decide +kernel⟩,
    ⟨((((later 100).setF (Fld.HIF_RING_CFG_enable 0) 1).setF (Fld.HIF_RING_MOD_mod_time 0) 1).onRing 0 (fun r => { r with unsig := 1 })), 0, 0, by decide +kernel⟩⟩

theorem witness_JobCommandsComplete :
    (∃ (s : State) (dt : Nat) (ring : Fin 64) (slot : Nat) (d : Desc), (s.down = false) ∧ ((s.elapse dt).startable ring.val slot 0x01 = some d) ∧ ((s.elapse dt).opening = false) ∧ ((s.elapse dt).lay.job = none) ∧ (d.job ≠ 0) ∧ (((s.elapse dt).wakeAll [4, 5, 6, 7]).allOn [4, 5, 6, 7] = true) ∧ ((List.range 8).any (fun b => ((s.elapse dt).wakeAll [4, 5, 6, 7]).fb (Fld.JET_BAR_CFG_en b) && ((s.elapse dt).wakeAll [4, 5, 6, 7]).offB b < ((s.elapse dt).wakeAll [4, 5, 6, 7]).offB 0) = false) ∧ (¬ ((((s.elapse dt).wakeAll [4, 5, 6, 7]).openAsk d).opening = true ∧ (((s.elapse dt).wakeAll [4, 5, 6, 7]).openAsk d).stageWait = 0))) ∧
    (∃ (s : State) (dt : Nat) (ring : Fin 64) (slot : Nat) (d : Desc) (j : Job) (last : Nat), (s.down = false) ∧ ((s.elapse dt).startable ring.val slot 0x02 = some d) ∧ ((s.elapse dt).opening = false) ∧ ((s.elapse dt).lay.job = some j) ∧ ((s.elapse dt).jobFits d = true) ∧ (j.closed = false) ∧ (last = if d.num 8 4 = 0 ∨ imgLe (imgAdd (s.elapse dt).nextImage (2 ^ 32 - 1)) (d.num 8 4) = false then imgAdd (s.elapse dt).nextImage (2 ^ 32 - 1) else d.num 8 4)) :=
  ⟨⟨(holding (dsc 0x01 [(4, 1)]) R), 0, 0, 0, (dsc 0x01 [(4, 1)]), by decide +kernel⟩,
    ⟨(holding (dsc 0x02 [(4, 1)]) (inJob R)), 0, 0, 0, (dsc 0x02 [(4, 1)]), job1, 4294967295, by decide +kernel⟩⟩

theorem witness_LayerCommandsComplete :
    (∃ (s : State) (dt : Nat) (ring : Fin 64) (slot : Nat) (list : List PageEnt) (d : Desc), (s.down = false) ∧ ((s.elapse dt).startable ring.val slot 0x10 = some d) ∧ ((s.elapse dt).opening = false) ∧ (list.length = d.buf.used) ∧ (layerCheck d = none) ∧ (d.buf.entsOk list = true) ∧ (((s.elapse dt).readList d).jobFits d = true) ∧ ((((s.elapse dt).readList d).lay.waiting.getD (d.byte 8) []).length < 16) ∧ ((((s.elapse dt).readList d).wakeAll [4]).allOn [4] = true)) ∧
    (∃ (s : State) (dt : Nat) (ring : Fin 64) (slot : Nat) (d : Desc), (s.down = false) ∧ ((s.elapse dt).startable ring.val slot 0x11 = some d) ∧ ((s.elapse dt).opening = false) ∧ ((s.elapse dt).jobFits d = true) ∧ (((s.elapse dt).lay.waiting.getD (d.byte 8) []).length < 16)) ∧
    (∃ (s : State) (dt : Nat) (ring : Fin 64) (slot : Nat) (d : Desc) (j : Job) (ask : Nat), (s.down = false) ∧ ((s.elapse dt).startable ring.val slot 0x12 = some d) ∧ ((s.elapse dt).opening = false) ∧ ((s.elapse dt).lay.job = some j) ∧ ((s.elapse dt).jobFits d = true) ∧ (j.closed = false) ∧ (j.latchLines < d.num 16 3) ∧ (ask = if bitOf (d.byte 12) 0 then d.num 8 4 else (s.elapse dt).nextImage) ∧ (¬ (2 ^ 31 ≤ diff32 ask (s.elapse dt).nextImage ∧ behind j.first (s.elapse dt).nextImage ask = false)) ∧ ((s.elapse dt).lay.commits.length < 64)) ∧
    (∃ (s : State) (dt : Nat) (ring : Fin 64) (slot : Nat) (data : List Byte) (d : Desc), (s.down = false) ∧ ((s.elapse dt).liveAs ring.val slot (fun d => decide (d.opcode = 0x10) && d.started && ((s.elapse dt).padOf (.stage d.order)).isSome && decide (data.length = d.buf.taken)) = some d) ∧ ((s.elapse dt).dramUp = true) ∧ (d.buf.tags ≠ 1 ∨ tagsHold (pageBytes d.buf.pageSize) (((s.elapse dt).readPages d ((s.elapse dt).stageEnts d.order)).stageEnts d.order) data = true)) ∧
    (∃ (s : State) (dt : Nat) (ring : Fin 64) (slot : Nat) (d : Desc), (s.down = false) ∧ ((s.elapse dt).liveAs ring.val slot (fun d => d.started && (s.elapse dt).paddock.waiting.any (fun w => w.ofDesc d && decide ((s.elapse dt).now - w.at_ ≥ (s.elapse dt).stageWait))) = some d)) ∧
    (∃ (s : State) (dt : Nat) (ring : Fin 64) (slot : Nat) (page : Nat) (data : List Byte) (o : Nat) (c : Content), (s.down = false) ∧ ((s.elapse dt).readerOf ring.val slot [page] = some o) ∧ ((s.elapse dt).contentOf o = some c) ∧ (data.length = pageBytes c.pageSize) ∧ (c.tags = false ∨ crc32c data = (c.ents.map (fun e => e.tag.toNat)).getD page 0)) :=
  ⟨⟨(holding (dsc 0x10 [(9, 1), (29, 16), (31, 16)]) R), 0, 0, 0, [], (dsc 0x10 [(9, 1), (29, 16), (31, 16)]), by decide +kernel⟩,
    ⟨(holding (dsc 0x11 []) R), 0, 0, 0, (dsc 0x11 []), by decide +kernel⟩,
    ⟨(holding (dsc 0x12 [(4, 1), (16, 1)]) (inJob R)), 0, 0, 0, (dsc 0x12 [(4, 1), (16, 1)]), job1, 0, by decide +kernel⟩,
    ⟨(padded (.stage 0) (holding started10 R)), 0, 0, 0, [], started10, by decide +kernel⟩,
    ⟨((holding started10 (later 1000000000000)).onPaddock (fun p => { p with waiting := [⟨2, 1, .stage 0, 0⟩] })), 0, 0, 0, started10, by decide +kernel⟩,
    ⟨((R.onLay (fun l => { l with inForce := l.inForce.set 0 (some streamed0) })).onHif (fun h => { h with pageReads := [⟨0, 0, 0, 0⟩] })), 0, 0, 0, 0, (List.replicate 4096 0), 0, streamed0, by decide +kernel⟩⟩

theorem witness_TableCommandsComplete :
    (∃ (s : State) (dt : Nat) (ring : Fin 64) (slot : Nat) (d : Desc), (s.down = false) ∧ ((s.elapse dt).startable ring.val slot 0x20 = some d) ∧ ((s.elapse dt).opening = false) ∧ (¬ (1 ≤ d.byte 8 ∧ d.byte 8 ≤ 4 ∧ d.byte 9 = 4)) ∧ ((s.elapse dt).jobFits d = true) ∧ (((s.elapse dt).wakeDomain (tableDomain (d.byte 8))).isOn (tableDomain (d.byte 8)) = true)) ∧
    (∃ (s : State) (dt : Nat) (ring : Fin 64) (slot : Nat) (list : List PageEnt) (data : List Byte) (d : Desc) (b : List Byte), (s.down = false) ∧ ((s.elapse dt).liveAs ring.val slot (fun d => decide (d.opcode = 0x20) && d.started) = some d) ∧ (d.hostIn list data = some (0, b)) ∧ ((((s.elapse dt).readHost d list).endLoad d.order).tableCheck (d.byte 8) (d.byte 9) (d.byte 10) b = none) ∧ ((((s.elapse dt).readHost d list).endLoad d.order).tableBusy (d.byte 8) (d.byte 9) (d.byte 10) = false)) ∧
    (∃ (s : State) (dt : Nat) (flips : List (Nat × Nat × Nat)), (s.down = false) ∧ ((flips.foldl State.flipTable (s.elapse dt)).fb Fld.INK_CTRL_verify_en = true)) ∧
    (∃ (s : State) (dt : Nat) (busy : List Nat), (s.down = false) ∧ (busy.length = 32)) ∧
    (∃ (s : State) (dt : Nat), (s.down = false)) :=
  ⟨⟨(holding (dsc 0x20 []) R), 0, 0, 0, (dsc 0x20 []), by decide +kernel⟩,
    ⟨(holding { dsc 0x20 [(8, 5), (48, 4)] with started := true } R), 0, 0, 0, ([⟨0, 0, 0⟩]), ([0, 0, 0, 0]), ({ dsc 0x20 [(8, 5), (48, 4)] with started := true }), ([0, 0, 0, 0]), by decide +kernel⟩,
    ⟨(R.setF Fld.INK_CTRL_verify_en 1), 0, [], by decide +kernel⟩,
    ⟨(R), 0, (List.replicate 32 0), by decide +kernel⟩,
    ⟨(R), 0, by decide +kernel⟩⟩

theorem witness_CompositionCommandsComplete :
    (∃ (s : State) (dt : Nat) (j : Job) (live : Bool), (s.down = false) ∧ ((s.elapse dt).lay.job = some j) ∧ (j.accepted = true) ∧ ((s.elapse dt).lay.comp.any (fun c => c.band.isSome) = false) ∧ ((s.elapse dt).lay.stopped = false) ∧ (live = ((s.elapse dt).atBoundary || (s.elapse dt).lay.comp.any (fun c => !c.fromStore))) ∧ (([6] ++ (if live then [5] else []) ++ (if live && (s.elapse dt).inflates j then [9] else [])).all (((s.elapse dt).wakeAll ([6] ++ (if live then [5] else []) ++ (if live && (s.elapse dt).inflates j then [9] else []))).callDram).isOn = true) ∧ ((((s.elapse dt).wakeAll ([6] ++ (if live then [5] else []) ++ (if live && (s.elapse dt).inflates j then [9] else []))).callDram).dramUp = true)) ∧
    (∃ (s : State) (dt : Nat) (j : Job) (k : Comp) (k' : Comp) (first : Nat) (n : Nat), (s.down = false) ∧ ((s.elapse dt).lay.job = some j) ∧ ((s.elapse dt).lay.comp = some k) ∧ (k.band = some (first, n)) ∧ (k' = { k with pos := first + n, band := none })) ∧
    (∃ (s : State) (dt : Nat), (s.down = false) ∧ ((s.elapse dt).lay.stopped = true) ∧ ((s.elapse dt).lead < (s.elapse dt).leadLimit)) ∧
    (∃ (s : State) (dt : Nat) (r : Nat × Int), (s.down = false) ∧ ((s.elapse dt).lay.rejects.find? (fun r => (s.elapse dt).passed ((s.elapse dt).rejectAt r.2)) = some r)) ∧
    (∃ (s : State) (dt : Nat) (t : Nat), (s.down = false) ∧ ((s.elapse dt).lay.rejectEnd = some t) ∧ (t ≤ (s.elapse dt).now)) :=
  ⟨⟨(inJob R), 0, job1, true, by decide +kernel⟩,
    ⟨((inJob R).onLay (fun l => { l with comp := some { comp1 with band := some (0, 64) } })), 0, job1, ({ comp1 with band := some (0, 64) }), ({ comp1 with pos := 64 }), 0, 64, by decide +kernel⟩,
    ⟨(R.onLay (fun l => { l with stopped := true })), 0, by decide +kernel⟩,
    ⟨(R.onLay (fun l => { l with rejects := [(0, 0)] })), 0, (0, 0), by decide +kernel⟩,
    ⟨(R.onLay (fun l => { l with rejectEnd := some 0 })), 0, 0, by decide +kernel⟩⟩

theorem witness_NozzleMapCommandsComplete :
    (∃ (s : State) (dt : Nat) (ring : Fin 64) (slot : Nat) (list : List PageEnt) (data : List Byte) (d : Desc) (g : Region) (b : List Byte), (s.down = false) ∧ ((s.elapse dt).startOp ring.val slot 0x21 0 = some d) ∧ ((s.elapse dt).opening = false) ∧ (((s.elapse dt).wakeDomain 6).isOn 6 = true) ∧ (((((s.elapse dt).wakeDomain 6).mapStart d).padAsk 3 (ceilDiv d.buf.length 2097152) (.remap d.order)).padOf (.remap d.order) = some g) ∧ (d.hostIn list data = some (0, b))) ∧
    (∃ (s : State) (dt : Nat) (ring : Fin 64) (slot : Nat) (list : List PageEnt) (data : List Byte) (d : Desc) (b : List Byte) (m : List NzStat), (s.down = false) ∧ ((s.elapse dt).startOp ring.val slot 0x21 1 = some d) ∧ ((s.elapse dt).opening = false) ∧ (((s.elapse dt).wakeDomain 6).isOn 6 = true) ∧ (d.hostIn list data = some (0, b)) ∧ ((((s.elapse dt).wakeDomain 6).readHost d list).mapOf (d.byte 9) (d.byte 10) b = some m)) ∧
    (∃ (s : State) (dt : Nat) (ring : Fin 64) (slot : Nat) (list : List PageEnt) (d : Desc), (s.down = false) ∧ ((s.elapse dt).startOp ring.val slot 0x21 2 = some d) ∧ (((s.elapse dt).wakeDomain 6).isOn 6 = true) ∧ (d.hostOut list = some true) ∧ ((((s.elapse dt).wakeDomain 6).mapBytes (d.byte 9) (d.byte 10)).length ≤ d.buf.length)) ∧
    (∃ (s : State) (dt : Nat) (ring : Fin 64) (slot : Nat) (d : Desc), (s.down = false) ∧ ((s.elapse dt).startOp ring.val slot 0x21 3 = some d) ∧ (((s.elapse dt).wakeDomain 6).isOn 6 = true) ∧ (((s.elapse dt).wakeDomain 6).setRefused (d.byte 9) (d.byte 10) (d.num 12 4) (d.byte 11) = false)) ∧
    (∃ (s : State) (dt : Nat) (ring : Fin 64) (slot : Nat) (d : Desc), (s.down = false) ∧ ((s.elapse dt).startOp ring.val slot 0x21 4 = some d) ∧ (((s.elapse dt).wakeDomain 6).isOn 6 = true) ∧ (((s.elapse dt).wakeDomain 6).retestCover (d.byte 9) (d.byte 10) (d.num 12 4) ≠ [])) :=
  ⟨⟨(holding (dsc 0x21 []) (R.onSys (fun x => { x with ready := true }))), 0, 0, 0, [], [], (dsc 0x21 []), (⟨0, 3, .remap 0, []⟩), [], by decide +kernel⟩,
    ⟨(holding (dsc 0x21 [(8, 1), (48, 17)]) mapped), 0, 0, 0, ([⟨0, 0, 0⟩]), (1 :: List.replicate 16 0), (dsc 0x21 [(8, 1), (48, 17)]), (1 :: List.replicate 16 0), ([⟨0, 0⟩]), by decide +kernel⟩,
    ⟨(holding (dsc 0x21 [(8, 2), (48, 16)]) R), 0, 0, 0, ([⟨0, 0, 0⟩]), (dsc 0x21 [(8, 2), (48, 16)]), by decide +kernel⟩,
    ⟨(holding (dsc 0x21 [(8, 3)]) mapped), 0, 0, 0, (dsc 0x21 [(8, 3)]), by decide +kernel⟩,
    ⟨(holding (dsc 0x21 [(8, 4)]) (mapped.onNzHalf 0 0 (fun z => { z with map := [⟨0, 0⟩] }))), 0, 0, 0, (dsc 0x21 [(8, 4)]), by decide +kernel⟩⟩

theorem witness_NozzleTestCommandsComplete :
    (∃ (s : State) (dt : Nat) (lane : Fin 32) (pkts : List (List Byte)), (s.down = false)) ∧
    (∃ (s : State) (dt : Nat) (lane : Fin 32) (pkts : List (List Byte)), (s.down = false)) ∧
    (∃ (s : State) (dt : Nat) (bar : Fin 8) (w : Option Nat) (ws : List (Option Nat)), (s.down = false) ∧ ((s.elapse dt).isOn 6 = true) ∧ (((s.elapse dt).nzBar bar.val).impWant = w :: ws) ∧ (((s.elapse dt).nzBar bar.val).imp = none) ∧ (((s.elapse dt).nzBar bar.val).canMeasure = true) ∧ (((s.elapse dt).bar bar.val).fire = .disarmed) ∧ ((s.elapse dt).barUp bar.val = true)) ∧
    (∃ (s : State) (dt : Nat), (s.down = false) ∧ ((s.elapse dt).nozzle.changed = true) ∧ (10000000000 ≤ (s.elapse dt).now - (s.elapse dt).nozzle.snapAt)) ∧
    (∃ (s : State) (dt : Nat) (bar : Fin 8), (s.down = false) ∧ ((s.elapse dt).f Fld.JET_NH_AGE_dd_max_age ≠ 0) ∧ ((s.elapse dt).armed bar.val = true) ∧ (((s.elapse dt).nzBar bar.val).staleSaid = false) ∧ ((s.elapse dt).f Fld.JET_NH_AGE_dd_max_age * 1000000000 ≤ (s.elapse dt).now - ((s.elapse dt).nzBar bar.val).sweepAt)) :=
  ⟨⟨(R), 0, 0, [], by decide +kernel⟩,
    ⟨(R), 0, 0, [], by decide +kernel⟩,
    ⟨((R.onNzBar 0 (fun z => { z with impWant := [none], imp := none, canMeasure := true })).onLane 0 (fun l => { l with inPair := true })), 0, 0, none, [], by decide +kernel⟩,
    ⟨((later 10000000000).onNozzle (fun z => { z with changed := true })), 0, by decide +kernel⟩,
    ⟨((((later 1000000000).setF Fld.JET_NH_AGE_dd_max_age 1).onBar 0 (fun x => { x with fire := .activeStandby }))), 0, 0, by decide +kernel⟩⟩

theorem witness_CalibrationCommandsComplete :
    (∃ (s : State) (dt : Nat) (ring : Fin 64) (slot : Nat) (d : Desc), (s.down = false) ∧ ((s.elapse dt).calStart ring.val slot 0 = some d) ∧ ((s.elapse dt).source.state = .still) ∧ (((s.elapse dt).calPort (d.byte 9)).tile = false) ∧ ((((s.elapse dt).noteRead 0x23 (d.byte 9)).record 0x23 (d.byte 9)).isSome = true)) ∧
    (∃ (s : State) (dt : Nat) (ring : Fin 64) (slot : Nat) (d : Desc), (s.down = false) ∧ ((s.elapse dt).calStart ring.val slot 1 = some d) ∧ (((s.elapse dt).calPort (d.byte 9)).traced = true)) ∧
    (∃ (s : State) (dt : Nat) (ring : Fin 64) (slot : Nat) (read : RunRead) (d : Desc) (x : RecSlot), (s.down = false) ∧ ((s.elapse dt).calStart ring.val slot 2 = some d) ∧ (d.hostOut read.list = some true) ∧ (0x20 ≤ d.num 10 2) ∧ ((((((s.elapse dt).readList d).readErrs (d.num 10 2) (d.byte 12) read.errs).noteRead (d.num 10 2) (d.byte 12)).mrec (d.num 10 2) (d.byte 12)).inUse = some x) ∧ ((x.header (d.num 10 2) (d.byte 12) ++ x.payload).length ≤ d.buf.length)) ∧
    (∃ (s : State) (dt : Nat) (ring : Fin 64) (slot : Nat) (list : List PageEnt) (data : List Byte) (d : Desc) (b : List Byte), (s.down = false) ∧ ((s.elapse dt).calStart ring.val slot 3 = some d) ∧ (d.hostIn list data = some (0, b)) ∧ (((s.elapse dt).readHost d list).mayWrite (d.num 10 2) = true) ∧ (recordFits (d.num 10 2) (d.byte 12) b = true)) ∧
    (∃ (s : State) (dt : Nat) (back : Readback) (w : MWrite), (s.down = false) ∧ ((s.elapse dt).cal.writes.find? (fun w => w.deferred.isNone) = some w)) ∧
    (∃ (s : State) (dt : Nat) (typ : Nat) (sel : Nat), (s.down = false)) ∧
    (∃ (s : State) (dt : Nat), (s.down = false) ∧ ((s.elapse dt).writeOpen 1 Reg.CAL_CTRL.off = true)) ∧
    (∃ (s : State) (dt : Nat), (s.down = false) ∧ ((s.elapse dt).fb Fld.CAL_CTRL_splice = true) ∧ ((s.elapse dt).cal.spliceAt + orIfZero ((s.elapse dt).f Fld.CAL_CTRL_splice_ms) 1 * 1000000 ≤ (s.elapse dt).now)) :=
  ⟨⟨(withRec 0x23 (holding (dsc 0x30 []) R)), 0, 0, 0, (dsc 0x30 []), by decide +kernel⟩,
    ⟨((holding (dsc 0x30 [(8, 1)]) R).onCalPort 0 (fun c => { c with traced := true })), 0, 0, 0, (dsc 0x30 [(8, 1)]), by decide +kernel⟩,
    ⟨(withRec 0x23 (holding (dsc 0x30 [(8, 2), (10, 0x23), (49, 16)]) R)), 0, 0, 0, (⟨[⟨0, 0, 0⟩], []⟩), (dsc 0x30 [(8, 2), (10, 0x23), (49, 16)]), slot0, by decide +kernel⟩,
    ⟨(holding (dsc 0x30 [(8, 3), (10, 0x20), (48, 24)]) R), 0, 0, 0, ([⟨0, 0, 0⟩]), (List.replicate 24 0), (dsc 0x30 [(8, 3), (10, 0x20), (48, 24)]), (List.replicate 24 0), by decide +kernel⟩,
    ⟨(R.onCal (fun c => { c with writes := [mwrite] })), 0, (⟨0, 0, 0⟩), mwrite, by decide +kernel⟩,
    ⟨(R), 0, 0, 0, by decide +kernel⟩,
    ⟨(R), 0, by decide +kernel⟩,
    ⟨((later 100000000000).setF Fld.CAL_CTRL_splice 1), 0, by decide +kernel⟩⟩

theorem witness_TallyRecordingCommandsComplete :
    (∃ (s : State) (dt : Nat) (ring : Fin 64) (slot : Nat) (d : Desc), (s.down = false) ∧ ((s.elapse dt).startOp ring.val slot 0x40 0 = some d) ∧ (((s.elapse dt).wakeDomain 9).isOn 9 = true) ∧ (((s.elapse dt).wakeDomain 9).lay.job = none) ∧ (((s.elapse dt).wakeDomain 9).tally.state = .idle) ∧ (((s.elapse dt).wakeDomain 9).tally.late = []) ∧ (((s.elapse dt).wakeDomain 9).startWaiting = none) ∧ (((((((((s.elapse dt).wakeDomain 9).padFree .tally).onTally (fun t => { t with chunks := [], region := 0, pages := 0 })).start d).padAsk 5 (d.num 12 4) .tally).tallySettle).padOf .tally).isSome = true ∨ (((((((s.elapse dt).wakeDomain 9).padFree .tally).onTally (fun t => { t with chunks := [], region := 0, pages := 0 })).start d).padAsk 5 (d.num 12 4) .tally).tallySettle).stageWait ≠ 0)) ∧
    (∃ (s : State) (dt : Nat) (ring : Fin 64) (slot : Nat) (d : Desc), (s.down = false) ∧ ((s.elapse dt).startOp ring.val slot 0x40 1 = some d) ∧ (((s.elapse dt).wakeDomain 9).isOn 9 = true) ∧ (((s.elapse dt).wakeDomain 9).tally.state = .recording)) ∧
    (∃ (s : State) (dt : Nat), (s.down = false) ∧ ((s.elapse dt).tally.state = .recording) ∧ ((s.elapse dt).tally.opened ≠ []) ∧ ((s.elapse dt).tally.openedAt + orIfZero ((s.elapse dt).f Fld.TALLY_CHUNK_CFG_chunk_ms) 1 * 1000000 ≤ (s.elapse dt).now)) ∧
    (∃ (s : State) (dt : Nat) (n : Nat), (s.down = false) ∧ ((s.elapse dt).tally.state = .recording) ∧ (0 < n)) ∧
    (∃ (s : State) (dt : Nat) (ring : Fin 64) (slot : Nat) (list : List PageEnt) (d : Desc), (s.down = false) ∧ ((s.elapse dt).startOp ring.val slot 0x40 2 = some d) ∧ (((s.elapse dt).wakeDomain 9).isOn 9 = true) ∧ (d.hostOut list = some true) ∧ ((((s.elapse dt).wakeDomain 9).tally.chunks.filter (fun c => decide ((if d.num 16 4 = 0xFFFFFFFF then ((s.elapse dt).wakeDomain 9).tally.exported else d.num 16 4) ≤ c.num))) ≠ [])) ∧
    (∃ (s : State) (dt : Nat) (data : Word), (s.down = false) ∧ ((s.elapse dt).writeOpen 1 Reg.TALLY_SNAP_CTRL.off = true) ∧ (((s.elapse dt).noteWrite 1 Reg.TALLY_SNAP_CTRL.off data.toNat).isOn 9 = true)) ∧
    (∃ (s : State) (dt : Nat) (ring : Fin 64) (slot : Nat) (list : List PageEnt) (d : Desc), (s.down = false) ∧ ((s.elapse dt).startOp ring.val slot 0x40 4 = some d) ∧ (((s.elapse dt).wakeDomain 9).isOn 9 = true) ∧ (d.hostOut list = some true)) :=
  ⟨⟨(holding (dsc 0x40 []) (R.onSys (fun x => { x with ready := true }))), 0, 0, 0, (dsc 0x40 []), by decide +kernel⟩,
    ⟨(holding (dsc 0x40 [(8, 1)]) (R.onTally (fun t => { t with state := .recording }))), 0, 0, 0, (dsc 0x40 [(8, 1)]), by decide +kernel⟩,
    ⟨((later 100000000000).onTally (fun t => { t with state := .recording, opened := [entry0] })), 0, by decide +kernel⟩,
    ⟨(R.onTally (fun t => { t with state := .recording })), 0, 1, by decide +kernel⟩,
    ⟨(holding (dsc 0x40 [(8, 2)]) (R.onTally (fun t => { t with chunks := [⟨0, 0, 0, [], [], 0, false⟩] }))), 0, 0, 0, [], (dsc 0x40 [(8, 2)]), by decide +kernel⟩,
    ⟨(R), 0, 0, by decide +kernel⟩,
    ⟨(holding (dsc 0x40 [(8, 4)]) R), 0, 0, 0, [], (dsc 0x40 [(8, 4)]), by decide +kernel⟩⟩

theorem witness_ReplayCommandsComplete :
    (∃ (s : State) (dt : Nat) (ring : Fin 64) (slot : Nat) (list : List PageEnt) (data : List Byte) (d : Desc) (b : List Byte), (s.down = false) ∧ ((s.elapse dt).startOp ring.val slot 0x40 3 = some d) ∧ (((s.elapse dt).wakeDomain 9).isOn 9 = true) ∧ (((s.elapse dt).wakeDomain 9).replayPermitted = true) ∧ (((s.elapse dt).wakeDomain 9).lay.job = none) ∧ (((s.elapse dt).wakeDomain 9).anyBarLive = false) ∧ (((s.elapse dt).wakeDomain 9).tally.state = .idle) ∧ (bitOf (d.byte 9) 1 = true → d.hostIn list data = some (0, b))) ∧
    (∃ (s : State) (dt : Nat) (e : Entry) (es : List Entry), (s.down = false) ∧ ((s.elapse dt).replaying = true) ∧ ((s.elapse dt).replayBlocked = false) ∧ ((s.elapse dt).tally.play = e :: es) ∧ ((s.elapse dt).entryAt e ≤ (s.elapse dt).tally.clock)) ∧
    (∃ (s : State) (dt : Nat), (s.down = false) ∧ ((s.elapse dt).replayBlocked = true) ∧ ((s.elapse dt).tally.haltSaid = false) ∧ ((s.elapse dt).tally.haltedAt + (s.elapse dt).replayWait / 2 ≤ (s.elapse dt).now)) ∧
    (∃ (s : State) (dt : Nat) (e : Entry), (s.down = false) ∧ ((s.elapse dt).tally.expected.find? (fun e => decide (e.kind = 0x60)) = some e) ∧ ((s.elapse dt).replayBlocked = true) ∧ ((s.elapse dt).tally.haltedAt + (s.elapse dt).replayWait ≤ (s.elapse dt).now)) ∧
    (∃ (s : State) (dt : Nat), (s.down = false) ∧ ((s.elapse dt).writeOpen 1 Reg.TALLY_CTRL.off = true) ∧ (((s.elapse dt).noteWrite 1 Reg.TALLY_CTRL.off (putBits ((s.elapse dt).reg Reg.TALLY_CTRL) 31 31 1)).replaying = true) ∧ (((s.elapse dt).noteWrite 1 Reg.TALLY_CTRL.off (putBits ((s.elapse dt).reg Reg.TALLY_CTRL) 31 31 1)).isOn 9 = true)) ∧
    (∃ (s : State) (dt : Nat), (s.down = false) ∧ ((s.elapse dt).sec.session.any (fun t => decide (t ≤ (s.elapse dt).now)) = true) ∧ ((s.elapse dt).replaying = true) ∧ ((s.elapse dt).sec.lc = .provisioned ∨ (s.elapse dt).sec.lc = .field)) ∧
    (∃ (s : State) (dt : Nat), (s.down = false)) :=
  ⟨⟨(holding (dsc 0x40 [(8, 3)]) (R.onSec (fun x => { x with lc := .factory }))), 0, 0, 0, [], [], (dsc 0x40 [(8, 3)]), [], by decide +kernel⟩,
    ⟨(R.onTally (fun t => { t with state := .replay, play := [entry0] })), 0, entry0, [], by decide +kernel⟩,
    ⟨(waiting), 0, by decide +kernel⟩,
    ⟨(waiting), 0, grant0, by decide +kernel⟩,
    ⟨(R.onTally (fun t => { t with state := .replay })), 0, by decide +kernel⟩,
    ⟨((R.onTally (fun t => { t with state := .replay })).onSec (fun x => { x with lc := .field, session := some 0 })), 0, by decide +kernel⟩,
    ⟨(R), 0, by decide +kernel⟩⟩

theorem witness_WheelCommandsComplete :
    (∃ (s : State) (dt : Nat) (wheel : Fin 2) (cfg : Word), (s.down = false) ∧ ((s.elapse dt).writeOpen 1 (Reg.BELL_W_CFG wheel.val).off = true) ∧ (((s.elapse dt).noteWrite 1 (Reg.BELL_W_CFG wheel.val).off cfg.toNat).sys.lock = false) ∧ (bitOf cfg.toNat 31 = true) ∧ (16 ≤ (((s.elapse dt).noteWrite 1 (Reg.BELL_W_CFG wheel.val).off cfg.toNat).setReg (Reg.BELL_W_CFG wheel.val) (cfg.toNat &&& 0x803BFFFF)).f (Fld.BELL_W_CFG_pitches wheel.val))) ∧
    (∃ (s : State) (dt : Nat) (wheel : Fin 2) (inputB : Bool) (i : WInput) (t : Nat), (s.down = false) ∧ (i = (if inputB then ((s.elapse dt).wheel wheel.val).b else ((s.elapse dt).wheel wheel.val).a)) ∧ (i.change = some t) ∧ ((s.elapse dt).fb (Fld.BELL_W_CFG_enable wheel.val) = true) ∧ ((s.elapse dt).replaying = false) ∧ ((s.elapse dt).filterNs wheel.val ≤ (s.elapse dt).now - t)) ∧
    (∃ (s : State) (dt : Nat) (wheel : Fin 2), (s.down = false) ∧ (((s.elapse dt).wheel wheel.val).state = .first ∨ ((s.elapse dt).wheel wheel.val).state = .run ∨ ((s.elapse dt).wheel wheel.val).state = .reversing) ∧ ((s.elapse dt).stillNs ≤ (s.elapse dt).now - ((s.elapse dt).wheel wheel.val).edgeAt)) ∧
    (∃ (s : State) (dt : Nat), (s.down = false)) :=
  ⟨⟨(R), 0, 0, 0x80001000, by decide +kernel⟩,
    ⟨(((later 2000).setF (Fld.BELL_W_CFG_enable 0) 1).onWheel 0 (fun x => { x with a := { x.a with change := some 0 } })), 0, 0, false, ({ WInput.reset with change := some 0 }), 0, by decide +kernel⟩,
    ⟨((later 100000000000).onWheel 0 (fun x => { x with state := .run })), 0, 0, by decide +kernel⟩,
    ⟨(R), 0, by decide +kernel⟩⟩

theorem witness_ClockAndEncoderCommandsComplete :
    (∃ (s : State) (dt : Nat) (t : Nat), (s.down = false) ∧ ((s.elapse dt).bell.encEnd = some t) ∧ (t ≤ (s.elapse dt).now) ∧ ((s.elapse dt).bell.encWait = 0)) ∧
    (∃ (s : State) (dt : Nat), (s.down = false) ∧ ((s.elapse dt).bell.pllLock = true)) ∧
    (∃ (s : State) (dt : Nat), (s.down = false)) ∧
    (∃ (s : State) (dt : Nat) (k : Int), (s.down = false) ∧ ((s.elapse dt).encSrc = 2) ∧ (k = (s.elapse dt).bell.hwm / 2 ^ 48) ∧ (ahead 32 (k * 2 ^ 48) ((s.elapse dt).bell.encLine * 2 ^ 48) = true)) :=
  ⟨⟨(R.onBell (fun b => { b with encEnd := some 0 })), 0, 0, by decide +kernel⟩,
    ⟨(R.onBell (fun b => { b with pllLock := true })), 0, by decide +kernel⟩,
    ⟨(R), 0, by decide +kernel⟩,
    ⟨((R.setF Fld.BELL_ENC_CFG_enc_src 2).onBell (fun b => { b with hwm := 2 ^ 48 })), 0, 1, by decide +kernel⟩⟩

theorem witness_FiringCommandsComplete :
    (∃ (s : State) (dt : Nat) (bar : Fin 8) (found : TickCheck), (s.down = false) ∧ ((s.elapse dt).isOn 6 = true) ∧ (((s.elapse dt).bar bar.val).burstNext = none) ∧ ((s.elapse dt).lineDue bar.val ((s.elapse dt).nextTick bar.val) = true)) ∧
    (∃ (s : State) (dt : Nat) (tick : BurstAt) (t : Nat), (s.down = false) ∧ ((s.elapse dt).isOn 6 = true) ∧ (((s.elapse dt).bar tick.bar.val).burstNext = some t) ∧ (t ≤ (s.elapse dt).now) ∧ ((s.elapse dt).lineDue tick.bar.val ((s.elapse dt).nextTick tick.bar.val) = true)) ∧
    (∃ (s : State) (dt : Nat) (bar : Fin 8) (p : Bool × Nat), (s.down = false) ∧ (((s.elapse dt).bar bar.val).pulse = some p) ∧ (p.2 ≤ (s.elapse dt).now)) ∧
    (∃ (s : State) (dt : Nat) (bar : Fin 8) (m : Nat), (s.down = false) ∧ ((s.elapse dt).isOn 6 = true) ∧ (m = max (((s.elapse dt).bar bar.val).nextSend.getD ((s.elapse dt).nextTick bar.val)) ((s.elapse dt).nextTick bar.val)) ∧ ((s.elapse dt).lineDue bar.val (m - (s.elapse dt).aheadLines) = true)) ∧
    (∃ (s : State) (dt : Nat) (bar : Fin 8), (s.down = false) ∧ ((s.elapse dt).writeOpen 1 (Reg.JET_BAR_CTRL bar.val).off = true) ∧ (((s.elapse dt).noteWrite 1 (Reg.JET_BAR_CTRL bar.val).off (putBits ((s.elapse dt).reg (Reg.JET_BAR_CTRL bar.val)) 31 31 1)).crook.state = .clear) ∧ (((s.elapse dt).noteWrite 1 (Reg.JET_BAR_CTRL bar.val).off (putBits ((s.elapse dt).reg (Reg.JET_BAR_CTRL bar.val)) 31 31 1)).fold.held.getD bar.val false = false) ∧ ((((s.elapse dt).noteWrite 1 (Reg.JET_BAR_CTRL bar.val).off (putBits ((s.elapse dt).reg (Reg.JET_BAR_CTRL bar.val)) 31 31 1)).bar bar.val).inUse = true ∨ (((s.elapse dt).noteWrite 1 (Reg.JET_BAR_CTRL bar.val).off (putBits ((s.elapse dt).reg (Reg.JET_BAR_CTRL bar.val)) 31 31 1)).bar bar.val).rings ≠ []) ∧ (((s.elapse dt).noteWrite 1 (Reg.JET_BAR_CTRL bar.val).off (putBits ((s.elapse dt).reg (Reg.JET_BAR_CTRL bar.val)) 31 31 1)).armed bar.val = false)) ∧
    (∃ (s : State) (dt : Nat) (bar : Fin 8), (s.down = false) ∧ ((s.elapse dt).writeOpen 1 (Reg.JET_BAR_CTRL bar.val).off = true) ∧ (((s.elapse dt).noteWrite 1 (Reg.JET_BAR_CTRL bar.val).off (putBits ((s.elapse dt).reg (Reg.JET_BAR_CTRL bar.val)) 31 31 0)).armed bar.val = true)) ∧
    (∃ (s : State) (dt : Nat) (bar : Fin 8) (level : Bool), (s.down = false) ∧ ((s.elapse dt).writeOpen 1 (Reg.JET_BAR_CTRL bar.val).off = true) ∧ (((s.elapse dt).noteWrite 1 (Reg.JET_BAR_CTRL bar.val).off (putBits ((s.elapse dt).reg (Reg.JET_BAR_CTRL bar.val)) 30 30 (b2n level))).crook.state = .clear) ∧ (((s.elapse dt).noteWrite 1 (Reg.JET_BAR_CTRL bar.val).off (putBits ((s.elapse dt).reg (Reg.JET_BAR_CTRL bar.val)) 30 30 (b2n level))).replaying = false)) :=
  ⟨⟨(R.onBell (fun b => { b with hwm := 2 ^ 52 })), 0, 0, (⟨false, false⟩), by decide +kernel⟩,
    ⟨((R.onBell (fun b => { b with hwm := 2 ^ 52 })).onBar 0 (fun x => { x with burstNext := some 0 })), 0, (⟨0, ⟨false, false⟩⟩), 0, by decide +kernel⟩,
    ⟨(R.onBar 0 (fun x => { x with pulse := some (false, 0) })), 0, 0, (false, 0), by decide +kernel⟩,
    ⟨(R.onBell (fun b => { b with hwm := 2 ^ 52 })), 0, 0, 1, by decide +kernel⟩,
    ⟨((R.onBar 0 (fun x => { x with inUse := true })).onCrook (fun c => { c with state := .clear })), 0, 0, by decide +kernel⟩,
    ⟨(R.onBar 0 (fun x => { x with fire := .activeStandby })), 0, 0, by decide +kernel⟩,
    ⟨(R.onCrook (fun c => { c with state := .clear })), 0, 0, false, by decide +kernel⟩⟩

theorem witness_FireLineCommandsComplete :
    (∃ (s : State) (dt : Nat) (bar : Fin 8), (s.down = false) ∧ ((s.elapse dt).writeOpen 1 (Reg.JET_BAR_CTRL bar.val).off = true)) ∧
    (∃ (s : State) (dt : Nat) (bar : Fin 8) (g : Int × Int), (s.down = false) ∧ (((s.elapse dt).bar bar.val).gapAt = some g) ∧ (((s.elapse dt).bar bar.val).drillDue = true) ∧ (((s.elapse dt).bar bar.val).fire = .activeStandby) ∧ ((s.elapse dt).nextTick bar.val = g.1 + 8)) ∧
    (∃ (s : State) (dt : Nat) (bar : Fin 8) (lineB : Bool), (s.down = false) ∧ ((s.elapse dt).writeOpen 1 (Reg.JET_BAR_CTRL bar.val).off = true) ∧ ((((s.elapse dt).noteWrite 1 (Reg.JET_BAR_CTRL bar.val).off ((s.elapse dt).reg (Reg.JET_BAR_CTRL bar.val) ||| (if lineB then 0x4000000 else 0x8000000))).bar bar.val).fire = .activeFailed) ∧ ((((s.elapse dt).noteWrite 1 (Reg.JET_BAR_CTRL bar.val).off ((s.elapse dt).reg (Reg.JET_BAR_CTRL bar.val) ||| (if lineB then 0x4000000 else 0x8000000))).bar bar.val).activeB ≠ lineB)) ∧
    (∃ (s : State) (dt : Nat) (line : FireLine) (b : Nat), (s.down = false) ∧ (b = line.bar.val)) ∧
    (∃ (s : State) (dt : Nat) (bar : Fin 8) (a : Awaiting) (rest : List Awaiting), (s.down = false) ∧ (((if ((s.elapse dt).bar bar.val).testing.any (fun t => t.out.any (fun p => decide (p + (s.elapse dt).echoNs < (s.elapse dt).now))) then (s.elapse dt).testFailed bar.val else (s.elapse dt)).bar bar.val).awaiting = a :: rest) ∧ (a.at_ + (if ((s.elapse dt).bar bar.val).testing.any (fun t => t.out.any (fun p => decide (p + (s.elapse dt).echoNs < (s.elapse dt).now))) then (s.elapse dt).testFailed bar.val else (s.elapse dt)).echoNs < (if ((s.elapse dt).bar bar.val).testing.any (fun t => t.out.any (fun p => decide (p + (s.elapse dt).echoNs < (s.elapse dt).now))) then (s.elapse dt).testFailed bar.val else (s.elapse dt)).now)) ∧
    (∃ (s : State) (dt : Nat) (lane : Fin 32) (pkt : List Byte), (s.down = false)) ∧
    (∃ (s : State) (dt : Nat) (bar : Fin 8) (l : Bool), (s.down = false) ∧ ((s.elapse dt).testMayRun 8 bar.val = true) ∧ ((s.elapse dt).testMayRun 9 bar.val = true) ∧ (((s.elapse dt).bar bar.val).selfTest = some l) ∧ (((s.elapse dt).bar bar.val).testDue = true) ∧ (((s.elapse dt).bar bar.val).gapAt.isSome = true) ∧ (((s.elapse dt).bar bar.val).fire = .activeFailed) ∧ ((s.elapse dt).replaying = false)) :=
  ⟨⟨(R), 0, 0, by decide +kernel⟩,
    ⟨(R.onBar 0 (fun x => { x with gapAt := some (-7, 100), drillDue := true, fire := .activeStandby })), 0, 0, (-7, 100), by decide +kernel⟩,
    ⟨(R.onBar 0 (fun x => { x with fire := .activeFailed })), 0, 0, true, by decide +kernel⟩,
    ⟨(R), 0, (⟨0, false⟩), 0, by decide +kernel⟩,
    ⟨((later 1000000).onBar 0 (fun x => { x with awaiting := [⟨0, false, 0, false⟩] })), 0, 0, (⟨0, false, 0, false⟩), [], by decide +kernel⟩,
    ⟨(R), 0, 0, [], by decide +kernel⟩,
    ⟨(R.onBar 0 (fun x => { x with selfTest := some true, testDue := true, gapAt := some (0, 100), fire := .activeFailed })), 0, 0, true, by decide +kernel⟩⟩

theorem witness_LaneTrainingCommandsComplete :
    (∃ (s : State) (dt : Nat) (lane : Fin 32), (s.down = false) ∧ ((s.elapse dt).writeOpen 1 (Reg.LINK_CTRL lane.val).off = true) ∧ (((s.elapse dt).noteWrite 1 (Reg.LINK_CTRL lane.val).off (putBits ((s.elapse dt).reg (Reg.LINK_CTRL lane.val)) 31 31 1)).fb (Fld.LINK_CTRL_oos lane.val) = false) ∧ (((s.elapse dt).noteWrite 1 (Reg.LINK_CTRL lane.val).off (putBits ((s.elapse dt).reg (Reg.LINK_CTRL lane.val)) 31 31 1)).isOn 6 = true) ∧ ((((s.elapse dt).noteWrite 1 (Reg.LINK_CTRL lane.val).off (putBits ((s.elapse dt).reg (Reg.LINK_CTRL lane.val)) 31 31 1)).lane lane.val).awaiting = false) ∧ ((((s.elapse dt).noteWrite 1 (Reg.LINK_CTRL lane.val).off (putBits ((s.elapse dt).reg (Reg.LINK_CTRL lane.val)) 31 31 1)).lane lane.val).tstate = .off)) ∧
    (∃ (s : State) (dt : Nat) (lane : Fin 32) (out : Bool), (s.down = false) ∧ ((s.elapse dt).writeOpen 1 (Reg.LINK_CTRL lane.val).off = true) ∧ (((s.elapse dt).noteWrite 1 (Reg.LINK_CTRL lane.val).off (putBits ((s.elapse dt).reg (Reg.LINK_CTRL lane.val)) 27 27 (b2n out))).isOn 6 = true) ∧ (out = true)) ∧
    (∃ (s : State) (dt : Nat) (lane : Fin 32), (s.down = false) ∧ ((s.elapse dt).isOn 6 = true) ∧ (((s.elapse dt).lane lane.val).tstate = .quiet) ∧ (10000 ≤ (s.elapse dt).now - ((s.elapse dt).lane lane.val).since)) ∧
    (∃ (s : State) (dt : Nat) (lane : Fin 32) (eq : Word), (s.down = false) ∧ ((s.elapse dt).isOn 6 = true) ∧ (((s.elapse dt).lane lane.val).tstate = .eq) ∧ (100000 ≤ (s.elapse dt).now - ((s.elapse dt).lane lane.val).since)) ∧
    (∃ (s : State) (dt : Nat) (lane : Fin 32), (s.down = false) ∧ ((s.elapse dt).isOn 6 = true) ∧ (((s.elapse dt).lane lane.val).tstate = .eq) ∧ ((if ((s.elapse dt).lane lane.val).seeded then 2000000 else 20000000) ≤ (s.elapse dt).now - ((s.elapse dt).lane lane.val).since)) ∧
    (∃ (s : State) (dt : Nat) (lane : Fin 32), (s.down = false) ∧ ((s.elapse dt).isOn 6 = true) ∧ (((s.elapse dt).lane lane.val).tstate = .lock) ∧ (2000000 ≤ (s.elapse dt).now - ((s.elapse dt).lane lane.val).since)) ∧
    (∃ (s : State) (dt : Nat) (lane : Fin 32) (bytes : List Byte) (corr : Nat) (p : State), (s.down = false) ∧ ((s.elapse dt).isOn 6 = true) ∧ (16 ≤ bytes.length) ∧ (((s.elapse dt).lane lane.val).tstate = .lock ∨ ((s.elapse dt).lane lane.val).tstate = .negotiate ∨ ((s.elapse dt).lane lane.val).tstate = .align) ∧ (((s.elapse dt).lane lane.val).tstate = .lock → leAt bytes 1 1 % 32 = lane.val) ∧ ((s.elapse dt).free = (corr, p))) :=
  ⟨⟨(R), 0, 0, by decide +kernel⟩,
    ⟨(R), 0, 0, true, by decide +kernel⟩,
    ⟨((later 10000).onLane 0 (fun l => { l with tstate := .quiet })), 0, 0, by decide +kernel⟩,
    ⟨((later 100000).onLane 0 (fun l => { l with tstate := .eq })), 0, 0, 0, by decide +kernel⟩,
    ⟨((later 20000000).onLane 0 (fun l => { l with tstate := .eq })), 0, 0, by decide +kernel⟩,
    ⟨((later 2000000).onLane 0 (fun l => { l with tstate := .lock })), 0, 0, by decide +kernel⟩,
    ⟨(R.onLane 0 (fun l => { l with tstate := .negotiate })), 0, 0, (List.replicate 16 0), _, _, by decide +kernel, by decide +kernel, by decide +kernel, by decide +kernel, by decide +kernel, rfl⟩⟩

theorem witness_LaneTrafficCommandsComplete :
    (∃ (s : State) (dt : Nat) (lane : Fin 32) (word : MarkerWord) (k : Nat), (s.down = false) ∧ ((s.elapse dt).isOn 6 = true) ∧ (word.fec = some k) ∧ (((s.elapse dt).lane lane.val).tstate = .active) ∧ (((s.elapse dt).linkBar (lane.val / 4)).us = .awake) ∧ (((s.elapse dt).lane lane.val).markerGood lane.val word.bytes = true) ∧ ((((s.elapse dt).markerFec lane.val word.fec).lane lane.val).inPair = true)) ∧
    (∃ (s : State) (dt : Nat) (lane : Fin 32), (s.down = false) ∧ ((s.elapse dt).isOn 6 = true) ∧ (((s.elapse dt).lane lane.val).tstate = .active) ∧ (((s.elapse dt).linkBar (lane.val / 4)).us = .awake)) ∧
    (∃ (s : State) (dt : Nat) (lane : Fin 32) (symbols : List Nat), (s.down = false) ∧ ((s.elapse dt).isOn 6 = true) ∧ (((s.elapse dt).lane lane.val).tstate = .active) ∧ (((s.elapse dt).linkBar (lane.val / 4)).us ≠ .asleep) ∧ (symbols.length = 2720)) ∧
    (∃ (s : State) (dt : Nat) (lane : Fin 32), (s.down = false) ∧ ((s.elapse dt).isOn 6 = true) ∧ (((s.elapse dt).linkBar (lane.val / 4)).us = .awake)) ∧
    (∃ (s : State) (dt : Nat) (lane : Fin 32), (s.down = false) ∧ ((s.elapse dt).isOn 6 = true) ∧ ((s.elapse dt).f Fld.LINK_FEC_WARN_fec_warn ≠ 0) ∧ ((s.elapse dt).f Fld.LINK_FEC_WARN_fec_warn < ((s.elapse dt).lane lane.val).corrMs (s.elapse dt).now) ∧ (((s.elapse dt).lane lane.val).fecWarned = false)) :=
  ⟨⟨(R.onLane 0 (fun l => { l with tstate := .active, inPair := true })), 0, 0, (⟨some 0, markerPattern ++ List.replicate 634 0⟩), 0, by decide +kernel⟩,
    ⟨(active), 0, 0, by decide +kernel⟩,
    ⟨(active), 0, 0, (List.replicate 2720 0), by decide +kernel⟩,
    ⟨(R), 0, 0, by decide +kernel⟩,
    ⟨((R.setF Fld.LINK_FEC_WARN_fec_warn 1).onLane 0 (fun l => { l with corrAt := [(0, 2)] })), 0, 0, by decide +kernel⟩⟩

theorem witness_BarCfgCommandsComplete :
    (∃ (s : State) (dt : Nat) (ring : Fin 64) (slot : Nat) (d : Desc), (s.down = false) ∧ ((s.elapse dt).startOp ring.val slot 0x22 0 = some d) ∧ (((s.elapse dt).wakeDomain 6).isOn 6 = true) ∧ ((scopeBars (d.byte 9)).any (fun b => ((s.elapse dt).wakeDomain 6).armed b) = false) ∧ ((scopeBars (d.byte 9)).any (fun b => ((s.elapse dt).wakeDomain 6).outOfService b) = false)) ∧
    (∃ (s : State) (dt : Nat) (ring : Fin 64) (slot : Nat) (d : Desc), (s.down = false) ∧ ((s.elapse dt).startOp ring.val slot 0x22 1 = some d) ∧ (((s.elapse dt).wakeDomain 6).isOn 6 = true)) ∧
    (∃ (s : State) (dt : Nat) (ring : Fin 64) (slot : Nat) (d : Desc), (s.down = false) ∧ ((s.elapse dt).startOp ring.val slot 0x22 2 = some d) ∧ (((s.elapse dt).wakeDomain 6).isOn 6 = true)) ∧
    (∃ (s : State) (dt : Nat) (ring : Fin 64) (slot : Nat) (d : Desc), (s.down = false) ∧ ((s.elapse dt).startOp ring.val slot 0x22 3 = some d) ∧ (((s.elapse dt).wakeDomain 6).isOn 6 = true)) ∧
    (∃ (s : State) (dt : Nat) (ring : Fin 64) (slot : Nat) (d : Desc), (s.down = false) ∧ ((s.elapse dt).startOp ring.val slot 0x22 4 = some d) ∧ (((s.elapse dt).wakeDomain 6).isOn 6 = true)) ∧
    (∃ (s : State) (dt : Nat) (lane : Fin 32) (pkt : List Byte), (s.down = false)) ∧
    (∃ (s : State) (dt : Nat) (lane : Fin 32) (pkt : List Byte), (s.down = false)) ∧
    (∃ (s : State) (dt : Nat) (bar : Fin 8) (ctag : Nat) (r : HubReq), (s.down = false) ∧ ((s.elapse dt).isOn 6 = true) ∧ ((s.elapse dt).link.reqs.find? (fun r => decide (r.ctag = ctag) && bitOf r.bars bar.val && !bitOf (r.acked ||| r.naked) bar.val && !(s.elapse dt).queuedPkt r.pkt && decide (orIfZero ((s.elapse dt).f Fld.LINK_GLOBAL_cfg_timeout) 1 * 1000 ≤ (s.elapse dt).now - r.since)) = some r) ∧ (r.tries < 2)) :=
  ⟨⟨(holding (dsc 0x22 []) R), 0, 0, 0, (dsc 0x22 []), by decide +kernel⟩,
    ⟨(holding (dsc 0x22 [(8, 1)]) R), 0, 0, 0, (dsc 0x22 [(8, 1)]), by decide +kernel⟩,
    ⟨(holding (dsc 0x22 [(8, 2)]) R), 0, 0, 0, (dsc 0x22 [(8, 2)]), by decide +kernel⟩,
    ⟨(holding (dsc 0x22 [(8, 3)]) R), 0, 0, 0, (dsc 0x22 [(8, 3)]), by decide +kernel⟩,
    ⟨(holding (dsc 0x22 [(8, 4)]) R), 0, 0, 0, (dsc 0x22 [(8, 4)]), by decide +kernel⟩,
    ⟨(R), 0, 0, [], by decide +kernel⟩,
    ⟨(R), 0, 0, [], by decide +kernel⟩,
    ⟨((later 1000000000).onLink (fun l => { l with reqs := [⟨0, false, 1, 0, 0, 1, 0, 0, false, 0, [], false⟩] })), 0, 0, 0, (⟨0, false, 1, 0, 0, 1, 0, 0, false, 0, [], false⟩), by decide +kernel⟩⟩

theorem witness_SleepCommandsComplete :
    (∃ (s : State) (dt : Nat) (lane : Fin 32) (pkt : List Byte), (s.down = false)) ∧
    (∃ (s : State) (dt : Nat) (lane : Fin 32) (pkt : List Byte), (s.down = false)) ∧
    (∃ (s : State) (dt : Nat) (bar : Fin 8), (s.down = false) ∧ ((s.elapse dt).isOn 6 = true) ∧ ((s.elapse dt).fb (Fld.LINK_BAR_CTRL_ds_sleep_en bar.val) = true) ∧ ((((s.elapse dt).bar bar.val).fire = .disarmed ∧ (s.elapse dt).sleepAfter bar.val ≤ (s.elapse dt).now - ((s.elapse dt).linkBar bar.val).offSince) ∨ ((s.elapse dt).linkBar bar.val).farSince.any (fun t => decide ((s.elapse dt).sleepAfter bar.val ≤ (s.elapse dt).now - t)) = true) ∧ (((s.elapse dt).linkBar bar.val).ds = .awake) ∧ (((s.elapse dt).linkBar bar.val).dsPending = false) ∧ (((s.elapse dt).linkBar bar.val).dsOver = false) ∧ ((s.elapse dt).quietDown bar.val = true)) ∧
    (∃ (s : State) (dt : Nat) (bar : Fin 8), (s.down = false) ∧ ((s.elapse dt).isOn 6 = true) ∧ ((s.elapse dt).fb (Fld.LINK_BAR_CTRL_us_sleep_en bar.val) = true) ∧ (((s.elapse dt).bar bar.val).fire = .disarmed) ∧ (((s.elapse dt).linkBar bar.val).us = .awake) ∧ (((s.elapse dt).linkBar bar.val).usPending = false) ∧ (((s.elapse dt).linkBar bar.val).usOver = false) ∧ ((s.elapse dt).sleepAfter bar.val ≤ (s.elapse dt).now - ((s.elapse dt).linkBar bar.val).offSince)) ∧
    (∃ (s : State) (dt : Nat) (bar : Fin 8) (upstream : Bool), (s.down = false) ∧ ((s.elapse dt).isOn 6 = true) ∧ ((if upstream then ((s.elapse dt).linkBar bar.val).us ≠ .awake else ((s.elapse dt).linkBar bar.val).ds = .waking ∧ 6000 ≤ (s.elapse dt).now - ((s.elapse dt).linkBar bar.val).wakeSince))) ∧
    (∃ (s : State) (dt : Nat) (bar : Fin 8) (upstream : Bool) (lane : Fin 32), (s.down = false) ∧ (((s.elapse dt).lane lane.val).inPair = true) ∧ ((s.elapse dt).isOn 6 = true) ∧ (lane.val / 4 = bar.val) ∧ ((if upstream then ((s.elapse dt).linkBar bar.val).us = .waking ∧ 12000 < (s.elapse dt).now - ((s.elapse dt).linkBar bar.val).usWakeAt else ((s.elapse dt).linkBar bar.val).ds = .waking ∧ 12000 < (s.elapse dt).now - ((s.elapse dt).linkBar bar.val).wakeSince))) :=
  ⟨⟨(R), 0, 0, [], by decide +kernel⟩,
    ⟨(R), 0, 0, [], by decide +kernel⟩,
    ⟨((later 1000000000).setF (Fld.LINK_BAR_CTRL_ds_sleep_en 0) 1), 0, 0, by decide +kernel⟩,
    ⟨((later 1000000000).setF (Fld.LINK_BAR_CTRL_us_sleep_en 0) 1), 0, 0, by decide +kernel⟩,
    ⟨((later 6000).onLinkBar 0 (fun l => { l with ds := .waking })), 0, 0, false, by decide +kernel⟩,
    ⟨(((later 12001).onLinkBar 0 (fun l => { l with ds := .waking })).onLane 0 (fun l => { l with inPair := true })), 0, 0, false, 0, by decide +kernel⟩⟩

theorem witness_CameraDescriptorsComplete :
    (∃ (s : State) (dt : Nat) (ring : Fin 64) (slot : Nat) (list : List PageEnt) (data : List Byte) (d : Desc) (b : List Byte), (s.down = false) ∧ ((s.elapse dt).camStart ring.val slot 0 = some d) ∧ (((s.elapse dt).wakeDomain 7).isOn 7 = true) ∧ (d.hostIn list data = some (0, b)) ∧ (contextOk ((((s.elapse dt).wakeDomain 7).readHost d list).camPort (d.byte 9)).columns b = true)) ∧
    (∃ (s : State) (dt : Nat) (ring : Fin 64) (slot : Nat) (list : List PageEnt) (data : List Byte) (d : Desc) (b : List Byte), (s.down = false) ∧ ((s.elapse dt).camStart ring.val slot 1 = some d) ∧ (((s.elapse dt).wakeDomain 7).isOn 7 = true) ∧ (d.hostIn list data = some (0, b)) ∧ (defectOk b = true)) ∧
    (∃ (s : State) (dt : Nat) (ring : Fin 64) (slot : Nat) (list : List PageEnt) (data : List Byte) (d : Desc) (b : List Byte), (s.down = false) ∧ ((s.elapse dt).camStart ring.val slot 2 = some d) ∧ (((s.elapse dt).wakeDomain 7).isOn 7 = true) ∧ (d.hostIn list data = some (0, b)) ∧ (shadingOk b = true)) ∧
    (∃ (s : State) (dt : Nat) (ring : Fin 64) (slot : Nat) (list : List PageEnt) (d : Desc), (s.down = false) ∧ ((s.elapse dt).camStart ring.val slot 3 = some d) ∧ (((s.elapse dt).wakeDomain 7).isOn 7 = true) ∧ (d.hostOut list = some true)) ∧
    (∃ (s : State) (dt : Nat) (ring : Fin 64) (slot : Nat) (d : Desc), (s.down = false) ∧ ((s.elapse dt).startable ring.val slot 0x32 = some d) ∧ (((s.elapse dt).wakeDomain 7).isOn 7 = true) ∧ ((((s.elapse dt).wakeDomain 7).camPort (d.byte 8)).enabled = true)) ∧
    (∃ (s : State) (dt : Nat) (bus : Fin 2) (outcome : Fin 3) (o : Nat) (d : Desc), (s.down = false) ∧ (((s.elapse dt).see.buses.getD bus.val ⟨[], none⟩).busy = some o) ∧ (({ (s.elapse dt) with see := { (s.elapse dt).see with buses := (s.elapse dt).see.buses.modify bus.val (fun b => { b with busy := none }) } }).descAt o = some d) ∧ (outcome.val = 0)) :=
  ⟨⟨(holding (dsc 0x31 [(48, 192)]) R), 0, 0, 0, ([⟨0, 0, 0⟩]), context0, (dsc 0x31 [(48, 192)]), context0, by decide +kernel⟩,
    ⟨(holding (dsc 0x31 [(8, 1), (48, 16)]) R), 0, 0, 0, ([⟨0, 0, 0⟩]), (List.replicate 16 0), (dsc 0x31 [(8, 1), (48, 16)]), (List.replicate 16 0), by decide +kernel⟩,
    ⟨(holding (dsc 0x31 [(8, 2), (48, 16)]) R), 0, 0, 0, ([⟨0, 0, 0⟩]), (List.replicate 16 0), (dsc 0x31 [(8, 2), (48, 16)]), (List.replicate 16 0), by decide +kernel⟩,
    ⟨(holding (dsc 0x31 [(8, 3)]) R), 0, 0, 0, [], (dsc 0x31 [(8, 3)]), by decide +kernel⟩,
    ⟨(holding (dsc 0x32 []) (R.onPort 0 (fun p => { p with enabled := true }))), 0, 0, 0, (dsc 0x32 []), by decide +kernel⟩,
    ⟨((holding (dsc 0x32 []) R).onSee (fun x => { x with buses := [⟨[], some 0⟩, ⟨[], none⟩] })), 0, 0, 0, 0, (dsc 0x32 []), by decide +kernel⟩⟩

theorem witness_CameraCommandsComplete :
    (∃ (s : State) (dt : Nat) (port : Fin 6) (cfg : Word), (s.down = false) ∧ ((s.elapse dt).writeOpen 1 (Reg.SEE_PORT_CFG port.val).off = true) ∧ (((s.elapse dt).noteWrite 1 (Reg.SEE_PORT_CFG port.val).off cfg.toNat).isOn 7 = true) ∧ (bitOf cfg.toNat 31 = true) ∧ ((((s.elapse dt).noteWrite 1 (Reg.SEE_PORT_CFG port.val).off cfg.toNat).camPort port.val).enabled = false) ∧ (portCfgOk port.val (bits cfg.toNat 14 12) (bits cfg.toNat 21 16) (((s.elapse dt).noteWrite 1 (Reg.SEE_PORT_CFG port.val).off cfg.toNat).reg (Reg.SEE_PORT_GEOM port.val) % 65536) = true)) ∧
    (∃ (s : State) (dt : Nat) (port : Fin 6), (s.down = false) ∧ ((s.elapse dt).portLive port.val = true) ∧ (((s.elapse dt).camPort port.val).inFrame = false)) ∧
    (∃ (s : State) (dt : Nat) (port : Fin 6) (data : List Byte) (k : CsiPkt), (s.down = false) ∧ ((s.elapse dt).portLive port.val = true) ∧ (csiParse data = some (k, false)) ∧ (k.vc = ((s.elapse dt).camPort port.val).vc) ∧ (k.dtype = ((s.elapse dt).camPort port.val).dtype) ∧ (((s.elapse dt).camPort port.val).inFrame = true)) ∧
    (∃ (s : State) (dt : Nat) (port : Fin 6), (s.down = false) ∧ ((s.elapse dt).portLive port.val = true) ∧ (((s.elapse dt).camPort port.val).inFrame = true) ∧ (((s.elapse dt).camPort port.val).frameLines ≤ ((s.elapse dt).camPort port.val).lineNo)) ∧
    (∃ (s : State) (dt : Nat) (port : Fin 6), (s.down = false) ∧ ((s.elapse dt).portLive port.val = true) ∧ (((s.elapse dt).camPort port.val).silent = false) ∧ ((s.elapse dt).f (Fld.SEE_PORT_TIMEOUT_frame_timeout port.val) ≠ 0) ∧ ((s.elapse dt).source.state ≠ .still) ∧ (max ((s.elapse dt).camPort port.val).fsAt (s.elapse dt).bell.moveAt + (s.elapse dt).f (Fld.SEE_PORT_TIMEOUT_frame_timeout port.val) * 1000000 ≤ (s.elapse dt).now)) ∧
    (∃ (s : State) (dt : Nat) (pipe : Fin 4) (c : Nat), (s.down = false) ∧ ((s.elapse dt).isOn 7 = true) ∧ (((s.elapse dt).camPort pipe.val).fifo ≠ [] ∧ c = 0 ∨ ((s.elapse dt).camPort pipe.val).fifo = [] ∧ 2 ≤ pipe.val ∧ ((s.elapse dt).camPort (pipe.val + 2)).fifo ≠ [] ∧ c = 1)) ∧
    (∃ (s : State) (dt : Nat) (port : Fin 6) (value : Word) (ok : Bool), (s.down = false) ∧ ((s.elapse dt).isOn 7 = true) ∧ (((s.elapse dt).camPort port.val).enabled = true) ∧ ((s.elapse dt).fb (Fld.SEE_PORT_TEMPCFG_temp_en port.val) = true) ∧ (((s.elapse dt).see.buses.getD ((s.elapse dt).camPort port.val).bus ⟨[], none⟩).busy = none)) :=
  ⟨⟨(R.setReg (Reg.SEE_PORT_GEOM 0) 0x1000100), 0, 0, 0x802A1000, by decide +kernel⟩,
    ⟨(camera), 0, 0, by decide +kernel⟩,
    ⟨(camera.onPort 0 (fun p => { p with inFrame := true })), 0, 0, ([0, 0, 0, 0, 255, 255]), (⟨0, 0, [], true⟩), by decide +kernel⟩,
    ⟨(camera.onPort 0 (fun p => { p with inFrame := true })), 0, 0, by decide +kernel⟩,
    ⟨(((camera.setF (Fld.SEE_PORT_TIMEOUT_frame_timeout 0) 1).onWheel 0 (fun x => { x with state := .run })) |> (fun s => { s with now := 1000000 })), 0, 0, by decide +kernel⟩,
    ⟨(R.onPort 0 (fun p => { p with fifo := [default] })), 0, 0, 0, by decide +kernel⟩,
    ⟨(camera.setF (Fld.SEE_PORT_TEMPCFG_temp_en 0) 1), 0, 0, 0, false, by decide +kernel⟩⟩

theorem witness_HoldCommandsComplete :
    (∃ (s : State) (dt : Nat), (s.down = false) ∧ ((s.elapse dt).hold.filling = true) ∧ ((s.elapse dt).hold.waitFill = false)) ∧
    (∃ (s : State) (dt : Nat) (j : Job) (x : Store), (s.down = false) ∧ ((s.elapse dt).lay.job = some j) ∧ ((s.elapse dt).lay.store = some x) ∧ ((s.elapse dt).hold.graze = .awaitGrant) ∧ ((s.elapse dt).droverHas .graze = true) ∧ ((((s.elapse dt).wakeDomain 5).callDram).isOn 5 = true) ∧ ((((s.elapse dt).wakeDomain 5).callDram).dramUp = true) ∧ (((((s.elapse dt).wakeDomain 5).callDram).padRejudge).padMay 1 ((((s.elapse dt).wakeDomain 5).callDram).storePages j x.length) = true) ∧ (((((s.elapse dt).wakeDomain 5).callDram).padRejudge).padFirst 1 = true)) ∧
    (∃ (s : State) (dt : Nat), (s.down = false) ∧ ((s.elapse dt).hold.graze = .running)) ∧
    (∃ (s : State) (dt : Nat), (s.down = false) ∧ ((s.elapse dt).isOn 7 = true) ∧ ((s.elapse dt).hold.changed = true) ∧ ((s.elapse dt).hold.snapAt + orIfZero ((s.elapse dt).f Fld.HOLD_SNAP_snap_s) 1 * 1000000000 ≤ (s.elapse dt).now)) ∧
    (∃ (s : State) (dt : Nat), (s.down = false) ∧ ((s.elapse dt).writeOpen 1 Reg.HOLD_CTRL.off = true) ∧ (((s.elapse dt).noteWrite 1 Reg.HOLD_CTRL.off (putBits ((s.elapse dt).reg Reg.HOLD_CTRL) 4 4 1)).isOn 7 = true)) :=
  ⟨⟨(R.onHold (fun h => { h with filling := true })), 0, by decide +kernel⟩,
    ⟨((((inJob R).onLay (fun l => { l with store := some ⟨0, [], [], [], [], 0, false⟩ })).onHold (fun h => { h with graze := .awaitGrant })).onPower (fun p => { p with grants := [⟨2, 1, .graze, 0, false⟩] }) |> State.onSys (fun x => { x with ready := true })), 0, job1, (⟨0, [], [], [], [], 0, false⟩), by decide +kernel⟩,
    ⟨(R.onHold (fun h => { h with graze := .running })), 0, by decide +kernel⟩,
    ⟨((later 100000000000000).onHold (fun h => { h with changed := true })), 0, by decide +kernel⟩,
    ⟨(R), 0, by decide +kernel⟩⟩

theorem witness_DramUpkeepCommandsComplete :
    (∃ (s : State) (dt : Nat) (channel : Fin 8), (s.down = false) ∧ ((s.elapse dt).chActive channel.val = true) ∧ (((s.elapse dt).channel channel.val).refAt ≤ (s.elapse dt).now)) ∧
    (∃ (s : State) (dt : Nat) (channel : Fin 8) (range : Nat) (ok : Bool), (s.down = false) ∧ ((s.elapse dt).fb Fld.MEMC_CTRL_temp_src = true) ∧ ((s.elapse dt).afterRef channel.val = true) ∧ (((s.elapse dt).channel channel.val).mprAt = 0 ∨ ((s.elapse dt).channel channel.val).mprAt + 1000000 ≤ (s.elapse dt).now)) ∧
    (∃ (s : State) (dt : Nat) (channel : Fin 8), (s.down = false) ∧ ((s.elapse dt).afterRef channel.val = true) ∧ (((s.elapse dt).channel channel.val).zqAt + 128000000 ≤ (s.elapse dt).now)) ∧
    (∃ (s : State) (dt : Nat) (alert : ParityAlert) (n : Nat), (s.down = false) ∧ (n = alert.channel.val) ∧ ((s.elapse dt).chActive n = true)) ∧
    (∃ (s : State) (dt : Nat) (r : Nat) (w : State), (s.down = false) ∧ ((s.elapse dt).dramIdle = true) ∧ ((s.elapse dt).memc.srAt = none) ∧ ((s.elapse dt).memc.idleSince + orIfZero ((s.elapse dt).f Fld.MEMC_SR_IDLE_sr_idle) 1 * 1000 ≤ (s.elapse dt).now) ∧ (((s.elapse dt).payAll (s.elapse dt).now).free = (r, w))) ∧
    (∃ (s : State) (dt : Nat), (s.down = false) ∧ ((s.elapse dt).isOn 4 = true)) :=
  ⟨⟨(dram.setF Fld.MEMC_CTRL_postpone_en 0), 0, 0, by decide +kernel⟩,
    ⟨((dram.setF Fld.MEMC_CTRL_temp_src 1).onChannel 0 (fun c => { c with single := true })), 0, 0, 0, false, by decide +kernel⟩,
    ⟨(({ dram with now := 128000000 }).onChannel 0 (fun c => { c with single := true, stallTo := 128000000 })), 0, 0, by decide +kernel⟩,
    ⟨(dram), 0, (⟨0, none⟩), 0, by decide +kernel⟩,
    ⟨(((later 1000000000).setF Fld.MEMC_CTRL_sr_en 1).onMemc (fun m => { m with trained := true, wipeDone := true })), 0, _, _, by decide +kernel, by decide +kernel, by decide +kernel, by decide +kernel, rfl⟩,
    ⟨(R), 0, by decide +kernel⟩⟩

theorem witness_DramContentCommandsComplete :
    (∃ (s : State) (dt : Nat) (channel : Fin 8) (addr : Nat) (errors : Nat), (s.down = false) ∧ ((s.elapse dt).chActive channel.val = true) ∧ ((s.elapse dt).onChan channel.val (addr / 8 * 8) = true)) ∧
    (∃ (s : State) (dt : Nat) (addr : Nat) (lasting : Bool), (s.down = false) ∧ ((s.elapse dt).testMayRun 26 0 = true) ∧ (addr / 8 * 8 ∈ (s.elapse dt).memc.wordTests) ∧ (lasting = false)) ∧
    (∃ (s : State) (dt : Nat) (errors : List Nat) (uncorrectable : List Nat), (s.down = false) ∧ ((s.elapse dt).dramUp = true) ∧ ((s.elapse dt).f Fld.MEMC_SCRUB_scrub_h ≠ 0) ∧ ((s.elapse dt).droverHas .scrub = true)) ∧
    (∃ (s : State) (dt : Nat), (s.down = false) ∧ ((s.elapse dt).f Fld.MEMC_SCRUB_scrub_h ≠ 0) ∧ ((s.elapse dt).memc.trained = true) ∧ ((s.elapse dt).memc.scrubLate = false) ∧ ((s.elapse dt).memc.scrubSince + (s.elapse dt).f Fld.MEMC_SCRUB_scrub_h * 3600000000000 ≤ (s.elapse dt).now)) ∧
    (∃ (s : State) (dt : Nat) (ok : List Bool), (s.down = false) ∧ (ok.length = 8) ∧ ((s.elapse dt).memc.channels.any (fun c => c.state = .training) = true)) ∧
    (∃ (s : State) (dt : Nat), (s.down = false) ∧ ((s.elapse dt).memc.wipeAt.isSome = true) ∧ ((s.elapse dt).memc.wipeDone = false)) ∧
    (∃ (s : State) (dt : Nat) (data : Word), (s.down = false) ∧ ((s.elapse dt).writeOpen 1 Reg.MEMC_GEOM.off = true) ∧ (((s.elapse dt).noteWrite 1 Reg.MEMC_GEOM.off data.toNat).sys.lock = false) ∧ (((s.elapse dt).noteWrite 1 Reg.MEMC_GEOM.off data.toNat).isOn 4 = true) ∧ (geomRead data.toNat ≠ ((s.elapse dt).noteWrite 1 Reg.MEMC_GEOM.off data.toNat).reg Reg.MEMC_GEOM)) :=
  ⟨⟨(dram), 0, 0, 0, 0, by decide +kernel⟩,
    ⟨(R.onMemc (fun m => { m with wordTests := [0] })), 0, 0, false, by decide +kernel⟩,
    ⟨((R.setF Fld.MEMC_SCRUB_scrub_h 1).onPower (fun p => { p with grants := [⟨6, 1, .scrub, 0, false⟩] })), 0, [], [], by decide +kernel⟩,
    ⟨(((later 3600000000000).setF Fld.MEMC_SCRUB_scrub_h 1).onMemc (fun m => { m with trained := true })), 0, by decide +kernel⟩,
    ⟨(R.onMemc (fun m => { m with channels := m.channels.map (fun c => { c with state := .training }) })), 0, (List.replicate 8 true), by decide +kernel⟩,
    ⟨(R.onMemc (fun m => { m with wipeAt := some 0 })), 0, by decide +kernel⟩,
    ⟨(R), 0, 0, by decide +kernel⟩⟩

theorem witness_PaddockCommandsComplete :
    (∃ (s : State) (dt : Nat) (region : Nat) (g : Region), (s.down = false) ∧ ((s.elapse dt).paddock.regions.find? (fun r => decide (r.id = region)) = some g) ∧ ((∃ c, g.holder = .core c) ∨ g.holder = .sec)) ∧
    (∃ (s : State) (dt : Nat) (page : Nat), (s.down = false) ∧ (runsHas (s.elapse dt).paddock.dirty page = true)) ∧
    (∃ (s : State) (dt : Nat) (data : Word), (s.down = false) ∧ ((s.elapse dt).writeOpen 1 Reg.PAD_RETIRE.off = true) ∧ (((s.elapse dt).noteWrite 1 Reg.PAD_RETIRE.off data.toNat).sys.lock = false) ∧ (((s.elapse dt).noteWrite 1 Reg.PAD_RETIRE.off data.toNat).isOn 4 = true)) :=
  ⟨⟨(R.onPaddock (fun p => { p with regions := [⟨0, 7, .core 1, []⟩] })), 0, 0, (⟨0, 7, .core 1, []⟩), by decide +kernel, by decide +kernel, .inl ⟨1, rfl⟩⟩,
    ⟨(R.onPaddock (fun p => { p with dirty := [(0, 1)] })), 0, 0, by decide +kernel⟩,
    ⟨(R), 0, 0, by decide +kernel⟩⟩

theorem witness_DeflateCommandsComplete :
    (∃ (s : State) (dt : Nat) (ctx : Fin 128) (wrap : Nat) (level : Nat) (deflate : Bool) (expect : Nat) (c : Ctx), (s.down = false) ∧ (ctxFits ctx.val deflate = true) ∧ ((s.elapse dt).dctxOpen ctx.val = false) ∧ ((s.elapse dt).ctxToOpen ctx.val wrap level deflate expect = some c) ∧ ((((s.elapse dt).wakeDomain 9).putCtx ctx.val c).isOn 9 = true)) ∧
    (∃ (s : State) (dt : Nat) (ctx : Fin 128) (data : List Byte) (flush : Nat) (c : Ctx), (s.down = false) ∧ ((s.elapse dt).dctx ctx.val = some c) ∧ (c.own = false) ∧ (c.done = false) ∧ (c.state ≠ .error) ∧ (c.flushes.any (fun f => f.final) = false)) ∧
    (∃ (s : State) (dt : Nat) (ctx : Fin 128) (room : Nat) (c : Ctx), (s.down = false) ∧ ((s.elapse dt).dctx ctx.val = some c) ∧ (c.own = false) ∧ (c.done = false) ∧ (c.state ≠ .error)) ∧
    (∃ (s : State) (dt : Nat) (t : Nat), (s.down = false) ∧ ((s.elapse dt).dfl.saveSince = some t) ∧ ((s.elapse dt).dfl.save = false) ∧ ((s.elapse dt).dfl.saveSaid = false) ∧ (t + 100000000 ≤ (s.elapse dt).now)) :=
  ⟨⟨(R), 0, 64, 0, 0, true, 0, _, by decide +kernel, by decide +kernel, by decide +kernel, rfl, by decide +kernel⟩,
    ⟨(R.onDfl (fun x => { x with ctxs := [(0, ctx0)] })), 0, 0, [], 0, ctx0, by decide +kernel⟩,
    ⟨(R.onDfl (fun x => { x with ctxs := [(0, ctx0)] })), 0, 0, 0, ctx0, by decide +kernel⟩,
    ⟨((later 100000000).onDfl (fun d => { d with saveSince := some 0 })), 0, 0, by decide +kernel⟩⟩

theorem witness_NetFrameCommandsComplete :
    (∃ (s : State) (dt : Nat) (port : Fin 2) (frame : List Byte) (b : List Byte), (s.down = false) ∧ ((s.elapse dt).portUp port.val = true) ∧ ((s.elapse dt).keepFrame port.val frame = some b)) ∧
    (∃ (s : State) (dt : Nat) (port : Fin 2) (frame : List Byte) (e : Nat × Nat × Nat), (s.down = false) ∧ ((s.elapse dt).portUp port.val = true) ∧ ((untag frame).bind ptpEvent = some e)) ∧
    (∃ (s : State) (dt : Nat) (port : Fin 2) (up : Bool), (s.down = false) ∧ ((s.elapse dt).isOn 8 = true) ∧ (up = false ∨ (s.elapse dt).fb (Fld.NET_PORT_CFG_enable port.val) = true)) ∧
    (∃ (s : State) (dt : Nat), (s.down = false) ∧ ((s.elapse dt).ceilPorts ≠ []) ∧ ((s.elapse dt).f Fld.NET_CEIL_CFG_ceil_period ≠ 0) ∧ ((s.elapse dt).net.ceilLastAt + (s.elapse dt).f Fld.NET_CEIL_CFG_ceil_period * 1000000 ≤ (s.elapse dt).now)) ∧
    (∃ (s : State) (dt : Nat), (s.down = false) ∧ ((s.elapse dt).net.ceilWait.isSome = true) ∧ ((s.elapse dt).net.ceilCauseAt.all (fun t => decide (t + 25000 ≤ (s.elapse dt).now)) = true) ∧ ((s.elapse dt).ceilPorts ≠ [])) :=
  ⟨⟨(linked), 0, 0, (frame0 ++ leBytes 4 (crc32 frame0)), frame0, by decide +kernel⟩,
    ⟨(linked), 0, 0, ptp0, (0, 0, 0), by decide +kernel⟩,
    ⟨(R), 0, 0, false, by decide +kernel⟩,
    ⟨(((linked.setF Fld.NET_CEIL_CFG_ceil_ports 1).setF Fld.NET_CEIL_CFG_ceil_period 1) |> (fun s => { s with now := 1000000 })), 0, by decide +kernel⟩,
    ⟨((linked.setF Fld.NET_CEIL_CFG_ceil_ports 1).onNet (fun n => { n with ceilWait := some 0 })), 0, by decide +kernel⟩⟩

theorem witness_TimeCommandsComplete :
    (∃ (s : State) (dt : Nat) (lo : Word), (s.down = false) ∧ ((s.elapse dt).writeOpen 5 Reg.NET_SERVO_OFF_LO.off = true) ∧ ((s.elapse dt).isOn 8 = true) ∧ ((s.elapse dt).replaying = false)) ∧
    (∃ (s : State) (dt : Nat), (s.down = false) ∧ ((s.elapse dt).net.servo = .acquire ∨ (s.elapse dt).net.servo = .locked) ∧ ((s.elapse dt).net.offsetAt + orIfZero ((s.elapse dt).f Fld.NET_LOCK_hold_ms) 1 * 1000000 ≤ (s.elapse dt).now)) ∧
    (∃ (s : State) (dt : Nat), (s.down = false) ∧ ((s.elapse dt).writeOpen 1 Reg.NET_CTRL.off = true) ∧ (((s.elapse dt).noteWrite 1 Reg.NET_CTRL.off 1).isOn 8 = true)) ∧
    (∃ (s : State) (dt : Nat), (s.down = false)) ∧
    (∃ (s : State) (dt : Nat), (s.down = false) ∧ ((s.elapse dt).writeOpen 1 Reg.NET_SNAP_CTRL.off = true) ∧ (((s.elapse dt).noteWrite 1 Reg.NET_SNAP_CTRL.off (putBits ((s.elapse dt).reg Reg.NET_SNAP_CTRL) 0 0 1)).isOn 8 = true)) ∧
    (∃ (s : State) (dt : Nat), (s.down = false) ∧ ((s.elapse dt).writeOpen 1 Reg.NET_SNAP_CTRL.off = true) ∧ (((s.elapse dt).noteWrite 1 Reg.NET_SNAP_CTRL.off (putBits ((s.elapse dt).reg Reg.NET_SNAP_CTRL) 1 1 1)).isOn 8 = true) ∧ (((s.elapse dt).noteWrite 1 Reg.NET_SNAP_CTRL.off (putBits ((s.elapse dt).reg Reg.NET_SNAP_CTRL) 1 1 1)).net.ext < ((s.elapse dt).noteWrite 1 Reg.NET_SNAP_CTRL.off (putBits ((s.elapse dt).reg Reg.NET_SNAP_CTRL) 1 1 1)).reg Reg.NET_SNAP_AT_HI * 2 ^ 32 + ((s.elapse dt).noteWrite 1 Reg.NET_SNAP_CTRL.off (putBits ((s.elapse dt).reg Reg.NET_SNAP_CTRL) 1 1 1)).reg Reg.NET_SNAP_AT_LO)) ∧
    (∃ (s : State) (dt : Nat) (t : Nat), (s.down = false) ∧ (s.net.target = some t) ∧ (t ≤ s.net.ext + dt)) :=
  ⟨⟨(R), 0, 0, by decide +kernel⟩,
    ⟨((later 1000000000000).onNet (fun n => { n with servo := .locked })), 0, by decide +kernel⟩,
    ⟨(R), 0, by decide +kernel⟩,
    ⟨(R), 0, by decide +kernel⟩,
    ⟨(R), 0, by decide +kernel⟩,
    ⟨(R.setReg Reg.NET_SNAP_AT_LO 1), 0, by decide +kernel⟩,
    ⟨(R.onNet (fun n => { n with target := some 0 })), 0, 0, by decide +kernel⟩⟩

theorem witness_DomainCommandsComplete :
    (∃ (s : State) (dt : Nat) (domain : Fin 10) (data : Word) (p : PState), (s.down = false) ∧ ((s.elapse dt).writeOpen 1 (Reg.SYS_PD_CTRL domain.val).off = true) ∧ ((data.toNat % 4 = 1 ∧ p = .retain) ∨ (data.toNat % 4 = 2 ∧ p = .off)) ∧ (((((s.elapse dt).noteWrite 1 (Reg.SYS_PD_CTRL domain.val).off data.toNat).setReg (Reg.SYS_PD_CTRL domain.val) (data.toNat % 4)).domain domain.val).state ≠ p) ∧ ((((s.elapse dt).noteWrite 1 (Reg.SYS_PD_CTRL domain.val).off data.toNat).setReg (Reg.SYS_PD_CTRL domain.val) (data.toNat % 4)).pdForbidden domain.val = 0)) ∧
    (∃ (s : State) (dt : Nat) (domain : Fin 10) (p : PState), (s.down = false) ∧ (((s.elapse dt).domain domain.val).want = some p) ∧ (((s.elapse dt).domain domain.val).state ≠ .up) ∧ ((s.elapse dt).pdForbidden domain.val = 0) ∧ ((s.elapse dt).pdBusy domain.val = false)) ∧
    (∃ (s : State) (dt : Nat) (domain : Fin 10), (s.down = false)) ∧
    (∃ (s : State) (dt : Nat) (domain : Fin 10), (s.down = false) ∧ (((s.elapse dt).domain domain.val).state = .up)) ∧
    (∃ (s : State) (dt : Nat) (domain : Fin 10), (s.down = false) ∧ (((s.elapse dt).domain domain.val).state = .up) ∧ (((s.elapse dt).domain domain.val).since + (if domain.val = 4 then 200000 else 30000) ≤ (s.elapse dt).now)) ∧
    (∃ (s : State) (dt : Nat) (data : Word), (s.down = false) ∧ ((s.elapse dt).writeOpen 1 Reg.SYS_SHELF.off = true) ∧ (bits data.toNat 15 0 = 0x5E1F) ∧ (((s.elapse dt).noteWrite 1 Reg.SYS_SHELF.off data.toNat).anyHv = false)) ∧
    (∃ (s : State) (dt : Nat), (s.power.inShelf = false)) ∧
    (∃ (s : State) (dt : Nat), (s.power.inShelf = true)) :=
  ⟨⟨(R), 0, 5, 1, (.retain), by decide +kernel⟩,
    ⟨(R.onDomain 5 (fun x => { x with want := some .off })), 0, 5, (.off), by decide +kernel⟩,
    ⟨(R), 0, 0, by decide +kernel⟩,
    ⟨(R.onDomain 4 (fun x => { x with state := .up })), 0, 4, by decide +kernel⟩,
    ⟨((later 200000).onDomain 4 (fun x => { x with state := .up })), 0, 4, by decide +kernel⟩,
    ⟨(R), 0, 0x5E1F, by decide +kernel⟩,
    ⟨(R), 0, by decide +kernel⟩,
    ⟨(R.onPower (fun p => { p with inShelf := true })), 0, by decide +kernel⟩⟩

theorem witness_ThermalCommandsComplete :
    (∃ (s : State) (dt : Nat) (mw : List Nat), (s.down = false) ∧ (mw.length = 10)) ∧
    (∃ (s : State) (dt : Nat), (s.down = false) ∧ ((s.elapse dt).therm.started = false)) ∧
    (∃ (s : State) (dt : Nat), (s.down = false) ∧ ((s.elapse dt).therm.pmbOn = true) ∧ ((s.elapse dt).therm.step = none) ∧ ((s.elapse dt).therm.stepAt + 10000000 ≤ (s.elapse dt).now)) ∧
    (∃ (s : State) (dt : Nat) (p : Nat × Nat), (s.down = false) ∧ ((s.elapse dt).therm.step = some p) ∧ (p.2 + (s.elapse dt).f Fld.THERM_VCORE_CFG_settle_us * 1000 ≤ (s.elapse dt).now)) ∧
    (∃ (s : State) (dt : Nat) (p : Nat × Nat), (s.down = false) ∧ ((s.elapse dt).therm.step = some p)) ∧
    (∃ (s : State) (dt : Nat) (value : Nat), (s.down = false) ∧ ((s.elapse dt).therm.pmbOn = true) ∧ ((s.elapse dt).therm.voutAt + 10000000 ≤ (s.elapse dt).now)) ∧
    (∃ (s : State) (dt : Nat) (mode : Word) (vout : Nat), (s.down = false) ∧ ((s.elapse dt).writeOpen 1 Reg.THERM_PMBUS_CFG.off = true) ∧ (((s.elapse dt).noteWrite 1 Reg.THERM_PMBUS_CFG.off (putBits ((s.elapse dt).reg Reg.THERM_PMBUS_CFG) 31 31 1)).sys.lock = false) ∧ (((s.elapse dt).noteWrite 1 Reg.THERM_PMBUS_CFG.off (putBits ((s.elapse dt).reg Reg.THERM_PMBUS_CFG) 31 31 1)).therm.pmbOn = false)) ∧
    (∃ (s : State) (dt : Nat) (value : Int) (ok : Bool), (s.down = false) ∧ ((s.elapse dt).fb Fld.THERM_CTRL_ref_src = false) ∧ (ok = true) ∧ ((s.elapse dt).therm.refRead.any (fun t => decide ((s.elapse dt).now < t + 100000000)) = false)) ∧
    (∃ (s : State) (dt : Nat), (s.down = false) ∧ ((s.elapse dt).therm.refStale = false) ∧ ((s.elapse dt).therm.refAt + orIfZero ((s.elapse dt).f Fld.THERM_REF_CFG_ref_timeout) 1 * 1000000 ≤ (s.elapse dt).now)) ∧
    (∃ (s : State) (dt : Nat), (s.down = false) ∧ ((s.elapse dt).diverged = true) ∧ ((s.elapse dt).therm.divergeSaid = false)) ∧
    (∃ (s : State) (dt : Nat), (s.down = false) ∧ ((s.elapse dt).writeOpen 1 Reg.THERM_CTRL.off = true) ∧ (((s.elapse dt).noteWrite 1 Reg.THERM_CTRL.off (putBits ((s.elapse dt).reg Reg.THERM_CTRL) 3 3 1)).therm.tj < 100 * 64)) :=
  ⟨⟨(R), 0, (List.replicate 10 0), by decide +kernel⟩,
    ⟨(R), 0, by decide +kernel⟩,
    ⟨((later 10000000).onTherm (fun t => { t with pmbOn := true })), 0, by decide +kernel⟩,
    ⟨((later 10000000).onTherm (fun t => { t with step := some (800, 0) })), 0, (800, 0), by decide +kernel⟩,
    ⟨(R.onTherm (fun t => { t with step := some (800, 0) })), 0, (800, 0), by decide +kernel⟩,
    ⟨((later 10000000).onTherm (fun t => { t with pmbOn := true })), 0, 0, by decide +kernel⟩,
    ⟨(R), 0, 0, 0, by decide +kernel⟩,
    ⟨(R.setF Fld.THERM_CTRL_ref_src 0), 0, 0, true, by decide +kernel⟩,
    ⟨(later 1000000000000), 0, by decide +kernel⟩,
    ⟨(((later 100000000).setF Fld.THERM_CTRL_check_en 1).onTherm (fun t => { t with divergeSince := some 0 })), 0, by decide +kernel⟩,
    ⟨(R), 0, by decide +kernel⟩⟩

theorem witness_DroverCommandsComplete :
    (∃ (s : State) (dt : Nat) (q : DReq), (s.down = false) ∧ ((s.elapse dt).droverNext = some q)) ∧
    (∃ (s : State) (dt : Nat) (cls : Nat) (index : Nat) (h : Holder), (s.down = false) ∧ (holderOf cls index = some h) ∧ ((s.elapse dt).stillWorks h = false)) ∧
    (∃ (s : State) (dt : Nat) (index : Nat) (g : DGrant), (s.down = false) ∧ ((s.elapse dt).power.grants[index]? = some g) ∧ (g.longSaid = false) ∧ (g.since + orIfZero ((s.elapse dt).f Fld.DROVER_HOLD_MAX_hold_max) 1 * 1000000000 < (s.elapse dt).now)) ∧
    (∃ (s : State) (dt : Nat) (index : Nat) (q : DReq), (s.down = false) ∧ ((s.elapse dt).power.queue[index]? = some q) ∧ ((s.elapse dt).f Fld.DROVER_WAIT_WARN_wait_warn ≠ 0) ∧ (q.warned = false) ∧ (q.at_ + (s.elapse dt).f Fld.DROVER_WAIT_WARN_wait_warn * 1000 < (s.elapse dt).now)) ∧
    (∃ (s : State) (dt : Nat) (t : Nat), (s.down = false) ∧ ((s.elapse dt).power.overSince = some t) ∧ ((s.elapse dt).power.overSaid = false) ∧ (t + 10000000 ≤ (s.elapse dt).now)) ∧
    (∃ (s : State) (dt : Nat) (core : Fin 4) (data : Word), (s.down = false) ∧ ((s.elapse dt).writeOpen (core.val + 2) Reg.DROVER_FW_REQ.off = true) ∧ (core.val ≠ 0) ∧ (bitOf data.toNat 31 = true)) ∧
    (∃ (s : State) (dt : Nat) (core : Fin 4) (data : Word), (s.down = false) ∧ ((s.elapse dt).writeOpen (core.val + 2) Reg.DROVER_FW_REQ.off = true) ∧ (core.val ≠ 0) ∧ (bitOf data.toNat 30 = true)) :=
  ⟨⟨(R.onPower (fun p => { p with queue := [⟨6, 0, .scrub, 0, 0, false⟩] })), 0, (⟨6, 0, .scrub, 0, 0, false⟩), by decide +kernel⟩,
    ⟨(R), 0, 4, 0, (.upload 0), by decide +kernel⟩,
    ⟨((later 1000000000000).onPower (fun p => { p with grants := [⟨6, 1, .scrub, 0, false⟩] })), 0, 0, (⟨6, 1, .scrub, 0, false⟩), by decide +kernel⟩,
    ⟨(((later 1000000000).setF Fld.DROVER_WAIT_WARN_wait_warn 1).onPower (fun p => { p with queue := [⟨6, 1, .scrub, 0, 0, false⟩] })), 0, 0, (⟨6, 1, .scrub, 0, 0, false⟩), by decide +kernel⟩,
    ⟨((later 10000000).onPower (fun p => { p with overSince := some 0 })), 0, 0, by decide +kernel⟩,
    ⟨(R), 0, 1, 0x80000001, by decide +kernel⟩,
    ⟨(R), 0, 1, 0x40000000, by decide +kernel⟩⟩

theorem witness_FoldCommandsComplete :
    (∃ (s : State) (dt : Nat) (word : Fin 4) (data : Word), (s.down = false) ∧ ((s.elapse dt).writeOpen 1 (Reg.FOLD_FORCE word.val).off = true)) ∧
    (∃ (s : State) (dt : Nat) (data : Word), (s.down = false) ∧ ((s.elapse dt).writeOpen 1 Reg.FOLD_INJECT.off = true) ∧ (bitOf data.toNat 31 = true) ∧ (((s.elapse dt).noteWrite 1 Reg.FOLD_INJECT.off data.toNat).sys.straps.test = true) ∧ (((s.elapse dt).noteWrite 1 Reg.FOLD_INJECT.off data.toNat).sec.lc = .factory) ∧ (sourceExists (bits data.toNat 6 0) = true)) ∧
    (∃ (s : State) (dt : Nat) (data : Word), (s.down = false) ∧ ((s.elapse dt).writeOpen 1 Reg.FOLD_OPEN.off = true)) ∧
    (∃ (s : State) (dt : Nat) (word : Fin 4) (lasting : Bool) (data : Word), (s.down = false) ∧ ((s.elapse dt).writeOpen 1 (if lasting then Reg.FOLD_LASTING word.val else Reg.FOLD_STICKY word.val).off = true)) ∧
    (∃ (s : State) (dt : Nat) (source : Fin 128) (target : Nat) (lasting : Bool), (s.down = false) ∧ ((s.elapse dt).testMayRun source.val target = true) ∧ (source.val ≠ 0 ∧ source.val ≠ 26 ∧ source.val ≠ 8 ∧ source.val ≠ 9 ∧ source.val ≠ 82) ∧ ((s.elapse dt).testPending source.val target = true)) ∧
    (∃ (s : State) (dt : Nat) (store : Nat) (uncorrectable : Bool), (s.down = false) ∧ (uncorrectable = true) ∧ (store % 8 ≠ 7) ∧ (store % 8 ≠ 1)) ∧
    (∃ (s : State) (dt : Nat) (data : Word), (s.down = false) ∧ ((s.elapse dt).writeOpen 1 Reg.CROOK_CTRL.off = true) ∧ (bits data.toNat 31 16 = 0x3C5A) ∧ (bitOf data.toNat 1 = true)) ∧
    (∃ (s : State) (dt : Nat) (data : Word), (s.down = false) ∧ ((s.elapse dt).writeOpen 1 Reg.CROOK_CTRL.off = true) ∧ (bits data.toNat 31 16 = 0x3C5A) ∧ (bitOf data.toNat 0 = true) ∧ (bitOf data.toNat 1 = false) ∧ (((s.elapse dt).noteWrite 1 Reg.CROOK_CTRL.off data.toNat).crook.state ≠ .clear) ∧ (((s.elapse dt).noteWrite 1 Reg.CROOK_CTRL.off data.toNat).mayRelease = true)) :=
  ⟨⟨(R), 0, 0, 0, by decide +kernel⟩,
    ⟨((R.onSys (fun x => { x with straps := { x.straps with test := true } })).onSec (fun x => { x with lc := .factory })), 0, 0x80000001, by decide +kernel⟩,
    ⟨(R), 0, 0, by decide +kernel⟩,
    ⟨(R), 0, 0, false, 0, by decide +kernel⟩,
    ⟨((R.onFold (fun f => { f with tests := [⟨35, 0, 0, false⟩] })).onPower (fun p => { p with grants := [⟨1, 0, .selfTest 35 0, 0, false⟩] })), 0, 35, 0, false, by decide +kernel⟩,
    ⟨(R), 0, 0, true, by decide +kernel⟩,
    ⟨(R), 0, 0x3C5A0002, by decide +kernel⟩,
    ⟨(R.onCrook (fun c => { c with state := .safe })), 0, 0x3C5A0001, by decide +kernel⟩⟩

theorem witness_MailboxCommandsComplete :
    (∃ (s : State) (dt : Nat) (agent : Fin 7) (data : Word), (s.down = false) ∧ (agent.val ≠ 0) ∧ ((s.elapse dt).writeOpen agent.val Reg.MBX_POST.off = true) ∧ (boxReceiver (data.toNat % 16) ≠ agent.val) ∧ ((((s.elapse dt).noteWrite agent.val Reg.MBX_POST.off data.toNat).box (data.toNat % 16)).state ≠ .posted)) ∧
    (∃ (s : State) (dt : Nat) (agent : Fin 7) (box : Fin 16) (data : Word), (s.down = false) ∧ ((s.elapse dt).writeOpen agent.val (Reg.MBX_ACK box.val).off = true) ∧ (agent.val = boxReceiver box.val) ∧ ((((s.elapse dt).noteWrite agent.val (Reg.MBX_ACK box.val).off data.toNat).box box.val).state = .posted) ∧ ((((s.elapse dt).noteWrite agent.val (Reg.MBX_ACK box.val).off data.toNat).box box.val).orphan = false)) ∧
    (∃ (s : State) (dt : Nat) (agent : Fin 7) (box : Fin 16) (data : Word), (s.down = false) ∧ ((s.elapse dt).writeOpen agent.val (Reg.MBX_CLEAR box.val).off = true) ∧ (bitOf data.toNat 0 = true) ∧ ((((s.elapse dt).noteWrite agent.val (Reg.MBX_CLEAR box.val).off data.toNat).box box.val).state = .done) ∧ ((((s.elapse dt).noteWrite agent.val (Reg.MBX_CLEAR box.val).off data.toNat).box box.val).sender = agent.val)) ∧
    (∃ (s : State) (dt : Nat) (box : Fin 16), (s.down = false) ∧ (((s.elapse dt).box box.val).state = .posted) ∧ (boxReceiver box.val ≠ 1) ∧ (((s.elapse dt).box box.val).seen = false) ∧ (((s.elapse dt).box box.val).late = false) ∧ (((s.elapse dt).box box.val).postedAt + (s.elapse dt).wakeLimit * 1000 < (s.elapse dt).now)) ∧
    (∃ (s : State) (dt : Nat) (agent : Fin 7) (stile : Fin 8), (s.down = false) ∧ ((s.elapse dt).answers (Reg.MBX_STILE stile.val).off = true)) ∧
    (∃ (s : State) (dt : Nat) (stile : Fin 8) (data : Word), (s.down = false) ∧ ((s.elapse dt).writeOpen (data.toNat % 16) (Reg.MBX_STILE stile.val).off = true) ∧ ((((s.elapse dt).noteWrite (data.toNat % 16) (Reg.MBX_STILE stile.val).off data.toNat).stile stile.val).owner ≠ 0) ∧ (data.toNat % 16 = (((s.elapse dt).noteWrite (data.toNat % 16) (Reg.MBX_STILE stile.val).off data.toNat).stile stile.val).owner)) ∧
    (∃ (s : State) (dt : Nat) (stile : Fin 8), (s.down = false) ∧ ((s.elapse dt).f Fld.MBX_LIMITS_stile_max ≠ 0) ∧ (((s.elapse dt).stile stile.val).owner ≠ 0) ∧ (((s.elapse dt).stile stile.val).said = false) ∧ (((s.elapse dt).stile stile.val).since + (s.elapse dt).f Fld.MBX_LIMITS_stile_max * 1000 < (s.elapse dt).now)) ∧
    (∃ (s : State) (dt : Nat) (data : Word), (s.down = false) ∧ ((s.elapse dt).writeOpen 1 Reg.MBX_CORE_CTRL.off = true) ∧ (bits data.toNat 31 16 = 0xC0DE)) ∧
    (∃ (s : State) (dt : Nat) (core : Fin 4), (s.down = false) ∧ (((s.elapse dt).mbx.cores.getD core.val ⟨false, 0, 0, false⟩).run = true)) :=
  ⟨⟨(R), 0, 1, 0, by decide +kernel⟩,
    ⟨(R.onBox 0 (fun b => { b with state := .posted })), 0, 2, 0, 0, by decide +kernel⟩,
    ⟨(R.onBox 0 (fun b => { b with state := .done, sender := 1 })), 0, 1, 0, 1, by decide +kernel⟩,
    ⟨((later 1000000000).onBox 0 (fun b => { b with state := .posted })), 0, 0, by decide +kernel⟩,
    ⟨(R), 0, 0, 0, by decide +kernel⟩,
    ⟨(R.onMbx (fun x => { x with stiles := x.stiles.modify 0 (fun _ => ⟨1, 0, false⟩) })), 0, 0, 1, by decide +kernel⟩,
    ⟨(((later 1000000000).setF Fld.MBX_LIMITS_stile_max 1).onMbx (fun x => { x with stiles := x.stiles.modify 0 (fun _ => ⟨1, 0, false⟩) })), 0, 0, by decide +kernel⟩,
    ⟨(R), 0, 0xC0DE0002, by decide +kernel⟩,
    ⟨(R.onMbx (fun m => { m with cores := m.cores.map (fun c => { c with run := true }) })), 0, 0, by decide +kernel⟩⟩

theorem witness_SecurityCommandsComplete :
    (∃ (s : State) (dt : Nat) (data : Word), (s.down = false) ∧ ((s.elapse dt).writeOpen 1 Reg.SEC_TOKEN_CTRL.off = true) ∧ (bitOf data.toNat 0 = true) ∧ (((s.elapse dt).noteWrite 1 Reg.SEC_TOKEN_CTRL.off data.toNat).sec.busy = false) ∧ (((s.elapse dt).noteWrite 1 Reg.SEC_TOKEN_CTRL.off data.toNat).c0Runs = true) ∧ (((s.elapse dt).noteWrite 1 Reg.SEC_TOKEN_CTRL.off data.toNat).sec.trngFail = false)) ∧
    (∃ (s : State) (dt : Nat) (token : List Byte) (nonce : List Byte), (s.down = false) ∧ (token.length = 384) ∧ (nonce.length = 32) ∧ ((s.elapse dt).sec.busy = true) ∧ ((s.elapse dt).sec.readDue = false) ∧ (({ (s.elapse dt) with sec := { (s.elapse dt).sec with busy := false } }).sec.trngFail = false)) ∧
    (∃ (s : State) (dt : Nat), (s.down = false)) ∧
    (∃ (s : State) (dt : Nat) (data : Word), (s.down = false) ∧ ((s.elapse dt).writeOpen 1 Reg.SEC_LOAD_ADDR_HI.off = true) ∧ (((s.elapse dt).noteWrite 1 Reg.SEC_LOAD_ADDR_HI.off data.toNat).sec.recovery = true) ∧ (((s.elapse dt).noteWrite 1 Reg.SEC_LOAD_ADDR_HI.off data.toNat).sec.loading = false)) ∧
    (∃ (s : State) (dt : Nat) (failing : Bool), (s.down = false)) ∧
    (∃ (s : State) (dt : Nat), (s.down = false) ∧ ((s.elapse dt).sec.scope ≠ 0) ∧ ((s.elapse dt).sec.scopeEnd ≤ (s.elapse dt).now)) ∧
    (∃ (s : State) (dt : Nat), (s.down = false) ∧ ((s.elapse dt).sec.pendingLc.isSome = true) ∧ ((s.elapse dt).sys.lcReset.isSome = true)) :=
  ⟨⟨(R.onSys (fun x => { x with c0 := true })), 0, 1, by decide +kernel⟩,
    ⟨(R.onSec (fun x => { x with busy := true })), 0, (List.replicate 384 0), (List.replicate 32 0), by decide +kernel⟩,
    ⟨(R), 0, by decide +kernel⟩,
    ⟨(R.onSec (fun x => { x with recovery := true })), 0, 0, by decide +kernel⟩,
    ⟨(R), 0, false, by decide +kernel⟩,
    ⟨(R.onSec (fun x => { x with scope := 1 })), 0, by decide +kernel⟩,
    ⟨((R.onSec (fun x => { x with pendingLc := some .factory })).onSys (fun x => { x with lcReset := some 0 })), 0, by decide +kernel⟩⟩

theorem witness_MarkPackagesComplete :
    (∃ (s : State) (dt : Nat) (ring : Fin 64) (slot : Nat) (list : List PageEnt) (data : List Byte) (d : Desc) (p : List Byte), (s.down = false) ∧ ((s.elapse dt).markDesc ring.val slot 0 list data = some (d, 0, p))) ∧
    (∃ (s : State) (dt : Nat) (ring : Fin 64) (slot : Nat) (list : List PageEnt) (data : List Byte) (d : Desc) (p : List Byte), (s.down = false) ∧ ((s.elapse dt).markDesc ring.val slot 1 list data = some (d, 0, p))) ∧
    (∃ (s : State) (dt : Nat) (ring : Fin 64) (slot : Nat) (list : List PageEnt) (data : List Byte) (d : Desc) (p : List Byte), (s.down = false) ∧ ((s.elapse dt).markDesc ring.val slot 2 list data = some (d, 0, p))) :=
  ⟨⟨(holding (dsc 0x50 []) R), 0, 0, 0, [], [], (dsc 0x50 []), [], by decide +kernel⟩,
    ⟨(holding (dsc 0x50 [(48, 5)]) R), 0, 0, 0, ([⟨0, 0, 0⟩]), ([0, 0, 0, 0, 1]), (dsc 0x50 [(48, 5)]), ([0, 0, 0, 0, 1]), by decide +kernel⟩,
    ⟨(holding (dsc 0x50 [(48, 5)]) R), 0, 0, 0, ([⟨0, 0, 0⟩]), ([0, 0, 0, 0, 2]), (dsc 0x50 [(48, 5)]), ([0, 0, 0, 0, 2]), by decide +kernel⟩⟩

/-- A locked state with a command that resets the block in front. -/
def lockedReset : State :=
  { R.onSys (fun x => { x with lock := true }) with pending := [.sysReset 0 0xD1E50001, .setupLock 0] }

/-- A state whose latch holds a pending transition, with the reset that completes it in front. -/
def pendingReset : State :=
  { (R.onSys (fun x => { x with lcReset := some 0 })).onSec (fun x => { x with pendingLc := some .factory }) with
    pending := [.lcTransitionReset 0] }

/-- As many descriptors in flight as R43 allows. -/
def fullHouse : State := R.onHif (fun h => { h with inflight := List.replicate 1024 (dsc 0 []) })

/-- HV_EN is high on bar 0. -/
def live : State := R.onBar 0 (fun x => { x with hv := true })

theorem witness_StepRunsTheFrontCommand : ∃ (s : State) (c : Instr) (cs : List Instr), s.pending = c :: cs :=
  ⟨lockedReset, _, _, rfl⟩

theorem witness_EmptyQueueLetsATickPass : ∃ s : State, s.pending = [] := ⟨R, rfl⟩

theorem witness_LifeCycleMovesOnlyAlongTransitions :
    ∃ s t : State, LcSound s ∧ step s = .next t ∧ t.sec.lc = .factory :=
  ⟨pendingReset, _, (by intro t h; cases h; rfl), rfl, by decide +kernel⟩

theorem witness_SetupLockHoldsUntilReset :
    (∃ (s : State) (dt : Nat), s.down = false ∧ (s.elapse dt).writeOpen 1 Reg.SYS_LOCK.off = true) ∧
    (∃ s t : State, s.sys.lock = true ∧ step s = .next t) :=
  ⟨⟨R, 0, by decide +kernel, by decide +kernel⟩, ⟨lockedReset, _, rfl, rfl⟩⟩

theorem witness_CommandsLeaveTheQueue : ∃ (c : Instr) (s t : State), exec c s = .next t :=
  ⟨.setupLock 0, lockedReset, _, rfl⟩

theorem witness_StrapsAreSampledAtPorstRise :
    (∃ (c : Instr) (s t : State), (∀ dt p, c ≠ .porstRise dt p) ∧ exec c s = .next t) ∧
    (∃ (s t : State) (dt : Nat) (p : BitVec 10), s.sys.porst = true ∧ s.power.inShelf = false ∧ exec (.porstRise dt p) s = .next t) :=
  ⟨⟨.setupLock 0, R, _, (by intro _ _ h; cases h), rfl⟩,
    ⟨R.onSys (fun x => { x with porst := true }), _, 0, 0x3FF, rfl, rfl, rfl⟩⟩

theorem witness_WellFormedCommandsNeverStop : ∃ c : Instr, c.wf = true := ⟨.setupLock 0, rfl⟩

theorem witness_NothingHappensWhileDown :
    ∃ (c : Instr) (s t : State), s.down = true ∧ (∀ dt p, c ≠ .porstRise dt p) ∧ (∀ dt, c ≠ .mainRailLoss dt) ∧
      (∀ dt, c ≠ .shelfWake dt) ∧ (∀ dt, c ≠ .tamper dt) ∧ (∀ dt w b l, c ≠ .wheelInputChange dt w b l) ∧ exec c s = .next t :=
  ⟨.setupLock 0, R.onSys (fun x => { x with porst := true }), _, rfl, by
    refine ⟨?_, ?_, ?_, ?_, ?_, rfl⟩ <;> intros <;> exact Instr.noConfusion⟩

theorem witness_HolesReadZeroAndIgnoreWrites :
    (∃ (s : State) (agent : Fin 7) (off : Nat), s.down = false ∧ regAt off = none ∧ agent.val ≠ 0) ∧
    (∃ (s : State) (agent : Fin 7) (off : Nat), s.down = false ∧ regAt off = none ∧ agent.val = 0) :=
  ⟨⟨R, 1, 0x3FFFFFC, rfl, Option.isNone_iff_eq_none.1 (by decide +kernel), by decide⟩,
    ⟨R, 0, 0x3FFFFFC, rfl, Option.isNone_iff_eq_none.1 (by decide +kernel), rfl⟩⟩

theorem witness_DiscardedAccesses :
    (∃ (s : State) (be : BitVec 4), s.down = false ∧ be.toNat ≠ 15) ∧
    (∃ (s : State) (agent : Fin 7) (off d : Nat), s.down = false ∧ regDomain off = some d ∧ (s.elapse 0).isOn d = false ∧ agent.val ≠ 0) ∧
    (∃ (s : State) (agent : Fin 7) (off : Nat), s.down = false ∧ agent.val = 1 ∧ (s.elapse 0).replaying = true ∧
      (s.elapse 0).tally.applying = false ∧ inTally off = false) :=
  ⟨⟨R, 7, rfl, by decide⟩,
    ⟨R.onDomain 9 (fun x => { x with state := .off }), 1, 0x700000, 9, rfl, rfl, by decide +kernel, by decide⟩,
    ⟨waiting, 1, 0x100000, rfl, rfl, by decide +kernel, by decide +kernel, rfl⟩⟩

theorem witness_WrittenBitsFollowTheirAccessCodes :
    (∃ fs : List FieldSpec, ∀ f ∈ fs, f.lo ≤ f.hi) ∧ (∃ k : Nat, k < 32) ∧ (∃ r q : Reg, q.off ≠ r.off) :=
  ⟨⟨[⟨7, 0, .rw⟩, ⟨8, 8, .w1c⟩, ⟨31, 31, .rwl⟩], by decide⟩, ⟨31, by decide⟩, Reg.SYS_LOCK, Reg.SYS_RST, by decide⟩

/-- LAYER_CTRL stands at the first offset of its block. -/
theorem layerCtrl_isSome : (regAt 0x800000).isSome = true := by decide +kernel

theorem witness_PlainRegisterWrites :
    ∃ (s : State) (agent : Fin 7) (off i : Nat) (x : RegSpec), s.down = false ∧ agent.val ≠ 0 ∧ agent.val ≠ 6 ∧
      (s.elapse 0).writeOpen agent.val off = true ∧ regAt off = some (x, i) ∧
      (0x700000 ≤ off ∧ off < 0xA00000 ∨ 0xC00000 ≤ off ∧ off < 0xD00000 ∨ 0xE00000 ≤ off ∧ off < 0xF00000) ∧
      x.id ≠ .JET_BAR_CTRL ∧ x.id ≠ .JET_NH_LIMITS ∧ x.id ≠ .SEE_PORT_CFG :=
  ⟨R, 1, 0x800000, ((regAt 0x800000).get layerCtrl_isSome).2, ((regAt 0x800000).get layerCtrl_isSome).1, rfl, by decide, by decide,
    by decide +kernel, (Option.some_get layerCtrl_isSome).symm, by decide, by decide +kernel, by decide +kernel, by decide +kernel⟩

theorem witness_ResetsLeaveThePressSafe :
    (∃ s t : State, s.down = false ∧ exec (.porstFall 0) s = .next t) ∧
    (∃ (s t : State) (data : Word), s.down = false ∧ (s.elapse 0).writeOpen 1 Reg.SYS_RST.off = true ∧
      bits data.toNat 31 16 = 0xD1E5 ∧ bitOf data.toNat 0 = true ∧ exec (.sysReset 0 data) s = .next t) ∧
    (∃ s t : State, s.down = false ∧ ((s.elapse 0).mbx.cores.getD 0 ⟨false, 0, 0, false⟩).run = true ∧
      exec (.watchdogExpire 0 0) s = .next t) ∧
    (∃ s t : State, s.down = false ∧ (s.elapse 0).sec.pendingLc.isSome = true ∧ (s.elapse 0).sys.lcReset.isSome = true ∧
      exec (.lcTransitionReset 0) s = .next t) ∧
    (∃ s t : State, s.down = false ∧ exec (.mainRailLoss 0) s = .next t) :=
  ⟨⟨live, _, rfl, rfl⟩, ⟨live, _, 0xD1E50001, rfl, by decide +kernel, rfl, rfl, rfl⟩,
    ⟨live.onMbx (fun m => { m with cores := m.cores.modify 0 (fun c => { c with run := true }) }), _, rfl, by decide +kernel, rfl⟩,
    ⟨pendingReset, _, rfl, by decide +kernel, by decide +kernel, rfl⟩, ⟨live, _, rfl, rfl⟩⟩

theorem witness_SysResetNeedsItsKey :
    (∃ (s : State) (data : Word), s.down = false ∧ (s.elapse 0).writeOpen 1 Reg.SYS_RST.off = true ∧ bits data.toNat 31 16 ≠ 0xD1E5) ∧
    (∃ (s : State) (data : Word), s.down = false ∧ (s.elapse 0).writeOpen 1 Reg.SYS_RST.off = true ∧ bitOf data.toNat 0 = false) :=
  ⟨⟨R, 0xD1E40001, rfl, by decide +kernel, by decide⟩, ⟨R, 0xD1E50000, rfl, by decide +kernel, rfl⟩⟩

theorem witness_FetchKeepsTheLimitOfDescriptors :
    (∃ s t : State, s.down = false ∧ (s.elapse 0).inFlight ≤ 1024 ∧ exec (.descriptorFetch 0) s = .next t) ∧
    (∃ s t : State, s.down = false ∧ (s.elapse 0).inFlight = 1024 ∧ exec (.descriptorFetch 0) s = .next t) :=
  ⟨⟨R, _, rfl, by decide +kernel, rfl⟩, ⟨fullHouse, _, rfl, by decide +kernel, rfl⟩⟩

theorem witness_PrintingKeepsItsDomains :
    (∃ (s : State) (domain : Fin 10) (data : Word), s.down = false ∧
      (s.elapse 0).writeOpen 1 (Reg.SYS_PD_CTRL domain.val).off = true ∧ data.toNat % 4 = 2 ∧
      (((s.elapse 0).noteWrite 1 (Reg.SYS_PD_CTRL domain.val).off data.toNat).setReg (Reg.SYS_PD_CTRL domain.val)
        (data.toNat % 4)).anyHv = true ∧
      (((s.elapse 0).noteWrite 1 (Reg.SYS_PD_CTRL domain.val).off data.toNat).setReg (Reg.SYS_PD_CTRL domain.val)
        (data.toNat % 4)).printNeeds domain.val = true ∧
      ((((s.elapse 0).noteWrite 1 (Reg.SYS_PD_CTRL domain.val).off data.toNat).setReg (Reg.SYS_PD_CTRL domain.val)
        (data.toNat % 4)).domain domain.val).state ≠ .off) ∧
    (∃ (s : State) (domain : Fin 10), s.down = false ∧ (s.elapse 0).anyHv = true ∧ (s.elapse 0).printNeeds domain.val = true) :=
  ⟨⟨live, 6, 2, rfl, by decide +kernel, rfl, by decide +kernel, by decide +kernel, by decide +kernel⟩,
    ⟨live, 6, rfl, by decide +kernel, by decide +kernel⟩⟩

theorem witness_LineCodingIsUndone : (∃ gs : List Nat, gs ≠ [] ∧ ∀ g ∈ gs, g < 4) ∧ ∃ sym : Nat, sym < 1024 :=
  ⟨⟨[3, 0, 2, 1], by decide, by decide⟩, ⟨1023, by decide⟩⟩

/-! ### Values of the spec -/

/-- The state of an outcome that is a next state. -/
def after (r : Res) : State :=
  match r with
  | .next t => t
  | .fault _ => R
  | .refused _ => R

/-- HIF_STAGE_WAIT: stage_wait is 100 ms after reset (register table of chapter 2). -/
theorem test_stage_wait_reset : R.reg Reg.HIF_STAGE_WAIT = 100 := by decide +kernel

/-- Its reserved bits 31 to 16 stay 0 (R9). -/
theorem test_stage_wait_write :
    (after (exec (.registerWrite 0 1 0x100020 15 0xABCD1234) R)).reg Reg.HIF_STAGE_WAIT = 0x1234 := by decide +kernel

/-- A write with three byte enables is discarded (R4). -/
theorem test_partial_write :
    (after (exec (.registerWrite 0 1 0x100020 7 0x00001234) R)).reg Reg.HIF_STAGE_WAIT = 100 := by decide +kernel

/-- A read of a hole gives 0 (R5). -/
theorem test_hole : (after (exec (.rcFieldRead 0 1 0x100024C) R)).hif.readData = 0 := by decide +kernel

/-- SYS_RST with its key resets the device: cause 1, SYS_RST (R532, R533). -/
theorem test_sys_reset : (after (exec (.sysReset 0 0xD1E50001) (R.setReg Reg.HIF_STAGE_WAIT 7))).reg Reg.HIF_STAGE_WAIT = 100 := by
  decide +kernel

/-- Before the set-up lock an RWL field takes the data; after it the field keeps its value (R7, R538). -/
theorem test_lock :
    (after (exec (.registerWrite 0 1 0xB00104 15 5) R)).reg (Reg.BELL_W_PITCH_INT 0) = 5 ∧
    (after (exec (.registerWrite 0 1 0xB00104 15 5) (after (exec (.setupLock 0) R)))).reg (Reg.BELL_W_PITCH_INT 0) = 0 := by
  decide +kernel

/-- The transitions of the table of R469, and one that is not there. -/
theorem test_lc_edges :
    lcEdge .blank .factory = true ∧ lcEdge .rma .scrap = true ∧ lcEdge .scrap .blank = false ∧ lcEdge .field .provisioned = false := by
  decide

/-- DEC and Q formats: bits 7 to 4 of 0xA5 are 0xA; bit 31 of a word is its sign. -/
theorem test_bits : bits 0xA5 7 4 = 0xA ∧ bitOf 0x80000000 31 = true ∧ ofTwos 16 0xFFFF = -1 := by decide

/-- The straps as SYS_STRAP lays them out (R530): every bit set. -/
theorem test_straps :
    (after (exec (.porstRise 0 0x3FF) (R.onSys (fun x => { x with porst := true })))).sys.straps = ⟨3, 3, 3, true, true, true⟩ := by
  decide +kernel

/-- The wrap of device time takes the low 32 bits to 0 (R385). -/
theorem test_time_wrap : (after (exec (.timeWrap 0) R)).net.ext % 2 ^ 32 = 0 := by decide +kernel

end Sys2Proof.Tests
end

section
/-! PROOFS. The statements of 00_scope.md: reset, the set-up lock, and how registers are read and written. -/

namespace Sys2Proof.Machine

/-! ### What follows a command: the set-up lock (R10, R538) -/

/-- The commands named here can reset the device, go to Shelf or set the lock; every other command leaves the core of the state as it is, by the
lemma `exec<Command>_core` of its meaning. PORST_RISE, which samples the straps, and TOKEN_DONE, which marks the latch, have lemmas of their
own. -/
theorem exec_leads (c : Instr) (s : State) (hrise : ∀ dt p, c ≠ .porstRise dt p)
    (htoken : ∀ dt token nonce, c ≠ .tokenDone dt token nonce) : Leads s (exec c s) := by
  cases c
  case porstRise dt p => exact absurd rfl (hrise dt p)
  case tokenDone dt token nonce => exact absurd rfl (htoken dt token nonce)
  case registerWrite dt agent off be data => exact execRegisterWrite_leads dt agent off be data s
  case replayEntry dt => exact execReplayEntry_leads dt s
  case setupLock dt => exact execSetupLock_leads dt s
  case porstFall dt => exact execPorstFall_leads dt s
  case sysReset dt data => exact execSysReset_leads dt data s
  case watchdogExpire dt core => exact execWatchdogExpire_leads dt core s
  case lcTransitionReset dt => exact execLcTransitionReset_leads dt s
  case shelfEnter dt data => exact execShelfEnter_leads dt data s
  case mainRailLoss dt => exact execMainRailLoss_leads dt s
  case mramWriteDone dt back => exact execMramWriteDone_leads dt back s
  all_goals exact leads_of_keeps (by simp [exec])

theorem lock_of_core_eq {s t : State} (h : t.core = s.core) : t.sys.lock = s.sys.lock := by
  simp only [State.core_def, Prod.mk.injEq] at h
  exact h.2.2.1

theorem execTokenDone_lock {dt : Nat} {token nonce : List Byte} {s t : State} (h : execTokenDone dt token nonce s = .next t) :
    t.sys.lock = s.sys.lock := by
  obtain hcore | ⟨l, -, hcore⟩ := execTokenDone_spec dt token nonce s t h
  · exact lock_of_core_eq hcore
  · simp only [State.core_def, Prod.mk.injEq] at hcore
    exact hcore.2.2.1

/-- After a command the lock is as it was, or set, or every register is at its reset value. -/
theorem exec_lock {c : Instr} {s t : State} (h : exec c s = .next t) :
    t.sys.lock = s.sys.lock ∨ t.sys.lock = true ∨ t.regs = [] := by
  by_cases hrise : ∃ dt p, c = .porstRise dt p
  · obtain ⟨dt, p, rfl⟩ := hrise
    obtain ⟨-, hlock | hregs, -⟩ := execPorstRise_spec dt p s t h
    · exact .inl hlock
    · exact .inr (.inr hregs)
  by_cases htoken : ∃ dt token nonce, c = .tokenDone dt token nonce
  · obtain ⟨dt, token, nonce, rfl⟩ := htoken
    exact .inl (execTokenDone_lock h)
  · obtain ⟨-, -, hlock, -⟩ := exec_leads c s (fun dt p e => hrise ⟨dt, p, e⟩)
      (fun dt token nonce e => htoken ⟨dt, token, nonce, e⟩) t h
    exact hlock

theorem State.reg_of_regs_nil {s : State} (h : s.regs = []) (r : Reg) : s.reg r = r.rst := by
  simp [State.reg, h, rfGet]

/-- R538: a write of 1 where the block answers. -/
theorem execSetupLock_of_open {dt : Nat} {s : State} (hup : s.down = false) (hopen : (s.elapse dt).writeOpen 1 Reg.SYS_LOCK.off = true) :
    execSetupLock dt s =
      .next (((s.elapse dt).noteWrite 1 Reg.SYS_LOCK.off 1).onSys (fun x => { x with lock := true })) := by
  simp [execSetupLock, hup, hopen]

theorem step_of_pending_nil {s : State} (h : s.pending = []) : step s = .next (s.elapse 1) := by
  simp [step, h]

theorem step_of_pending_cons {s : State} {c : Instr} {cs : List Instr} (h : s.pending = c :: cs) :
    step s = exec c (s.withPending cs) := by
  simp [step, h]

/-- A step from a locked state leaves the lock set, or every register at its reset value. -/
theorem step_lock_or_reset {s t : State} (hlock : s.sys.lock = true) (h : step s = .next t) :
    t.sys.lock = true ∨ ∀ r : Reg, t.reg r = r.rst := by
  cases hq : s.pending with
  | nil =>
    rw [step_of_pending_nil hq] at h
    cases h
    exact .inl ((lock_of_core_eq (State.elapse_core 1 s)).trans hlock)
  | cons c cs =>
    rw [step_of_pending_cons hq] at h
    obtain hsame | hset | hregs := exec_lock h
    · exact .inl (hsame.trans hlock)
    · exact .inl hset
    · exact .inr (State.reg_of_regs_nil hregs)

/-- Settles O46, by what each command does to the lock. -/
theorem setupLockHoldsUntilReset : Obligations.SetupLockHoldsUntilReset := by
  unfold Obligations.SetupLockHoldsUntilReset
  exact ⟨fun s dt hup hopen => ⟨_, execSetupLock_of_open hup hopen, rfl⟩, fun s t hlock h => step_lock_or_reset hlock h⟩

/-! ### The register file (R4, R5) -/

theorem rfGet_rfSet_same (l : List (Nat × Nat)) (r : Reg) (v : Nat) : (rfGet (rfSet l r v) r.off).getD r.rst = v := by
  unfold rfSet
  split
  · next e => simp [rfGet_rfDel, e]
  · simp [rfGet_rfPut]

theorem rfGet_rfSet_of_ne (l : List (Nat × Nat)) (r : Reg) (v : Nat) {q : Nat} (h : q ≠ r.off) : rfGet (rfSet l r v) q = rfGet l q := by
  unfold rfSet
  split
  · simp [rfGet_rfDel, h]
  · simp [rfGet_rfPut, h]

theorem rfSorted_rfSet (l : List (Nat × Nat)) (r : Reg) (v : Nat) (h : rfSorted l = true) : rfSorted (rfSet l r v) = true := by
  unfold rfSet
  split
  · exact rfSorted_rfDel l r.off h
  · exact rfSorted_rfPut l r.off v h

@[simp] theorem State.setReg_reg_same (s : State) (r : Reg) (v : Nat) : (s.setReg r v).reg r = v % 2 ^ 32 :=
  rfGet_rfSet_same s.regs r (v % 2 ^ 32)

theorem State.setReg_reg_of_ne (s : State) {r q : Reg} (v : Nat) (h : q.off ≠ r.off) : (s.setReg r v).reg q = s.reg q := by
  unfold State.reg
  rw [State.setReg_regs, rfGet_rfSet_of_ne s.regs r _ h]

theorem State.setReg_reg_testBit (s : State) (r : Reg) (v : Nat) {k : Nat} (hk : k < 32) :
    ((s.setReg r v).reg r).testBit k = v.testBit k := by
  rw [State.setReg_reg_same, Nat.testBit_mod_two_pow, decide_eq_true hk, Bool.true_and]

/-- Settles O53, by the laws of the register file. -/
theorem registerFileReadsBack : Obligations.RegisterFileReadsBack := by
  unfold Obligations.RegisterFileReadsBack
  exact fun s r v => ⟨s.setReg_reg_same r v, fun q h => s.setReg_reg_of_ne v h, rfSorted_rfSet s.regs r _⟩

/-! ### The bits of a written word (R7, R8, R538) -/

@[simp] theorem State.setReg_earlier (s : State) (r q : Reg) (v : Nat) : (s.setReg r v).earlier q = s.earlier q := rfl

@[simp] theorem State.setReg_raisedBits (s : State) (r q : Reg) (v : Nat) : (s.setReg r v).raisedBits q = s.raisedBits q := rfl

@[simp] theorem State.setEarlier_reg (s : State) (r q : Reg) (v : Nat) : (s.setEarlier r v).reg q = s.reg q := rfl

theorem writtenWord_testBit (lock : Bool) (fs : List FieldSpec) (was data k : Nat) :
    (writtenWord lock fs was data).testBit k =
      ((if (accMask (fun a => a = .rw || (a = .rwl && !lock)) fs).testBit k then data.testBit k else was.testBit k) ||
        ((accMask (fun a => a = .w1s) fs).testBit k && data.testBit k)) := by
  simp only [writtenWord, Nat.testBit_or, Nat.testBit_and, clearBits_testBit]
  cases (accMask (fun a => a = .rw || (a = .rwl && !lock)) fs).testBit k <;> simp [Bool.and_comm]

/-- A bit goes where the mask asks for it, it was set before the tick, and it has not been set again in it (R8). -/
theorem State.wipe_reg_testBit (s : State) (r : Reg) (m : Nat) {k : Nat} (hk : k < 32) :
    ((s.wipe r m).reg r).testBit k =
      ((s.reg r).testBit k && !(m.testBit k && (s.earlier r).testBit k && !(s.raisedBits r).testBit k)) := by
  simp only [State.wipe, State.setEarlier_reg, State.setReg_reg_testBit _ _ _ hk, Nat.testBit_xor, Nat.testBit_and]
  cases (s.reg r).testBit k <;> cases m.testBit k <;> cases (s.earlier r).testBit k <;> simp

theorem State.wipe_reg_of_ne (s : State) {r q : Reg} (m : Nat) (h : q.off ≠ r.off) : (s.wipe r m).reg q = s.reg q := by
  simp only [State.wipe, State.setEarlier_reg, s.setReg_reg_of_ne _ h]

/-- Settles O54, by the bits of the masks of fields. -/
theorem writtenBitsFollowTheirAccessCodes : Obligations.WrittenBitsFollowTheirAccessCodes := by
  unfold Obligations.WrittenBitsFollowTheirAccessCodes
  refine ⟨fun lock fs was data k hfs => ?_, fun s r m k hk => s.wipe_reg_testBit r m hk, fun s r q m h => s.wipe_reg_of_ne m h⟩
  rw [writtenWord_testBit, accMask_testBit _ fs hfs, accMask_testBit _ fs hfs]

/-! ### Register accesses (R4 to R8) -/

/-- The conditions under which REGISTER_WRITE writes (R4, R5, R398, R521). -/
theorem execRegisterWrite_of_taken {dt : Nat} {agent : Fin 7} {off : Nat} {be : BitVec 4} {data : Word} {s : State}
    (hup : s.down = false) (hbe : be.toNat = 15) (hzero : agent.val ≠ 0) (hsix : agent.val ≠ 6)
    (hopen : (s.elapse dt).writeOpen agent.val off = true) (hreg : (regAt off).isSome = true) :
    execRegisterWrite dt agent off be data s =
      .next (((s.elapse dt).noteWrite agent.val off data.toNat).writeReg agent.val off data.toNat) := by
  have hreg : (regAt off).isNone = false := by simpa using hreg
  simp [execRegisterWrite, hup, hbe, hzero, hsix, hopen, hreg]

/-- A write that one of these conditions discards lets time pass and does nothing else. -/
theorem execRegisterWrite_of_discarded {dt : Nat} {agent : Fin 7} {off : Nat} {be : BitVec 4} {data : Word} {s : State}
    (hup : s.down = false)
    (h : be.toNat ≠ 15 ∨ agent.val = 0 ∨ agent.val = 6 ∨ (s.elapse dt).writeOpen agent.val off = false ∨ regAt off = none) :
    execRegisterWrite dt agent off be data s = .next (s.elapse dt) := by
  unfold execRegisterWrite
  simp only [hup]
  rw [if_neg Bool.false_ne_true, if_pos]
  obtain h | h | h | h | h := h <;> simp [h]

theorem execRcFieldRead_of_up {dt : Nat} {agent : Fin 7} {off : Nat} {s : State} (hup : s.down = false) :
    execRcFieldRead dt agent off s = .next ((s.elapse dt).readReg agent.val off) := by
  simp [execRcFieldRead, hup]

theorem execWideQuantityRead_of_up {dt : Nat} {agent : Fin 7} {off : Nat} {s : State} (hup : s.down = false) :
    execWideQuantityRead dt agent off s = .next ((s.elapse dt).readReg agent.val off) := by
  simp [execWideQuantityRead, hup]

theorem State.readReg_zero (s : State) (off : Nat) : s.readReg 0 off = s := by
  simp [State.readReg]

/-- A read of a block that does not answer gives 0 (R398). -/
theorem State.readReg_of_not_answers (s : State) {agent off : Nat} (ha : agent ≠ 0) (h : s.answers off = false) :
    s.readReg agent off = { s with hif := { s.hif with readData := 0 } } := by
  simp [State.readReg, ha, h, State.onHif]

/-- A read of an address that holds no register gives 0 (R5). -/
theorem State.readReg_of_hole (s : State) {agent off : Nat} (ha : agent ≠ 0) (h : regAt off = none) :
    s.readReg agent off = { s with hif := { s.hif with readData := 0 } } := by
  cases hans : s.answers off with
  | false => exact s.readReg_of_not_answers ha hans
  | true => simp [State.readReg, ha, h, hans, State.onHif]

theorem State.answers_of_domain_off {s : State} {off d : Nat} (hd : regDomain off = some d) (hoff : s.isOn d = false) :
    s.answers off = false := by
  simp [State.answers, hd, hoff]

theorem State.writeOpen_of_not_answers {s : State} {agent off : Nat} (h : s.answers off = false) : s.writeOpen agent off = false := by
  simp [State.writeOpen, h]

/-- R521: recorded writes are applied by Tally itself. -/
theorem State.writeOpen_of_replaying {s : State} {off : Nat} (hrep : s.replaying = true) (happ : s.tally.applying = false)
    (htally : inTally off = false) : s.writeOpen 1 off = false := by
  simp [State.writeOpen, hrep, happ, htally]

/-- Settles O3, by the conditions under which the three commands have their effect. -/
theorem registerAccessesComplete : Obligations.RegisterAccessesComplete := by
  unfold Obligations.RegisterAccessesComplete
  refine ⟨?_, ?_, ?_⟩
  · rintro s _ dt agent off hup rfl
    exact execRcFieldRead_of_up hup
  · rintro s _ dt agent off hup rfl
    exact execWideQuantityRead_of_up hup
  · rintro s _ dt agent off be data hup rfl hbe hzero hsix hopen hreg
    exact execRegisterWrite_of_taken hup hbe hzero hsix hopen hreg

/-- Settles O51: a hole discards the write, and answers 0 whether its block answers or not. -/
theorem holesReadZeroAndIgnoreWrites : Obligations.HolesReadZeroAndIgnoreWrites := by
  unfold Obligations.HolesReadZeroAndIgnoreWrites
  rintro s _ dt agent off be data hup rfl hhole
  refine ⟨execRegisterWrite_of_discarded hup (by simp [hhole]), fun ha => ?_, fun ha => ?_⟩
  · rw [← State.readReg_of_hole _ ha hhole]
    exact ⟨execRcFieldRead_of_up hup, execWideQuantityRead_of_up hup⟩
  · have hread : (s.elapse dt).readReg agent.val off = s.elapse dt := by rw [ha, State.readReg_zero]
    exact ⟨(execRcFieldRead_of_up hup).trans (congrArg _ hread), (execWideQuantityRead_of_up hup).trans (congrArg _ hread)⟩

/-- Settles O52, by the conditions under which a write is discarded. -/
theorem discardedAccesses : Obligations.DiscardedAccesses := by
  unfold Obligations.DiscardedAccesses
  rintro s _ dt agent off d be data hup rfl
  refine ⟨fun h => ?_, fun hd hoff => ?_, fun ha hrep happ htally => ?_⟩
  · exact execRegisterWrite_of_discarded hup (h.imp_right fun h => h.imp_right .inl)
  · have hans := State.answers_of_domain_off hd hoff
    refine ⟨execRegisterWrite_of_discarded hup (by simp [State.writeOpen_of_not_answers hans]), fun ha => ?_⟩
    rw [← State.readReg_of_not_answers _ ha hans]
    exact execRcFieldRead_of_up hup
  · have hclosed : (s.elapse dt).writeOpen agent.val off = false := by
      rw [ha]; exact State.writeOpen_of_replaying hrep happ htally
    exact execRegisterWrite_of_discarded hup (by simp [hclosed])

/-! ### Registers that act through their values alone (R7, R8) -/

/-- A whole write by access codes touches the register file and what the registers held before the tick, and nothing else. -/
theorem State.putWord_frame (x : RegSpec) (i data keep : Nat) (s : State) :
    s.putWord x i data keep = { s with
      regs := (s.putWord x i data keep).regs, sys := { s.sys with before := (s.putWord x i data keep).sys.before } } := by
  unfold State.putWord
  dsimp only
  split <;> rfl

theorem State.putWord_reg_of_ne (x : RegSpec) (i data keep : Nat) (s : State) {q : Reg} (h : q.off ≠ (x.regOf i).off) :
    (s.putWord x i data keep).reg q = s.reg q := by
  unfold State.putWord
  dsimp only
  split
  · rw [State.setReg_reg_of_ne _ _ h]
  · rw [State.wipe_reg_of_ne _ _ h, State.setReg_reg_of_ne _ _ h]

/-- R8: the wiping of W1C bits comes after the other fields are set, and finds them as they were before the tick. -/
theorem State.putWord_reg_testBit (x : RegSpec) (i data : Nat) (s : State) {k : Nat} (hk : k < 32) :
    ((s.putWord x i data 0).reg (x.regOf i)).testBit k =
      ((writtenWord s.sys.lock x.fields (s.reg (x.regOf i)) data).testBit k &&
        !((data &&& accMask (fun a => a = .w1c) x.fields).testBit k &&
          (s.earlier (x.regOf i)).testBit k && !(s.raisedBits (x.regOf i)).testBit k)) := by
  have hclear : ∀ v, clearBits v 0 = v := fun v => by simp [clearBits]
  simp only [State.putWord, hclear, Nat.and_zero, Nat.or_zero]
  split
  · next hm => simp only [State.setReg_reg_testBit _ _ _ hk, hm, Nat.zero_testBit, Bool.false_and, Bool.not_false, Bool.and_true]
  · rw [State.wipe_reg_testBit _ _ _ hk, State.setReg_reg_testBit _ _ _ hk, State.setReg_earlier, State.setReg_raisedBits]

/-- In the blocks DFL, LAYER, INK, JET and SEE a write acts by the access codes, but for three registers. -/
theorem State.writeAt_of_plain {x : RegSpec} {off : Nat} (i agent data : Nat) (s : State)
    (hoff : 0x700000 ≤ off ∧ off < 0xA00000 ∨ 0xC00000 ≤ off ∧ off < 0xD00000 ∨ 0xE00000 ≤ off ∧ off < 0xF00000)
    (hbar : x.id ≠ .JET_BAR_CTRL) (hlim : x.id ≠ .JET_NH_LIMITS) (hport : x.id ≠ .SEE_PORT_CFG) :
    s.writeAt x i agent data off = s.putWord x i data 0 := by
  unfold State.writeAt
  simp only [Bool.and_eq_true, decide_eq_true_eq]
  rw [if_neg (by omega), if_neg (by omega), if_neg (by omega), if_neg (by omega), if_neg (by omega), if_neg (by omega), if_neg (by omega),
    if_neg (by omega), if_neg (by omega), if_neg (by omega), if_neg (by omega), if_neg hbar, if_neg hport, if_neg hlim]

theorem State.writeReg_of_regAt {off i : Nat} {x : RegSpec} (agent data : Nat) (s : State) (h : regAt off = some (x, i)) :
    s.writeReg agent off data =
      ((s.onTally (fun t => { t with applying := true })).writeAt x i agent data off).onTally (fun t => { t with applying := false }) := by
  simp [State.writeReg, h]

/-- Settles O55: the write is the writing by access codes of `putWord`. -/
theorem plainRegisterWrites : Obligations.PlainRegisterWrites := by
  unfold Obligations.PlainRegisterWrites
  rintro s w dt agent off i x data hup hw hzero hsix hopen hreg hoff hbar hlim hport
  have hexec : execRegisterWrite dt agent off 15 data s = .next (w.writeReg agent.val off data.toNat) := by
    rw [hw]
    exact execRegisterWrite_of_taken hup rfl hzero hsix hopen (by simp [hreg])
  rw [State.writeReg_of_regAt _ _ w hreg, State.writeAt_of_plain _ _ _ _ hoff hbar hlim hport] at hexec
  refine ⟨_, hexec, fun k hk => ?_, fun q hq => ?_, ?_⟩
  · exact State.putWord_reg_testBit x i data.toNat (w.onTally (fun t => { t with applying := true })) hk
  · exact State.putWord_reg_of_ne x i data.toNat 0 (w.onTally (fun t => { t with applying := true })) hq
  · rw [State.putWord_frame]
    rfl

/-! ### Reset (R10, R43, R435, R476, R532) -/

theorem State.reset_bar (b : Nat) : State.reset.bar b = Bar.reset := by
  have hbars : State.reset.jet.bars = List.replicate 8 Bar.reset := rfl
  rw [State.bar, hbars, List.getD_eq_getElem?_getD, List.getElem?_replicate]
  split <;> rfl

/-- Settles O43, from the state after reset field by field. -/
theorem resetState : Obligations.ResetState := by
  unfold Obligations.ResetState
  refine ⟨rfl, State.reg_of_regs_nil rfl, rfl, by decide +kernel, rfl, rfl, rfl, fun b => ?_, rfl, rfl⟩
  rw [State.reset_bar]
  exact ⟨rfl, rfl⟩

end Sys2Proof.Machine
end

section
/-! PROOFS. The statements of 01_architecture.md: start-up and reset, tables and the ceiling, and the domains that printing needs. -/

namespace Sys2Proof.Machine

/-! ### The domains that printing needs (R16, R396, R397, R422) -/

/-- The causes of R422 while a bar prints: 1 for a domain that is always ON, 2 for HV_EN. -/
theorem State.pdForbidden_of_printing {s : State} {d : Nat} (hhv : s.anyHv = true) (hneeds : s.printNeeds d = true) :
    s.pdForbidden d = if d < 4 then 1 else 2 := by
  simp [State.pdForbidden, hhv, hneeds]

theorem State.pdForbidden_ne_zero_of_printing {s : State} {d : Nat} (hhv : s.anyHv = true) (hneeds : s.printNeeds d = true) :
    s.pdForbidden d ≠ 0 := by
  rw [State.pdForbidden_of_printing hhv hneeds]
  split <;> decide

@[simp] theorem State.refuseDomain_domains (cause d : Nat) (s : State) : (s.refuseDomain cause d).power.domains = s.power.domains := by
  rw [State.refuseDomain, State.raiseEv_power]
  rfl

/-- R397: a request of OFF that has a cause against it is refused with that cause. -/
theorem execDomainRequest_of_forbidden {dt : Nat} {domain : Fin 10} {data : Word} {s v : State} (hup : s.down = false)
    (hopen : (s.elapse dt).writeOpen 1 (Reg.SYS_PD_CTRL domain.val).off = true)
    (hv : v = ((s.elapse dt).noteWrite 1 (Reg.SYS_PD_CTRL domain.val).off data.toNat).setReg
      (Reg.SYS_PD_CTRL domain.val) (data.toNat % 4))
    (hdata : data.toNat % 4 = 2) (hstate : (v.domain domain.val).state ≠ .off) (hcause : v.pdForbidden domain.val ≠ 0) :
    execDomainRequest dt domain data s = .next (v.refuseDomain (v.pdForbidden domain.val) domain.val) := by
  simp only [hdata] at hv
  simp [execDomainRequest, hup, hopen, hdata, ← hv, hstate, hcause]

/-- R397 and log entry 51: a request that waits comes to nothing while there is a cause against it. -/
theorem execDomainChange_of_forbidden {dt : Nat} {domain : Fin 10} {s : State} (hup : s.down = false)
    (hcause : (s.elapse dt).pdForbidden domain.val ≠ 0) : execDomainChange dt domain s = .next (s.elapse dt) := by
  cases hwant : ((s.elapse dt).domain domain.val).want with
  | none => simp [execDomainChange, hup, hwant]
  | some p => simp [execDomainChange, hup, hwant, hcause]

/-- Settles O59: printing is a cause against the change, when it is asked for and when it would take place. -/
theorem printingKeepsItsDomains : Obligations.PrintingKeepsItsDomains := by
  unfold Obligations.PrintingKeepsItsDomains
  refine ⟨?_, ?_⟩
  · rintro s _ v dt domain data hup rfl hopen hv hdata hhv hneeds hstate
    have hcause := State.pdForbidden_ne_zero_of_printing hhv hneeds
    exact ⟨v.pdForbidden domain.val, _, rfl, hcause, execDomainRequest_of_forbidden hup hopen hv hdata hstate hcause,
      v.refuseDomain_domains _ _⟩
  · rintro s _ dt domain hup rfl hhv hneeds
    exact execDomainChange_of_forbidden hup (State.pdForbidden_ne_zero_of_printing hhv hneeds)

/-! ### Reset and start-up (R25, R435, R474, R475, R532 to R538) -/

theorem execPorstFall_of_up {dt : Nat} {s : State} (hup : s.down = false) :
    execPorstFall dt s = .next ((s.deviceReset 0).onSys (fun x => { x with porst := true })) := by
  simp [execPorstFall, hup]

theorem execPorstRise_of_reset {dt : Nat} {straps : BitVec 10} {s : State} (hporst : s.sys.porst = true)
    (hshelf : s.power.inShelf = false) :
    execPorstRise dt straps s = .next ((s.reboot (strapsOf straps.toNat) 0).romWipes) := by
  simp [execPorstRise, hporst, hshelf]

/-- R533: a write of go with the key. -/
theorem execSysReset_of_key {dt : Nat} {data : Word} {s : State} (hup : s.down = false)
    (hopen : (s.elapse dt).writeOpen 1 Reg.SYS_RST.off = true) (hkey : bits data.toNat 31 16 = 0xD1E5)
    (hgo : bitOf data.toNat 0 = true) :
    execSysReset dt data s = .next (((s.elapse dt).noteWrite 1 Reg.SYS_RST.off data.toNat).deviceReset 1) := by
  simp [execSysReset, hup, hopen, hkey, hgo]

/-- R475: without a host load, or in SCRAP, the end of the wipe leads to no recovery mode. -/
theorem execSramWipeDone_of_not_recovery {dt : Nat} {s : State} (hup : s.down = false)
    (hwiped : (s.elapse dt).sys.sramWiped = false)
    (hload : ¬ ((s.elapse dt).bootSource = 1 ∧ (s.elapse dt).sec.lc ≠ .scrap)) :
    execSramWipeDone dt s = .next ((s.elapse dt).onSys (fun x => { x with sramWiped := true })) := by
  have hkeep : ((s.elapse dt).onSys (fun x => { x with sramWiped := true })).bootSource = (s.elapse dt).bootSource := rfl
  by_cases hsource : (s.elapse dt).bootSource = 1
  · have hscrap : (s.elapse dt).sec.lc = .scrap := Classical.not_not.mp (not_and.mp hload hsource)
    simp [execSramWipeDone, hup, hwiped, hscrap]
  · simp [execSramWipeDone, hup, hwiped, hkeep, hsource]

/-- R474, R475: the ROM checks the image of C0, and starts C0 or falls back. -/
theorem execC0ImageVerified_of_due {dt : Nat} {image : List Byte} {slotB : Bool} {s v : State} (hup : s.down = false)
    (hwiped : (s.elapse dt).sys.sramWiped = true) (hc0 : (s.elapse dt).sys.c0 = false) (hlc : (s.elapse dt).sec.lc ≠ .scrap)
    (hrec : (s.elapse dt).sec.recovery = false) (hv : v = (s.elapse dt).readKeys) :
    execC0ImageVerified dt image slotB s = .next (if v.fwCause 0 image = 0
      then (v.fwAccept 0 (leAt image 8 4) (v.sec.loading || (slotB && decide (v.bootSource = 0)))).startC0
      else (v.fwReject 0 (v.fwCause 0 image)).onSec (fun x => { x with
        recovery := x.recovery || (slotB && decide ((v.fwReject 0 (v.fwCause 0 image)).bootSource = 0)), loading := false })) := by
  by_cases hcause : v.fwCause 0 image = 0
  · simp [execC0ImageVerified, hup, hwiped, hc0, hlc, hrec, ← hv, hcause]
  · simp [execC0ImageVerified, hup, hwiped, hc0, hlc, hrec, ← hv, hcause]

/-- R534: all images are accepted, and C1 goes on with the start. -/
theorem execCoresStarted_of_accepted {dt : Nat} {images : List (List Byte)} {s v : State} (hup : s.down = false)
    (hlen : images.length = 3) (hc0 : (s.elapse dt).sys.c0 = true) (hcores : (s.elapse dt).sys.cores = false)
    (hv : v = [1, 2, 3].foldl (fun s c => s.startCore (c, images.getD (c - 1) [])) (s.elapse dt))
    (hacc : v.sec.accepted.all (fun a => a) = true) :
    execCoresStarted dt images s =
      .next (((v.onSys (fun x => { x with cores := true })).seedGeom.startTraining.readRecords).askSaveArea) := by
  unfold execCoresStarted
  simp only [hup, hlen, hc0, hcores, ← hv, hacc]
  rfl

/-- R537: the conditions of READY hold for the first time. -/
theorem execDeviceReady_of_holds {dt : Nat} {s u : State} (hup : s.down = false) (hu : u = s.elapse dt)
    (hready : u.sys.ready = false) (hholds : u.readyHolds = true) :
    execDeviceReady dt s = .next ((List.range 4).foldl State.raiseSvn
      ({ u with
        sys := { u.sys with ready := true, bootMs := (u.now - u.sys.edgeAt) / 1000000 }
        memc := { u.memc with wipeAt := some u.now } }.askCores)) := by
  unfold execDeviceReady
  simp only [hup, ← hu, hready, hholds]
  rfl

/-- Settles O1, by the conditions under which each command has its effect. -/
theorem startUpCommandsComplete : Obligations.StartUpCommandsComplete := by
  unfold Obligations.StartUpCommandsComplete
  refine ⟨?porstFall, ?porstRise, ?sysReset, ?sramWipeDone, ?c0ImageVerified, ?coresStarted, ?deviceReady, ?setupLock⟩
  case porstFall => exact fun s dt hup => execPorstFall_of_up (dt := dt) hup
  case porstRise => exact fun s dt straps hporst hshelf => execPorstRise_of_reset (dt := dt) hporst hshelf
  case sysReset =>
    rintro s _ dt data hup rfl hopen hkey hgo
    exact execSysReset_of_key hup hopen hkey hgo
  case sramWipeDone =>
    rintro s _ dt hup rfl hwiped hload
    exact execSramWipeDone_of_not_recovery hup hwiped hload
  case c0ImageVerified =>
    rintro s _ dt image slotB v hup rfl hwiped hc0 hlc hrec hv
    exact execC0ImageVerified_of_due hup hwiped hc0 hlc hrec hv
  case coresStarted =>
    rintro s _ dt images v hup rfl hlen hc0 hcores hv hacc
    exact execCoresStarted_of_accepted hup hlen hc0 hcores hv hacc
  case deviceReady => exact fun s u dt hup hu hready hholds => execDeviceReady_of_holds hup hu hready hholds
  case setupLock =>
    rintro s _ dt hup rfl hopen
    exact execSetupLock_of_open hup hopen

/-! ### Tables, the pace meters and the ceiling (R13, R20, R22, R121 to R125, R145) -/

/-- R121, R126: the load starts, and while a job is open it is bound to the next image. -/
theorem execTableLoad_of_startable {dt : Nat} {ring : Fin 64} {slot : Nat} {d : Desc} {s v : State} (hup : s.down = false)
    (hdesc : (s.elapse dt).startable ring.val slot 0x20 = some d) (hopening : (s.elapse dt).opening = false)
    (hkind : ¬ (1 ≤ d.byte 8 ∧ d.byte 8 ≤ 4 ∧ d.byte 9 = 4)) (hfits : (s.elapse dt).jobFits d = true)
    (hv : v = (s.elapse dt).wakeDomain (tableDomain (d.byte 8))) (hon : v.isOn (tableDomain (d.byte 8)) = true) :
    execTableLoad dt ring slot s = .next (if (v.start d).lay.job.isSome
      then (v.start d).onLay (fun l => { l with loads := l.loads ++ [(d.order, .next)] }) else v.start d) := by
  have hkind : (decide (1 ≤ d.byte 8) && decide (d.byte 8 ≤ 4) && decide (d.byte 9 = 4)) = false := by
    simpa [and_assoc] using hkind
  unfold execTableLoad
  simp only [hup, hdesc, hopening, hkind, hfits, ← hv, hon]
  rfl

theorem State.tableArrived_of_pass {d : Desc} {data : List Byte} {s : State}
    (hcheck : (s.endLoad d.order).tableCheck (d.byte 8) (d.byte 9) (d.byte 10) data = none)
    (hbusy : (s.endLoad d.order).tableBusy (d.byte 8) (d.byte 9) (d.byte 10) = false) :
    s.tableArrived d data =
      ((s.endLoad d.order).holdTable d.order (d.byte 8) (d.byte 9) (d.byte 10) (s.loadBind d.order) data).complete d 0 0 := by
  simp [State.tableArrived, hcheck, hbusy]

/-- R124: the content has come without an error of the transfer. -/
theorem execTableHeld_of_arrived {dt : Nat} {ring : Fin 64} {slot : Nat} {list : List PageEnt} {data b : List Byte} {d : Desc}
    {s : State} (hup : s.down = false)
    (hdesc : (s.elapse dt).liveAs ring.val slot (fun d => decide (d.opcode = 0x20) && d.started) = some d)
    (hin : d.hostIn list data = some (0, b)) :
    execTableHeld dt ring slot list data s = .next (((s.elapse dt).readHost d list).tableArrived d b) := by
  simp [execTableHeld, hup, hdesc, hin]

/-- R145: with verify_en every active table is checked after the bits have changed. -/
theorem execTableVerify_of_enabled {dt : Nat} {flips : List (Nat × Nat × Nat)} {s v : State} (hup : s.down = false)
    (hv : v = flips.foldl State.flipTable (s.elapse dt)) (hen : v.fb Fld.INK_CTRL_verify_en = true) :
    execTableVerify dt flips s = .next (((List.range 92).filter v.tableBad).foldl (fun s n => s.faultAt 44 255 n) v) := by
  simp [execTableVerify, hup, ← hv, hen]

/-- R13: one sample of each engine. -/
theorem execPaceSample_of_length {dt : Nat} {busy : List Nat} {s u v : State} (hup : s.down = false) (hu : u = s.elapse dt)
    (hlen : busy.length = 32)
    (hv : v = u.onInk (fun k => { k with pace := (k.pace.zip busy).map (fun p => p.1.sample u.fromStore u.now p.2) })) :
    execPaceSample dt busy s = .next ((List.range 32).foldl State.judgePace
      (v.onTherm (fun t => { t with busy := t.busy.mapIdx (fun q n => n + ((busy.drop (8 * q)).take 8).countP (fun k => k ≠ 0)) }))) := by
  unfold execPaceSample
  simp only [hup, hlen, ← hu, hv]
  rfl

theorem execCeilingRecompute_of_up {dt : Nat} {s : State} (hup : s.down = false) :
    execCeilingRecompute dt s = .next (s.elapse dt).recomputeCeiling := by
  simp [execCeilingRecompute, hup]

/-- Settles O10, by the conditions under which each command has its effect. -/
theorem tableCommandsComplete : Obligations.TableCommandsComplete := by
  unfold Obligations.TableCommandsComplete
  refine ⟨?tableLoad, ?tableHeld, ?tableVerify, ?paceSample, ?ceilingRecompute⟩
  case tableLoad =>
    rintro s _ dt ring slot d v _ hup rfl hdesc hopening hkind hfits hv hon rfl
    exact execTableLoad_of_startable hup hdesc hopening hkind hfits hv hon
  case tableHeld =>
    rintro s _ dt ring slot list data d b _ hup rfl hdesc hin rfl hcheck hbusy
    rw [← State.tableArrived_of_pass hcheck hbusy]
    exact execTableHeld_of_arrived hup hdesc hin
  case tableVerify =>
    rintro s _ dt flips v hup rfl hv hen
    exact execTableVerify_of_enabled hup hv hen
  case paceSample => exact fun s u dt busy v hup hu hlen hv => execPaceSample_of_length hup hu hlen hv
  case ceilingRecompute =>
    rintro s _ dt hup rfl
    exact execCeilingRecompute_of_up hup

end Sys2Proof.Machine
end

section
/-! PROOFS. The statements of 02_host_rings.md: the endpoint, doorbells and descriptor traffic, completions, layers and commits. -/

namespace Sys2Proof.Machine

/-! ### Fetching descriptors (R43) -/

theorem State.onRing_ring_of_ne (s : State) (f : Ring → Ring) {r i : Nat} (h : i ≠ r) : (s.onRing r f).ring i = s.ring i := by
  simp [State.ring, State.onRing, List.getD_eq_getElem?_getD, Ne.symm h]

/-- A ring that the device does not have is not changed. -/
theorem State.onRing_ring_same (s : State) (f : Ring → Ring) (r : Nat) :
    (s.onRing r f).ring r = f (s.ring r) ∨ (s.onRing r f).ring r = s.ring r := by
  simp only [State.ring, State.onRing, State.onHif_hif, List.getD_eq_getElem?_getD, List.getElem?_modify_eq]
  cases s.hif.rings[r]? with
  | none => exact .inr rfl
  | some x => exact .inl rfl

theorem diff32_add_le (a b n : Nat) : diff32 ((a + n) % 2 ^ 32) b ≤ diff32 a b + n := by
  unfold diff32
  omega

theorem sum_map_le_add_of_eq_elsewhere {f g : Nat → Nat} {r n : Nat} (hr : g r ≤ f r + n) (hne : ∀ i, i ≠ r → g i = f i)
    (l : List Nat) (hl : l.Nodup) : (l.map g).sum ≤ (l.map f).sum + n := by
  induction l with
  | nil => simp
  | cons x xs ih =>
    obtain ⟨hx, hxs⟩ := List.nodup_cons.mp hl
    simp only [List.map_cons, List.sum_cons]
    by_cases hxr : x = r
    · have hrest : xs.map g = xs.map f := List.map_congr_left fun i hi => hne i fun h => hx (hxr ▸ h ▸ hi)
      rw [hrest, hxr]
      omega
    · have := ih hxs
      rw [hne x hxr]
      omega

/-- What a fetch does to the state: n descriptors of ring r are asked for (R43). -/
def State.askDescs (r n : Nat) (s : State) : State :=
  (({ s with
    out := s.out ++ (s.slotReads r n).map (fun (p : Nat × Nat) => Out.hostRead (s.ringBase r + p.1 * 64) (p.2 * 64) false) }.onRing r
    (fun x => { x with
      fetched := (x.fetched + n) % 2 ^ 32, reads := x.reads ++ (s.slotReads r n).map (fun (p : Nat × Nat) => (p.2, p.2)) })).onHif
    (fun h => { h with lastServed := r }))

/-- The descriptors that a fetch asks a ring for: 16 at most, and no more than the limit of those in flight leaves (R43). -/
def State.fetchCount (s : State) (r : Nat) : Nat := min (min 16 (s.fetchable r)) (1024 - s.inFlight)

theorem execDescriptorFetch_of_open {dt r : Nat} {s : State} (hup : s.down = false)
    (hquiesce : (s.elapse dt).fb Fld.HIF_CTRL_quiesce = false) (hready : (s.elapse dt).sys.ready = true)
    (hhif : (s.elapse dt).hif.ready = true) (hmute : (s.elapse dt).hif.mute = false) (hring : (s.elapse dt).nextRing = some r)
    (hcount : 0 < (s.elapse dt).fetchCount r) (hreads : (s.elapse dt).readsOut ≤ 510) :
    execDescriptorFetch dt s = .next ((s.elapse dt).askDescs r ((s.elapse dt).fetchCount r)) := by
  have hcount : min (min 16 ((s.elapse dt).fetchable r)) (1024 - (s.elapse dt).inFlight) ≠ 0 := Nat.ne_of_gt hcount
  simp only [execDescriptorFetch, hup, hquiesce, hready, hhif, hmute, hring, hcount, Nat.not_lt.mpr hreads]
  rfl

/-- A fetch asks one ring for descriptors, or lets time pass and does nothing else. -/
theorem execDescriptorFetch_spec {dt : Nat} {s t : State} (hup : s.down = false) (h : execDescriptorFetch dt s = .next t) :
    t = s.elapse dt ∨ ∃ r, 0 < (s.elapse dt).fetchCount r ∧ t = (s.elapse dt).askDescs r ((s.elapse dt).fetchCount r) := by
  unfold execDescriptorFetch at h
  simp only [hup, Bool.false_eq_true, if_false] at h
  split at h
  · cases h
    exact .inl rfl
  · split at h
    · cases h
      exact .inl rfl
    · next r _ =>
      split at h
      · cases h
        exact .inl rfl
      · next hopen =>
        cases h
        refine .inr ⟨r, Nat.pos_of_ne_zero fun hzero => hopen ?_, rfl⟩
        simp only [State.fetchCount] at hzero
        simp [hzero]

/-- Descriptors of a ring that are asked for and have not come; a completion ring has none (R43). -/
def State.askedOf (s : State) (i : Nat) : Nat := if s.isCring i then 0 else diff32 (s.ring i).fetched (s.ring i).count

theorem State.inFlight_eq (s : State) : s.inFlight = s.hif.inflight.length + ((List.range 64).map s.askedOf).sum := rfl

theorem State.askDescs_ring (r n : Nat) (s : State) (i : Nat) :
    (s.askDescs r n).ring i = (s.onRing r (fun x => { x with
      fetched := (x.fetched + n) % 2 ^ 32, reads := x.reads ++ (s.slotReads r n).map (fun (p : Nat × Nat) => (p.2, p.2)) })).ring i := rfl

theorem State.askDescs_askedOf_of_ne (s : State) {r i : Nat} (n : Nat) (h : i ≠ r) : (s.askDescs r n).askedOf i = s.askedOf i := by
  have hcring : (s.askDescs r n).isCring i = s.isCring i := rfl
  simp only [State.askedOf, hcring, State.askDescs_ring, State.onRing_ring_of_ne _ _ h]

theorem State.askDescs_askedOf_same_le (r n : Nat) (s : State) : (s.askDescs r n).askedOf r ≤ s.askedOf r + n := by
  have hcring : (s.askDescs r n).isCring r = s.isCring r := rfl
  simp only [State.askedOf, hcring]
  split
  · omega
  · obtain h | h := s.onRing_ring_same _ r
    · rw [State.askDescs_ring, h]
      exact diff32_add_le _ _ n
    · rw [State.askDescs_ring, h]
      exact Nat.le_add_right _ n

theorem State.askDescs_inFlight_le (r n : Nat) (s : State) : (s.askDescs r n).inFlight ≤ s.inFlight + n := by
  have hkept : (s.askDescs r n).hif.inflight = s.hif.inflight := rfl
  have hsum := sum_map_le_add_of_eq_elsewhere (s.askDescs_askedOf_same_le r n) (fun i => s.askDescs_askedOf_of_ne n) (List.range 64)
    List.nodup_range
  rw [State.inFlight_eq, State.inFlight_eq, hkept]
  omega

/-- Settles O58: a fetch asks for no more than the limit leaves, and asks only where that is more than none. -/
theorem fetchKeepsTheLimitOfDescriptors : Obligations.FetchKeepsTheLimitOfDescriptors := by
  unfold Obligations.FetchKeepsTheLimitOfDescriptors
  intro s t dt hup hlimit h
  obtain rfl | ⟨r, hpos, rfl⟩ := execDescriptorFetch_spec hup h
  · exact ⟨hlimit, fun _ => rfl⟩
  · have hcount : (s.elapse dt).fetchCount r ≤ 1024 - (s.elapse dt).inFlight := Nat.min_le_right _ _
    have hask := (s.elapse dt).askDescs_inFlight_le r ((s.elapse dt).fetchCount r)
    exact ⟨by omega, fun hfull => by omega⟩

/-! ### The endpoint (R30 to R32, R67) -/

theorem execConfigRequest_of_up {dt : Nat} {s u : State} (hup : s.down = false) (hu : u = s.elapse dt) :
    execConfigRequest dt s =
      .next (u.emit (.configReply (if u.hif.ready then some (Caps.ofWidth u.strapWidth) else none))) := by
  simp [execConfigRequest, hup, hu]

theorem execFunctionLevelReset_of_up {dt : Nat} {s : State} (hup : s.down = false) :
    execFunctionLevelReset dt s = .next (s.elapse dt).hifReset := by
  simp [execFunctionLevelReset, hup]

/-- R67: the loss of a link that was up is a fault while a bar has HV_EN asserted. -/
theorem execPcieReset_of_up {dt : Nat} {s u v : State} (hup : s.down = false) (hu : u = s.elapse dt)
    (hv : v = u.hifReset.onHif (fun h => { h with linkUp := false, rate := 0, width := 0 })) :
    execPcieReset dt s = .next (if u.hif.linkUp && u.jet.bars.any (fun b => b.hv) then v.fault 68 else v) := by
  simp only [execPcieReset, hup, ← hu, ← hv]
  rfl

theorem execHifReady_of_up {dt : Nat} {s : State} (hup : s.down = false) :
    execHifReady dt s = .next ((s.elapse dt).onHif (fun h => { h with ready := true, resetting := false })) := by
  simp [execHifReady, hup]

theorem execPcieLinkTrained_of_up {dt rate width : Nat} {s v : State} (hup : s.down = false)
    (hv : v = (s.elapse dt).onHif (fun h => { h with linkUp := true, rate := rate, width := width })) :
    execPcieLinkTrained dt rate width s =
      .next ((if rate < 3 ∨ width < v.strapWidth then v.fault 69 else v).raiseEv 20) := by
  simp only [execPcieLinkTrained, hup, ← hv, Bool.or_eq_true, decide_eq_true_eq]
  rfl

theorem execPcieLinkDown_of_up {dt : Nat} {s v : State} (hup : s.down = false)
    (hv : v = (s.elapse dt).onHif (fun h => { h with linkUp := false })) :
    execPcieLinkDown dt s = .next (if v.jet.bars.any (fun b => b.hv) then v.fault 68 else v) := by
  simp only [execPcieLinkDown, hup, ← hv]
  rfl

/-- Settles O2: each of these commands has its effect in every state that is up. -/
theorem endpointCommandsComplete : Obligations.EndpointCommandsComplete := by
  unfold Obligations.EndpointCommandsComplete
  refine ⟨?configRequest, ?functionLevelReset, ?pcieReset, ?hifReady, ?linkTrained, ?linkDown⟩
  case configRequest => exact fun s u dt hup hu => execConfigRequest_of_up hup hu
  case functionLevelReset =>
    rintro s _ dt hup rfl
    exact execFunctionLevelReset_of_up hup
  case pcieReset => exact fun s u dt v hup hu hv => execPcieReset_of_up hup hu hv
  case hifReady =>
    rintro s _ dt hup rfl
    exact execHifReady_of_up hup
  case linkTrained =>
    rintro s _ dt rate width v hup rfl hv
    exact execPcieLinkTrained_of_up hup hv
  case linkDown =>
    rintro s _ dt v hup rfl hv
    exact execPcieLinkDown_of_up hup hv

/-! ### Rings, the kick and the unmask (R35, R36, R40, R51, R65) -/

/-- R35, R51: a ring of a legal size that has a completion ring, or is one, is enabled. -/
theorem execRingEnable_of_valid {dt : Nat} {ring : Fin 64} {cfg : Word} {s w v : State} (hup : s.down = false)
    (hopen : (s.elapse dt).writeOpen 1 (Reg.HIF_RING_CFG ring.val).off = true)
    (hw : w = (s.elapse dt).noteWrite 1 (Reg.HIF_RING_CFG ring.val).off cfg.toNat) (hready : w.sys.ready = true)
    (hoff : w.ringOn ring.val = false) (hv : v = w.setReg (Reg.HIF_RING_CFG ring.val) ((cfg.toNat &&& ringCfgMask) % 2 ^ 31))
    (hmin : 6 ≤ v.f (Fld.HIF_RING_CFG_size_log2 ring.val)) (hmax : v.f (Fld.HIF_RING_CFG_size_log2 ring.val) ≤ 16)
    (hcring : v.isCring ring.val = true ∨ (v.ringOn (v.f (Fld.HIF_RING_CFG_cring ring.val)) = true ∧
      v.isCring (v.f (Fld.HIF_RING_CFG_cring ring.val)) = true)) :
    execRingEnable dt ring cfg s =
      .next ((((v.setF (Fld.HIF_RING_CFG_enable ring.val) 1).onRing ring.val (fun r => { Ring.reset with lost := r.lost })).onHif
        (fun h => { h with mute := false })).readToken.drainRing ring.val) := by
  have hsize : (decide (v.f (Fld.HIF_RING_CFG_size_log2 ring.val) < 6) ||
      decide (16 < v.f (Fld.HIF_RING_CFG_size_log2 ring.val))) = false := by
    simp [hmin, hmax]
  have hcring : (!v.isCring ring.val && !(v.ringOn (v.f (Fld.HIF_RING_CFG_cring ring.val)) &&
      v.isCring (v.f (Fld.HIF_RING_CFG_cring ring.val)))) = false := by
    simpa [Classical.or_iff_not_imp_left] using hcring
  simp only [execRingEnable, hup, hopen, ← hw, hready, hoff, ← hv, hsize, hcring]
  rfl

theorem execRingDisable_of_open {dt : Nat} {ring : Fin 64} {cfg : Word} {s v : State} (hup : s.down = false)
    (hopen : (s.elapse dt).writeOpen 1 (Reg.HIF_RING_CFG ring.val).off = true)
    (hv : v = (s.elapse dt).noteWrite 1 (Reg.HIF_RING_CFG ring.val).off cfg.toNat) :
    execRingDisable dt ring cfg s =
      .next ((if v.ringOn ring.val then v.setF (Fld.HIF_RING_CFG_enable ring.val) 0
        else v.setReg (Reg.HIF_RING_CFG ring.val) ((cfg.toNat &&& ringCfgMask) % 2 ^ 31)).onRing ring.val
          (fun r => { r.drop with halted := false })) := by
  simp only [execRingDisable, hup, hopen, ← hv]
  rfl

/-- R40: where a read can be issued, the kick polls at once. -/
theorem execDbKick_of_ready {dt : Nat} {s v : State} (hup : s.down = false)
    (hopen : (s.elapse dt).writeOpen 1 Reg.HIF_DB_KICK.off = true)
    (hv : v = ((s.elapse dt).noteWrite 1 Reg.HIF_DB_KICK.off 1).leaveBackoff) (hreads : v.readsOut < 512)
    (hready : v.hif.ready = true) (hmute : v.hif.mute = false) : execDbKick dt s = .next v.poll := by
  simp [execDbKick, hup, hopen, ← hv, hreads, hready, hmute]

/-- R65: the message that was pending is sent. -/
theorem execMsixUnmask_of_pending {dt : Nat} {vector : Fin 256} {s v : State} (hup : s.down = false)
    (hopen : (s.elapse dt).writeOpen 1 (Reg.MSIX_VCTRL vector.val).off = true)
    (hv : v = ((s.elapse dt).noteWrite 1 (Reg.MSIX_VCTRL vector.val).off 0).setF ⟨Reg.MSIX_VCTRL vector.val, 0, 0⟩ 0)
    (hpending : v.hif.pba.contains vector.val = true) :
    execMsixUnmask dt vector s =
      .next ((v.onHif (fun h => { h with pba := h.pba.filter (fun w => w ≠ vector.val) })).emit (.msi vector.val)) := by
  simp only [execMsixUnmask, hup, hopen, ← hv, hpending]
  rfl

/-- Settles O4, by the conditions under which each command has its effect. -/
theorem ringSwitchesComplete : Obligations.RingSwitchesComplete := by
  unfold Obligations.RingSwitchesComplete
  refine ⟨?ringEnable, ?ringDisable, ?dbKick, ?msixUnmask⟩
  case ringEnable =>
    rintro s _ dt ring cfg v hup rfl hopen hready hoff hv hmin hmax hcring
    exact execRingEnable_of_valid hup hopen rfl hready hoff hv hmin hmax hcring
  case ringDisable =>
    rintro s _ dt ring cfg v hup rfl hopen hv
    exact execRingDisable_of_open hup hopen hv
  case dbKick =>
    rintro s _ dt v hup rfl hopen hv hreads hready hmute
    exact execDbKick_of_ready hup hopen hv hreads hready hmute
  case msixUnmask =>
    rintro s _ dt vector v hup rfl hopen hv hpending
    exact execMsixUnmask_of_pending hup hopen hv hpending

/-! ### Doorbells (R39 to R42) -/

/-- R40: the interval since the poll before has passed, or there was none. -/
theorem execDoorbellPoll_of_due {dt : Nat} {s u : State} (hup : s.down = false) (hu : u = s.elapse dt) (hreads : u.readsOut < 512)
    (henable : u.fb Fld.HIF_CTRL_db_enable = true) (hready : u.hif.ready = true) (hmute : u.hif.mute = false)
    (hdue : u.hif.pollAt.all (fun t => decide (t + u.pollEvery ≤ u.now)) = true) :
    execDoorbellPoll dt s = .next u.poll := by
  simp only [execDoorbellPoll, hup, ← hu, hreads, henable, hready, hmute, hdue]
  rfl

/-- R39, R41: the doorbells of the oldest read under way are acted on, and a change ends the back-off (R40). -/
theorem execDoorbellReadDone_of_polled {dt t : Nat} {bells : List Word} {ts : List Nat} {s u v w : State} (hup : s.down = false)
    (hu : u = s.elapse dt) (hlen : bells.length = 64) (hpolls : u.hif.polls = t :: ts)
    (hv : v = u.onHif (fun h => { h with polls := ts, failRun := 0, rttLast := min 65535 (u.now - t) }))
    (hw : w = (List.range 64).foldl (fun s n => s.actDoorbell n (bells.getD n 0).toNat)
      (v.setF Fld.HIF_RTT_max (max (min 65535 (u.now - t)) (v.f Fld.HIF_RTT_max)))) :
    execDoorbellReadDone dt bells s =
      .next (if w.hif.rings.map (fun r => r.door) = u.hif.rings.map (fun r => r.door) then w else w.leaveBackoff) := by
  simp only [execDoorbellReadDone, hup, hlen, ← hu, hpolls, ← hv, ← hw]
  rfl

/-- R42: the third failure of a run is a fault. -/
theorem execDoorbellReadFail_of_polled {dt t : Nat} {ts : List Nat} {s u v : State} (hup : s.down = false) (hu : u = s.elapse dt)
    (hpolls : u.hif.polls = t :: ts) (hv : v = u.onHif (fun h => { h with polls := ts, failRun := h.failRun + 1 })) :
    execDoorbellReadFail dt s = .next (if v.hif.failRun = 3 then v.fault 65 else v) := by
  simp only [execDoorbellReadFail, hup, ← hu, hpolls, ← hv]
  rfl

/-- R40: 10 ms have passed without a change. -/
theorem execDbBackoff_of_quiet {dt : Nat} {s u : State} (hup : s.down = false) (hu : u = s.elapse dt)
    (henable : u.fb Fld.HIF_CTRL_db_enable = true) (hready : u.hif.ready = true)
    (hbackoff : u.fb Fld.HIF_DB_CFG_backoff_en = true) (hslow : u.hif.slow = false)
    (hquiet : u.hif.lastChange + 10000000 ≤ u.now) :
    execDbBackoff dt s = .next ((u.onHif (fun h => { h with slow := true })).raiseEv 18) := by
  have hquiet : u.now - u.hif.lastChange ≥ 10000000 := by omega
  simp [execDbBackoff, hup, ← hu, henable, hready, hbackoff, hslow, hquiet]

/-- Settles O5, by the conditions under which each command has its effect. -/
theorem doorbellCommandsComplete : Obligations.DoorbellCommandsComplete := by
  unfold Obligations.DoorbellCommandsComplete
  refine ⟨?doorbellPoll, ?doorbellReadDone, ?doorbellReadFail, ?dbBackoff⟩
  case doorbellPoll =>
    exact fun s u dt hup hu hreads henable hready hmute hdue => execDoorbellPoll_of_due hup hu hreads henable hready hmute hdue
  case doorbellReadDone =>
    exact fun s u dt bells t ts v w hup hu hlen hpolls hv hw => execDoorbellReadDone_of_polled hup hu hlen hpolls hv hw
  case doorbellReadFail => exact fun s u dt t ts v hup hu hpolls hv => execDoorbellReadFail_of_polled hup hu hpolls hv
  case dbBackoff =>
    exact fun s u dt hup hu henable hready hbackoff hslow hquiet => execDbBackoff_of_quiet hup hu henable hready hbackoff hslow hquiet

/-! ### Descriptors (R43, R45, R54, R55, R62, R68, R556) -/

/-- What the arrival of a descriptor does before its check: it is kept, counted and recorded (R36, R38, R43). -/
def State.keepDesc (d : Desc) (s : State) : State :=
  ((s.onHif (fun h => { h with inflight := h.inflight ++ [d], nextOrder := h.nextOrder + 1 })).countRead d.ring).observe 0x21 d.ring
    (leBytes 4 d.slot ++ leBytes 4 (crc32c d.bytes))

/-- R45: a descriptor that was asked for and passes its check stays on the chip. -/
theorem execDescriptorArrive_of_kept {dt : Nat} {ring : Fin 64} {bytes : List Byte} {d : Desc} {s u : State} (hup : s.down = false)
    (hu : u = s.elapse dt) (hlen : bytes.length = 64) (hon : u.ringOn ring.val = true) (hcring : u.isCring ring.val = false)
    (hasked : diff32 (u.ring ring.val).fetched (u.ring ring.val).count ≠ 0)
    (hskip : (u.ring ring.val).skips.contains (u.ring ring.val).count = false)
    (hd : d = ⟨ring.val, (u.ring ring.val).count % u.ringSize ring.val, bytes, u.hif.nextOrder,
      u.f (Fld.HIF_RING_CFG_cring ring.val), false, false, false⟩)
    (hcheck : (u.keepDesc d).checkDesc d = none) (hreplay : (u.keepDesc d).replaying = false) :
    execDescriptorArrive dt ring bytes s = .next (u.keepDesc d) := by
  have hskip : (u.ring ring.val).count ∉ (u.ring ring.val).skips := by simpa using hskip
  subst hd
  simp only [State.keepDesc] at hcheck hreplay
  simp [execDescriptorArrive, State.keepDesc, hup, hlen, ← hu, hon, hcring, hasked, hskip, hcheck, hreplay]

/-- R68: the read was under way; its ring halts, and its other reads are dropped. -/
theorem execDescriptorReadFail_of_asked {dt n : Nat} {ring : Fin 64} {s u : State} (hup : s.down = false) (hu : u = s.elapse dt)
    (hread : (u.ring ring.val).reads.contains (n, n) = true) :
    execDescriptorReadFail dt ring n s =
      .next ((((u.onRing ring.val (fun r => { r with reads := r.reads.erase (n, n) }.drop)).haltRing ring.val 3).fault 64).fault 66) := by
  simp only [execDescriptorReadFail, hup, ← hu, hread]
  rfl

/-- R556: the host data of a descriptor do not come. -/
theorem execHostReadFail_of_desc {dt slot : Nat} {ring : Fin 64} {d : Desc} {s u : State} (hup : s.down = false)
    (hu : u = s.elapse dt) (hdesc : u.liveAs ring.val slot Desc.readsHost = some d) :
    execHostReadFail dt ring slot [] s = .next (u.dataFails d) := by
  simp [execHostReadFail, hup, ← hu, hdesc]

theorem execFence_of_startable {dt slot : Nat} {ring : Fin 64} {d : Desc} {s u : State} (hup : s.down = false) (hu : u = s.elapse dt)
    (hdesc : u.startable ring.val slot 0x7E = some d) : execFence dt ring slot s = .next (u.start d) := by
  simp [execFence, hup, ← hu, hdesc]

/-- R54: no descriptor in the FENCE's scope is waited for any more. -/
theorem execFenceRelease_of_clear {dt slot : Nat} {ring : Fin 64} {d : Desc} {s u : State} (hup : s.down = false)
    (hu : u = s.elapse dt) (hdesc : u.liveAs ring.val slot (fun d => decide (d.opcode = 0x7E) && d.started) = some d)
    (hwaits : u.hif.inflight.any (fenceWaits d) = false) (haborts : u.hif.held.any (abortWaits d) = false) :
    execFenceRelease dt ring slot s = .next (u.complete d 0 0) := by
  simp only [execFenceRelease, hup, ← hu, hdesc, hwaits, haborts]
  rfl

theorem execAbort_of_startable {dt slot : Nat} {ring : Fin 64} {d : Desc} {s u : State} (hup : s.down = false) (hu : u = s.elapse dt)
    (hdesc : u.startable ring.val slot 0x7F = some d) : execAbort dt ring slot s = .next (u.decideAbort d) := by
  simp [execAbort, hup, ← hu, hdesc]

/-- Settles O6, by the conditions under which each command has its effect. -/
theorem descriptorTrafficCompletes : Obligations.DescriptorTrafficCompletes := by
  unfold Obligations.DescriptorTrafficCompletes
  refine ⟨?descriptorFetch, ?descriptorArrive, ?descriptorReadFail, ?hostReadFail, ?fence, ?fenceRelease, ?abort⟩
  case descriptorFetch =>
    rintro s _ dt r _ _ hup rfl hquiesce hready hhif hmute hring rfl hcount hreads rfl
    exact execDescriptorFetch_of_open hup hquiesce hready hhif hmute hring hcount hreads
  case descriptorArrive =>
    rintro s u dt ring bytes d v hup hu hlen hon hcring hasked hskip hd hv hcheck hreplay
    have hkept : v = u.keepDesc d := by rw [hv, hd]; rfl
    rw [hkept] at hcheck hreplay ⊢
    exact execDescriptorArrive_of_kept hup hu hlen hon hcring hasked hskip hd hcheck hreplay
  case descriptorReadFail => exact fun s u dt ring n hup hu hread => execDescriptorReadFail_of_asked hup hu hread
  case hostReadFail =>
    rintro s u dt ring slot _ d hup hu rfl hdesc
    exact execHostReadFail_of_desc hup hu hdesc
  case fence => exact fun s u dt ring slot d hup hu hdesc => execFence_of_startable hup hu hdesc
  case fenceRelease =>
    exact fun s u dt ring slot d hup hu hdesc hwaits haborts => execFenceRelease_of_clear hup hu hdesc hwaits haborts
  case abort => exact fun s u dt ring slot d hup hu hdesc => execAbort_of_startable hup hu hdesc

/-! ### Completions (R48, R50, R51, R55) -/

theorem execCompletionWrite_of_writable {dt : Nat} {c : Completion} {s u : State} (hup : s.down = false) (hu : u = s.elapse dt)
    (hheld : u.hif.held.find? u.writable = some c) :
    execCompletionWrite dt s = .next ((u.onHif (fun h => { h with held := h.held.erase c })).writeCompletion c) := by
  simp [execCompletionWrite, hup, ← hu, hheld]

theorem execCompletionDrain_of_up {dt : Nat} {ring : Fin 64} {s : State} (hup : s.down = false) :
    execCompletionDrain dt ring s = .next ((s.elapse dt).drainRing ring.val) := by
  simp [execCompletionDrain, hup]

/-- R50: mod_time has passed since the first completion that is not signalled. -/
theorem execCompletionModTimeout_of_due {dt : Nat} {ring : Fin 64} {s u : State} (hup : s.down = false) (hu : u = s.elapse dt)
    (hon : u.ringOn ring.val = true) (htime : u.f (Fld.HIF_RING_MOD_mod_time ring.val) ≠ 0)
    (hunsig : (u.ring ring.val).unsig ≠ 0)
    (hdue : (u.ring ring.val).unsigSince + u.f (Fld.HIF_RING_MOD_mod_time ring.val) * 100 ≤ u.now) :
    execCompletionModTimeout dt ring s = .next (u.signalRing ring.val) := by
  have hdue : u.now - (u.ring ring.val).unsigSince ≥ u.f (Fld.HIF_RING_MOD_mod_time ring.val) * 100 := by omega
  simp [execCompletionModTimeout, hup, ← hu, hon, htime, hunsig, hdue]

/-- Settles O7, by the conditions under which each command has its effect. -/
theorem completionTrafficCompletes : Obligations.CompletionTrafficCompletes := by
  unfold Obligations.CompletionTrafficCompletes
  refine ⟨?completionWrite, ?completionDrain, ?completionModTimeout⟩
  case completionWrite => exact fun s u dt c hup hu hheld => execCompletionWrite_of_writable hup hu hheld
  case completionDrain =>
    rintro s _ dt ring hup rfl
    exact execCompletionDrain_of_up hup
  case completionModTimeout =>
    exact fun s u dt ring hup hu hon htime hunsig hdue => execCompletionModTimeout_of_due hup hu hon htime hunsig hdue

/-! ### Layers and commits (R59, R60, R62, R76, R78, R79, R90) -/

/-- R76 to R79: a layer that passes every check is admitted once the memory domain is on. -/
theorem execLayerSet_of_admitted {dt slot : Nat} {ring : Fin 64} {list : List PageEnt} {d : Desc} {s u v : State}
    (hup : s.down = false) (hu : u = s.elapse dt) (hdesc : u.startable ring.val slot 0x10 = some d) (hopening : u.opening = false)
    (hlen : list.length = d.buf.used) (hcheck : layerCheck d = none) (hents : d.buf.entsOk list = true)
    (hfits : (u.readList d).jobFits d = true) (hroom : ((u.readList d).lay.waiting.getD (d.byte 8) []).length < 16)
    (hv : v = (u.readList d).wakeAll [4]) (hon : v.allOn [4] = true) :
    execLayerSet dt ring slot list s = .next (v.admitLayer d (d.content list)) := by
  simp only [execLayerSet, hup, ← hu, hdesc, hopening, hlen, hcheck, hents, hfits, ge_iff_le, Nat.not_le.mpr hroom, ← hv, hon]
  simp

/-- R79: a layer of no job is freed at once; one of a job with the commit that comes next. -/
theorem execLayerFree_of_room {dt slot : Nat} {ring : Fin 64} {d : Desc} {s u v : State} (hup : s.down = false)
    (hu : u = s.elapse dt) (hdesc : u.startable ring.val slot 0x11 = some d) (hopening : u.opening = false)
    (hfits : u.jobFits d = true) (hroom : (u.lay.waiting.getD (d.byte 8) []).length < 16)
    (hv : v = (u.start d).addBinding (d.byte 8) d.order none) :
    execLayerFree dt ring slot s =
      .next (if u.lay.job = none then (v.takeBinding (d.byte 8) d.order).complete d 0 0 else v) := by
  simp only [execLayerFree, hup, ← hu, hdesc, hopening, hfits, ge_iff_le, Nat.not_le.mpr hroom, ← hv]
  cases u.lay.job <;> rfl

/-- R88 to R91: the commit belongs to the open job, has a legal length and target, and there is room for it. -/
theorem execImageCommit_of_acceptable {dt slot ask : Nat} {ring : Fin 64} {d : Desc} {j : Job} {s u : State} (hup : s.down = false)
    (hu : u = s.elapse dt) (hdesc : u.startable ring.val slot 0x12 = some d) (hopening : u.opening = false)
    (hjob : u.lay.job = some j) (hfits : u.jobFits d = true) (hclosed : j.closed = false) (hlength : j.latchLines < d.num 16 3)
    (hask : ask = if bitOf (d.byte 12) 0 then d.num 8 4 else u.nextImage)
    (htarget : ¬ (2 ^ 31 ≤ diff32 ask u.nextImage ∧ behind j.first u.nextImage ask = false)) (hroom : u.lay.commits.length < 64) :
    execImageCommit dt ring slot s = .next (u.acceptCommit d j ask) := by
  have htarget : (decide (2 ^ 31 ≤ diff32 ask u.nextImage) && !behind j.first u.nextImage ask) = false := by
    simpa using htarget
  simp only [execImageCommit, hup, ← hu, hdesc, hopening, hjob, hfits, hclosed, ← hask, ge_iff_le, htarget,
    Nat.not_le.mpr hlength, Nat.not_le.mpr hroom]
  rfl

/-- A staged content of no job is taken at once, and one that is no longer wanted leaves the Paddock (R59, R79). -/
def State.settleStaged (order : Nat) (s : State) : State :=
  match s.waitingOf order with
  | some p => if p.2.bind = .free then s.takeBinding p.1 order else s
  | none => (s.padFree (.stage order)).onLay (fun l => { l with gone := l.gone.filter (fun c => c.order ≠ order) })

/-- R59, R60: where the pages hold their tags the content is staged and its descriptor completes. -/
theorem State.stageDone_of_tagsHold {d : Desc} {data : List Byte} {s v : State} (hv : v = s.readPages d (s.stageEnts d.order))
    (htags : d.buf.tags ≠ 1 ∨ tagsHold (pageBytes d.buf.pageSize) (v.stageEnts d.order) data = true) :
    s.stageDone d data = State.settleStaged d.order
      (((v.onWaiting d.order (fun c => { c with staged := true, data := data.take c.length })).wroteHolder
        (.stage d.order)).complete d 0x01 0) := by
  have htags : (decide (d.buf.tags = 1) && !tagsHold (pageBytes d.buf.pageSize) (v.stageEnts d.order) data) = false := by
    obtain h | h := htags <;> simp [h]
  simp only [State.stageDone, ← hv, htags]
  rfl

/-- R59, R60: the copy is whole, and DRAM takes it. -/
theorem execStagingComplete_of_dramUp {dt slot : Nat} {ring : Fin 64} {data : List Byte} {d : Desc} {s u : State} (hup : s.down = false)
    (hu : u = s.elapse dt)
    (hdesc : u.liveAs ring.val slot (fun d =>
      decide (d.opcode = 0x10) && d.started && (u.padOf (.stage d.order)).isSome && decide (data.length = d.buf.taken)) = some d)
    (hdram : u.dramUp = true) : execStagingComplete dt ring slot data s = .next (u.stageDone d data) := by
  simp only [execStagingComplete, hup, ← hu, hdesc, hdram]
  rfl

/-- R60: a request of the descriptor has waited for stage_wait. -/
theorem execStageWaitTimeout_of_due {dt slot : Nat} {ring : Fin 64} {d : Desc} {s u : State} (hup : s.down = false)
    (hu : u = s.elapse dt)
    (hdesc : u.liveAs ring.val slot (fun d =>
      d.started && u.paddock.waiting.any (fun w => w.ofDesc d && decide (u.now - w.at_ ≥ u.stageWait))) = some d) :
    execStageWaitTimeout dt ring slot s = .next (u.stageTimeout d) := by
  simp only [execStageWaitTimeout, hup, ← hu, hdesc]
  rfl

/-- R62, R64: a whole page of a layer that is still there, with its tag where it has one. -/
theorem execStreamedPageArrive_of_good {dt slot page o : Nat} {ring : Fin 64} {data : List Byte} {c : Content} {s u : State}
    (hup : s.down = false) (hu : u = s.elapse dt) (hreader : u.readerOf ring.val slot [page] = some o)
    (hcontent : u.contentOf o = some c) (hlen : data.length = pageBytes c.pageSize)
    (htag : c.tags = false ∨ crc32c data = (c.ents.map (fun e => e.tag.toNat)).getD page 0) :
    execStreamedPageArrive dt ring slot page data s =
      .next (((u.wroteBytes (.landing o) (c.landAt (page * pageBytes c.pageSize))
        (c.landAt (page * pageBytes c.pageSize) + data.length)).endPage o (.here data) page).fetchAhead) := by
  have htag : (c.tags && decide (crc32c data ≠ (c.ents.map (fun e => e.tag.toNat)).getD page 0)) = false := by
    obtain h | h := htag <;> simp [h]
  have hlen : ¬ data.length ≠ pageBytes c.pageSize := Classical.not_not.mpr hlen
  simp only [execStreamedPageArrive, hup, ← hu, hreader, hcontent, hlen, htag]
  rfl

/-- Settles O9, by the conditions under which each command has its effect. -/
theorem layerCommandsComplete : Obligations.LayerCommandsComplete := by
  unfold Obligations.LayerCommandsComplete
  refine ⟨?layerSet, ?layerFree, ?imageCommit, ?stagingComplete, ?stageWaitTimeout, ?streamedPageArrive⟩
  case layerSet =>
    exact fun s u dt ring slot list d v hup hu hdesc hopening hlen hcheck hents hfits hroom hv hon =>
      execLayerSet_of_admitted hup hu hdesc hopening hlen hcheck hents hfits hroom hv hon
  case layerFree =>
    exact fun s u dt ring slot d v hup hu hdesc hopening hfits hroom hv => execLayerFree_of_room hup hu hdesc hopening hfits hroom hv
  case imageCommit =>
    exact fun s u dt ring slot d j ask hup hu hdesc hopening hjob hfits hclosed hlength hask htarget hroom =>
      execImageCommit_of_acceptable hup hu hdesc hopening hjob hfits hclosed hlength hask htarget hroom
  case stagingComplete =>
    rintro s u dt ring slot data d v _ hup hu hdesc hdram hv htags rfl
    refine (execStagingComplete_of_dramUp hup hu hdesc hdram).trans ?_
    rw [State.stageDone_of_tagsHold hv htags]
    rfl
  case stageWaitTimeout => exact fun s u dt ring slot d hup hu hdesc => execStageWaitTimeout_of_due hup hu hdesc
  case streamedPageArrive =>
    exact fun s u dt ring slot page data o c hup hu hreader hcontent hlen htag =>
      execStreamedPageArrive_of_good hup hu hreader hcontent hlen htag

end Sys2Proof.Machine
end

section
/-! PROOFS. The statements of 03_layers_composition.md: the opening and closing of a job, composition band by band, and the REJECT pulse. -/

namespace Sys2Proof.Machine

/-! ### Jobs (R70, R71, R176, R179) -/

/-- R70, R176: no job is open, every domain that a job needs is ON, and no bar in use lies before bar 0. The job opens, or its JOB_OPEN waits for
the Paddock (R179). -/
theorem execJobOpen_of_granted {dt slot : Nat} {ring : Fin 64} {d : Desc} {s u v : State} (hup : s.down = false) (hu : u = s.elapse dt)
    (hdesc : u.startable ring.val slot 0x01 = some d) (hopening : u.opening = false) (hjob : u.lay.job = none) (hnum : d.job ≠ 0)
    (hv : v = u.wakeAll [4, 5, 6, 7]) (hon : v.allOn [4, 5, 6, 7] = true)
    (hoff : (List.range 8).any (fun b => v.fb (Fld.JET_BAR_CFG_en b) && v.offB b < v.offB 0) = false)
    (hwait : ¬ ((v.openAsk d).opening = true ∧ (v.openAsk d).stageWait = 0)) :
    execJobOpen dt ring slot s = .next (v.openAsk d) := by
  have hjob : (u.lay.job.isSome || decide (d.job = 0)) = false := by simp [hjob, hnum]
  have hwait : ((v.openAsk d).opening && decide ((v.openAsk d).stageWait = 0)) = false := by simpa using hwait
  simp only [execJobOpen, hup, ← hu, hdesc, hopening, hjob, ← hv, hon, hoff, hwait, Bool.not_true, Bool.false_eq_true,
    ↓reduceIte]

/-- R71: the last image of a JOB_CLOSE is the one before the next acceptable image where it asks for none, or for a later one. -/
theorem State.closeJob_eq {d : Desc} {j : Job} {last : Nat} {u v w x : State}
    (hlast : last = if d.num 8 4 = 0 ∨ imgLe (imgAdd u.nextImage (2 ^ 32 - 1)) (d.num 8 4) = false then imgAdd u.nextImage (2 ^ 32 - 1)
      else d.num 8 4)
    (hv : v = (u.onLay (fun l => { l with job := some { j with closed := true, last := last } })).complete d 0 last)
    (hw : w = if v.hold.changed then v.writeHoldSnap else v) (hx : x = if w.nozzle.changed then w.writeStatusSnap else w) :
    u.closeJob d j =
      if j.accepted = false ∨ (x.lay.comp = none ∧ imgLe (x.imageToStart j) last = false) then x.jobEnd else x := by
  have hlast : last = if (decide (d.num 8 4 = 0) || !imgLe (imgAdd u.nextImage (2 ^ 32 - 1)) (d.num 8 4)) then
      imgAdd u.nextImage (2 ^ 32 - 1) else d.num 8 4 := by
    simpa using hlast
  simp only [State.closeJob, ← hlast, ← hv, ← hw, ← hx]
  simp only [Bool.or_eq_true, Bool.and_eq_true, Bool.not_eq_true', Option.isNone_iff_eq_none]

/-- R71: the open job is the descriptor's own, and not closed yet. -/
theorem execJobClose_of_open {dt slot : Nat} {ring : Fin 64} {d : Desc} {j : Job} {s u : State} (hup : s.down = false)
    (hu : u = s.elapse dt) (hdesc : u.startable ring.val slot 0x02 = some d) (hopening : u.opening = false) (hjob : u.lay.job = some j)
    (hfits : u.jobFits d = true) (hclosed : j.closed = false) : execJobClose dt ring slot s = .next (u.closeJob d j) := by
  simp only [execJobClose, hup, ← hu, hdesc, hopening, hjob, hfits, hclosed]
  rfl

/-- Settles O8, by the conditions under which each command has its effect. -/
theorem jobCommandsComplete : Obligations.JobCommandsComplete := by
  unfold Obligations.JobCommandsComplete
  refine ⟨?jobOpen, ?jobClose⟩
  case jobOpen =>
    rintro s u dt ring slot d v _ hup hu hdesc hopening hjob hnum hv hon hoff rfl hwait
    exact execJobOpen_of_granted hup hu hdesc hopening hjob hnum hv hon hoff hwait
  case jobClose =>
    intro s u dt ring slot d j last v w x hup hu hdesc hopening hjob hfits hclosed hlast hv hw hx
    rw [← State.closeJob_eq hlast hv hw hx]
    exact execJobClose_of_open hup hu hdesc hopening hjob hfits hclosed

/-! ### Bands (R72, R73, R92, R93, R181) -/

/-- R92, R93: a job with a commit accepted, no band under way, and the domains that the band needs ON. -/
theorem execCompositionBandStart_of_ready {dt : Nat} {j : Job} {live : Bool} {needs : List Nat} {s u v : State} (hup : s.down = false)
    (hu : u = s.elapse dt) (hjob : u.lay.job = some j) (haccepted : j.accepted = true)
    (hband : u.lay.comp.any (fun c => c.band.isSome) = false) (hstopped : u.lay.stopped = false)
    (hlive : live = (u.atBoundary || u.lay.comp.any (fun c => !c.fromStore)))
    (hneeds : needs = [6] ++ (if live then [5] else []) ++ (if live && u.inflates j then [9] else []))
    (hv : v = (u.wakeAll needs).callDram) (hon : needs.all v.isOn = true) (hdram : v.dramUp = true) :
    execCompositionBandStart dt s = .next (v.composeStep j) := by
  simp only [execCompositionBandStart, hup, ← hu, hjob, haccepted, hband, hstopped, ← hlive, ← hneeds, ← hv, hon, hdram]
  rfl

/-- R72, R73, R93, R100, R181: the band is marked complete and the position moves on; then the latch point, the end of the image, and the end of
the job or the limit of the lead are judged, in this order. -/
theorem execBandComplete_of_band {dt first n : Nat} {j : Job} {k k' : Comp} {s u v w x : State} (hup : s.down = false)
    (hu : u = s.elapse dt) (hjob : u.lay.job = some j) (hcomp : u.lay.comp = some k) (hband : k.band = some (first, n))
    (hk : k' = { k with pos := first + n, band := none })
    (hv : v = (if first < k.length then u.markComplete j k first else u).onLay (fun l => { l with comp := some k' }))
    (hw : w = if !k.latched && decide (k.length ≤ first + n + j.latchLines) then v.passLatch j k' else v)
    (hx : x = if decide (k.pos < k.length) && decide (first + n = k.length) then w.imageComposed k' else w) :
    execBandComplete dt s =
      .next (if j.closed && decide (k.image = j.last) && decide (first + n = k.length + k.gap) then x.jobEnd
        else (x.onLay (fun l => { l with stopped := decide (x.leadLimit ≤ x.lead) })).leadBack.fetchAhead) := by
  simp only [execBandComplete, hup, ← hu, hjob, hcomp, hband, ← hk, ← hv, ← hw, ← hx]
  exact (apply_ite Host.Outcome.next _ _ _).symm

/-- R73: composition stood at the limit of the lead, and the lead is below it again. -/
theorem execCompositionResume_of_room {dt : Nat} {s u : State} (hup : s.down = false) (hu : u = s.elapse dt)
    (hstopped : u.lay.stopped = true) (hlead : u.lead < u.leadLimit) :
    execCompositionResume dt s = .next (u.onLay (fun l => { l with stopped := false })) := by
  simp [execCompositionResume, hup, ← hu, hstopped, hlead]

/-! ### REJECT (R97) -/

theorem execRejectDue_of_passed {dt : Nat} {r : Nat × Int} {s u : State} (hup : s.down = false) (hu : u = s.elapse dt)
    (hmark : u.lay.rejects.find? (fun r => u.passed (u.rejectAt r.2)) = some r) :
    execRejectDue dt s = .next (u.onLay (fun l => { l with rejects := l.rejects.erase r })).rejectNow := by
  simp [execRejectDue, hup, ← hu, hmark]

theorem execRejectEnd_of_due {dt t : Nat} {s u : State} (hup : s.down = false) (hu : u = s.elapse dt)
    (hend : u.lay.rejectEnd = some t) (hdue : t ≤ u.now) :
    execRejectEnd dt s = .next ((u.onLay (fun l => { l with rejectEnd := none })).emit (.rejectEnd (!u.rejectHigh))) := by
  simp only [execRejectEnd, hup, ← hu, hend, hdue]
  rfl

/-- Settles O11, by the conditions under which each command has its effect. -/
theorem compositionCommandsComplete : Obligations.CompositionCommandsComplete := by
  unfold Obligations.CompositionCommandsComplete
  refine ⟨?bandStart, ?bandComplete, ?resume, ?rejectDue, ?rejectEnd⟩
  case bandStart =>
    exact fun s u dt j live needs v hup hu hjob haccepted hband hstopped hlive hneeds hv hon hdram =>
      execCompositionBandStart_of_ready hup hu hjob haccepted hband hstopped hlive hneeds hv hon hdram
  case bandComplete =>
    exact fun s u dt j k k' first n v w x hup hu hjob hcomp hband hk hv hw hx =>
      execBandComplete_of_band hup hu hjob hcomp hband hk hv hw hx
  case resume => exact fun s u dt hup hu hstopped hlead => execCompositionResume_of_room hup hu hstopped hlead
  case rejectDue => exact fun s u dt r hup hu hmark => execRejectDue_of_passed hup hu hmark
  case rejectEnd => exact fun s u dt t hup hu hend hdue => execRejectEnd_of_due hup hu hend hdue

end Sys2Proof.Machine
end

section
/-! PROOFS. The statement of 04_colour_screening.md: mark packages of the three kinds, each with the branches of its decisions (R478, R479). -/

namespace Sys2Proof.Machine

/-! ### MARK_PKG with CONTENT (R478 to R480) -/

/-- The slot n of the LYP store as a CONTENT package fills it (R478, R479); owned says that it belongs to the open job (R480). -/
def lypSlotOf (p plain : List Byte) (n : Nat) (owned : Bool) : LypSlot :=
  { slot := n, image := leAt p 8 4, count := leAt p 12 4, x0 := leAt p 16 4, y0 := leAt p 20 4, w := leAt p 24 2, h := leAt p 26 2,
    marginX := leAt p 28 1, marginY := leAt p 29 1, keep := leAt p 30 1, format := leAt p 6 1, spot := leAt p 31 1 % 8, data := plain,
    owned := owned, ended := [] }

section
variable {dt slot st n : Nat} {ring : Fin 64} {list : List PageEnt} {data p plain : List Byte} {d : Desc} {s u v : State}
  (hup : s.down = false) (hu : u = s.elapse dt) (hv : v = u.readHost d list)
include hup hu hv

theorem execMarkPkgContent_of_refused
    (hdesc : u.markDesc ring.val slot 0 list data = some (d, 0, p)) (hopen : v.markOpen p = .inl st) :
    execMarkPkgContent dt ring slot list data s = .next (v.markRefuse d st) := by
  simp [execMarkPkgContent, hup, ← hu, hdesc, ← hv, hopen]

theorem execMarkPkgContent_of_not_placed
    (hdesc : u.markDesc ring.val slot 0 list data = some (d, 0, p)) (hopen : v.markOpen p = .inr plain)
    (hplace : v.lypPlace p = .inl st) :
    execMarkPkgContent dt ring slot list data s = .next (v.complete d st 0) := by
  simp [execMarkPkgContent, hup, ← hu, hdesc, ← hv, hopen, hplace]

/-- R479: the raster is placed in its slot, and the completion gives the number of its images. -/
theorem execMarkPkgContent_of_placed
    (hdesc : u.markDesc ring.val slot 0 list data = some (d, 0, p)) (hopen : v.markOpen p = .inr plain)
    (hplace : v.lypPlace p = .inr n) :
    execMarkPkgContent dt ring slot list data s =
      .next ((v.lypStore (lypSlotOf p plain n v.lay.job.isSome)).complete d 0 (leAt p 12 4)) := by
  simp [execMarkPkgContent, hup, ← hu, hdesc, ← hv, hopen, hplace, lypSlotOf]

/-! ### MARK_PKG with CSP (R117, R126, R479) -/

theorem execMarkPkgCsp_of_refused
    (hdesc : u.markDesc ring.val slot 1 list data = some (d, 0, p)) (hopen : v.markOpen p = .inl st) :
    execMarkPkgCsp dt ring slot list data s = .next (v.markRefuse d st) := by
  simp [execMarkPkgCsp, hup, ← hu, hdesc, ← hv, hopen]

/-- R126, R479: with a job open the tables wait for the next commit; with none they are installed at once. -/
theorem execMarkPkgCsp_of_opened
    (hdesc : u.markDesc ring.val slot 1 list data = some (d, 0, p)) (hopen : v.markOpen p = .inr plain) :
    execMarkPkgCsp dt ring slot list data s =
      .next ((v.onInk (fun k => if v.lay.job.isNone then { k with csp := some (cspOf plain) }
        else { k with cspWait := some (.next, cspOf plain) })).complete d 0 0) := by
  simp [execMarkPkgCsp, hup, ← hu, hdesc, ← hv, hopen]

/-! ### MARK_PKG with KEY (R479, R495) -/

theorem execMarkPkgKey_of_refused
    (hdesc : u.markDesc ring.val slot 2 list data = some (d, 0, p)) (hopen : v.markOpen p = .inl st) :
    execMarkPkgKey dt ring slot list data s = .next (v.markRefuse d st) := by
  simp [execMarkPkgKey, hup, ← hu, hdesc, ← hv, hopen]

/-- R479, R495: the slot's earlier key is replaced, and the wrapped key is written to MRAM. -/
theorem execMarkPkgKey_of_opened
    (hdesc : u.markDesc ring.val slot 2 list data = some (d, 0, p)) (hopen : v.markOpen p = .inr plain) :
    execMarkPkgKey dt ring slot list data s =
      .next (((v.onSec (fun x => { x with
        markKeys := (leAt p 7 1, plain) :: x.markKeys.filter (fun k => k.1 ≠ leAt p 7 1) })).writeRecord 0x04 (leAt p 7 1)
          (keyWrap (beBytes 32 Config.deviceKey) plain) none).complete d 0 0) := by
  simp [execMarkPkgKey, hup, ← hu, hdesc, ← hv, hopen]

end

/-- Settles O40, by the decisions on the package: whether it opens, and for CONTENT whether there is a slot for it. -/
theorem markPackagesComplete : Obligations.MarkPackagesComplete := by
  unfold Obligations.MarkPackagesComplete
  refine ⟨?content, ?csp, ?key⟩
  case content =>
    intro s u dt ring slot list data d p v hup hu hdesc hv
    cases hopen : v.markOpen p with
    | inl st => exact execMarkPkgContent_of_refused hup hu hv hdesc hopen
    | inr plain =>
      cases hplace : v.lypPlace p with
      | inl st => exact execMarkPkgContent_of_not_placed hup hu hv hdesc hopen hplace
      | inr n => exact execMarkPkgContent_of_placed hup hu hv hdesc hopen hplace
  case csp =>
    intro s u dt ring slot list data d p v hup hu hdesc hv
    cases hopen : v.markOpen p with
    | inl st => exact execMarkPkgCsp_of_refused hup hu hv hdesc hopen
    | inr plain => exact execMarkPkgCsp_of_opened hup hu hv hdesc hopen
  case key =>
    intro s u dt ring slot list data d p v hup hu hdesc hv
    cases hopen : v.markOpen p with
    | inl st => exact execMarkPkgKey_of_refused hup hu hv hdesc hopen
    | inr plain => exact execMarkPkgKey_of_opened hup hu hv hdesc hopen

end Sys2Proof.Machine
end

section
/-! PROOFS. The statements of 05_web_motion.md: the wheels, ENC_OUT with the line clock and the tick PLL, and the ticks and fire lines of the bars. -/

namespace Sys2Proof.Machine

/-! ### Wheels (R150 to R152, R156, R160) -/

/-- R151, R152: with 16 pitches or more the wheel stays enabled, and filtering starts from the levels of its inputs. -/
theorem execWheelEnable_of_pitches {dt : Nat} {wheel : Fin 2} {cfg : Word} {s v w : State} (hup : s.down = false)
    (hopen : (s.elapse dt).writeOpen 1 (Reg.BELL_W_CFG wheel.val).off = true)
    (hv : v = (s.elapse dt).noteWrite 1 (Reg.BELL_W_CFG wheel.val).off cfg.toNat) (hlock : v.sys.lock = false)
    (henable : bitOf cfg.toNat 31 = true) (hw : w = v.setReg (Reg.BELL_W_CFG wheel.val) (cfg.toNat &&& 0x803BFFFF))
    (hpitches : 16 ≤ w.f (Fld.BELL_W_CFG_pitches wheel.val)) :
    execWheelEnable dt wheel cfg s = .next (w.onWheel wheel.val (fun x => { x with
      a := { x.a with lvl := x.a.raw != w.inverted wheel.val false, change := none },
      b := { x.b with lvl := x.b.raw != w.inverted wheel.val true, change := none }, bAt := none })) := by
  simp [execWheelEnable, hup, hopen, ← hv, hlock, henable, ← hw, Nat.not_lt.mpr hpitches]

/-- R151: the level has been stable for the filter time, and its transition is taken at the time of its first change. -/
theorem execWheelTransitionAccept_of_stable {dt t : Nat} {wheel : Fin 2} {inputB : Bool} {i : WInput} {s u : State}
    (hup : s.down = false) (hu : u = s.elapse dt) (hi : i = if inputB then (u.wheel wheel.val).b else (u.wheel wheel.val).a)
    (hchange : i.change = some t) (henable : u.fb (Fld.BELL_W_CFG_enable wheel.val) = true) (hreplay : u.replaying = false)
    (hstable : u.filterNs wheel.val ≤ u.now - t) :
    execWheelTransitionAccept dt wheel inputB s =
      .next (u.takeTransition wheel.val inputB (i.raw != u.inverted wheel.val inputB) t) := by
  simp [execWheelTransitionAccept, hup, ← hu, ← hi, hchange, henable, hreplay, hstable]

/-- R156: no edge for the still time in a state that moves. Only the source wheel sets the speed of the web. -/
theorem execStillTimeout_of_due {dt : Nat} {wheel : Fin 2} {s u v w : State} (hup : s.down = false) (hu : u = s.elapse dt)
    (hmoving : (u.wheel wheel.val).state = .first ∨ (u.wheel wheel.val).state = .run ∨ (u.wheel wheel.val).state = .reversing)
    (hdue : u.stillNs ≤ u.now - (u.wheel wheel.val).edgeAt)
    (hv : v = u.onWheel wheel.val (fun x => { x with state := .still, speedValid := false, hist := [], fwdInterval := 0 }))
    (hw : w = (v.onBell (fun b => { b with backRun := none })).segment v.bell.fire 0 none v.now) :
    execStillTimeout dt wheel s = .next (if u.bell.src = wheel.val then (w.raiseEv 66).setSpeed 0 else v) := by
  have hsrc : v.bell.src = u.bell.src := by rw [hv]; rfl
  simp [execStillTimeout, hup, ← hu, hmoving, hdue, ← hv, hsrc, hw, or_assoc]

theorem execCoastEnd_of_up {dt : Nat} {s : State} (hup : s.down = false) :
    execCoastEnd dt s = .next (((s.elapse dt).endCoast 0).endCoast 1) := by
  simp [execCoastEnd, hup]

/-- Settles O17, by the conditions under which each command has its effect. -/
theorem wheelCommandsComplete : Obligations.WheelCommandsComplete := by
  unfold Obligations.WheelCommandsComplete
  refine ⟨?wheelEnable, ?wheelInputChange, ?wheelTransitionAccept, ?stillTimeout, ?coastEnd⟩
  case wheelEnable =>
    rintro s _ dt wheel cfg v hup rfl hopen hv hlock henable hpitches
    exact execWheelEnable_of_pitches hup hopen hv hlock henable rfl hpitches
  case wheelInputChange =>
    rintro s _ dt wheel inputB level rfl
    rfl
  case wheelTransitionAccept =>
    exact fun s u dt wheel inputB i t hup hu hi hchange henable hreplay hstable =>
      execWheelTransitionAccept_of_stable hup hu hi hchange henable hreplay hstable
  case stillTimeout =>
    exact fun s u dt wheel v w hup hu hmoving hdue hv hw => execStillTimeout_of_due hup hu hmoving hdue hv hw
  case coastEnd =>
    rintro s _ dt hup rfl
    exact execCoastEnd_of_up hup

/-! ### ENC_OUT, the line clock and the tick PLL (R168, R174, R175) -/

/-- R168: the active pulse has ended and none waits, so no start of a pulse is set. -/
theorem execEncPulseEnd_of_none_waiting {dt t : Nat} {s u : State} (hup : s.down = false) (hu : u = s.elapse dt)
    (hend : u.bell.encEnd = some t) (hdue : t ≤ u.now) (hwait : u.bell.encWait = 0) :
    execEncPulseEnd dt s = .next (u.onBell (fun b => { b with encEnd := none, encLast := some t, encNext := none })) := by
  simp [execEncPulseEnd, hup, ← hu, hend, hdue, hwait, State.onBell]

theorem execTickPllUnlock_of_locked {dt : Nat} {s u : State} (hup : s.down = false) (hu : u = s.elapse dt)
    (hlock : u.bell.pllLock = true) :
    execTickPllUnlock dt s = .next ((u.onBell (fun b => { b with pllLock := false })).fault 22) := by
  simp [execTickPllUnlock, hup, ← hu, hlock]

theorem execTickPllLock_of_up {dt : Nat} {s : State} (hup : s.down = false) :
    execTickPllLock dt s = .next ((s.elapse dt).onBell (fun b => { b with pllLock := true })) := by
  simp [execTickPllLock, hup]

/-- R168: with the line clock as its source, ENC_OUT counts a line boundary above the high-water mark. -/
theorem execLineClockBoundary_of_ahead {dt : Nat} {s u : State} (hup : s.down = false) (hu : u = s.elapse dt) (hsrc : u.encSrc = 2)
    (hahead : ahead 32 (u.bell.hwm / 2 ^ 48 * 2 ^ 48) (u.bell.encLine * 2 ^ 48) = true) :
    execLineClockBoundary dt s = .next (u.onBell (fun b => { b with encLine := b.encLine + 1 })).encCount := by
  simp only [execLineClockBoundary, hup, ← hu, hsrc, hahead]
  rfl

/-- Settles O18, by the conditions under which each command has its effect. -/
theorem clockAndEncoderCommandsComplete : Obligations.ClockAndEncoderCommandsComplete := by
  unfold Obligations.ClockAndEncoderCommandsComplete
  refine ⟨?encPulseEnd, ?tickPllUnlock, ?tickPllLock, ?lineClockBoundary⟩
  case encPulseEnd => exact fun s u dt t hup hu hend hdue hwait => execEncPulseEnd_of_none_waiting hup hu hend hdue hwait
  case tickPllUnlock => exact fun s u dt hup hu hlock => execTickPllUnlock_of_locked hup hu hlock
  case tickPllLock =>
    rintro s _ dt hup rfl
    exact execTickPllLock_of_up hup
  case lineClockBoundary =>
    rintro s u dt _ hup hu hsrc rfl hahead
    exact execLineClockBoundary_of_ahead hup hu hsrc hahead

/-! ### Ticks and sends (R164, R165, R192, R198) -/

/-- R165: the line of the next tick is reached, and no burst holds the bar's ticks back. -/
theorem execFireTick_of_due {dt : Nat} {bar : Fin 8} {found : TickCheck} {s u : State} (hup : s.down = false) (hu : u = s.elapse dt)
    (hon : u.isOn 6 = true) (hburst : (u.bar bar.val).burstNext = none) (hline : u.lineDue bar.val (u.nextTick bar.val) = true) :
    execFireTick dt bar found s = .next (u.fireNext bar.val false found.disagree found.stalled) := by
  simp [execFireTick, hup, ← hu, hon, hburst, hline]

/-- R164: the spacing of the burst has passed. -/
theorem execBurstTick_of_due {dt t : Nat} {tick : BurstAt} {s u : State} (hup : s.down = false) (hu : u = s.elapse dt)
    (hon : u.isOn 6 = true) (hburst : (u.bar tick.bar.val).burstNext = some t) (hdue : t ≤ u.now)
    (hline : u.lineDue tick.bar.val (u.nextTick tick.bar.val) = true) :
    execBurstTick dt tick s = .next (u.fireNext tick.bar.val true tick.found.disagree tick.found.stalled) := by
  simp [execBurstTick, hup, ← hu, hon, hburst, hdue, hline]

theorem execFirePulseEnd_of_due {dt : Nat} {bar : Fin 8} {p : Bool × Nat} {s u : State} (hup : s.down = false) (hu : u = s.elapse dt)
    (hpulse : (u.bar bar.val).pulse = some p) (hdue : p.2 ≤ u.now) :
    execFirePulseEnd dt bar s = .next (u.endPulse bar.val) := by
  simp [execFirePulseEnd, hup, ← hu, hpulse, hdue]

/-- R192: the bar has come within ahead_lines of tick m, the next whose packets are to be sent. -/
theorem execDotSendStart_of_due {dt : Nat} {bar : Fin 8} {m : Int} {s u : State} (hup : s.down = false) (hu : u = s.elapse dt)
    (hon : u.isOn 6 = true) (hm : m = max ((u.bar bar.val).nextSend.getD (u.nextTick bar.val)) (u.nextTick bar.val))
    (hline : u.lineDue bar.val (m - u.aheadLines) = true) :
    execDotSendStart dt bar s = .next (u.sendTick bar.val m) := by
  simp only [execDotSendStart, hup, ← hu, hon, ← hm, hline]
  rfl

/-! ### Arming, disarming and HV_EN (R199, R200, R206) -/

/-- R199, R200: Crook is clear, Fold does not hold the bar, and the bar has something to fire. The line that start_b selects becomes active, and
SYNC is sent at once or waits for the link. -/
theorem execBarArm_of_armable {dt : Nat} {bar : Fin 8} {s v w x y : State} (hup : s.down = false)
    (hopen : (s.elapse dt).writeOpen 1 (Reg.JET_BAR_CTRL bar.val).off = true)
    (hv : v = (s.elapse dt).noteWrite 1 (Reg.JET_BAR_CTRL bar.val).off
      (putBits ((s.elapse dt).reg (Reg.JET_BAR_CTRL bar.val)) 31 31 1))
    (hcrook : v.crook.state = .clear) (hheld : v.fold.held.getD bar.val false = false)
    (huse : (v.bar bar.val).inUse = true ∨ (v.bar bar.val).rings ≠ []) (harmed : v.armed bar.val = false)
    (hw : w = (v.setF (Fld.JET_BAR_CTRL_arm bar.val) 1).onBar bar.val (fun y => { y with
      fire := .activeStandby, activeB := (v.setF (Fld.JET_BAR_CTRL_arm bar.val) 1).fb (Fld.JET_BAR_CTRL_start_b bar.val),
      awaiting := [], markPending := false, lastEcho := none, lastFired := [none, none, none, none] }))
    (hx : x = (((w.onNzBar bar.val (fun z => { z with sweepAt := w.now, staleSaid := false })).abortImp bar.val).wakeDown
      bar.val).wakeUp bar.val)
    (hy : y = if (x.linkBar bar.val).us = .awake then x.syncBar bar.val
      else x.onLinkBar bar.val (fun l => { l with syncWait := true })) :
    execBarArm dt bar s = .next (y.judgeHalves bar.val) := by
  have huse : (!(v.bar bar.val).inUse && (v.bar bar.val).rings.isEmpty) = false := by
    obtain h | h := huse <;> simp [h]
  simp only [execBarArm, hup, hopen, ← hv, hcrook, hheld, huse, harmed, ← hw, ← hx, ← hy]
  rfl

/-- R199, R200: a write of arm = 0 disarms an armed bar. -/
theorem execBarDisarm_of_armed {dt : Nat} {bar : Fin 8} {s v : State} (hup : s.down = false)
    (hopen : (s.elapse dt).writeOpen 1 (Reg.JET_BAR_CTRL bar.val).off = true)
    (hv : v = (s.elapse dt).noteWrite 1 (Reg.JET_BAR_CTRL bar.val).off
      (putBits ((s.elapse dt).reg (Reg.JET_BAR_CTRL bar.val)) 31 31 0))
    (harmed : v.armed bar.val = true) : execBarDisarm dt bar s = .next (v.barDisarm bar.val 3) := by
  simp [execBarDisarm, hup, hopen, ← hv, harmed]

/-- R206: HV_EN follows hv_en while Crook is clear and no replay runs. -/
theorem execHvEnWrite_of_clear {dt : Nat} {bar : Fin 8} {level : Bool} {s v : State} (hup : s.down = false)
    (hopen : (s.elapse dt).writeOpen 1 (Reg.JET_BAR_CTRL bar.val).off = true)
    (hv : v = (s.elapse dt).noteWrite 1 (Reg.JET_BAR_CTRL bar.val).off
      (putBits ((s.elapse dt).reg (Reg.JET_BAR_CTRL bar.val)) 30 30 (b2n level)))
    (hcrook : v.crook.state = .clear) (hreplay : v.replaying = false) :
    execHvEnWrite dt bar level s =
      .next ((v.setF (Fld.JET_BAR_CTRL_hv_en bar.val) (b2n level)).onBar bar.val (fun x => { x with hv := level })) := by
  simp [execHvEnWrite, hup, hopen, ← hv, hcrook, hreplay]

/-- Settles O19, by the conditions under which each command has its effect. -/
theorem firingCommandsComplete : Obligations.FiringCommandsComplete := by
  unfold Obligations.FiringCommandsComplete
  refine ⟨?fireTick, ?burstTick, ?firePulseEnd, ?dotSendStart, ?barArm, ?barDisarm, ?hvEnWrite⟩
  case fireTick => exact fun s u dt bar found hup hu hon hburst hline => execFireTick_of_due hup hu hon hburst hline
  case burstTick => exact fun s u dt tick t hup hu hon hburst hdue hline => execBurstTick_of_due hup hu hon hburst hdue hline
  case firePulseEnd => exact fun s u dt bar p hup hu hpulse hdue => execFirePulseEnd_of_due hup hu hpulse hdue
  case dotSendStart => exact fun s u dt bar m hup hu hon hm hline => execDotSendStart_of_due hup hu hon hm hline
  case barArm =>
    rintro s _ dt bar v w x y hup rfl hopen hv hcrook hheld huse harmed hw hx hy
    exact execBarArm_of_armable hup hopen hv hcrook hheld huse harmed hw hx hy
  case barDisarm =>
    rintro s _ dt bar v hup rfl hopen hv harmed
    exact execBarDisarm_of_armed hup hopen hv harmed
  case hvEnWrite =>
    rintro s _ dt bar level v hup rfl hopen hv hcrook hreplay
    exact execHvEnWrite_of_clear hup hopen hv hcrook hreplay

end Sys2Proof.Machine
end

section
/-! PROOFS. The statements of 06_scanout_firing.md: the NOZZLE_MAP descriptors, and drills, repairs, line faults, reports and the self-test of a fire line. -/

namespace Sys2Proof.Machine

/-! ### NOZZLE_MAP (R183, R184, R272, R274, R277) -/

/-- R183: with the Paddock granted and the host's data read without an error, the copy arrives. -/
theorem State.remapCopy_of_read {d : Desc} {list : List PageEnt} {data b : List Byte} {g : Region} {s : State}
    (hpad : s.padOf (.remap d.order) = some g) (hdata : d.hostIn list data = some (0, b)) :
    s.remapCopy d list data = (s.readHost d list).remapArrived d g.id b := by
  simp [State.remapCopy, hpad, hdata]

section
variable {dt slot : Nat} {ring : Fin 64} {list : List PageEnt} {data b : List Byte} {d : Desc} {s u y v w : State}
  (hup : s.down = false) (hu : u = s.elapse dt) (hy : y = u.wakeDomain 6) (hon : y.isOn 6 = true)
include hup hu hy hon

theorem execNozzleMapRemap_of_granted {g : Region} (hdesc : u.startOp ring.val slot 0x21 0 = some d) (hopening : u.opening = false)
    (hv : v = (y.mapStart d).padAsk 3 (ceilDiv d.buf.length 2097152) (.remap d.order))
    (hpad : v.padOf (.remap d.order) = some g) (hdata : d.hostIn list data = some (0, b)) :
    execNozzleMapRemap dt ring slot list data s = .next ((v.readHost d list).remapArrived d g.id b) := by
  simp [execNozzleMapRemap, hup, ← hu, hdesc, hopening, ← hy, hon, ← hv, hpad, State.remapCopy_of_read hpad hdata]

/-- R272: the map that fits the half-bar's tables waits for the next commit; with no job open it is taken at once. -/
theorem execNozzleMapStatusLoad_of_fitting {m : List NzStat} (hdesc : u.startOp ring.val slot 0x21 1 = some d)
    (hopening : u.opening = false) (hdata : d.hostIn list data = some (0, b)) (hv : v = y.readHost d list)
    (hmap : v.mapOf (d.byte 9) (d.byte 10) b = some m)
    (hw : w = v.onNzHalf (d.byte 9) (d.byte 10) (fun z => { z with
      wait := z.wait ++ [(if v.lay.job = none then .free else .next, d.order, m)] })) :
    execNozzleMapStatusLoad dt ring slot list data s =
      .next ((if v.lay.job = none then w.takeFree (d.byte 9) (d.byte 10) else w).complete d 0 0) := by
  simp [execNozzleMapStatusLoad, hup, ← hu, hdesc, hopening, ← hy, hon, hdata, ← hv, hmap, hw]

/-- R272: the map fits the buffer that the host has given. -/
theorem execNozzleMapStatusRead_of_room (hdesc : u.startOp ring.val slot 0x21 2 = some d) (hout : d.hostOut list = some true)
    (hroom : (y.mapBytes (d.byte 9) (d.byte 10)).length ≤ d.buf.length) :
    execNozzleMapStatusRead dt ring slot list s =
      .next (((y.readList d).writeHost d (list.map (fun e => e.addr)) (y.mapBytes (d.byte 9) (d.byte 10))).complete d 0 0) := by
  simp [execNozzleMapStatusRead, hup, ← hu, hdesc, ← hy, hon, hout, Nat.not_lt.mpr hroom]

theorem execNozzleMapSet_of_not_refused (hdesc : u.startOp ring.val slot 0x21 3 = some d)
    (hset : y.setRefused (d.byte 9) (d.byte 10) (d.num 12 4) (d.byte 11) = false) :
    execNozzleMapSet dt ring slot s =
      .next ((y.changeStatus (d.byte 9) (d.byte 10) (d.num 12 4) (d.byte 11) 0 2).complete d 0 0) := by
  simp [execNozzleMapSet, hup, ← hu, hdesc, ← hy, hon, hset]

/-- R272: the test covers an entry, so neither the refusal nor the completion without a test applies. -/
theorem execNozzleMapRetest_of_covered (hdesc : u.startOp ring.val slot 0x21 4 = some d)
    (hcover : y.retestCover (d.byte 9) (d.byte 10) (d.num 12 4) ≠ []) :
    execNozzleMapRetest dt ring slot s =
      .next (((y.start d).onNozzle (fun z => { z with retests := z.retests ++ [⟨d.order, d.byte 9, d.byte 10,
        (y.retestCover (d.byte 9) (d.byte 10) (d.num 12 4)).map (fun i => ⟨i, false, false, 0, true⟩), 0⟩] })).wantImp
          (d.byte 9) (some d.order)) := by
  simp [execNozzleMapRetest, hup, ← hu, hdesc, ← hy, hon, hcover]

end

/-- Settles O12, by the conditions under which each command has its effect. -/
theorem nozzleMapCommandsComplete : Obligations.NozzleMapCommandsComplete := by
  unfold Obligations.NozzleMapCommandsComplete
  refine ⟨?remap, ?statusLoad, ?statusRead, ?set, ?retest⟩
  case remap =>
    exact fun s u dt ring slot list data y d g b v hup hu hdesc hopening hy hon hv hpad hdata =>
      execNozzleMapRemap_of_granted hup hu hy hon hdesc hopening hv hpad hdata
  case statusLoad =>
    exact fun s u dt ring slot list data y d b m v w hup hu hdesc hopening hy hon hdata hv hmap hw =>
      execNozzleMapStatusLoad_of_fitting hup hu hy hon hdesc hopening hdata hv hmap hw
  case statusRead =>
    exact fun s u dt ring slot list y d hup hu hdesc hy hon hout hroom =>
      execNozzleMapStatusRead_of_room hup hu hy hon hdesc hout hroom
  case set =>
    exact fun s u dt ring slot y d hup hu hdesc hy hon hset => execNozzleMapSet_of_not_refused hup hu hy hon hdesc hset
  case retest =>
    exact fun s u dt ring slot y d hup hu hdesc hy hon hcover => execNozzleMapRetest_of_covered hup hu hy hon hdesc hcover

/-! ### Drills and repairs (R204, R205) -/

theorem execDrillRequest_of_open {dt : Nat} {bar : Fin 8} {s u : State} (hup : s.down = false) (hu : u = s.elapse dt)
    (hopen : u.writeOpen 1 (Reg.JET_BAR_CTRL bar.val).off = true) :
    execDrillRequest dt bar s =
      .next ((u.noteWrite 1 (Reg.JET_BAR_CTRL bar.val).off (putBits (u.reg (Reg.JET_BAR_CTRL bar.val)) 29 29 1)).setF
        (Fld.JET_BAR_CTRL_drill bar.val) 1) := by
  simp [execDrillRequest, hup, ← hu, hopen]

/-- R205: the drill starts before the tick of gap line 8. -/
theorem execDrillStart_of_due {dt : Nat} {bar : Fin 8} {g : Int × Int} {s u : State} (hup : s.down = false) (hu : u = s.elapse dt)
    (hgap : (u.bar bar.val).gapAt = some g) (hdue : (u.bar bar.val).drillDue = true)
    (hfire : (u.bar bar.val).fire = .activeStandby) (htick : u.nextTick bar.val = g.1 + 8) :
    execDrillStart dt bar s =
      .next ((u.onBar bar.val (fun x => { x with
        fire := .drill, activeB := !x.activeB, drillDue := false, drill := some ⟨0, false, x.activeB⟩ })).syncBar bar.val) := by
  simp [execDrillStart, hup, ← hu, hgap, hdue, hfire, htick]

/-- R204: the failed standby line is repaired; a self-test of it that waits or runs ends first. -/
theorem execFireRepair_of_standby {dt : Nat} {bar : Fin 8} {lineB : Bool} {s u v w : State} (hup : s.down = false)
    (hu : u = s.elapse dt) (hopen : u.writeOpen 1 (Reg.JET_BAR_CTRL bar.val).off = true)
    (hv : v = u.noteWrite 1 (Reg.JET_BAR_CTRL bar.val).off
      (u.reg (Reg.JET_BAR_CTRL bar.val) ||| (if lineB then 0x4000000 else 0x8000000)))
    (hfire : (v.bar bar.val).fire = .activeFailed) (hline : (v.bar bar.val).activeB ≠ lineB)
    (hw : w = if (v.bar bar.val).selfTest = some lineB ∨ (v.bar bar.val).testing.any (fun t => decide (t.lineB = lineB)) = true
      then v.dropLineTest bar.val else v) :
    execFireRepair dt bar lineB s =
      .next ((w.onBar bar.val (fun x => { x with
        selfTest := if x.selfTest = some lineB then none else x.selfTest
        testing := if x.testing.any (fun t => t.lineB = lineB) then none else x.testing
        fire := .activeStandby })).raiseEv 121) := by
  simp [execFireRepair, hup, ← hu, hopen, ← hv, hfire, hline, hw]

/-! ### Line faults and reports (R201, R228) -/

theorem execFirePadFault_of_up {dt b : Nat} {line : FireLine} {s u : State} (hup : s.down = false) (hu : u = s.elapse dt)
    (hb : b = line.bar.val) :
    execFirePadFault dt line s =
      .next (if (u.bar b).testing.any (fun t => decide (t.lineB = line.lineB)) then u.testFailed b
        else if (u.bar b).activeB = line.lineB then u.lineFault 8 b .detector (u.bar b).lastPulse else u) := by
  simp [execFirePadFault, hup, ← hu, hb]

/-- R201: the report of the oldest pulse is overdue, after a self-test whose report is overdue has failed. -/
theorem execEchoTimeout_of_overdue {dt : Nat} {bar : Fin 8} {a : Awaiting} {rest : List Awaiting} {s u v w : State}
    (hup : s.down = false) (hu : u = s.elapse dt)
    (hv : v = if (u.bar bar.val).testing.any (fun t => t.out.any (fun p => decide (p + u.echoNs < u.now)))
      then u.testFailed bar.val else u)
    (hawaiting : (v.bar bar.val).awaiting = a :: rest) (hdue : a.at_ + v.echoNs < v.now)
    (hw : w = v.onBar bar.val (fun x => { x with awaiting := rest })) :
    execEchoTimeout dt bar s =
      .next (if a.judge then w.lineLost bar.val a.tick
        else if a.lineB = (w.bar bar.val).activeB then w.lineFault 9 bar.val .detector (.now a.tick) else w) := by
  simp [execEchoTimeout, hup, ← hu, ← hv, hawaiting, Nat.not_le.mpr hdue, ← hw]

/-- R228: upstream a SEQ packet is an ECHO, kind 8; one of another kind breaks the protocol. -/
theorem execEchoReceive_of_up {dt : Nat} {lane : Fin 32} {pkt : List Byte} {s : State} (hup : s.down = false) :
    execEchoReceive dt lane pkt s =
      .next ((s.elapse dt).upPacket lane.val 0x20 pkt (fun s =>
        if leAt pkt 1 1 = 8 then s.takeEcho (lane.val / 4) (lane.val % 4) pkt else s.hubProto lane.val)) := by
  simp [execEchoReceive, hup]

/-! ### The self-test (R204) -/

/-- R204: in a gap, with the failed line's test due and no other test of the line's faults in its way, the first pulse goes out. -/
theorem execFireSelfTest_of_due {dt : Nat} {bar : Fin 8} {l : Bool} {s u v : State} (hup : s.down = false) (hu : u = s.elapse dt)
    (hmay8 : u.testMayRun 8 bar.val = true) (hmay9 : u.testMayRun 9 bar.val = true)
    (htest : (u.bar bar.val).selfTest = some l) (hdue : (u.bar bar.val).testDue = true)
    (hgap : (u.bar bar.val).gapAt.isSome = true) (hfire : (u.bar bar.val).fire = .activeFailed) (hreplay : u.replaying = false)
    (hv : v = u.onBar bar.val (fun x => { x with
      selfTest := none, testDue := false, testing := some ⟨l, u.now, 1, [u.now], 0, [0, 0, 0, 0]⟩ })) :
    execFireSelfTest dt bar s = .next (v.testPulse bar.val l) := by
  simp [execFireSelfTest, hup, ← hu, hmay8, hmay9, htest, hdue, hgap, hfire, hreplay, ← hv]

/-- Settles O20, by the conditions under which each command has its effect. -/
theorem fireLineCommandsComplete : Obligations.FireLineCommandsComplete := by
  unfold Obligations.FireLineCommandsComplete
  refine ⟨?drillRequest, ?drillStart, ?fireRepair, ?firePadFault, ?echoTimeout, ?echoReceive, ?fireSelfTest⟩
  case drillRequest => exact fun s u dt bar hup hu hopen => execDrillRequest_of_open hup hu hopen
  case drillStart => exact fun s u dt bar g hup hu hgap hdue hfire htick => execDrillStart_of_due hup hu hgap hdue hfire htick
  case fireRepair =>
    exact fun s u dt bar lineB v w hup hu hopen hv hfire hline hw => execFireRepair_of_standby hup hu hopen hv hfire hline hw
  case firePadFault => exact fun s u dt line b hup hu hb => execFirePadFault_of_up hup hu hb
  case echoTimeout =>
    exact fun s u dt bar a rest v w hup hu hv hawaiting hdue hw => execEchoTimeout_of_overdue hup hu hv hawaiting hdue hw
  case echoReceive =>
    rintro s _ dt lane pkt hup rfl
    exact execEchoReceive_of_up hup
  case fireSelfTest =>
    exact fun s u dt bar l v hup hu hmay8 hmay9 htest hdue hgap hfire hreplay hv =>
      execFireSelfTest_of_due hup hu hmay8 hmay9 htest hdue hgap hfire hreplay hv

end Sys2Proof.Machine
end

section
/-! PROOFS. The statements of 07_bar_link.md: the coding of the line, the reports and tests of nozzles, lanes in training and in traffic, BAR_CFG
with its replies, and sleeping and waking. -/

namespace Sys2Proof.Machine

/-! ### The coding of the line (R216, R217, R220) -/

/-- R217: adding the index sent before gives back the Gray index from which it was subtracted. -/
theorem unPrecode_precode (p : Nat) (gs : List Nat) (hgs : ∀ g ∈ gs, g < 4) : unPrecode p (precode p gs) = gs := by
  induction gs generalizing p with
  | nil => rfl
  | cons g gs ih =>
    obtain ⟨hg, hgs⟩ := List.forall_mem_cons.mp hgs
    have hhead : ((g + 4 - p % 4) % 4 + p) % 4 = g := by omega
    simp only [precode, unPrecode, hhead, ih _ hgs]

/-- R216: the Gray map is its own inverse. -/
theorem grayBits_grayBits (g : Nat) : grayBits (grayBits g) = g := by
  match g with
  | 0 | 1 | 2 | 3 => rfl
  | g + 4 =>
    have hlarge : grayBits (g + 4) = g + 4 := by
      rw [grayBits, if_neg (by omega), if_neg (by omega)]
    rw [hlarge, hlarge]

/-- A symbol of 10 bits is the number of its five base-4 digits. -/
theorem symbolsOf_grayOf {sym : Nat} (hsym : sym < 1024) : symbolsOf 1 (grayOf sym) = [sym] := by
  have hdigits : (((sym / 256 % 4 * 4 + sym / 64 % 4) * 4 + sym / 16 % 4) * 4 + sym / 4 % 4) * 4 + sym % 4 = sym := by omega
  have hgray : grayOf sym = [grayBits (sym / 256 % 4), grayBits (sym / 64 % 4), grayBits (sym / 16 % 4), grayBits (sym / 4 % 4),
      grayBits (sym % 4)] := by
    simp [grayOf, List.range_succ]
  simp only [hgray, symbolsOf, List.take, List.foldl_cons, List.foldl_nil, grayBits_grayBits, Nat.zero_mul, Nat.zero_add, hdigits]

/-- R220: the stream depends on the state alone, so a second pass meets the same stream and takes it away. -/
theorem descramble_descramble (st : Nat) (cs : List Nat) : descramble st (descramble st cs).1 = (cs, (descramble st cs).2) := by
  induction cs generalizing st with
  | nil => rfl
  | cons c cs ih => simp only [descramble, ih, Nat.xor_assoc, Nat.xor_self, Nat.xor_zero]

/-- Settles O60, by induction on the indices and on the symbols, and by the digits of a symbol. -/
theorem lineCodingIsUndone : Obligations.LineCodingIsUndone := by
  unfold Obligations.LineCodingIsUndone
  exact ⟨unPrecode_precode, fun _ hsym => symbolsOf_grayOf hsym, descramble_descramble⟩

/-! ### Reports, element checks, snapshots and stale sweeps (R231, R267, R274, R277) -/

theorem execGateReport_of_up {dt : Nat} {lane : Fin 32} {pkts : List (List Byte)} {s : State} (hup : s.down = false) :
    execGateReport dt lane pkts s =
      .next ((s.elapse dt).reportPackets lane.val 0x50 (State.gatePacket (lane.val / 4)) 104 pkts) := by
  simp [execGateReport, hup]

theorem execImpReport_of_up {dt : Nat} {lane : Fin 32} {pkts : List (List Byte)} {s : State} (hup : s.down = false) :
    execImpReport dt lane pkts s =
      .next ((s.elapse dt).reportPackets lane.val 0x60 (State.impPacket (lane.val / 4)) 105 pkts) := by
  simp [execImpReport, hup]

/-- R267: a check of all elements of a disarmed bar is wanted, none is under way, and the bar can measure. -/
theorem execImpRequest_of_wanted {dt : Nat} {bar : Fin 8} {w : Option Nat} {ws : List (Option Nat)} {s u : State}
    (hup : s.down = false) (hu : u = s.elapse dt) (hon : u.isOn 6 = true) (hwant : (u.nzBar bar.val).impWant = w :: ws)
    (hidle : (u.nzBar bar.val).imp = none) (hcan : (u.nzBar bar.val).canMeasure = true)
    (hfire : (u.bar bar.val).fire = .disarmed) (hbar : u.barUp bar.val = true) :
    execImpRequest dt bar s = .next ((u.onNzBar bar.val (fun z => { z with impWant := ws, impRest := [] })).sendImp bar.val []
      ⟨0, false, [], [], [], [], [], false, false, w⟩) := by
  simp [execImpRequest, hup, ← hu, hon, hwant, hidle, hcan, hfire, hbar]

/-- R274: the status maps have changed, and 10 s have passed since the last snapshot. -/
theorem execNhSnapshotWrite_of_changed {dt : Nat} {s u : State} (hup : s.down = false) (hu : u = s.elapse dt)
    (hchanged : u.nozzle.changed = true) (hdue : 10000000000 ≤ u.now - u.nozzle.snapAt) :
    execNhSnapshotWrite dt s = .next u.writeStatusSnap := by
  simp [execNhSnapshotWrite, hup, ← hu, hchanged, hdue]

/-- R277: the last sweep of an armed bar is older than dd_max_age, and this has not been said yet. -/
theorem execDdStale_of_old {dt : Nat} {bar : Fin 8} {s u : State} (hup : s.down = false) (hu : u = s.elapse dt)
    (hage : u.f Fld.JET_NH_AGE_dd_max_age ≠ 0) (harmed : u.armed bar.val = true) (hsaid : (u.nzBar bar.val).staleSaid = false)
    (hold : u.f Fld.JET_NH_AGE_dd_max_age * 1000000000 ≤ u.now - (u.nzBar bar.val).sweepAt) :
    execDdStale dt bar s = .next ((u.onNzBar bar.val (fun z => { z with staleSaid := true })).fault 110) := by
  simp [execDdStale, hup, ← hu, hage, harmed, hsaid, hold]

/-- Settles O13, by the conditions under which each command has its effect. -/
theorem nozzleTestCommandsComplete : Obligations.NozzleTestCommandsComplete := by
  unfold Obligations.NozzleTestCommandsComplete
  refine ⟨?gateReport, ?impReport, ?impRequest, ?nhSnapshotWrite, ?ddStale⟩
  case gateReport =>
    rintro s _ dt lane pkts hup rfl
    exact execGateReport_of_up hup
  case impReport =>
    rintro s _ dt lane pkts hup rfl
    exact execImpReport_of_up hup
  case impRequest =>
    exact fun s u dt bar w ws hup hu hon hwant hidle hcan hfire hbar =>
      execImpRequest_of_wanted hup hu hon hwant hidle hcan hfire hbar
  case nhSnapshotWrite => exact fun s u dt hup hu hchanged hdue => execNhSnapshotWrite_of_changed hup hu hchanged hdue
  case ddStale => exact fun s u dt bar hup hu hage harmed hsaid hold => execDdStale_of_old hup hu hage harmed hsaid hold

/-! ### Lane training (R235, R236, R241 to R244) -/

/-- R241: a lane that is OFF, in service and not already waiting for its grant is asked to train at the rate wanted of it. -/
theorem execLaneTrain_of_off {dt : Nat} {lane : Fin 32} {s v : State} (hup : s.down = false)
    (hopen : (s.elapse dt).writeOpen 1 (Reg.LINK_CTRL lane.val).off = true)
    (hv : v = (s.elapse dt).noteWrite 1 (Reg.LINK_CTRL lane.val).off (putBits ((s.elapse dt).reg (Reg.LINK_CTRL lane.val)) 31 31 1))
    (hoos : v.fb (Fld.LINK_CTRL_oos lane.val) = false) (hon : v.isOn 6 = true) (hawaiting : (v.lane lane.val).awaiting = false)
    (hoff : (v.lane lane.val).tstate = .off) :
    execLaneTrain dt lane s = .next (v.askTrain lane.val (v.rateWanted lane.val 0)) := by
  simp [execLaneTrain, hup, hopen, ← hv, hoos, hon, hawaiting, hoff]

/-- R235: a lane taken out of service leaves its pair and ends its training. -/
theorem execLaneOos_of_out {dt : Nat} {lane : Fin 32} {s v : State} (hup : s.down = false)
    (hopen : (s.elapse dt).writeOpen 1 (Reg.LINK_CTRL lane.val).off = true)
    (hv : v = (s.elapse dt).noteWrite 1 (Reg.LINK_CTRL lane.val).off
      (putBits ((s.elapse dt).reg (Reg.LINK_CTRL lane.val)) 27 27 (b2n true)))
    (hon : v.isOn 6 = true) :
    execLaneOos dt lane true s =
      .next (((v.setF (Fld.LINK_CTRL_oos lane.val) 1).leavePair lane.val 0 true).stopTraining lane.val) := by
  simp only [execLaneOos, hup, hopen, ← hv, hon]
  rfl

section
variable {dt : Nat} {lane : Fin 32} {s u : State} (hup : s.down = false) (hu : u = s.elapse dt) (hon : u.isOn 6 = true)
include hup hu hon

/-- R241: 10 us after QUIET began the lane sends PRBS31, with its equaliser set from its seed or the default. -/
theorem execLaneQuietDone_of_due (hquiet : (u.lane lane.val).tstate = .quiet) (hdue : 10000 ≤ u.now - (u.lane lane.val).since) :
    execLaneQuietDone dt lane s =
      .next (((u.loadSeed lane.val).onLane lane.val (fun l => { l with tstate := .eq, since := u.now })).putLane lane.val
        (.prbs (u.lane lane.val).rate)) := by
  simp [execLaneQuietDone, hup, ← hu, hon, hquiet, hdue]

theorem execLaneEqAdapted_of_due {eq : Word} (heq : (u.lane lane.val).tstate = .eq)
    (hdue : 100000 ≤ u.now - (u.lane lane.val).since) :
    execLaneEqAdapted dt lane eq s =
      .next ((u.onLane lane.val (fun l => { l with
        tstate := .lock, since := u.now, eqSet := eq.toNat, goodMarkers := 0, farLocked := false, rxMarkerKnown := false,
        epoch := u.now / codewordTime l.rate + 1, base := u.now / codewordTime l.rate,
        txMarker := (l.txMarker + 1) % 65536 })).putSet lane.val) := by
  simp only [execLaneEqAdapted, hup, ← hu, hon, heq, hdue]
  rfl

/-- R241: EQ has 2 ms where the equaliser started from a seed, and 20 ms where it did not. -/
theorem execLaneEqTimeout_of_due (heq : (u.lane lane.val).tstate = .eq)
    (hdue : (if (u.lane lane.val).seeded then 2000000 else 20000000) ≤ u.now - (u.lane lane.val).since) :
    execLaneEqTimeout dt lane s = .next (u.trainFail lane.val 1) := by
  simp [execLaneEqTimeout, hup, ← hu, hon, heq, hdue]

theorem execLaneLockTimeout_of_due (hlock : (u.lane lane.val).tstate = .lock)
    (hdue : 2000000 ≤ u.now - (u.lane lane.val).since) :
    execLaneLockTimeout dt lane s = .next (u.trainFail lane.val 2) := by
  simp [execLaneLockTimeout, hup, ← hu, hon, hlock, hdue]

end

section
variable {dt corr : Nat} {lane : Fin 32} {bytes : List Byte} {s u p v : State} (hup : s.down = false) (hu : u = s.elapse dt)
  (hon : u.isOn 6 = true) (hlen : 16 ≤ bytes.length) (hfree : u.free = (corr, p))
  (hv : v = ((p.countCorr lane.val (corr % 16)).onLane lane.val (fun l => { l with
    farAsk := bitOf (leAt bytes 3 1) 0, farWill := bitOf (leAt bytes 3 1) 1 })).renewSet lane.val (u.setShows lane.val))
include hup hu hon hlen hfree hv

/-- R241, R242: in LOCK a training set that shows the lane's own number has its FIR request served and says whether the far end has locked. -/
theorem execTrainingSetReceive_of_lock (hlock : (u.lane lane.val).tstate = .lock) (hlane : leAt bytes 1 1 % 32 = lane.val) :
    execTrainingSetReceive dt lane bytes s =
      .next (((v.serveFir lane.val (leAt bytes 4 1)).onLane lane.val (fun l => { l with
        farLocked := bitOf (leAt bytes 0 1) 7 })).lockDone lane.val) := by
  simp [execTrainingSetReceive, hup, ← hu, hon, Nat.not_lt.mpr hlen, hlock, hlane, hfree, ← hv]

theorem execTrainingSetReceive_of_negotiate (hneg : (u.lane lane.val).tstate = .negotiate) :
    execTrainingSetReceive dt lane bytes s = .next (v.negotiate lane.val (leAt bytes 2 1)) := by
  simp [execTrainingSetReceive, hup, ← hu, hon, Nat.not_lt.mpr hlen, hneg, hfree, ← hv]

/-- R241, R242: in ALIGN a training set of state 5 brings the hub's Q. -/
theorem execTrainingSetReceive_of_align (halign : (u.lane lane.val).tstate = .align) :
    execTrainingSetReceive dt lane bytes s =
      .next (if leAt bytes 0 1 % 128 = 5 then
          ((v.onLane lane.val (fun l => { l with preRx := bitOf (leAt bytes 3 1) 1 })).onLane lane.val (fun l => { l with
            trainQ := leAt bytes 8 4, qKnown := true })).alignDone lane.val
        else v.onLane lane.val (fun l => { l with preRx := bitOf (leAt bytes 3 1) 1 })) := by
  by_cases hstate : leAt bytes 0 1 % 128 = 5 <;>
    simp [execTrainingSetReceive, hup, ← hu, hon, Nat.not_lt.mpr hlen, halign, hfree, ← hv, hstate]

end

/-- Settles O21, by the conditions under which each command has its effect, and for a training set by the state of the lane. -/
theorem laneTrainingCommandsComplete : Obligations.LaneTrainingCommandsComplete := by
  unfold Obligations.LaneTrainingCommandsComplete
  refine ⟨?laneTrain, ?laneOos, ?laneQuietDone, ?laneEqAdapted, ?laneEqTimeout, ?laneLockTimeout, ?trainingSetReceive⟩
  case laneTrain =>
    rintro s _ dt lane v hup rfl hopen hv hoos hon hawaiting hoff
    exact execLaneTrain_of_off hup hopen hv hoos hon hawaiting hoff
  case laneOos =>
    rintro s _ dt lane _ v hup rfl hopen hv hon rfl
    exact execLaneOos_of_out hup hopen hv hon
  case laneQuietDone => exact fun s u dt lane hup hu hon hquiet hdue => execLaneQuietDone_of_due hup hu hon hquiet hdue
  case laneEqAdapted => exact fun s u dt lane eq hup hu hon heq hdue => execLaneEqAdapted_of_due hup hu hon heq hdue
  case laneEqTimeout => exact fun s u dt lane hup hu hon heq hdue => execLaneEqTimeout_of_due hup hu hon heq hdue
  case laneLockTimeout => exact fun s u dt lane hup hu hon hlock hdue => execLaneLockTimeout_of_due hup hu hon hlock hdue
  case trainingSetReceive =>
    intro s u dt lane bytes corr p v hup hu hon hlen hstate hlane hfree hv
    obtain hlock | hneg | halign := hstate
    · rw [hlock]
      exact execTrainingSetReceive_of_lock hup hu hon hlen hfree hv hlock (hlane hlock)
    · rw [hneg]
      exact execTrainingSetReceive_of_negotiate hup hu hon hlen hfree hv hneg
    · rw [halign]
      exact execTrainingSetReceive_of_align hup hu hon hlen hfree hv halign

/-! ### Lane traffic (R222, R223, R235, R254) -/

section
variable {dt : Nat} {lane : Fin 32} {s u : State} (hup : s.down = false) (hu : u = s.elapse dt) (hon : u.isOn 6 = true)
include hup hu hon

/-- R222: a good marker is served on an ACTIVE lane that is still in its pair once the marker's corrected symbols have been counted. -/
theorem execMarkerReceive_of_good {word : MarkerWord} {k : Nat} {v : State} (hfec : word.fec = some k)
    (hactive : (u.lane lane.val).tstate = .active) (hawake : (u.linkBar (lane.val / 4)).us = .awake)
    (hgood : (u.lane lane.val).markerGood lane.val word.bytes = true) (hv : v = u.markerFec lane.val word.fec)
    (hpair : (v.lane lane.val).inPair = true) :
    execMarkerReceive dt lane word s = .next (v.serveMarker lane.val word.bytes) := by
  simp only [hfec] at hv
  simp [execMarkerReceive, hup, ← hu, hon, hfec, hactive, hawake, hgood, ← hv, hpair]

/-- R235: two markers missing are a cause to leave the pair. -/
theorem execMarkerMissing_of_active (hactive : (u.lane lane.val).tstate = .active)
    (hawake : (u.linkBar (lane.val / 4)).us = .awake) : execMarkerMissing dt lane s = .next (u.leavePair lane.val 7 false) := by
  simp [execMarkerMissing, hup, ← hu, hon, hactive, hawake]

/-- R235: loss of signal is a cause to leave the pair, unless the upstream sleeps or wakes. -/
theorem execLaneSignalLoss_of_awake (hawake : (u.linkBar (lane.val / 4)).us = .awake) :
    execLaneSignalLoss dt lane s = .next (u.leavePair lane.val 6 false) := by
  simp [execLaneSignalLoss, hup, ← hu, hon, hawake]

/-- R254: the lane's corrections within 1 ms exceed fec_warn, and this has not been said yet. -/
theorem execFecWarn_of_exceeded (hset : u.f Fld.LINK_FEC_WARN_fec_warn ≠ 0)
    (hexceeded : u.f Fld.LINK_FEC_WARN_fec_warn < (u.lane lane.val).corrMs u.now) (hsaid : (u.lane lane.val).fecWarned = false) :
    execFecWarn dt lane s = .next ((u.onLane lane.val (fun l => { l with fecWarned := true })).laneEv lane.val 106) := by
  simp [execFecWarn, hup, ← hu, hon, hset, hexceeded, hsaid]

section
variable {symbols idx : List Nat} {r : Option (Nat × List Byte × Nat) × Nat} {v : State}
  (hactive : (u.lane lane.val).tstate = .active) (hasleep : (u.linkBar (lane.val / 4)).us ≠ .asleep) (hlen : symbols.length = 2720)
  (hidx : idx = symbols.map (fun x => x % 4))
  (hr : r = decodeCodeword (u.lane lane.val).preRx (u.lane lane.val).rxPrev (u.lane lane.val).rxS idx)
  (hv : v = u.onLane lane.val (fun l => { l with rxS := r.2, rxPrev := idx.getLastD 0 }))
include hactive hasleep hlen hidx hr hv

/-- R223: a codeword that cannot be corrected is lost, and what was received of a packet with it. -/
theorem execCodewordReceive_of_bad (hbad : r.1 = none) :
    execCodewordReceive dt lane symbols s =
      .next ((v.onLane lane.val (fun l => { l with rxBuf := [], rxResync := true })).badCodeword lane.val) := by
  simp [execCodewordReceive, hup, ← hu, hon, hactive, hasleep, hlen, ← hidx, ← hr, ← hv, hbad,
    -List.getLastD_eq_getLast?]

theorem execCodewordReceive_of_good {k c : Nat} {b : List Byte} (hgood : r.1 = some (k, b, c)) :
    execCodewordReceive dt lane symbols s = .next (v.goodCodeword lane.val k b c) := by
  simp [execCodewordReceive, hup, ← hu, hon, hactive, hasleep, hlen, ← hidx, ← hr, ← hv, hgood,
    -List.getLastD_eq_getLast?]

end

end

/-- Settles O22, by the conditions under which each command has its effect, and for a codeword by whether it can be corrected. -/
theorem laneTrafficCommandsComplete : Obligations.LaneTrafficCommandsComplete := by
  unfold Obligations.LaneTrafficCommandsComplete
  refine ⟨?markerReceive, ?markerMissing, ?codewordReceive, ?laneSignalLoss, ?fecWarn⟩
  case markerReceive =>
    exact fun s u dt lane word k v hup hu hon hfec hactive hawake hgood hv hpair =>
      execMarkerReceive_of_good hup hu hon hfec hactive hawake hgood hv hpair
  case markerMissing => exact fun s u dt lane hup hu hon hactive hawake => execMarkerMissing_of_active hup hu hon hactive hawake
  case codewordReceive =>
    intro s u dt lane symbols idx r v hup hu hon hactive hasleep hlen hidx hr hv
    cases hword : r.1 with
    | none => exact execCodewordReceive_of_bad hup hu hon hactive hasleep hlen hidx hr hv hword
    | some w => exact execCodewordReceive_of_good hup hu hon hactive hasleep hlen hidx hr hv hword
  case laneSignalLoss => exact fun s u dt lane hup hu hon hawake => execLaneSignalLoss_of_awake hup hu hon hawake
  case fecWarn => exact fun s u dt lane hup hu hon hset hexceeded hsaid => execFecWarn_of_exceeded hup hu hon hset hexceeded hsaid

/-! ### BAR_CFG and its replies (R229, R252) -/

section
variable {dt slot : Nat} {ring : Fin 64} {d : Desc} {s u y v : State} (hup : s.down = false) (hu : u = s.elapse dt)
  (hy : y = u.wakeDomain 6) (hon : y.isOn 6 = true)
include hup hu hy hon

/-- R252: no bar of the scope is armed or out of service, so each is trained and the descriptor waits for its lanes to settle. -/
theorem execBarCfgTrain_of_idle (hdesc : u.startOp ring.val slot 0x22 0 = some d)
    (harmed : (scopeBars (d.byte 9)).any (fun b => y.armed b) = false)
    (hservice : (scopeBars (d.byte 9)).any (fun b => y.outOfService b) = false)
    (hv : v = (scopeBars (d.byte 9)).foldl (fun s b => s.trainBar (d.byte 10) b) (y.start d)) :
    execBarCfgTrain dt ring slot s =
      .next (((v.onLink (fun l => { l with trains := l.trains ++ [⟨d.order, d.byte 9⟩] })).recomputeCeiling).settleTrains) := by
  unfold execBarCfgTrain
  simp only [hup, ← hu, hdesc, ← hy, hon, harmed, hservice, ← hv]
  rfl

/-- R252, R267: a write that covers TEST_CMD also asks for a check of the elements of each bar. -/
theorem execBarCfgWrite_of_on (hdesc : u.startOp ring.val slot 0x22 1 = some d)
    (hv : v = y.barRequest d false (fun c => cfgPkt c (d.num 12 4) ((d.bytes.drop 24).take (4 * d.byte 11)))) :
    execBarCfgWrite dt ring slot s =
      .next (if covers (d.num 12 4) (d.byte 11) 0x100 then (scopeBars (d.byte 9)).foldl (fun s b => s.wantImp b none) v else v) := by
  simp [execBarCfgWrite, hup, ← hu, hdesc, ← hy, hon, ← hv]

theorem execBarCfgRead_of_on (hdesc : u.startOp ring.val slot 0x22 2 = some d) :
    execBarCfgRead dt ring slot s = .next (y.barRequest d true (fun c => statPkt c (d.num 12 4) (d.byte 11))) := by
  simp [execBarCfgRead, hup, ← hu, hdesc, ← hy, hon]

/-- R252: for each bar f puts the upstream to sleep or, where the descriptor does not name it, wakes it; the downstream follows where it is named. -/
theorem execBarCfgSleep_of_on {f : State → Nat → State} (hdesc : u.startOp ring.val slot 0x22 3 = some d)
    (hf : f = fun s b => if bitOf (d.byte 10) 1 = false then s.wakeUp b else if (s.linkBar b).us = .asleep then s
      else if s.barUp b then s.sendSleepUp b else (s.onLinkBar b (fun l => { l with us := .asleep })).laneEv (4 * b) 102)
    (hv : v = (y.start d).onLink (fun l => { l with sleeps := l.sleeps ++ [⟨d.order, d.byte 9, d.byte 10, false⟩] })) :
    execBarCfgSleep dt ring slot s =
      .next (((scopeBars (d.byte 9)).foldl (fun s b =>
        if bitOf (d.byte 10) 0 && ((f s b).linkBar b).ds ≠ .asleep then (f s b).sleepDown b else f s b) v).settleSleeps) := by
  simp [execBarCfgSleep, hup, ← hu, hdesc, ← hy, hon, ← hv, hf]

/-- R252: naming the bars wakes their upstream (R247), and the downstream where the descriptor names it. -/
theorem execBarCfgWake_of_on (hdesc : u.startOp ring.val slot 0x22 4 = some d)
    (hv : v = (if bitOf (d.byte 10) 0 then (y.start d).retire d else y.start d).onLink (fun l => { l with
      sleeps := l.sleeps ++ [⟨d.order, d.byte 9, d.byte 10, true⟩] })) :
    execBarCfgWake dt ring slot s =
      .next (((scopeBars (d.byte 9)).foldl (fun s b => ((fun (s : State) => if bitOf (d.byte 10) 0 then s.wakeDown b else s)
        (s.onLinkBar b (fun l => { l with
          dsOver := l.dsOver || bitOf (d.byte 10) 0, usOver := l.usOver || bitOf (d.byte 10) 1 }))).wakeUp b) v).settleSleeps) := by
  simp [execBarCfgWake, hup, ← hu, hdesc, ← hy, hon, ← hv]

end

theorem execCfgAckReceive_of_up {dt : Nat} {lane : Fin 32} {pkt : List Byte} {s : State} (hup : s.down = false) :
    execCfgAckReceive dt lane pkt s =
      .next ((s.elapse dt).upPacket lane.val 0x31 pkt (State.takeReply lane.val false pkt)) := by
  simp [execCfgAckReceive, hup]

theorem execStatDataReceive_of_up {dt : Nat} {lane : Fin 32} {pkt : List Byte} {s : State} (hup : s.down = false) :
    execStatDataReceive dt lane pkt s =
      .next ((s.elapse dt).upPacket lane.val 0x41 pkt (State.takeReply lane.val true pkt)) := by
  simp [execStatDataReceive, hup]

/-- R252: the first try of the request r is overdue at this bar, so r goes once more to every bar that has not answered. -/
theorem execCfgAckTimeout_of_first_try {dt ctag : Nat} {bar : Fin 8} {r : HubReq} {s u v : State} (hup : s.down = false)
    (hu : u = s.elapse dt) (hon : u.isOn 6 = true)
    (hreq : u.link.reqs.find? (fun r => decide (r.ctag = ctag) && bitOf r.bars bar.val && !bitOf (r.acked ||| r.naked) bar.val &&
      !u.queuedPkt r.pkt && decide (orIfZero (u.f Fld.LINK_GLOBAL_cfg_timeout) 1 * 1000 ≤ u.now - r.since)) = some r)
    (htries : r.tries < 2)
    (hv : v = ((scopeBars r.bars).filter (fun b => !bitOf (r.acked ||| r.naked) b)).foldl (fun s b => s.sendCtl b 3 r.pkt) u) :
    execCfgAckTimeout dt bar ctag s =
      .next (v.onLink (fun l => { l with
        reqs := l.reqs.map (fun x => if x.ctag = ctag then { x with tries := 2, since := v.now } else x) })) := by
  simp only [execCfgAckTimeout, hup, ← hu, hon, hreq, htries, ← hv]
  rfl

/-- Settles O23, by the conditions under which each command has its effect. -/
theorem barCfgCommandsComplete : Obligations.BarCfgCommandsComplete := by
  unfold Obligations.BarCfgCommandsComplete
  refine ⟨?train, ?write, ?read, ?sleep, ?wake, ?cfgAckReceive, ?statDataReceive, ?cfgAckTimeout⟩
  case train =>
    exact fun s u dt ring slot y d v hup hu hdesc hy hon harmed hservice hv =>
      execBarCfgTrain_of_idle hup hu hy hon hdesc harmed hservice hv
  case write => exact fun s u dt ring slot y d v hup hu hdesc hy hon hv => execBarCfgWrite_of_on hup hu hy hon hdesc hv
  case read => exact fun s u dt ring slot y d hup hu hdesc hy hon => execBarCfgRead_of_on hup hu hy hon hdesc
  case sleep => exact fun s u dt ring slot y d f v hup hu hdesc hy hon hf hv => execBarCfgSleep_of_on hup hu hy hon hdesc hf hv
  case wake => exact fun s u dt ring slot y d v hup hu hdesc hy hon hv => execBarCfgWake_of_on hup hu hy hon hdesc hv
  case cfgAckReceive =>
    rintro s _ dt lane pkt hup rfl
    exact execCfgAckReceive_of_up hup
  case statDataReceive =>
    rintro s _ dt lane pkt hup rfl
    exact execStatDataReceive_of_up hup
  case cfgAckTimeout =>
    exact fun s u dt bar ctag r v hup hu hon hreq htries hv => execCfgAckTimeout_of_first_try hup hu hon hreq htries hv

/-! ### Sleeping and waking (R245 to R248) -/

/-- R247, R248: the upstream of the bar sleeps, unless a WAKE sent after the SLEEP is under way. -/
theorem execHubSleepReceive_of_up {dt : Nat} {lane : Fin 32} {pkt : List Byte} {s : State} (hup : s.down = false) :
    execHubSleepReceive dt lane pkt s =
      .next ((s.elapse dt).upPacket lane.val 0x80 pkt (fun s => ((s.onLinkBar (lane.val / 4) (fun l => { l with
        us := if l.us = .waking && !l.usPending then .waking else .asleep
        usPending := false })).laneEv (4 * (lane.val / 4)) 102).settleSleeps)) := by
  simp [execHubSleepReceive, hup]

theorem execHubWakeReceive_of_up {dt : Nat} {lane : Fin 32} {pkt : List Byte} {s : State} (hup : s.down = false) :
    execHubWakeReceive dt lane pkt s =
      .next ((s.elapse dt).upPacket lane.val 0x90 pkt (fun s =>
        if bitOf (leAt pkt 1 1) 0 then s.wakeDown (lane.val / 4) else s)) := by
  simp [execHubWakeReceive, hup]

section
variable {dt : Nat} {bar : Fin 8} {s u : State} (hup : s.down = false) (hu : u = s.elapse dt) (hon : u.isOn 6 = true)
include hup hu hon

/-- R246: the bar has been disarmed, or stopped far from its next line 0, for sleep_after, and no control packet waits for it. -/
theorem execDsSleepEnter_of_idle (hen : u.fb (Fld.LINK_BAR_CTRL_ds_sleep_en bar.val) = true)
    (hidle : ((u.bar bar.val).fire = .disarmed ∧ u.sleepAfter bar.val ≤ u.now - (u.linkBar bar.val).offSince) ∨
      (u.linkBar bar.val).farSince.any (fun t => decide (u.sleepAfter bar.val ≤ u.now - t)) = true)
    (hawake : (u.linkBar bar.val).ds = .awake) (hpending : (u.linkBar bar.val).dsPending = false)
    (hover : (u.linkBar bar.val).dsOver = false) (hquiet : u.quietDown bar.val = true) :
    execDsSleepEnter dt bar s = .next (u.sleepDown bar.val) := by
  simp [execDsSleepEnter, hup, ← hu, hon, hen, hidle, hawake, hpending, hover, hquiet]

/-- R247: a bar that has been disarmed for sleep_after is sent SLEEP naming upstream. -/
theorem execUsSleepEnter_of_idle (hen : u.fb (Fld.LINK_BAR_CTRL_us_sleep_en bar.val) = true)
    (hfire : (u.bar bar.val).fire = .disarmed) (hawake : (u.linkBar bar.val).us = .awake)
    (hpending : (u.linkBar bar.val).usPending = false) (hover : (u.linkBar bar.val).usOver = false)
    (hidle : u.sleepAfter bar.val ≤ u.now - (u.linkBar bar.val).offSince) :
    execUsSleepEnter dt bar s = .next (u.sendSleepUp bar.val) := by
  simp [execUsSleepEnter, hup, ← hu, hon, hen, hfire, hawake, hpending, hover, hidle]

theorem execWakeComplete_of_up (hwoken : (u.linkBar bar.val).us ≠ .awake) :
    execWakeComplete dt bar true s = .next (u.awakeUp bar.val) := by
  simp [execWakeComplete, hup, ← hu, hon, hwoken]

/-- R245: the 6 us of PRBS31 that wake the downstream have passed. -/
theorem execWakeComplete_of_down (hwaking : (u.linkBar bar.val).ds = .waking)
    (hdue : 6000 ≤ u.now - (u.linkBar bar.val).wakeSince) :
    execWakeComplete dt bar false s = .next (u.awakeDown bar.val) := by
  simp [execWakeComplete, hup, ← hu, hon, hwaking, hdue]

section
variable {lane : Fin 32} (hpair : (u.lane lane.val).inPair = true) (hlane : lane.val / 4 = bar.val)
include hpair hlane

/-- R245: a wake of more than 12 us takes the lane out of its pair, with FS005. -/
theorem execWakeLate_of_up (hwaking : (u.linkBar bar.val).us = .waking) (hlate : 12000 < u.now - (u.linkBar bar.val).usWakeAt) :
    execWakeLate dt bar true lane s = .next ((u.leavePair lane.val 11 false).laneFault 5 lane.val) := by
  simp [execWakeLate, hup, ← hu, hon, hpair, hlane, hwaking, hlate]

theorem execWakeLate_of_down (hwaking : (u.linkBar bar.val).ds = .waking) (hlate : 12000 < u.now - (u.linkBar bar.val).wakeSince) :
    execWakeLate dt bar false lane s = .next ((u.leavePair lane.val 11 false).laneFault 5 lane.val) := by
  simp [execWakeLate, hup, ← hu, hon, hpair, hlane, hwaking, hlate]

end

end

/-- Settles O24, by the conditions under which each command has its effect, and for wakes by their direction. -/
theorem sleepCommandsComplete : Obligations.SleepCommandsComplete := by
  unfold Obligations.SleepCommandsComplete
  refine ⟨?hubSleepReceive, ?hubWakeReceive, ?dsSleepEnter, ?usSleepEnter, ?wakeComplete, ?wakeLate⟩
  case hubSleepReceive =>
    rintro s _ dt lane pkt hup rfl
    exact execHubSleepReceive_of_up hup
  case hubWakeReceive =>
    rintro s _ dt lane pkt hup rfl
    exact execHubWakeReceive_of_up hup
  case dsSleepEnter =>
    exact fun s u dt bar hup hu hon hen hidle hawake hpending hover hquiet =>
      execDsSleepEnter_of_idle hup hu hon hen hidle hawake hpending hover hquiet
  case usSleepEnter =>
    exact fun s u dt bar hup hu hon hen hfire hawake hpending hover hidle =>
      execUsSleepEnter_of_idle hup hu hon hen hfire hawake hpending hover hidle
  case wakeComplete =>
    intro s u dt bar upstream hup hu hon hwake
    cases upstream with
    | true => exact execWakeComplete_of_up hup hu hon hwake
    | false => exact execWakeComplete_of_down hup hu hon hwake.1 hwake.2
  case wakeLate =>
    intro s u dt bar upstream lane hup hu hpair hon hlane hlate
    cases upstream with
    | true => exact execWakeLate_of_up hup hu hon hpair hlane hlate.1 hlate.2
    | false => exact execWakeLate_of_down hup hu hon hpair hlane hlate.1 hlate.2

end Sys2Proof.Machine
end

section
/-! PROOFS. The statements of 09_camera_pipeline.md: camera tables, upload areas and exposure; ports, frames, lines, pipelines and the
temperatures of sensors. -/

namespace Sys2Proof.Machine

/-! ### Camera tables, upload areas and exposure (R285, R286, R299, R301) -/

/-- R301: a table that is read without an error and passes its check is held in the shadow of its context. -/
theorem State.camTable_of_good {ring slot op : Nat} {list : List PageEnt} {data b : List Byte} {d : Desc}
    {check : CamPort → List Byte → Bool} {hold : Nat × List Byte → CamPort → CamPort} {s y v : State}
    (hdesc : s.camStart ring slot op = some d) (hy : y = s.wakeDomain 7) (hon : y.isOn 7 = true)
    (hdata : d.hostIn list data = some (0, b)) (hv : v = y.readHost d list)
    (hcheck : check (v.camPort (d.byte 9)) b = true) :
    s.camTable ring slot op list data check hold = (v.onPort (d.byte 9) (hold (v.now, b))).complete d 0 0 := by
  simp [State.camTable, hdesc, ← hy, hon, hdata, ← hv, hcheck]

section
variable {dt slot : Nat} {ring : Fin 64} {list : List PageEnt} {data b : List Byte} {d : Desc} {s u y v : State}
  (hup : s.down = false) (hu : u = s.elapse dt) (hy : y = u.wakeDomain 7) (hon : y.isOn 7 = true)
include hup hu hy hon

theorem execCamCfgContext_of_good (hdesc : u.camStart ring.val slot 0 = some d) (hdata : d.hostIn list data = some (0, b))
    (hv : v = y.readHost d list) (hcheck : contextOk (v.camPort (d.byte 9)).columns b = true) :
    execCamCfgContext dt ring slot list data s =
      .next ((v.onPort (d.byte 9) (fun p => { p with blockWait := joinShadow (v.now, b) p.blockWait })).complete d 0 0) := by
  simp only [execCamCfgContext, hup, ← hu]
  exact congrArg Host.Outcome.next (State.camTable_of_good hdesc hy hon hdata hv hcheck)

theorem execCamCfgDefect_of_good (hdesc : u.camStart ring.val slot 1 = some d) (hdata : d.hostIn list data = some (0, b))
    (hv : v = y.readHost d list) (hcheck : defectOk b = true) :
    execCamCfgDefect dt ring slot list data s =
      .next ((v.onPort (d.byte 9) (fun p => { p with defectWait := joinShadow (v.now, b) p.defectWait })).complete d 0 0) := by
  simp only [execCamCfgDefect, hup, ← hu]
  exact congrArg Host.Outcome.next (State.camTable_of_good hdesc hy hon hdata hv hcheck)

theorem execCamCfgShading_of_good (hdesc : u.camStart ring.val slot 2 = some d) (hdata : d.hostIn list data = some (0, b))
    (hv : v = y.readHost d list) (hcheck : shadingOk b = true) :
    execCamCfgShading dt ring slot list data s =
      .next ((v.onPort (d.byte 9) (fun p => { p with shadingWait := joinShadow (v.now, b) p.shadingWait })).complete d 0 0) := by
  simp only [execCamCfgShading, hup, ← hu]
  exact congrArg Host.Outcome.next (State.camTable_of_good hdesc hy hon hdata hv hcheck)

/-- R299, R301: a buffer with a good page list becomes the port's area, from offset 0; what was held of a frame under way is given up. -/
theorem execCamCfgUpload_of_good (hdesc : u.camStart ring.val slot 3 = some d) (hout : d.hostOut list = some true) :
    execCamCfgUpload dt ring slot list s =
      .next (((((y.readList d).dropUpload (d.byte 9)).onPort (d.byte 9) (fun p => { p with
        upPages := list.map (fun e => e.addr), upSize := d.buf.pageSize, upLen := d.buf.length, upOff := 0
        upTake := if p.inFrame then some false else none, upData := [], upWait := [] })).droverDrop
          (.upload (d.byte 9))).complete d 0 0) := by
  simp [execCamCfgUpload, hup, ← hu, hdesc, ← hy, hon, hout]

/-- R285, R286: the write of an enabled port joins the queue of its bus in the order of the descriptors. -/
theorem execExposeSet_of_enabled (hdesc : u.startable ring.val slot 0x32 = some d)
    (henabled : (y.camPort (d.byte 8)).enabled = true) :
    execExposeSet dt ring slot s =
      .next (((y.start d).onSee (fun x => { x with
        buses := x.buses.modify (y.camPort (d.byte 8)).bus (fun b => { b with queue := insertRising d.order b.queue }) })).i2cNext
          (y.camPort (d.byte 8)).bus) := by
  simp [execExposeSet, hup, ← hu, hdesc, ← hy, hon, henabled]

end

/-- R286, R287: a write that ends with STOP leaves its port, while that is enabled, a generation not yet in force, and frees the bus. -/
theorem execI2cWriteDone_of_stop {dt o : Nat} {bus : Fin 2} {outcome : Fin 3} {d : Desc} {s u v : State} (hup : s.down = false)
    (hu : u = s.elapse dt) (hbusy : (u.see.buses.getD bus.val ⟨[], none⟩).busy = some o)
    (hv : v = u.onSee (fun x => { x with buses := x.buses.modify bus.val (fun b => { b with busy := none }) }))
    (hdesc : v.descAt o = some d) (hstop : outcome.val = 0) :
    execI2cWriteDone dt bus outcome s =
      .next (((v.onPort (d.byte 8) (fun p =>
        if p.enabled then { p with pendingGens := ⟨d.num 10 2, d.num 12 4, v.now⟩ :: p.pendingGens } else p)).complete d 0
          (d.num 10 2)).i2cNext bus.val) := by
  simp only [execI2cWriteDone, hup, ← hu, hbusy, ← hv, hdesc, hstop]
  rfl

/-- Settles O25, by the conditions under which each command has its effect. -/
theorem cameraDescriptorsComplete : Obligations.CameraDescriptorsComplete := by
  unfold Obligations.CameraDescriptorsComplete
  refine ⟨?context, ?defect, ?shading, ?upload, ?exposeSet, ?i2cWriteDone⟩
  case context =>
    exact fun s u dt ring slot list data y d b v hup hu hdesc hy hon hdata hv hcheck =>
      execCamCfgContext_of_good hup hu hy hon hdesc hdata hv hcheck
  case defect =>
    exact fun s u dt ring slot list data y d b v hup hu hdesc hy hon hdata hv hcheck =>
      execCamCfgDefect_of_good hup hu hy hon hdesc hdata hv hcheck
  case shading =>
    exact fun s u dt ring slot list data y d b v hup hu hdesc hy hon hdata hv hcheck =>
      execCamCfgShading_of_good hup hu hy hon hdesc hdata hv hcheck
  case upload => exact fun s u dt ring slot list y d hup hu hdesc hy hon hout => execCamCfgUpload_of_good hup hu hy hon hdesc hout
  case exposeSet =>
    exact fun s u dt ring slot y d hup hu hdesc hy hon henabled => execExposeSet_of_enabled hup hu hy hon hdesc henabled
  case i2cWriteDone =>
    exact fun s u dt bus outcome o d v hup hu hbusy hv hdesc hstop => execI2cWriteDone_of_stop hup hu hbusy hv hdesc hstop

/-! ### Ports, frames, lines, pipelines and temperatures (R279 to R281, R283 to R287, R294) -/

/-- R279, R280: a port that is not yet enabled takes the written configuration, which passes its table, and starts with no frame and no
generation. -/
theorem execPortEnable_of_accepted {dt : Nat} {port : Fin 6} {cfg : Word} {s u v w x : State} (hup : s.down = false)
    (hu : u = s.elapse dt) (hopen : u.writeOpen 1 (Reg.SEE_PORT_CFG port.val).off = true)
    (hv : v = u.noteWrite 1 (Reg.SEE_PORT_CFG port.val).off cfg.toNat) (hon : v.isOn 7 = true)
    (henable : bitOf cfg.toNat 31 = true) (hoff : (v.camPort port.val).enabled = false)
    (hcfg : portCfgOk port.val (bits cfg.toNat 14 12) (bits cfg.toNat 21 16) (v.reg (Reg.SEE_PORT_GEOM port.val) % 65536) = true)
    (hw : w = (v.cfgPort port.val cfg.toNat).setF (Fld.SEE_PORT_CFG_enable port.val) 1)
    (hx : x = (w.dropUpload port.val).onPort port.val (fun p => { p with
      enabled := true, lanes := bits cfg.toNat 14 12, dtype := bits cfg.toNat 21 16, vc := bits cfg.toNat 27 24
      columns := v.reg (Reg.SEE_PORT_GEOM port.val) % 65536, frameLines := v.reg (Reg.SEE_PORT_GEOM port.val) / 65536
      bus := bits cfg.toNat 11 11, addr := bits cfg.toNat 10 4, gen := 0, pendingGens := [], inFrame := false, truncated := false
      lineErr := false, fsAt := w.now, silent := false, lineNo := 0, fifo := [], history := [], record := Rec.empty
      candidates := [], stats := [] })) :
    execPortEnable dt port cfg s = .next (x.askStats port.val) := by
  simp only [execPortEnable, hup, ← hu, hopen, ← hv, hon, henable, hoff, hcfg, ← hw, ← hx]
  rfl

/-- R281: the header has no error and names the port's channel and data type, and a frame is under way. -/
theorem State.takePacket_of_own {n : Nat} {k : CsiPkt} {s : State} (hvc : k.vc = (s.camPort n).vc)
    (hdtype : k.dtype = (s.camPort n).dtype) (hframe : (s.camPort n).inFrame = true) :
    s.takePacket n (some (k, false)) = s.putLine n k := by
  simp [State.takePacket, hvc, hdtype, hframe]

/-- R283: a pipeline takes a line of its owner where one waits. -/
theorem State.pipeLine_of_owner {v : Nat} {s : State} (howner : (s.camPort v).fifo ≠ []) : s.pipeLine v = s.pipeTakes v 0 := by
  simp [State.pipeLine, howner]

/-- R283: only where no line of the owner waits does a pipeline take one of its sharer. -/
theorem State.pipeLine_of_sharer {v : Nat} {s : State} (howner : (s.camPort v).fifo = []) (hshared : 2 ≤ v)
    (hsharer : (s.camPort (v + 2)).fifo ≠ []) : s.pipeLine v = s.pipeTakes v 1 := by
  simp [State.pipeLine, howner, hshared, hsharer]

theorem execVpLine_of_on {dt : Nat} {pipe : Fin 4} {s u : State} (hup : s.down = false) (hu : u = s.elapse dt)
    (hon : u.isOn 7 = true) : execVpLine dt pipe s = .next (u.pipeLine pipe.val) := by
  simp [execVpLine, hup, ← hu, hon]

section
variable {dt : Nat} {port : Fin 6} {s u : State} (hup : s.down = false) (hu : u = s.elapse dt) (hlive : u.portLive port.val = true)
include hup hu hlive

theorem execCsiFrameStart_of_between (hframe : (u.camPort port.val).inFrame = false) :
    execCsiFrameStart dt port s = .next (u.startFrame port.val) := by
  simp [execCsiFrameStart, hup, ← hu, hlive, hframe]

theorem execCsiLine_of_live {data : List Byte} : execCsiLine dt port data s = .next (u.takePacket port.val (csiParse data)) := by
  simp [execCsiLine, hup, ← hu, hlive]

/-- R281, R294: the frame has all of its lines. -/
theorem execCsiFrameEnd_of_whole (hframe : (u.camPort port.val).inFrame = true)
    (hlines : (u.camPort port.val).frameLines ≤ (u.camPort port.val).lineNo) :
    execCsiFrameEnd dt port s = .next (u.closeFrame port.val) := by
  simp [execCsiFrameEnd, hup, ← hu, hlive, hframe, Nat.not_lt.mpr hlines]

/-- R281: the web has moved for frame_timeout and no frame has started in that time, and this has not been said yet. -/
theorem execPortSilent_of_due (hsaid : (u.camPort port.val).silent = false)
    (hset : u.f (Fld.SEE_PORT_TIMEOUT_frame_timeout port.val) ≠ 0) (hmoves : u.source.state ≠ .still)
    (hdue : max (u.camPort port.val).fsAt u.bell.moveAt + u.f (Fld.SEE_PORT_TIMEOUT_frame_timeout port.val) * 1000000 ≤ u.now) :
    execPortSilent dt port s =
      .next (((u.onPort port.val (fun p => { p with silent := true })).fault 60).raiseEv 134).closeEsts := by
  simp only [execPortSilent, hup, ← hu, hlive, hsaid, hset, hmoves, Nat.not_lt.mpr hdue]
  rfl

end

/-- R285, R286: the sensor of an enabled port is read while its bus is free; a read that fails is a fault. -/
theorem execSensorTempRead_of_free {dt : Nat} {port : Fin 6} {value : Word} {ok : Bool} {s u v : State} (hup : s.down = false)
    (hu : u = s.elapse dt) (hon : u.isOn 7 = true) (henabled : (u.camPort port.val).enabled = true)
    (hen : u.fb (Fld.SEE_PORT_TEMPCFG_temp_en port.val) = true)
    (hfree : (u.see.buses.getD (u.camPort port.val).bus ⟨[], none⟩).busy = none)
    (hv : v = u.emit (.i2cRead (u.camPort port.val).bus (u.camPort port.val).addr
      (u.f (Fld.SEE_PORT_TEMPCFG_reg_addr port.val)) 2)) :
    execSensorTempRead dt port value ok s =
      .next (if ok then (v.onPort port.val (fun p => { p with temp := ofTwos 16 value.toNat, tempAt := v.now })).calByTemp port.val
        else v.fault 59) := by
  simp only [execSensorTempRead, hup, ← hu, hon, henabled, hen, hfree, ← hv]
  cases ok <;> rfl

/-- Settles O26, by the conditions under which each command has its effect, and for a pipeline by whose line waits. -/
theorem cameraCommandsComplete : Obligations.CameraCommandsComplete := by
  unfold Obligations.CameraCommandsComplete
  refine ⟨?portEnable, ?frameStart, ?line, ?frameEnd, ?portSilent, ?vpLine, ?sensorTempRead⟩
  case portEnable =>
    exact fun s u dt port cfg v w x hup hu hopen hv hon henable hoff hcfg hw hx =>
      execPortEnable_of_accepted hup hu hopen hv hon henable hoff hcfg hw hx
  case frameStart => exact fun s u dt port hup hu hlive hframe => execCsiFrameStart_of_between hup hu hlive hframe
  case line =>
    intro s u dt port data k hup hu hlive hparse hvc hdtype hframe
    refine (execCsiLine_of_live hup hu hlive).trans ?_
    rw [hparse, State.takePacket_of_own hvc hdtype hframe]
  case frameEnd => exact fun s u dt port hup hu hlive hframe hlines => execCsiFrameEnd_of_whole hup hu hlive hframe hlines
  case portSilent =>
    exact fun s u dt port hup hu hlive hsaid hset hmoves hdue => execPortSilent_of_due hup hu hlive hsaid hset hmoves hdue
  case vpLine =>
    intro s u dt pipe c hup hu hon hwaits
    refine (execVpLine_of_on hup hu hon).trans ?_
    obtain ⟨howner, rfl⟩ | ⟨howner, hshared, hsharer, rfl⟩ := hwaits
    · rw [State.pipeLine_of_owner howner]
    · rw [State.pipeLine_of_sharer howner hshared hsharer]
  case sensorTempRead =>
    exact fun s u dt port value ok v hup hu hon henabled hen hfree hv => execSensorTempRead_of_free hup hu hon henabled hen hfree hv

end Sys2Proof.Machine
end

section
/-! PROOFS. The statement of 10_colour_hold.md: the end of a fill, re-screening by Graze, snapshots and the restart of the colour
hold. -/

namespace Sys2Proof.Machine

/-! ### Fills, snapshots and the restart (R310, R327, R328) -/

/-- R310: the fill of the shadow ends, and no composition waits for it. -/
theorem execHoldFillDone_of_unawaited {dt : Nat} {s u : State} (hup : s.down = false) (hu : u = s.elapse dt)
    (hfill : u.hold.filling = true) (hwait : u.hold.waitFill = false) :
    execHoldFillDone dt s = .next (u.onHold (fun h => { h with filling := false, waitFill := false })) := by
  simp only [execHoldFillDone, hup, ← hu, hfill, hwait, Bool.false_and]
  cases hjob : (u.onHold (fun h => { h with filling := false, waitFill := false })).lay.job with
  | none => rfl
  | some j => rfl

/-- R328: the gains have changed, and snap_s seconds have passed since the last snapshot. -/
theorem execHoldSnapshot_of_due {dt : Nat} {s u : State} (hup : s.down = false) (hu : u = s.elapse dt) (hon : u.isOn 7 = true)
    (hchanged : u.hold.changed = true)
    (hdue : u.hold.snapAt + orIfZero (u.f Fld.HOLD_SNAP_snap_s) 1 * 1000000000 ≤ u.now) :
    execHoldSnapshot dt s = .next u.writeHoldSnap := by
  simp [execHoldSnapshot, hup, ← hu, hon, hchanged, hdue]

/-- R327: a restart empties the history; the gains and the paper values stay. -/
theorem execHoldRestart_of_open {dt : Nat} {s u v : State} (hup : s.down = false) (hu : u = s.elapse dt)
    (hopen : u.writeOpen 1 Reg.HOLD_CTRL.off = true)
    (hv : v = u.noteWrite 1 Reg.HOLD_CTRL.off (putBits (u.reg Reg.HOLD_CTRL) 4 4 1)) (hon : v.isOn 7 = true) :
    execHoldRestart dt s = .next (v.onHold (fun h => { h with history := false, start := 0, kept := true })) := by
  simp [execHoldRestart, hup, ← hu, hopen, ← hv, hon]

/-! ### Graze (R313, R325, R326) -/

/-- R313, R325: Graze takes a copy of the coverage too, where the camera quota holds its n pages and no request waits there. -/
def State.copyGrazeCov (n : Nat) (s : State) : State :=
  if s.padMay 4 n = true ∧ s.padFirst 4 = true then (s.padGive 4 n .grazeCov).wroteHolder .grazeCov else s

/-- R325: Graze runs on the re-screened image: what screening counted goes to the engines' registers, and its codes and coverage are held
for the swap, with the hold table that they were filled from. -/
def State.runGraze (r : Store × List (Screened × Nat) × List CovRow) (s : State) : State :=
  (r.2.1.foldl (fun s k => s.countBand k.1 k.2) s).onHold (fun h => { h with
    graze := .running, grazeLines := 0, grazeStore := some r.1, grazeFill := some h.active, grazeCov := r.2.2 })

/-- R325: the Drover's grant has come, bands can be composed and their DRAM answers, and the second copy of the store fits its quota. -/
theorem execGrazeStart_of_granted {dt : Nat} {j : Job} {x : Store} {s u y p v : State} (hup : s.down = false) (hu : u = s.elapse dt)
    (hjob : u.lay.job = some j) (hstore : u.lay.store = some x) (hawaits : u.hold.graze = .awaitGrant)
    (hgrant : u.droverHas .graze = true) (hy : y = (u.wakeDomain 5).callDram) (hon : y.isOn 5 = true) (hdram : y.dramUp = true)
    (hp : p = y.padRejudge) (hfits : p.padMay 1 (y.storePages j x.length) = true) (hfirst : p.padFirst 1 = true)
    (hv : v = (((p.padGive 1 (y.storePages j x.length) .grazeCopy).wroteHolder .grazeCopy).copyGrazeCov
      (covPagesOf x.length j.width)).raiseEv 138) :
    execGrazeStart dt s = .next (v.runGraze (v.rescreen j x)) := by
  simp [execGrazeStart, hup, ← hu, hjob, hstore, hawaits, hgrant, ← hy, hon, hdram, ← hp, hfits, hfirst, hv, State.runGraze,
    State.copyGrazeCov]

/-- R326: Graze ends and its copy awaits the swap; a trigger that came meanwhile makes the next latch point fill. -/
theorem execGrazeComplete_of_running {dt : Nat} {s u : State} (hup : s.down = false) (hu : u = s.elapse dt)
    (hruns : u.hold.graze = .running) :
    execGrazeComplete dt s = .next ((u.onHold (fun h => { h with
      graze := .awaitSwap, grazeLines := (u.hold.grazeStore.map (fun x => x.length)).getD 0
      dirty := h.dirty || h.grazeWant, grazeWant := false })).droverDrop .graze) := by
  simp [execGrazeComplete, hup, ← hu, hruns]

/-- Settles O27, by the conditions under which each command has its effect. -/
theorem holdCommandsComplete : Obligations.HoldCommandsComplete := by
  unfold Obligations.HoldCommandsComplete
  refine ⟨?fillDone, ?grazeStart, ?grazeComplete, ?snapshot, ?restart⟩
  case fillDone => exact fun s u dt hup hu hfill hwait => execHoldFillDone_of_unawaited hup hu hfill hwait
  case grazeStart =>
    rintro s u dt j x _ _ _ y p _ v _ hup hu hjob hstore hawaits hgrant hy hon hdram rfl hp hfits hfirst rfl rfl hv rfl rfl
    exact execGrazeStart_of_granted hup hu hjob hstore hawaits hgrant hy hon hdram hp hfits hfirst hv
  case grazeComplete => exact fun s u dt hup hu hruns => execGrazeComplete_of_running hup hu hruns
  case snapshot => exact fun s u dt hup hu hon hchanged hdue => execHoldSnapshot_of_due hup hu hon hchanged hdue
  case restart => exact fun s u dt v hup hu hopen hv hon => execHoldRestart_of_open hup hu hopen hv hon

end Sys2Proof.Machine
end

section
/-! PROOFS. The statements of 11_memory.md: the upkeep of the DRAM channels, the content of the DRAM with its errors, and the pages that
Paddock frees, zeroes and retires. -/

namespace Sys2Proof.Machine

/-! ### Freeing, zeroing and retiring pages (R358) -/

theorem execPaddockFree_of_firmware {dt region : Nat} {g : Region} {s u : State} (hup : s.down = false) (hu : u = s.elapse dt)
    (hfound : u.paddock.regions.find? (fun r => decide (r.id = region)) = some g)
    (hholder : (∃ c, g.holder = .core c) ∨ g.holder = .sec) : execPaddockFree dt region s = .next (u.padFreeId region) := by
  obtain ⟨c, hcore⟩ | hsec := hholder
  · simp [execPaddockFree, hup, ← hu, hfound, hcore]
  · simp [execPaddockFree, hup, ← hu, hfound, hsec]

/-- R358: a zeroed page goes back to the free pool, and no word of it is poisoned any more. -/
def State.pageZeroed (page : Nat) (s : State) : State :=
  { s with
    paddock := { s.paddock with dirty := runsDel page s.paddock.dirty, free := runsAdd page 1 s.paddock.free }
    memc := { s.memc with poisoned := s.memc.poisoned.filter (fun a => a / 2097152 ≠ page) } }

theorem execPageZeroDone_of_dirty {dt page : Nat} {s u : State} (hup : s.down = false) (hu : u = s.elapse dt)
    (hdirty : runsHas u.paddock.dirty page = true) :
    execPageZeroDone dt page s =
      .next (((u.pageZeroed page).dramAsk .aux true none (page * 2097152) (page * 2097152 + 2097152)).touchDram) := by
  simp only [execPageZeroDone, hup, ← hu, hdirty]
  rfl

/-- R358: FS027 where the list of retired pages is full. -/
theorem execPadRetire_of_open {dt : Nat} {data : Word} {s u v : State} (hup : s.down = false) (hu : u = s.elapse dt)
    (hopen : u.writeOpen 1 Reg.PAD_RETIRE.off = true) (hv : v = u.noteWrite 1 Reg.PAD_RETIRE.off data.toNat)
    (hlock : v.sys.lock = false) (hon : v.isOn 4 = true) :
    execPadRetire dt data s = .next (if (v.padRetire (bits data.toNat 16 0)).1
      then (v.padRetire (bits data.toNat 16 0)).2.fault 27 else (v.padRetire (bits data.toNat 16 0)).2) := by
  simp [execPadRetire, hup, ← hu, hopen, ← hv, hlock, hon]

/-- Settles O30, by the conditions under which each command has its effect. -/
theorem paddockCommandsComplete : Obligations.PaddockCommandsComplete := by
  unfold Obligations.PaddockCommandsComplete
  refine ⟨?free, ?zeroDone, ?retire⟩
  case free => exact fun s u dt region g hup hu hfound hholder => execPaddockFree_of_firmware hup hu hfound hholder
  case zeroDone => exact fun s u dt page hup hu hdirty => execPageZeroDone_of_dirty hup hu hdirty
  case retire => exact fun s u dt data v hup hu hopen hv hlock hon => execPadRetire_of_open hup hu hopen hv hlock hon

/-! ### Refresh, temperature and calibration (R340 to R344) -/

/-- The four conditions of R342 under which a REF is postponed. -/
def State.mayPostpone (s : State) (n : Nat) : Bool :=
  decide ((s.channel n).owed < 4) && s.fb Fld.MEMC_CTRL_postpone_en && decide ((s.channel n).noPostUntil ≤ s.now) && s.deadlineQueued n

/-- R342: the REF that a channel owes and issues with the one that falls due. -/
def State.refsPaid (s : State) (n : Nat) : Nat := if s.deadlineQueued n then 0 else (s.channel n).owed

/-- R342: the REF is postponed. -/
def State.postponeRef (n : Nat) (s : State) : State :=
  (s.onChannel n (fun c => { c with owed := c.owed + 1, single := false })).bumpSat (Fld.MEMC_REF_postponed n) 1

/-- R342: the REF is issued, and paid of those owed with it. -/
def State.issueRef (n paid : Nat) (s : State) : State :=
  (s.onChannel n (fun c => { c with owed := c.owed - paid, single := decide (paid = 0) })).refresh n (1 + paid) s.now

section
variable {dt : Nat} {channel : Fin 8} {s u v : State} (hup : s.down = false) (hu : u = s.elapse dt)
include hup hu

theorem execRefDue_of_due (hactive : u.chActive channel.val = true) (hdue : (u.channel channel.val).refAt ≤ u.now)
    (hv : v = u.onChannel channel.val (fun c => { c with refAt := c.refAt + c.trefi })) :
    execRefDue dt channel s = .next (if u.mayPostpone channel.val then v.postponeRef channel.val
      else v.issueRef channel.val (u.refsPaid channel.val)) := by
  simp [execRefDue, hup, ← hu, hactive, Nat.not_lt.mpr hdue, ← hv, State.mayPostpone, State.postponeRef, State.issueRef,
    State.refsPaid, apply_ite Host.Outcome.next]

/-- R341, R344: the readout follows a single REF, a millisecond after the last one at the earliest; one that fails is a fault. -/
theorem execMprTempRead_of_due {range : Nat} {ok : Bool} {w : State} (hsrc : u.fb Fld.MEMC_CTRL_temp_src = true)
    (hafter : u.afterRef channel.val = true)
    (hdue : (u.channel channel.val).mprAt = 0 ∨ (u.channel channel.val).mprAt + 1000000 ≤ u.now)
    (hv : v = (u.onChannel channel.val (fun c => { c with
      mprAt := u.now, mprFailed := !ok, mpr := if ok then min 2 range else c.mpr })).joinRef channel.val .mprRead "MPR2")
    (hw : w = if ok then v else v.fault 34) :
    execMprTempRead dt channel range ok s = .next ((w.judgeHot channel.val).judgeDramHot) := by
  obtain hfirst | hagain := hdue
  · simp [execMprTempRead, hup, ← hu, hafter, hsrc, hfirst, ← hv, ← hw]
  · simp [execMprTempRead, hup, ← hu, hafter, hsrc, Nat.not_lt.mpr hagain, ← hv, ← hw]

/-- R344: ZQ calibration follows a single REF, 128 ms after the last one at the earliest. -/
theorem execZqCal_of_due (hafter : u.afterRef channel.val = true) (hdue : (u.channel channel.val).zqAt + 128000000 ≤ u.now) :
    execZqCal dt channel s =
      .next ((u.onChannel channel.val (fun c => { c with zqAt := u.now })).joinRef channel.val .zqcs "ZQCS") := by
  simp [execZqCal, hup, ← hu, hafter, Nat.not_lt.mpr hdue]

end

/-! ### Parity retries (R345) -/

/-- R345: what the DRAM has discarded is issued again. -/
def State.retryDiscarded (n : Nat) (read : Option Nat) (s : State) : State :=
  (s.discarded n read).2.replayCommands n (s.discarded n read).1

/-- R345, R347: the command of a read has left the retry buffer of its channel. -/
def State.readLeft (s : State) (n addr : Nat) : Bool :=
  s.onChan n addr && !(s.channel n).issued.contains (.column false (addr / 64 * 64))

section
variable {dt : Nat} {channel : Fin 8} {s u : State} (hup : s.down = false) (hu : u = s.elapse dt)
  (hactive : u.chActive channel.val = true)
include hup hu hactive

theorem execCaParityAlert_of_read {addr : Nat} :
    execCaParityAlert dt ⟨channel, some addr⟩ s = .next (if u.readLeft channel.val addr
      then (u.poisonRead channel.val (addr / 8 * 8)).parityError channel.val
      else (u.parityError channel.val).retryDiscarded channel.val (some addr)) := by
  simp [execCaParityAlert, hup, ← hu, hactive, State.readLeft, State.retryDiscarded, apply_ite Host.Outcome.next]

theorem execCaParityAlert_of_no_read :
    execCaParityAlert dt ⟨channel, none⟩ s = .next ((u.parityError channel.val).retryDiscarded channel.val none) := by
  simp only [execCaParityAlert, hup, ← hu, hactive]
  rfl

end

/-! ### Self-refresh (R350, R351) -/

/-- R350, R351: the channels have been idle for sr_idle µs, and the commit point follows when the last has issued SRE. -/
theorem execSelfRefreshEntry_of_idle {dt r : Nat} {s u v w : State} (hup : s.down = false) (hu : u = s.elapse dt)
    (hidle : u.dramIdle = true) (hentry : u.memc.srAt = none)
    (hdue : u.memc.idleSince + orIfZero (u.f Fld.MEMC_SR_IDLE_sr_idle) 1 * 1000 ≤ u.now) (hv : v = u.payAll u.now)
    (hw : v.free = (r, w)) :
    execSelfRefreshEntry dt s = .next (w.onMemc (fun m => { m with
      srAt := some (w.memc.channels.foldl (fun m c => max m c.stallTo) w.now + r % 1001) })) := by
  simp [execSelfRefreshEntry, hup, ← hu, hidle, hentry, hdue, ← hv, hw]

theorem execSelfRefreshExit_of_on {dt : Nat} {s u : State} (hup : s.down = false) (hu : u = s.elapse dt) (hon : u.isOn 4 = true) :
    execSelfRefreshExit dt s = .next u.exitSelfRefresh := by
  simp [execSelfRefreshExit, hup, ← hu, hon]

/-- Settles O28, by the conditions under which each command has its effect, and for a parity alert by whether it concerns a read. -/
theorem dramUpkeepCommandsComplete : Obligations.DramUpkeepCommandsComplete := by
  unfold Obligations.DramUpkeepCommandsComplete
  refine ⟨?refDue, ?mprTempRead, ?zqCal, ?caParityAlert, ?selfRefreshEntry, ?selfRefreshExit⟩
  case refDue => exact fun s u dt channel v hup hu hactive hdue hv => execRefDue_of_due hup hu hactive hdue hv
  case mprTempRead =>
    exact fun s u dt channel range ok v w hup hu hsrc hafter hdue hv hw => execMprTempRead_of_due hup hu hsrc hafter hdue hv hw
  case zqCal => exact fun s u dt channel hup hu hafter hdue => execZqCal_of_due hup hu hafter hdue
  case caParityAlert =>
    rintro s u dt ⟨channel, read⟩ _ _ hup hu rfl hactive rfl
    cases read with
    | some addr => exact execCaParityAlert_of_read hup hu hactive
    | none => exact execCaParityAlert_of_no_read hup hu hactive
  case selfRefreshEntry =>
    exact fun s u dt r v w hup hu hidle hentry hdue hv hw => execSelfRefreshEntry_of_idle hup hu hidle hentry hdue hv hw
  case selfRefreshExit => exact fun s u dt hup hu hon => execSelfRefreshExit_of_on hup hu hon

/-! ### Reads, tests and the patrol scrub (R338, R346 to R349) -/

/-- R347, R348: a word that the errors or an earlier one leave uncorrectable is spoilt for its consumer. -/
def State.spoilWord (bad : Option Nat) (s : State) : State :=
  match bad with
  | some a => s.spoil a
  | none => s

theorem execDramReadReturn_of_active {dt addr errors : Nat} {channel : Fin 8} {s u v : State} (hup : s.down = false)
    (hu : u = s.elapse dt) (hactive : u.chActive channel.val = true) (hchan : u.onChan channel.val (addr / 8 * 8) = true)
    (hv : v = ((u.returnColumn channel.val (addr / 8 * 8)).readWord channel.val (addr / 8 * 8) errors).touchDram) :
    execDramReadReturn dt channel addr errors s = .next (v.spoilWord (u.badWord (addr / 8 * 8) errors)) := by
  simp only [execDramReadReturn, hup, ← hu, hactive, hchan, ← hv]
  rfl

/-- R348: the test of a word is over and no longer due. -/
def State.wordTestTaken (addr : Nat) (s : State) : State :=
  { s with memc := { s.memc with wordTests := s.memc.wordTests.filter (fun w => w ≠ addr / 8 * 8) } }

/-- R348: the reads (false) and writes (true) of the targeted test of a word. -/
def State.wordTestAsks (addr : Nat) (s : State) : State :=
  [false, false, true, false, true, false, true].foldl (fun s x => s.dramAsk .maint x none (addr / 8 * 8) (addr / 8 * 8 + 8)) s

/-- R348: a TRANSIENT error retires no page. -/
theorem execDramWordTest_of_transient {dt addr : Nat} {s u : State} (hup : s.down = false) (hu : u = s.elapse dt)
    (hmay : u.testMayRun 26 0 = true) (hdue : addr / 8 * 8 ∈ u.memc.wordTests) :
    execDramWordTest dt addr false s = .next (((u.wordTestTaken addr).touchDram.wordTestAsks addr).wordTested false) := by
  simp only [execDramWordTest, hup, ← hu, hmay, List.contains_iff_mem.mpr hdue]
  rfl

/-- The words of the page under scrub among those of the addresses ws. -/
def State.scrubHere (s : State) (ws : List Nat) : List Nat :=
  (ws.map (fun a => a / 8 * 8)).filter (fun a => decide (a / 2097152 = s.memc.scrubPage))

/-- R347, R349: the words of the page under scrub that read as uncorrectable, those that stay poisoned among them. -/
def State.scrubBad (s : State) (uncorrectable : List Nat) : List Nat :=
  s.scrubHere uncorrectable ++ s.memc.poisoned.filter (fun a =>
    decide (a / 2097152 = s.memc.scrubPage) && !(s.scrubHere uncorrectable).contains a)

/-- R346, R347, R349: what the reads of the page under scrub come to: corrected words, and then the bad ones. -/
def State.scrubWords (errors bad : List Nat) (s : State) : State :=
  bad.foldl (fun s a => s.uncorrectable (s.chanOf a) a)
    (errors.foldl (fun s a => if bad.contains a then s else s.correctable (s.chanOf a) a) s)

/-- R349: the scrub goes on with the page after this one, or begins a new pass. -/
def State.scrubAdvance (page : Nat) (s : State) : State :=
  s.onMemc (fun m => if page + 1 < s.pageCount then { m with scrubPage := page + 1 }
    else { m with scrubPage := 0, scrubSince := s.now, scrubLate := false })

section
variable {dt : Nat} {s u : State} (hup : s.down = false) (hu : u = s.elapse dt)
  (hset : u.f Fld.MEMC_SCRUB_scrub_h ≠ 0)
include hup hu hset

theorem execScrubPage_of_granted {errors uncorrectable : List Nat} (hdram : u.dramUp = true) (hgrant : u.droverHas .scrub = true) :
    execScrubPage dt errors uncorrectable s =
      .next (((((u.scrubWords (u.scrubHere errors) (u.scrubBad uncorrectable)).droverDrop .scrub).dramAsk .maint false none
        (u.memc.scrubPage * 2097152) (u.memc.scrubPage * 2097152 + 2097152)).scrubAdvance u.memc.scrubPage).scrubAsk) := by
  simp only [execScrubPage, hup, ← hu, hset, hdram, hgrant]
  rfl

/-- R349: the pass has taken more than scrub_h hours, and this has not been said yet. -/
theorem execScrubLate_of_overdue (htrained : u.memc.trained = true) (hsaid : u.memc.scrubLate = false)
    (hdue : u.memc.scrubSince + u.f Fld.MEMC_SCRUB_scrub_h * 3600000000000 ≤ u.now) :
    execScrubLate dt s = .next ((u.onMemc (fun m => { m with scrubLate := true })).fault 25) := by
  simp [execScrubLate, hup, ← hu, hset, htrained, hsaid, Nat.not_lt.mpr hdue]

end

/-! ### Training, the wipe and the geometry (R353, R354, R536) -/

/-- R353: a memory of which no channel has been trained halts start-up. -/
theorem execTrained_of_training {dt : Nat} {ok : List Bool} {s u v w x : State} (hup : s.down = false) (hu : u = s.elapse dt)
    (hlen : ok.length = 8) (htraining : u.memc.channels.any (fun c => c.state = .training) = true)
    (hv : v = (List.range 8).foldl (State.endTraining ok) u)
    (hw : w = v.onMemc (fun m => { m with trained := true, idleSince := v.now, scrubSince := v.now }))
    (hx : x = if w.memc.n = 0 then w.onSys (fun y => { y with halted := true }) else w) :
    execTrained dt ok s = .next ((x.raiseEv 166).scrubAsk) := by
  simp only [execTrained, hup, ← hu, hlen, htraining, ← hv, ← hw, ← hx]
  rfl

theorem execWipeDone_of_wiping {dt : Nat} {s u : State} (hup : s.down = false) (hu : u = s.elapse dt)
    (hstarted : u.memc.wipeAt.isSome = true) (hdone : u.memc.wipeDone = false) :
    execWipeDone dt s =
      .next ((((u.wipeTo u.pageCount).onMemc (fun m => { m with wipeDone := true })).touchDram).raiseEv 167) := by
  simp [execWipeDone, hup, ← hu, hdone, Option.isSome_iff_ne_none.mp hstarted]

/-- R536: a change of the geometry is kept for the next reset once the device is READY, and restarts training before. -/
theorem execMemcGeomWrite_of_change {dt : Nat} {data : Word} {s u v w : State} (hup : s.down = false) (hu : u = s.elapse dt)
    (hopen : u.writeOpen 1 Reg.MEMC_GEOM.off = true) (hv : v = u.noteWrite 1 Reg.MEMC_GEOM.off data.toNat)
    (hlock : v.sys.lock = false) (hon : v.isOn 4 = true) (hchange : geomRead data.toNat ≠ v.reg Reg.MEMC_GEOM)
    (hw : w = v.setReg Reg.MEMC_GEOM (geomRead data.toNat)) :
    execMemcGeomWrite dt data s = .next (if w.sys.ready then w.storeGeom (geomRead data.toNat)
      else if w.sys.cores then (w.onSys (fun x => { x with halted := false })).startTraining else w) := by
  simp only [execMemcGeomWrite, hup, ← hu, hopen, ← hv, hlock, hon, hchange, ← hw]
  cases hready : w.sys.ready
  · cases hcores : w.sys.cores <;> rfl
  · rfl

/-- Settles O29, by the conditions under which each command has its effect. -/
theorem dramContentCommandsComplete : Obligations.DramContentCommandsComplete := by
  unfold Obligations.DramContentCommandsComplete
  refine ⟨?readReturn, ?wordTest, ?scrubPage, ?scrubLate, ?trained, ?wipeDone, ?geomWrite⟩
  case readReturn =>
    intro s u dt channel addr errors v hup hu hactive hchan hv
    refine (execDramReadReturn_of_active hup hu hactive hchan hv).trans ?_
    cases u.badWord (addr / 8 * 8) errors <;> rfl
  case wordTest =>
    rintro s u dt addr lasting _ _ hup hu hmay hdue rfl rfl rfl
    exact execDramWordTest_of_transient hup hu hmay hdue
  case scrubPage =>
    rintro s u dt errors uncorrectable _ _ _ _ _ hup hu hdram hset hgrant rfl rfl rfl rfl rfl
    exact execScrubPage_of_granted hup hu hset hdram hgrant
  case scrubLate => exact fun s u dt hup hu hset htrained hsaid hdue => execScrubLate_of_overdue hup hu hset htrained hsaid hdue
  case trained => exact fun s u dt ok v w x hup hu hlen htraining hv hw hx => execTrained_of_training hup hu hlen htraining hv hw hx
  case wipeDone => exact fun s u dt hup hu hstarted hdone => execWipeDone_of_wiping hup hu hstarted hdone
  case geomWrite =>
    exact fun s u dt data v w hup hu hopen hv hlock hon hchange hw => execMemcGeomWrite_of_change hup hu hopen hv hlock hon hchange hw

end Sys2Proof.Machine
end

section
/-! PROOFS. The statements about every step: the queue, the straps and the life-cycle latch, the reset of the device, the commands
that have no effect while the device is down, and that no well-formed command stops. -/

namespace Sys2Proof.Machine

/-! ### What a command can do to the core of the state (R10, R469, R470, R530) -/

/-- PORST_RISE and TOKEN_DONE have inversion lemmas of their own; after every other command that answers a next state, that state follows. -/
theorem exec_cases {c : Instr} {s t : State} (h : exec c s = .next t) :
    (∃ dt p, c = .porstRise dt p ∧ execPorstRise dt p s = .next t) ∨
      (∃ dt token nonce, c = .tokenDone dt token nonce ∧ execTokenDone dt token nonce s = .next t) ∨ Follows s t := by
  by_cases hrise : ∃ dt p, c = .porstRise dt p
  · obtain ⟨dt, p, rfl⟩ := hrise
    exact .inl ⟨dt, p, rfl, h⟩
  by_cases htoken : ∃ dt token nonce, c = .tokenDone dt token nonce
  · obtain ⟨dt, token, nonce, rfl⟩ := htoken
    exact .inr (.inl ⟨dt, token, nonce, rfl, h⟩)
  · exact .inr (.inr (exec_leads c s (fun dt p e => hrise ⟨dt, p, e⟩) (fun dt token nonce e => htoken ⟨dt, token, nonce, e⟩) t h))

/-- TOKEN_DONE leaves the queue and the straps, and the state in the latch; it may mark a transition of R469 as pending. -/
theorem execTokenDone_leaves {dt : Nat} {token nonce : List Byte} {s t : State} (h : execTokenDone dt token nonce s = .next t) :
    t.pending = s.pending ∧ t.sys.straps = s.sys.straps ∧ t.sec.lc = s.sec.lc ∧
      (t.sec.pendingLc = s.sec.pendingLc ∨ ∃ l, lcEdge s.sec.lc l = true ∧ t.sec.pendingLc = some l) := by
  obtain hcore | ⟨l, hedge, hcore⟩ := execTokenDone_spec dt token nonce s t h
  · simp only [State.core_def, Prod.mk.injEq] at hcore
    obtain ⟨hqueue, hstraps, -, hlc, hpend⟩ := hcore
    exact ⟨hqueue, hstraps, hlc, .inl hpend⟩
  · simp only [State.core_def, Prod.mk.injEq] at hcore
    obtain ⟨hqueue, hstraps, -, hlc, hpend⟩ := hcore
    exact ⟨hqueue, hstraps, hlc, .inr ⟨l, hedge, hpend⟩⟩

/-- Settles O47, by what each command does to the core of the state. -/
theorem commandsLeaveTheQueue : Obligations.CommandsLeaveTheQueue := by
  unfold Obligations.CommandsLeaveTheQueue
  intro c s t h
  obtain ⟨dt, p, -, hrise⟩ | ⟨dt, token, nonce, -, htoken⟩ | ⟨hqueue, -⟩ := exec_cases h
  · exact (execPorstRise_spec dt p s t hrise).1
  · exact (execTokenDone_leaves htoken).1
  · exact hqueue

/-- The straps stay at every command but PORST_RISE (R530). -/
theorem exec_straps {c : Instr} {s t : State} (hother : ∀ dt p, c ≠ .porstRise dt p) (h : exec c s = .next t) :
    t.sys.straps = s.sys.straps := by
  obtain ⟨dt, p, hc, -⟩ | ⟨dt, token, nonce, -, htoken⟩ | ⟨-, hstraps, -⟩ := exec_cases h
  · exact absurd hc (hother dt p)
  · exact (execTokenDone_leaves htoken).2.1
  · exact hstraps

theorem State.romWipes_reboot_straps (straps : Straps) (cause : Nat) (s : State) :
    ((s.reboot straps cause).romWipes).sys.straps = straps := by
  have hwipes := State.romWipes_core (s.reboot straps cause)
  have hreboot := State.reboot_core straps cause s
  simp only [State.core_def, Prod.mk.injEq] at hwipes hreboot
  exact hwipes.2.1.trans hreboot.2.1

/-- Settles O48, by what each command does to the core of the state, and by the straps of the reset that PORST_RISE is. -/
theorem strapsAreSampledAtPorstRise : Obligations.StrapsAreSampledAtPorstRise := by
  unfold Obligations.StrapsAreSampledAtPorstRise
  refine ⟨fun c s t hother h => exec_straps hother h, fun s t dt p hporst hshelf h => ?_⟩
  have hrise := (execPorstRise_of_reset (dt := dt) hporst hshelf).symm.trans h
  rw [← Host.Outcome.next.inj hrise]
  exact State.romWipes_reboot_straps (strapsOf p.toNat) 0 s

/-- What may become of the life-cycle latch: it stays; its pending transition completes; or a transition of R469 is marked. -/
def LatchFollows (s t : State) : Prop :=
  t.sec.lc = s.sec.lc ∧ t.sec.pendingLc = s.sec.pendingLc ∨
    t.sec.lc = s.sec.pendingLc.getD s.sec.lc ∧ t.sec.pendingLc = none ∨
      t.sec.lc = s.sec.lc ∧ ∃ l, lcEdge s.sec.lc l = true ∧ t.sec.pendingLc = some l

theorem exec_latchFollows {c : Instr} {s t : State} (h : exec c s = .next t) : LatchFollows s t := by
  obtain ⟨dt, p, -, hrise⟩ | ⟨dt, token, nonce, -, htoken⟩ | ⟨-, -, -, hlatch⟩ := exec_cases h
  · obtain ⟨-, -, hstays | hcompletes⟩ := execPorstRise_spec dt p s t hrise
    · exact .inl hstays
    · exact .inr (.inl hcompletes)
  · obtain ⟨-, -, hlc, hpend | hmark⟩ := execTokenDone_leaves htoken
    · exact .inl ⟨hlc, hpend⟩
    · exact .inr (.inr ⟨hlc, hmark⟩)
  · obtain hstays | hcompletes := hlatch
    · exact .inl hstays
    · exact .inr (.inl hcompletes)

theorem latchFollows_of_core_eq {s t : State} (h : t.core = s.core) : LatchFollows s t := by
  simp only [State.core_def, Prod.mk.injEq] at h
  exact .inl h.2.2.2

/-- What a step does to the latch, an empty queue included. -/
theorem step_latchFollows {s t : State} (h : step s = .next t) : LatchFollows s t := by
  cases hq : s.pending with
  | nil =>
    rw [step_of_pending_nil hq] at h
    cases h
    exact latchFollows_of_core_eq (State.elapse_core 1 s)
  | cons c cs =>
    rw [step_of_pending_cons hq] at h
    have hfollows := exec_latchFollows h
    exact hfollows

/-- From a sound latch only a transition of R469 can complete, and only one can be marked. -/
theorem LatchFollows.sound_and_moves {s t : State} (h : LatchFollows s t) (hs : LcSound s) : LcSound t ∧ LcMoves s t := by
  obtain ⟨hlc, hpend⟩ | ⟨hlc, hpend⟩ | ⟨hlc, l, hedge, hpend⟩ := h
  · exact ⟨by simpa [LcSound, hlc, hpend] using hs, .inl hlc⟩
  · refine ⟨by simp [LcSound, hpend], ?_⟩
    cases hmark : s.sec.pendingLc with
    | none => exact .inl (by simpa [hmark] using hlc)
    | some l =>
      have hlc : t.sec.lc = l := by simpa [hmark] using hlc
      exact .inr (hlc ▸ hs l hmark)
  · refine ⟨fun k hk => ?_, .inl hlc⟩
    rw [hpend] at hk
    cases hk
    rwa [hlc]

/-- Settles O45: a step marks or completes transitions of R469 and nothing else. -/
theorem lifeCycleMovesOnlyAlongTransitions : Obligations.LifeCycleMovesOnlyAlongTransitions := by
  unfold Obligations.LifeCycleMovesOnlyAlongTransitions
  exact fun s t hs h => (step_latchFollows h).sound_and_moves hs

/-- Settles O44: no transition is pending in State.reset, and its register file is empty. -/
theorem resetIsSound : Obligations.ResetIsSound := by
  unfold Obligations.ResetIsSound
  have hpend : State.reset.sec.pendingLc = none := rfl
  exact ⟨by simp [LcSound, hpend], rfl⟩

/-- Settles O41, by the equation of a step at a queue that is not empty. -/
theorem stepRunsTheFrontCommand : Obligations.StepRunsTheFrontCommand := by
  unfold Obligations.StepRunsTheFrontCommand
  exact fun s c cs hq => step_of_pending_cons hq

theorem State.elapse_pending (dt : Nat) (s : State) : (s.elapse dt).pending = s.pending := by
  have hcore := State.elapse_core dt s
  simp only [State.core_def, Prod.mk.injEq] at hcore
  exact hcore.1

/-- Settles O42: the passing of a tick brings no command. -/
theorem emptyQueueLetsATickPass : Obligations.EmptyQueueLetsATickPass := by
  unfold Obligations.EmptyQueueLetsATickPass
  exact fun s hq => ⟨step_of_pending_nil hq, (State.elapse_pending 1 s).trans hq⟩

/-! ### Resets (R400, R435, R532, R533) -/

/-- R435: HV_EN is low and no pulse runs on every bar, Crook is in SAFE with the stop line asserted, and every register has its reset value. -/
def PressSafe (t : State) : Prop :=
  (∀ b, (t.bar b).hv = false ∧ (t.bar b).pulse = none) ∧ t.crook.state = .safe ∧ t.crook.pressStop = true ∧
    (∀ r : Reg, t.reg r = r.rst)

theorem pressSafe_of_reset {t : State} (hjet : t.jet = Jet.reset) (hcrook : t.crook = Crook.reset) (hregs : t.regs = []) :
    PressSafe t := by
  have hbar : ∀ b, t.bar b = Bar.reset := fun b => by
    rw [← State.reset_bar b, State.bar, State.bar, hjet]
    rfl
  refine ⟨fun b => ?_, ?_, ?_, State.reg_of_regs_nil hregs⟩
  · rw [hbar]
    exact ⟨rfl, rfl⟩
  · rw [hcrook]
    rfl
  · rw [hcrook]
    rfl

@[simp] theorem State.romWipes_jet (s : State) : s.romWipes.jet = s.jet := by
  unfold State.romWipes
  cases s.sec.pendingLc <;> simp only <;> split <;> rfl

@[simp] theorem State.romWipes_crook (s : State) : s.romWipes.crook = s.crook := by
  unfold State.romWipes
  cases s.sec.pendingLc <;> simp only <;> split <;> rfl

theorem State.deviceReset_pressSafe (cause : Nat) (s : State) : PressSafe (s.deviceReset cause) := by
  refine pressSafe_of_reset ?_ ?_ (State.deviceReset_regs cause s)
  · rw [State.deviceReset, State.romWipes_jet]
    rfl
  · rw [State.deviceReset, State.romWipes_crook]
    rfl

theorem State.enterShelf_pressSafe (entry : Nat) (s : State) : PressSafe (s.enterShelf entry) :=
  pressSafe_of_reset rfl rfl rfl

theorem PressSafe.onSys_porst {t : State} (h : PressSafe t) : PressSafe (t.onSys (fun x => { x with porst := true })) := h

/-- R533: a key other than 0xD1E5, or go 0. -/
theorem execSysReset_of_no_key {dt : Nat} {data : Word} {s u : State} (hup : s.down = false) (hu : u = s.elapse dt)
    (hopen : u.writeOpen 1 Reg.SYS_RST.off = true) (hkey : bits data.toNat 31 16 ≠ 0xD1E5 ∨ bitOf data.toNat 0 = false) :
    execSysReset dt data s = .next (u.noteWrite 1 Reg.SYS_RST.off data.toNat) := by
  obtain hkey | hgo := hkey
  · simp [execSysReset, hup, ← hu, hopen, hkey]
  · simp [execSysReset, hup, ← hu, hopen, hgo]

/-- Settles O57, by the key of SYS_RST. -/
theorem sysResetNeedsItsKey : Obligations.SysResetNeedsItsKey := by
  unfold Obligations.SysResetNeedsItsKey
  exact fun s u dt data hup hu hopen hkey => execSysReset_of_no_key hup hu hopen hkey

/-- R452, R532: the watchdog of a core that runs expires. -/
theorem execWatchdogExpire_of_run {dt : Nat} {core : Fin 4} {s u : State} (hup : s.down = false) (hu : u = s.elapse dt)
    (hrun : (u.mbx.cores.getD core.val ⟨false, 0, 0, false⟩).run = true) :
    execWatchdogExpire dt core s =
      .next (if core.val = 0 then (u.fault 100).deviceReset 2 else (u.fault (100 + core.val)).resetCore core.val 1) := by
  simp only [execWatchdogExpire, hup, ← hu, hrun]
  by_cases hcore : core.val = 0
  · simp [hcore]
  · simp [hcore]

/-- R532: the watchdog of C0 resets the device. -/
theorem execWatchdogExpire_of_c0 {dt : Nat} {s u : State} (hup : s.down = false) (hu : u = s.elapse dt)
    (hrun : (u.mbx.cores.getD 0 ⟨false, 0, 0, false⟩).run = true) :
    execWatchdogExpire dt 0 s = .next ((u.fault 100).deviceReset 2) :=
  (execWatchdogExpire_of_run hup hu hrun).trans (congrArg Host.Outcome.next (if_pos rfl))

/-- R470: the reset of a transition that is pending. -/
theorem execLcTransitionReset_of_due {dt : Nat} {s u : State} (hup : s.down = false) (hu : u = s.elapse dt)
    (hpend : u.sec.pendingLc.isSome = true) (hdue : u.sys.lcReset.isSome = true) :
    execLcTransitionReset dt s = .next (u.deviceReset 3) := by
  simp [execLcTransitionReset, hup, ← hu, hpend, hdue]

/-- R400: the main rails go while the device is not in Shelf. -/
theorem execMainRailLoss_of_powered {dt : Nat} {s u : State} (hu : u = s.elapse dt) (hshelf : s.power.inShelf = false) :
    execMainRailLoss dt s = .next ((if s.down then s else u).enterShelf 2) := by
  simp [execMainRailLoss, hshelf, ← hu]

theorem State.not_inShelf_of_up {s : State} (hup : s.down = false) : s.power.inShelf = false := by
  simp only [State.down, Bool.or_eq_false_iff] at hup
  exact hup.2

theorem pressSafe_of_next {r : Res} {t u : State} (h : r = .next t) (hr : r = .next u) (hu : PressSafe u) : PressSafe t := by
  rw [hr] at h
  cases h
  exact hu

/-- Settles O56: each of the five is a device reset or the entry of Shelf, and both reset scan-out, Crook and the registers. -/
theorem resetsLeaveThePressSafe : Obligations.ResetsLeaveThePressSafe := by
  unfold Obligations.ResetsLeaveThePressSafe
  intro c s t dt hup hc h
  have hsafe : PressSafe t ∧ ∀ dt p, c ≠ .porstRise dt p := by
    obtain rfl | ⟨data, rfl, hopen, hkey, hgo⟩ | ⟨rfl, hrun⟩ | ⟨rfl, hpend, hdue⟩ | rfl := hc <;> refine ⟨?_, nofun⟩
    · exact pressSafe_of_next h (execPorstFall_of_up (dt := dt) hup) (s.deviceReset_pressSafe 0).onSys_porst
    · exact pressSafe_of_next h (execSysReset_of_key hup hopen hkey hgo) (State.deviceReset_pressSafe 1 _)
    · exact pressSafe_of_next h (execWatchdogExpire_of_c0 hup rfl hrun) (State.deviceReset_pressSafe 2 _)
    · exact pressSafe_of_next h (execLcTransitionReset_of_due hup rfl hpend hdue) (State.deviceReset_pressSafe 3 _)
    · exact pressSafe_of_next h (execMainRailLoss_of_powered rfl (State.not_inShelf_of_up hup)) (State.enterShelf_pressSafe 2 _)
  obtain ⟨⟨hbars, hcrook, hstop, hregs⟩, hother⟩ := hsafe
  exact ⟨hbars, hcrook, hstop, hregs, exec_straps hother h⟩

/-! ### While the device is down (R400, R435, R532) -/

/-- The five commands that act on what stays alive (log entry 3). -/
def ActsWhileDown (c : Instr) : Prop :=
  (∃ dt p, c = .porstRise dt p) ∨ (∃ dt, c = .mainRailLoss dt) ∨ (∃ dt, c = .shelfWake dt) ∨ (∃ dt, c = .tamper dt) ∨
    ∃ dt w b l, c = .wheelInputChange dt w b l

/-- The meaning of each command but five asks first whether the device is down, and then leaves the state as it is. -/
theorem exec_of_down (c : Instr) {s : State} (hdown : s.down = true) : ActsWhileDown c ∨ exec c s = .next s := by
  cases c
  case porstRise dt p => exact .inl (.inl ⟨dt, p, rfl⟩)
  case mainRailLoss dt => exact .inl (.inr (.inl ⟨dt, rfl⟩))
  case shelfWake dt => exact .inl (.inr (.inr (.inl ⟨dt, rfl⟩)))
  case tamper dt => exact .inl (.inr (.inr (.inr (.inl ⟨dt, rfl⟩))))
  case wheelInputChange dt w b l => exact .inl (.inr (.inr (.inr (.inr ⟨dt, w, b, l, rfl⟩))))
  all_goals exact .inr (if_pos hdown)

/-- Settles O50, by the first test of each command. -/
theorem nothingHappensWhileDown : Obligations.NothingHappensWhileDown := by
  unfold Obligations.NothingHappensWhileDown
  intro c s t hdown hrise hloss hwake htamper hinput h
  obtain hacts | hstays := exec_of_down c hdown
  · obtain ⟨dt, p, hc⟩ | ⟨dt, hc⟩ | ⟨dt, hc⟩ | ⟨dt, hc⟩ | ⟨dt, w, b, l, hc⟩ := hacts
    · exact absurd hc (hrise dt p)
    · exact absurd hc (hloss dt)
    · exact absurd hc (hwake dt)
    · exact absurd hc (htamper dt)
    · exact absurd hc (hinput dt w b l)
  · rw [hstays] at h
    cases h
    rfl

/-! ### No well-formed command stops (log entry 65) -/

/-- A command's outcome that is a next state. -/
def Proceeds (r : Res) : Prop := ∃ t, r = .next t

theorem proceeds_next (t : State) : Proceeds (.next t) := ⟨t, rfl⟩

section
variable {c : Prop} [Decidable c] {a b : Res}

theorem proceeds_ite (ha : Proceeds a) (hb : Proceeds b) : Proceeds (if c then a else b) := by
  split
  · exact ha
  · exact hb

theorem proceeds_of_pos (hc : c) (ha : Proceeds a) : Proceeds (if c then a else b) := by
  rwa [if_pos hc]

theorem proceeds_of_neg (hc : ¬ c) (hb : Proceeds b) : Proceeds (if c then a else b) := by
  rwa [if_neg hc]

end

theorem token_lengths_of_wf {dt : Nat} {token nonce : List Byte} (hwf : (Instr.tokenDone dt token nonce).wf = true) :
    ¬ (decide (token.length ≠ 384) || decide (nonce.length ≠ 32)) = true := by
  have hlen : (token.length == 384 && nonce.length == 32) = true := hwf
  simpa using hlen

/-- After the test of whether the device is down, and that of the length of a list where there is one, every branch of every meaning ends
in a next state. The loop at the end walks through a meaning: its last line is the test of `down`, the others are the branches. -/
theorem exec_proceeds (c : Instr) (s : State) (hwf : c.wf = true) : Proceeds (exec c s) := by
  cases c
  case shelfWake dt => exact proceeds_next _
  case tamper dt => exact proceeds_next _
  case wheelInputChange dt wheel inputB level => exact proceeds_next _
  case porstRise dt straps => exact proceeds_ite (proceeds_next _) (proceeds_next _)
  case mainRailLoss dt => exact proceeds_ite (proceeds_next _) (proceeds_next _)
  case' doorbellReadDone dt bells => refine proceeds_ite (proceeds_next _) (proceeds_of_pos (eq_of_beq hwf) ?_)
  case' descriptorArrive dt ring bytes => refine proceeds_ite (proceeds_next _) (proceeds_of_pos (eq_of_beq hwf) ?_)
  case' paceSample dt busy => refine proceeds_ite (proceeds_next _) (proceeds_of_pos (eq_of_beq hwf) ?_)
  case' powerSample dt mw => refine proceeds_ite (proceeds_next _) (proceeds_of_neg (not_not_intro (eq_of_beq hwf)) ?_)
  case' trained dt ok => refine proceeds_ite (proceeds_next _) (proceeds_of_neg (not_not_intro (eq_of_beq hwf)) ?_)
  case' coresStarted dt images => refine proceeds_ite (proceeds_next _) (proceeds_of_neg (not_not_intro (eq_of_beq hwf)) ?_)
  case' tokenDone dt token nonce => refine proceeds_ite (proceeds_next _) (proceeds_of_neg (token_lengths_of_wf hwf) ?_)
  all_goals repeat' first
    | with_reducible exact proceeds_next _
    | with_reducible refine proceeds_ite ?_ ?_
    | split
    | dsimp only
    | refine proceeds_ite (proceeds_next _) ?_

/-- Settles O49, by the branches of the meanings. -/
theorem wellFormedCommandsNeverStop : Obligations.WellFormedCommandsNeverStop := by
  unfold Obligations.WellFormedCommandsNeverStop
  exact fun c s hwf => exec_proceeds c s hwf

end Sys2Proof.Machine
end

section
/-! PROOFS. The statement of 12_compression.md: opening, feeding and draining a DEFLATE context, and the wait for the save area. -/

namespace Sys2Proof.Machine

section
variable {dt : Nat} {ctx : Fin 128} {c : Ctx} {s u : State} (hup : s.down = false) (hu : u = s.elapse dt)
include hup hu

/-- R364, R378: the context fits its unit, is free, and DFL is ON. -/
theorem execDflContextOpen_of_on {wrap level expect : Nat} {deflate : Bool} {y : State} (hfits : ctxFits ctx.val deflate = true)
    (hfree : u.dctxOpen ctx.val = false) (hctx : u.ctxToOpen ctx.val wrap level deflate expect = some c)
    (hy : y = (u.wakeDomain 9).putCtx ctx.val c) (hon : y.isOn 9 = true) :
    execDflContextOpen dt ctx wrap level deflate expect s = .next (y.takeSlot ctx.val) := by
  simp [execDflContextOpen, hup, ← hu, hfits, hfree, hctx, ← hy, hon]

section
variable (hctx : u.dctx ctx.val = some c) (hown : c.own = false) (hdone : c.done = false) (hstate : c.state ≠ .error)
include hctx hown hdone hstate

theorem execDflInputArrive_of_open {data : List Byte} {flush : Nat} (hfinal : c.flushes.any (fun f => f.final) = false) :
    execDflInputArrive dt ctx data flush s = .next ((u.onCtx ctx.val (Ctx.take data flush)).goOn ctx.val) := by
  simp only [execDflInputArrive, hup, ← hu, hctx, hown, hdone, hstate, hfinal]
  rfl

theorem execDflOutputBuffer_of_open {room : Nat} :
    execDflOutputBuffer dt ctx room s = .next ((u.onCtx ctx.val (fun c => { c with room := room })).goOn ctx.val) := by
  simp [execDflOutputBuffer, hup, ← hu, hctx, hown, hdone, hstate]

end

/-- R366: the region has been asked for 100 ms ago, is not granted, and this has not been said yet. -/
theorem execSaveArea_of_overdue {t : Nat} (hsince : u.dfl.saveSince = some t) (hsave : u.dfl.save = false)
    (hsaid : u.dfl.saveSaid = false) (hdue : t + 100000000 ≤ u.now) :
    execSaveArea dt s = .next ((u.onDfl (fun d => { d with saveSaid := true })).raiseEv 177) := by
  simp [execSaveArea, hup, ← hu, hsince, hsave, hsaid, Nat.not_lt.mpr hdue]

end

/-- Settles O31, by the conditions under which each command has its effect. -/
theorem deflateCommandsComplete : Obligations.DeflateCommandsComplete := by
  unfold Obligations.DeflateCommandsComplete
  refine ⟨?contextOpen, ?inputArrive, ?outputBuffer, ?saveArea⟩
  case contextOpen =>
    exact fun s u dt ctx wrap level deflate expect c y hup hu hfits hfree hctx hy hon =>
      execDflContextOpen_of_on hup hu hfits hfree hctx hy hon
  case inputArrive =>
    exact fun s u dt ctx data flush c hup hu hctx hown hdone hstate hfinal =>
      execDflInputArrive_of_open hup hu hctx hown hdone hstate hfinal
  case outputBuffer =>
    exact fun s u dt ctx room c hup hu hctx hown hdone hstate => execDflOutputBuffer_of_open hup hu hctx hown hdone hstate
  case saveArea => exact fun s u dt t hup hu hsince hsave hsaid hdue => execSaveArea_of_overdue hup hu hsince hsave hsaid hdue

end Sys2Proof.Machine
end

section
/-! PROOFS. The statements of 13_time_network.md: frames, links and ceiling messages, the servo, device time and snapshots. -/

namespace Sys2Proof.Machine

/-! ### Frames, links and ceiling messages (R381 to R384, R391, R392) -/

/-- R384: what a received frame leaves to be time-stamped. -/
def State.stampReceived (port : Nat) (event : Option (Nat × Nat × Nat)) (s : State) : State :=
  match event with
  | some e => s.queueStamp port false ⟨s.stampTime (s.f (Fld.NET_PORT_LAT_ingress port)), e.1, e.2.1, e.2.2⟩
  | none => s

section
variable {dt : Nat} {s u : State} (hup : s.down = false) (hu : u = s.elapse dt)
include hup hu

theorem execNetFrameReceive_of_kept {port : Fin 2} {frame b : List Byte} {v w : State} (hport : u.portUp port.val = true)
    (hkeep : u.keepFrame port.val frame = some b) (hv : v = u.bump (Fld.NET_PORT_RX_CNT_value port.val) 1)
    (hw : w = v.onNetPort port.val (fun n => { n with inbox := n.inbox ++ [b] })) :
    execNetFrameReceive dt port frame s = .next (w.stampReceived port.val (ptpEvent b)) := by
  simp only [execNetFrameReceive, hup, ← hu, hport, hkeep, ← hv, ← hw, State.stampReceived]
  cases ptpEvent b <;> rfl

theorem execPtpEventSend_of_event {port : Fin 2} {frame : List Byte} {e : Nat × Nat × Nat} {v : State}
    (hport : u.portUp port.val = true) (hevent : (untag frame).bind ptpEvent = some e)
    (hv : v = u.emit (.frame port.val frame)) :
    execPtpEventSend dt port frame s =
      .next (v.queueStamp port.val true ⟨v.stampTime (v.f (Fld.NET_PORT_LAT_egress port.val)), e.1, e.2.1, e.2.2⟩) := by
  simp [execPtpEventSend, hup, ← hu, hport, hevent, ← hv]

/-- R381, R392: only a port in use gets a link; any port can lose it. -/
theorem execNetLink_of_on {port : Fin 2} {up : Bool} (hon : u.isOn 8 = true)
    (huse : up = false ∨ u.fb (Fld.NET_PORT_CFG_enable port.val) = true) :
    execNetLink dt port up s = .next (u.setLink port.val up) := by
  obtain hlost | hen := huse
  · simp [execNetLink, hup, ← hu, hon, hlost]
  · simp [execNetLink, hup, ← hu, hon, hen]

theorem execCeilMsgPeriodic_of_due (hports : u.ceilPorts ≠ []) (hset : u.f Fld.NET_CEIL_CFG_ceil_period ≠ 0)
    (hdue : u.net.ceilLastAt + u.f Fld.NET_CEIL_CFG_ceil_period * 1000000 ≤ u.now) :
    execCeilMsgPeriodic dt s = .next (u.sendCeil false) := by
  simp [execCeilMsgPeriodic, hup, ← hu, hports, hset, Nat.not_lt.mpr hdue]

theorem execCeilMsgCause_of_due (hwait : u.net.ceilWait.isSome = true)
    (hspaced : u.net.ceilCauseAt.all (fun t => decide (t + 25000 ≤ u.now)) = true) (hports : u.ceilPorts ≠ []) :
    execCeilMsgCause dt s = .next ((u.sendCeil true).onNet (fun n => { n with ceilWait := none, ceilCauseAt := some u.now })) := by
  simp [execCeilMsgCause, hup, ← hu, Option.isSome_iff_ne_none.mp hwait, hspaced, hports]

end

/-- Settles O32, by the conditions under which each command has its effect. -/
theorem netFrameCommandsComplete : Obligations.NetFrameCommandsComplete := by
  unfold Obligations.NetFrameCommandsComplete
  refine ⟨?frameReceive, ?eventSend, ?netLink, ?periodic, ?cause⟩
  case frameReceive =>
    intro s u dt port frame b v w hup hu hport hkeep hv hw
    refine (execNetFrameReceive_of_kept hup hu hport hkeep hv hw).trans ?_
    cases ptpEvent b <;> rfl
  case eventSend => exact fun s u dt port frame e hup hu hport hevent => execPtpEventSend_of_event hup hu hport hevent rfl
  case netLink => exact fun s u dt port up hup hu hon huse => execNetLink_of_on hup hu hon huse
  case periodic => exact fun s u dt hup hu hports hset hdue => execCeilMsgPeriodic_of_due hup hu hports hset hdue
  case cause => exact fun s u dt hup hu hwait hspaced hports => execCeilMsgCause_of_due hup hu hwait hspaced hports

/-! ### The servo (R387, R388) -/

/-- R388: whether an offset is beyond step_max while the servo is not in FREE, so that Tally records it as refused. -/
def State.offsetRefused (o : Nat) (s : State) : Bool :=
  decide (s.net.servo ≠ .free) && decide (s.f Fld.NET_STEP_MAX_step_max < (ofTwos 64 o).natAbs)

section
variable {dt : Nat} {s u v : State} (hup : s.down = false) (hu : u = s.elapse dt)
include hup hu

theorem execServoOffset_of_taken {lo : Word} {o : Nat} (hopen : u.writeOpen 5 Reg.NET_SERVO_OFF_LO.off = true)
    (hon : u.isOn 8 = true) (hlive : u.replaying = false)
    (hv : v = u.onNet (fun n => { n with offLo := lo.toNat, offsetAt := u.now })) (ho : o = v.net.offHi * 2 ^ 32 + lo.toNat) :
    execServoOffset dt lo s =
      .next ((v.tallyEntry 0x41 (b2n (v.offsetRefused o)) (leBytes 8 o)).judgeOffset (ofTwos 64 o)) := by
  simp only [execServoOffset, hup, ← hu, hopen, hon, hlive, ← hv, ← ho]
  rfl

/-- R388: no offset has come for hold_ms while the servo tracks. -/
theorem execServoHoldover_of_due (htracks : u.net.servo = .acquire ∨ u.net.servo = .locked)
    (hdue : u.net.offsetAt + orIfZero (u.f Fld.NET_LOCK_hold_ms) 1 * 1000000 ≤ u.now) :
    execServoHoldover dt s = .next ((u.servoTo .holdover).fault 112) := by
  simp [execServoHoldover, hup, ← hu, htracks, hdue]

theorem execServoRestart_of_open (hopen : u.writeOpen 1 Reg.NET_CTRL.off = true) (hv : v = u.noteWrite 1 Reg.NET_CTRL.off 1)
    (hon : v.isOn 8 = true) :
    execServoRestart dt s = .next ((v.onNet (fun n => { n with
      i := 0, f := 0, acquired := false, stepped := false, good := 0, bad := 0 })).servoTo .free) := by
  simp [execServoRestart, hup, ← hu, hopen, ← hv, hon]

/-! ### Device time and snapshots (R385, R389, R390) -/

theorem execTimeWrap_of_up : execTimeWrap dt s = .next (u.elapse (2 ^ 32 - u.net.ext % 2 ^ 32)) := by
  simp only [execTimeWrap, hup, ← hu]
  rfl

/-- R389: the strobe comes on the tick after the write. -/
theorem execSnapNow_of_open {w : State} (hopen : u.writeOpen 1 Reg.NET_SNAP_CTRL.off = true)
    (hw : w = u.noteWrite 1 Reg.NET_SNAP_CTRL.off (putBits (u.reg Reg.NET_SNAP_CTRL) 0 0 1)) (hon : w.isOn 8 = true)
    (hv : v = w.elapse 1) :
    execSnapNow dt s = .next (v.strobe true (v.net.target.any (fun t => decide (t ≤ v.net.ext))) false) := by
  simp [execSnapNow, hup, ← hu, hopen, ← hw, hon, ← hv]

/-- R390: a target that lies ahead is armed. -/
theorem execSnapArm_of_ahead {t : Nat} (hopen : u.writeOpen 1 Reg.NET_SNAP_CTRL.off = true)
    (hv : v = u.noteWrite 1 Reg.NET_SNAP_CTRL.off (putBits (u.reg Reg.NET_SNAP_CTRL) 1 1 1)) (hon : v.isOn 8 = true)
    (ht : t = v.reg Reg.NET_SNAP_AT_HI * 2 ^ 32 + v.reg Reg.NET_SNAP_AT_LO) (hahead : v.net.ext < t) :
    execSnapArm dt s = .next ((v.onNet (fun n => { n with target := some t })).setF Fld.NET_SNAP_CTRL_arm 1) := by
  simp only [execSnapArm, hup, ← hu, hopen, ← hv, hon, ← ht, Nat.not_le.mpr hahead]
  rfl

end

/-- R389: the target is reached within the time that passes. -/
theorem execSnapScheduled_of_reached {dt t : Nat} {s : State} (hup : s.down = false) (htarget : s.net.target = some t)
    (hreached : t ≤ s.net.ext + dt) :
    execSnapScheduled dt s =
      .next (((s.elapse (t - s.net.ext)).strobe false true false).elapse (dt - (t - s.net.ext))) := by
  simp [execSnapScheduled, hup, htarget, Nat.not_lt.mpr hreached]

/-- Settles O33, by the conditions under which each command has its effect. -/
theorem timeCommandsComplete : Obligations.TimeCommandsComplete := by
  unfold Obligations.TimeCommandsComplete
  refine ⟨?offset, ?holdover, ?restart, ?timeWrap, ?snapNow, ?snapArm, ?snapScheduled⟩
  case offset =>
    exact fun s u dt lo o v hup hu hopen hon hlive hv ho => execServoOffset_of_taken hup hu hopen hon hlive hv ho
  case holdover => exact fun s u dt hup hu htracks hdue => execServoHoldover_of_due hup hu htracks hdue
  case restart => exact fun s u dt v hup hu hopen hv hon => execServoRestart_of_open hup hu hopen hv hon
  case timeWrap => exact fun s u dt hup hu => execTimeWrap_of_up hup hu
  case snapNow => exact fun s u dt v hup hu hopen hon hv => execSnapNow_of_open hup hu hopen rfl hon hv
  case snapArm => exact fun s u dt v hup hu hopen hv hon hahead => execSnapArm_of_ahead hup hu hopen hv hon rfl hahead
  case snapScheduled => exact fun s dt t hup htarget hreached => execSnapScheduled_of_reached hup htarget hreached

end Sys2Proof.Machine
end

section
/-! PROOFS. The statements of 14_power_thermal.md: power domains and Shelf, samples, VCORE and the reference temperature, and the Drover. -/

namespace Sys2Proof.Machine

/-! ### Power domains (R396 to R399) -/

section
variable {dt : Nat} {domain : Fin 10} {s u : State} (hup : s.down = false) (hu : u = s.elapse dt)
include hup hu

/-- R397: a request of RETAIN or OFF that nothing forbids waits for the work in flight. -/
theorem execDomainRequest_of_allowed {data : Word} {v w : State} {p : PState}
    (hopen : u.writeOpen 1 (Reg.SYS_PD_CTRL domain.val).off = true)
    (hv : v = u.noteWrite 1 (Reg.SYS_PD_CTRL domain.val).off data.toNat)
    (hw : w = v.setReg (Reg.SYS_PD_CTRL domain.val) (data.toNat % 4))
    (hasked : (data.toNat % 4 = 1 ∧ p = .retain) ∨ (data.toNat % 4 = 2 ∧ p = .off)) (hstate : (w.domain domain.val).state ≠ p)
    (hallowed : w.pdForbidden domain.val = 0) :
    execDomainRequest dt domain data s = .next (w.onDomain domain.val (fun x => { x with want := some p })) := by
  obtain ⟨hdata, rfl⟩ | ⟨hdata, rfl⟩ := hasked <;> rw [hdata] at hw
  · simp [execDomainRequest, hup, ← hu, hopen, ← hv, hdata, ← hw, hstate, hallowed]
  · simp [execDomainRequest, hup, ← hu, hopen, ← hv, hdata, ← hw, hstate, hallowed]

/-- R397: the change takes place with no work in flight and nothing against it. -/
theorem execDomainChange_of_idle {p : PState} (hwant : (u.domain domain.val).want = some p)
    (hstate : (u.domain domain.val).state ≠ .up) (hallowed : u.pdForbidden domain.val = 0) (hidle : u.pdBusy domain.val = false) :
    execDomainChange dt domain s = .next (u.setDomain State.faultFor domain.val p) := by
  simp [execDomainChange, hup, ← hu, hwant, hstate, hallowed, hidle]

theorem execDomainPowerUp_of_up : execDomainPowerUp dt domain s = .next (u.wakeDomain domain.val) := by
  simp [execDomainPowerUp, hup, ← hu]

section
variable (hstate : (u.domain domain.val).state = .up)
include hstate

theorem execDomainOn_of_coming_up : execDomainOn dt domain s = .next (u.domainIsOn domain.val) := by
  simp [execDomainOn, hup, ← hu, hstate]

/-- R399: the domain has not come up in its time. -/
theorem execDomainUpTimeout_of_due
    (hdue : (u.domain domain.val).since + (if domain.val = 4 then 200000 else 30000) ≤ u.now) :
    execDomainUpTimeout dt domain s =
      .next ((((u.setDomain State.faultFor domain.val .off).onDomain domain.val (fun x => { x with waiting := false })).failWaiting
        domain.val).faultAt 82 255 domain.val) := by
  simp [execDomainUpTimeout, hup, ← hu, hstate, hdue]

end

/-! ### Shelf (R400, R401) -/

/-- R400: with the key and with HV_EN low on every bar, the writes of records that were put off come first. -/
theorem execShelfEnter_of_key {data : Word} {v : State} (hopen : u.writeOpen 1 Reg.SYS_SHELF.off = true)
    (hv : v = u.noteWrite 1 Reg.SYS_SHELF.off data.toNat) (hkey : bits data.toNat 15 0 = 0x5E1F) (hhv : v.anyHv = false) :
    execShelfEnter dt data s = .next (((v.onPower (fun p => { p with shelfWait := true })).onCal (fun c => { c with
      writes := c.writes.map (fun w => { w with deferred := none }) })).settleShelf) := by
  simp [execShelfEnter, hup, ← hu, hopen, ← hv, hkey, hhv]

end

theorem execShelfWake_of_inShelf {dt : Nat} {s : State} (hshelf : s.power.inShelf = true) :
    execShelfWake dt s = .next (s.onPower (fun p => { p with inShelf := false, pwrOn := true })) := by
  simp [execShelfWake, hshelf]

/-- Settles O34, by the conditions under which each command has its effect. -/
theorem domainCommandsComplete : Obligations.DomainCommandsComplete := by
  unfold Obligations.DomainCommandsComplete
  refine ⟨?request, ?change, ?powerUp, ?domainOn, ?upTimeout, ?shelfEnter, ?railLoss, ?shelfWake⟩
  case request =>
    exact fun s u dt domain data v w p hup hu hopen hv hw hasked hstate hallowed =>
      execDomainRequest_of_allowed hup hu hopen hv hw hasked hstate hallowed
  case change =>
    exact fun s u dt domain p hup hu hwant hstate hallowed hidle => execDomainChange_of_idle hup hu hwant hstate hallowed hidle
  case powerUp => exact fun s u dt domain hup hu => execDomainPowerUp_of_up hup hu
  case domainOn => exact fun s u dt domain hup hu hstate => execDomainOn_of_coming_up hup hu hstate
  case upTimeout => exact fun s u dt domain hup hu hstate hdue => execDomainUpTimeout_of_due hup hu hstate hdue
  case shelfEnter => exact fun s u dt data v hup hu hopen hv hkey hhv => execShelfEnter_of_key hup hu hopen hv hkey hhv
  case railLoss => exact fun s u dt hu hshelf => execMainRailLoss_of_powered hu hshelf
  case shelfWake => exact fun s dt hshelf => execShelfWake_of_inShelf (dt := dt) hshelf

/-! ### Samples of power and temperature (R402 to R405, R407, R419) -/

/-- R402: the monitors of these samples that have begun to fail, after samples was. -/
def State.failMonitors (was q : List Nat) (s : State) : State :=
  (List.range 10).foldl (fun s d =>
    if q.getD d 0 = 0xFFFFFF ∧ was.getD d 0 ≠ 0xFFFFFF then s.faultAt 83 255 d else s) s

/-- R419: since when power has exceeded the budget, whose tokens are of 125 mW. -/
def State.judgeBudget (s : State) : State :=
  s.onPower (fun p => { p with
    overSince := if s.budget * 125 < s.totalPower then some (p.overSince.getD s.now) else none
    overSaid := p.overSaid && decide (s.budget * 125 < s.totalPower) })

/-- The highest junction temperature since THERM_TJ_MAX was last read. -/
def State.holdTjMax (tj : Int) (s : State) : State :=
  s.setF Fld.THERM_TJ_MAX_value (if s.f Fld.THERM_TJ_MAX_value = 0 then toTwos 16 tj
    else toTwos 16 (max tj (ofTwos 16 (s.f Fld.THERM_TJ_MAX_value))))

/-- The THERM entry of a record (19_record_replay.md), a millisecond after the last one at the earliest. -/
def State.recordTj (tj : Int) (s : State) : State :=
  if s.therm.recAt.all (fun t => decide (t + 1000000 ≤ s.now)) then
    let r := s.onTherm (fun t => { t with recAt := some s.now })
    r.tallyEntry 0x40 0 (leBytes 2 (toTwos 16 tj) ++ leBytes 2 (toTwos 16 r.refUsed) ++ leBytes 4 r.totalPower
      ++ leBytes 4 r.therm.commanded)
  else s

section
variable {dt : Nat} {s u v w : State} (hup : s.down = false) (hu : u = s.elapse dt)
include hup hu

/-- R402: one sample of each domain. -/
theorem execPowerSample_of_length {mw q : List Nat} (hlen : mw.length = 10) (hq : q = mw.map (fun p => min p 0xFFFFFF))
    (hv : v = u.onTherm (fun t => { t with power := q }))
    (hw : w = v.onTherm (fun t => { t with
      powSum := (List.range 10).map (fun d => t.powSum.getD d 0 + v.domainPower d), powN := t.powN + 1 })) :
    execPowerSample dt mw s = .next (w.failMonitors u.therm.power q).judgeBudget := by
  simp only [execPowerSample, hup, hlen, ← hu, ← hq, ← hv, ← hw, State.failMonitors, State.judgeBudget, Bool.and_eq_true,
    decide_eq_true_eq]
  rfl

/-- R409: the first sample sets every node to the temperature of the start. -/
theorem execThermalSample_of_first {start : Int} {nodes : List Int} (hfirst : u.therm.started = false)
    (hstart : start = u.refUsed + (if u.sys.straps.therm then 20 * 64 else 0)) (hnodes : nodes = List.replicate 16 start)
    (hv : v = (u.onTherm (fun t => { t with
      nodes := nodes, tj := (hottest nodes).1, tjNode := (hottest nodes).2, started := true, sampleAt := u.now
      powSum := List.replicate 10 0, powN := 0, busy := [0, 0, 0, 0] })).onMemc (fun m => { m with
        channels := m.channels.map (fun c => { c with accesses := 0 }) })) :
    execThermalSample dt s =
      .next (((v.holdTjMax (hottest nodes).1).recordTj (hottest nodes).1).takeCheck.judgeDram.judgeTj) := by
  subst hnodes hstart hv
  simp only [execThermalSample, hup, ← hu, hfirst]
  rfl

/-- R405: ref_src is 0, the sensor answers, and the last reading is 100 ms old. -/
theorem execThermRefRead_of_sensor {value : Int} (hsrc : u.fb Fld.THERM_CTRL_ref_src = false)
    (hdue : u.therm.refRead.any (fun t => decide (u.now < t + 100000000)) = false)
    (hv : v = (u.emit (.pmbusRead (u.f Fld.THERM_REF_CFG_ref_addr) (u.f Fld.THERM_REF_CFG_ref_reg))).onTherm (fun t => { t with
      refRead := some u.now, ref := ofTwos 16 (toTwos 16 value) / 4, refValid := true, refAt := u.now, refStale := false })) :
    execThermRefRead dt value true s = .next (if u.therm.refStale then v.raiseEv 204 else v) := by
  subst hv
  simp only [execThermRefRead, hup, ← hu, hsrc, hdue]
  simp [State.onTherm, State.emit]

theorem execRefStale_of_due (hstale : u.therm.refStale = false)
    (hdue : u.therm.refAt + orIfZero (u.f Fld.THERM_REF_CFG_ref_timeout) 1 * 1000000 ≤ u.now) :
    execRefStale dt s = .next (((u.onTherm (fun t => { t with refStale := true })).fault 75).raiseEv 204) := by
  simp [execRefStale, hup, ← hu, hstale, Nat.not_lt.mpr hdue]

theorem execModelDiverge_of_unsaid (hdiverged : u.diverged = true) (hsaid : u.therm.divergeSaid = false) :
    execModelDiverge dt s = .next ((u.onTherm (fun t => { t with divergeSaid := true })).fault 74) := by
  simp [execModelDiverge, hup, ← hu, hdiverged, hsaid]

/-- R412: below 100 °C the shutdown is released, and the domains for which work has waited come up. -/
theorem execShutRelease_of_cool (hopen : u.writeOpen 1 Reg.THERM_CTRL.off = true)
    (hv : v = u.noteWrite 1 Reg.THERM_CTRL.off (putBits (u.reg Reg.THERM_CTRL) 3 3 1)) (hcool : v.therm.tj < 100 * 64)
    (hw : w = v.onTherm (fun t => { t with shutdown := false, relRefused := false })) :
    execShutRelease dt s = .next (if v.therm.shutdown
      then [4, 5, 6, 7, 8, 9].foldl (fun s d => if (s.domain d).waiting then s.wakeDomain d else s) (w.raiseEv 203) else w) := by
  simp only [execShutRelease, hup, ← hu, hopen, ← hv, Int.not_le.mpr hcool, ← hw]
  rfl

/-! ### VCORE (R411, R413, R414) -/

/-- R411: what the step timer does in each state of the throttle. -/
def State.stepDue (s : State) : State :=
  match s.therm.throttle with
  | .normal => s.stepVcore s.vset
  | .throttle => if s.vmin < s.therm.commanded then s.stepVcore s.vmin else s.judgeFloor
  | .recover => if s.therm.tj < 99 * 64 then (s.stepVcore s.vset).judgeRecovered else s

theorem execVcoreStepTimer_of_due (hon : u.therm.pmbOn = true) (hstep : u.therm.step = none)
    (hdue : u.therm.stepAt + 10000000 ≤ u.now) : execVcoreStepTimer dt s = .next u.stepDue := by
  simp only [execVcoreStepTimer, hup, ← hu, hon, hstep, Nat.not_lt.mpr hdue, State.stepDue]
  cases u.therm.throttle <;> rfl

section
variable {p : Nat × Nat} (hstep : u.therm.step = some p)
include hstep

theorem execVcoreStep_of_settled (hdue : p.2 + u.f Fld.THERM_VCORE_CFG_settle_us * 1000 ≤ u.now) :
    execVcoreStep dt s =
      .next ((((u.onTherm (fun t => { t with present := p.1, step := none })).recomputeCeiling).raiseEv 202).judgeFloor.judgeRecovered) := by
  simp [execVcoreStep, hup, ← hu, hstep, Nat.not_lt.mpr hdue]

/-- R414: a write that fails is repeated twice; then VCORE stays. -/
theorem execPmbus_of_step :
    execPmbus dt s = .next (if u.therm.tries < 2
      then (u.onTherm (fun t => { t with tries := t.tries + 1, step := some (p.1, u.now) })).writeVout
      else ((u.onTherm (fun t => { t with step := none, tries := 0, commanded := t.present, stepAt := u.now })).fault 80).raiseEv 209) := by
  simp [execPmbus, hup, ← hu, hstep, apply_ite Host.Outcome.next]

end

theorem execVoutRead_of_due {value : Nat} (hon : u.therm.pmbOn = true) (hdue : u.therm.voutAt + 10000000 ≤ u.now)
    (hv : v = (u.emit (.pmbusRead (u.f Fld.THERM_PMBUS_CFG_pm_addr) 0x8B)).onTherm (fun t => { t with
      readVout := min value 1023, voutAt := u.now })) :
    execVoutRead dt value s = .next (if v.voutOff value then v.fault 85 else v) := by
  subst hv
  simp only [execVoutRead, hup, ← hu, hon, Nat.not_lt.mpr hdue]
  rfl

/-- R413: before the set-up lock pmb_en is set, and READ_VOUT is the voltage from which VCORE starts. -/
theorem execPmbusEnable_of_open {mode : Word} {vout : Nat} {x y : State} (hopen : u.writeOpen 1 Reg.THERM_PMBUS_CFG.off = true)
    (hv : v = u.noteWrite 1 Reg.THERM_PMBUS_CFG.off (putBits (u.reg Reg.THERM_PMBUS_CFG) 31 31 1)) (hlock : v.sys.lock = false)
    (hoff : v.therm.pmbOn = false) (hw : w = v.setF Fld.THERM_PMBUS_CFG_pmb_en 1)
    (hx : x = w.emit (.pmbusRead (w.f Fld.THERM_PMBUS_CFG_pm_addr) 0x20))
    (hy : y = (if w.fb Fld.THERM_PMBUS_CFG_fmt then x else w).emit (.pmbusRead (w.f Fld.THERM_PMBUS_CFG_pm_addr) 0x8B)) :
    execPmbusEnable dt mode vout s = .next (y.onTherm (fun t => { t with
      pmbOn := true, commanded := min vout 1023, present := min vout 1023, readVout := min vout 1023, step := none, tries := 0
      stepAt := y.now, voutAt := y.now, expo := ofTwos 5 (bits mode.toNat 4 0) })) := by
  subst hx hy
  simp only [execPmbusEnable, hup, ← hu, hopen, ← hv, hlock, hoff, ← hw]
  cases w.fb Fld.THERM_PMBUS_CFG_fmt <;> rfl

end

/-- Settles O35, by the conditions under which each command has its effect, and for the step timer by the state of the throttle. -/
theorem thermalCommandsComplete : Obligations.ThermalCommandsComplete := by
  unfold Obligations.ThermalCommandsComplete
  refine ⟨?powerSample, ?thermalSample, ?stepTimer, ?step, ?pmbus, ?voutRead, ?pmbusEnable, ?refRead, ?refStale, ?diverge, ?release⟩
  case powerSample =>
    rintro s u dt mw q v w _ hup hu hlen hq hv hw rfl
    exact execPowerSample_of_length hup hu hlen hq hv hw
  case thermalSample =>
    rintro s u dt start nodes v _ _ hup hu hfirst hstart hnodes hv rfl rfl
    exact execThermalSample_of_first hup hu hfirst hstart hnodes hv
  case stepTimer =>
    intro s u dt hup hu hon hstep hdue
    refine (execVcoreStepTimer_of_due hup hu hon hstep hdue).trans ?_
    cases hthrottle : u.therm.throttle <;> simp only [State.stepDue, hthrottle]
  case step => exact fun s u dt p hup hu hstep hdue => execVcoreStep_of_settled hup hu hstep hdue
  case pmbus => exact fun s u dt p hup hu hstep => execPmbus_of_step hup hu hstep
  case voutRead => exact fun s u dt value v hup hu hon hdue hv => execVoutRead_of_due hup hu hon hdue hv
  case pmbusEnable =>
    exact fun s u dt mode vout v w x y hup hu hopen hv hlock hoff hw hx hy =>
      execPmbusEnable_of_open hup hu hopen hv hlock hoff hw hx hy
  case refRead =>
    rintro s u dt value _ v hup hu hsrc rfl hdue hv
    exact execThermRefRead_of_sensor hup hu hsrc hdue hv
  case refStale => exact fun s u dt hup hu hstale hdue => execRefStale_of_due hup hu hstale hdue
  case diverge => exact fun s u dt hup hu hdiverged hsaid => execModelDiverge_of_unsaid hup hu hdiverged hsaid
  case release => exact fun s u dt v w hup hu hopen hv hcool hw => execShutRelease_of_cool hup hu hopen hv hcool hw

/-! ### The Drover (R416 to R419, R464) -/

section
variable {dt : Nat} {s u : State} (hup : s.down = false) (hu : u = s.elapse dt)
include hup hu

/-- R416, R417: the request that is next is granted, and its holder goes on. -/
theorem execDroverGrant_of_next {q : DReq} {v w x : State} (hnext : u.droverNext = some q)
    (hv : v = u.onPower (fun p => { p with
      queue := p.queue.erase q, grants := p.grants ++ [⟨q.cls, u.charge q, q.holder, u.now, false⟩] }))
    (hw : w = v.bump Fld.DROVER_GRANTS_value 1)
    (hx : x = w.setF Fld.DROVER_WAIT_MAX_value (max (w.f Fld.DROVER_WAIT_MAX_value) ((w.now - q.at_) / 1000))) :
    execDroverGrant dt s = .next ((x.journal 1 (droverPayload q.cls (u.charge q))).useGrant q.holder) := by
  simp only [execDroverGrant, hup, ← hu, hnext, ← hv, ← hw, ← hx]
  rfl

/-- R418: the tokens of a holder that no longer works come back. -/
theorem execDroverReturn_of_idle {cls index : Nat} {h : Holder} (hholder : holderOf cls index = some h)
    (hidle : u.stillWorks h = false) : execDroverReturn dt cls index s = .next (u.droverDrop h) := by
  simp [execDroverReturn, hup, ← hu, hholder, hidle]

theorem execHoldLong_of_due {index : Nat} {g : DGrant} (hgrant : u.power.grants[index]? = some g) (hsaid : g.longSaid = false)
    (hdue : g.since + orIfZero (u.f Fld.DROVER_HOLD_MAX_hold_max) 1 * 1000000000 < u.now) :
    execHoldLong dt index s = .next ((u.onPower (fun p => { p with
      grants := p.grants.modify index (fun g => { g with longSaid := true }) })).fault 84) := by
  simp only [execHoldLong, hup, ← hu, hgrant, hsaid, Nat.not_le.mpr hdue]
  rfl

theorem execDroverWait_of_due {index : Nat} {q : DReq} (hqueue : u.power.queue[index]? = some q)
    (hset : u.f Fld.DROVER_WAIT_WARN_wait_warn ≠ 0) (hsaid : q.warned = false)
    (hdue : q.at_ + u.f Fld.DROVER_WAIT_WARN_wait_warn * 1000 < u.now) :
    execDroverWait dt index s = .next ((u.onPower (fun p => { p with
      queue := p.queue.modify index (fun q => { q with warned := true }) })).raiseEv 207) := by
  simp only [execDroverWait, hup, ← hu, hqueue, hset, hsaid, Nat.not_le.mpr hdue]
  rfl

/-- R419: power has exceeded the budget for 10 ms, and this has not been said yet. -/
theorem execBudgetOver_of_due {t : Nat} (hover : u.power.overSince = some t) (hsaid : u.power.overSaid = false)
    (hdue : t + 10000000 ≤ u.now) :
    execBudgetOver dt s = .next (((u.onPower (fun p => { p with overSaid := true })).fault 81).raiseEv 208) := by
  simp [execBudgetOver, hup, ← hu, hover, hsaid, Nat.not_lt.mpr hdue]

section
variable {core : Fin 4} {data : Word} (hopen : u.writeOpen (core.val + 2) Reg.DROVER_FW_REQ.off = true) (hcore : core.val ≠ 0)
include hopen hcore

theorem execFwDroverRequest_of_open (hasked : bitOf data.toNat 31 = true) :
    execFwDroverRequest dt core data s = .next (u.droverAsk 7 (bits data.toNat 9 0) (.firmware core.val)) := by
  simp [execFwDroverRequest, hup, ← hu, hopen, hcore, hasked]

theorem execFwDroverWithdraw_of_open (hasked : bitOf data.toNat 30 = true) :
    execFwDroverWithdraw dt core data s = .next (u.droverDrop (.firmware core.val)) := by
  simp [execFwDroverWithdraw, hup, ← hu, hopen, hcore, hasked]

end

end

/-- Settles O36, by the conditions under which each command has its effect. -/
theorem droverCommandsComplete : Obligations.DroverCommandsComplete := by
  unfold Obligations.DroverCommandsComplete
  refine ⟨?grant, ?returned, ?holdLong, ?wait, ?budgetOver, ?request, ?withdraw⟩
  case grant => exact fun s u dt q v w x hup hu hnext hv hw hx => execDroverGrant_of_next hup hu hnext hv hw hx
  case returned => exact fun s u dt cls index h hup hu hholder hidle => execDroverReturn_of_idle hup hu hholder hidle
  case holdLong => exact fun s u dt index g hup hu hgrant hsaid hdue => execHoldLong_of_due hup hu hgrant hsaid hdue
  case wait => exact fun s u dt index q hup hu hqueue hset hsaid hdue => execDroverWait_of_due hup hu hqueue hset hsaid hdue
  case budgetOver => exact fun s u dt t hup hu hover hsaid hdue => execBudgetOver_of_due hup hu hover hsaid hdue
  case request => exact fun s u dt core data hup hu hopen hcore hasked => execFwDroverRequest_of_open hup hu hopen hcore hasked
  case withdraw => exact fun s u dt core data hup hu hopen hcore hasked => execFwDroverWithdraw_of_open hup hu hopen hcore hasked

end Sys2Proof.Machine
end

section
/-! PROOFS. The statement of 15_faults_safety.md: faults that software forces or injects, acknowledgement, self-tests, SRAM errors and Crook. -/

namespace Sys2Proof.Machine

section
variable {dt : Nat} {data : Word} {s u v : State} (hup : s.down = false) (hu : u = s.elapse dt)
include hup hu

theorem execFoldForce_of_open {word : Fin 4} (hopen : u.writeOpen 1 (Reg.FOLD_FORCE word.val).off = true)
    (hv : v = u.noteWrite 1 (Reg.FOLD_FORCE word.val).off data.toNat) :
    execFoldForce dt word data s = .next (((wordSources word.val data.toNat).filter sourceExists).foldl
      (fun s n => s.faultAs n 255 0 (s.sevOf n) .forced) v) := by
  simp [execFoldForce, hup, ← hu, hopen, ← hv]

/-- R445: STRAP_TEST is 1 and the device is in FACTORY. -/
theorem execFaultInject_of_factory (hopen : u.writeOpen 1 Reg.FOLD_INJECT.off = true)
    (hv : v = u.noteWrite 1 Reg.FOLD_INJECT.off data.toNat) (hgo : bitOf data.toNat 31 = true) (htest : v.sys.straps.test = true)
    (hlc : v.sec.lc = .factory) (hsource : sourceExists (bits data.toNat 6 0) = true) :
    execFaultInject dt data s = .next (v.inject (bits data.toNat 6 0)) := by
  simp [execFaultInject, hup, ← hu, hopen, ← hv, hgo, htest, hlc, hsource]

theorem execClassAcknowledge_of_open (hopen : u.writeOpen 1 Reg.FOLD_OPEN.off = true)
    (hv : v = u.noteWrite 1 Reg.FOLD_OPEN.off data.toNat) :
    execClassAcknowledge dt data s = .next (v.wipe Reg.FOLD_OPEN (data.toNat % 2 ^ 16)) := by
  simp [execClassAcknowledge, hup, ← hu, hopen, ← hv]

theorem execStickyClear_of_open {word : Fin 4} {lasting : Bool}
    (hopen : u.writeOpen 1 (if lasting then Reg.FOLD_LASTING word.val else Reg.FOLD_STICKY word.val).off = true) :
    execStickyClear dt word lasting data s =
      .next ((u.noteWrite 1 (if lasting then Reg.FOLD_LASTING word.val else Reg.FOLD_STICKY word.val).off data.toNat).clearSticky
        word.val lasting data.toNat) := by
  simp only [execStickyClear, hup, ← hu, hopen]
  rfl

/-- R440, R441: the test that awaited its tokens gives its result, but for the sources whose tests end by commands of their own or switch
a domain. -/
theorem execSelfTest_of_pending {source : Fin 128} {target : Nat} {lasting : Bool} (hmay : u.testMayRun source.val target = true)
    (hretrain : source.val ≠ 0) (hword : source.val ≠ 26) (hlineA : source.val ≠ 8) (hlineB : source.val ≠ 9)
    (hdomain : source.val ≠ 82) (hpending : u.testPending source.val target = true) :
    execSelfTest dt source target lasting s = .next (u.testResult source.val lasting) := by
  simp only [execSelfTest, hup, ← hu, hmay, hpending, hretrain, hword, hlineA, hlineB, hdomain]
  rfl

/-- R443: an uncorrectable error of a store other than those of the bars. -/
theorem execSramError_of_uncorrectable {store : Nat} (hstore : store % 8 ≠ 7) (hbars : store % 8 ≠ 1) :
    execSramError dt store true s = .next (u.faultAt (121 + store % 8) 255 (store / 8)) := by
  simp [execSramError, hup, ← hu, hstore, hbars]

section
variable (hopen : u.writeOpen 1 Reg.CROOK_CTRL.off = true) (hkey : bits data.toNat 31 16 = 0x3C5A)
include hopen hkey

theorem execCrookEnter_of_key (henter : bitOf data.toNat 1 = true) :
    execCrookEnter dt data s = .next ((u.noteWrite 1 Reg.CROOK_CTRL.off data.toNat).crookEnter 0x81) := by
  simp [execCrookEnter, hup, ← hu, hopen, hkey, henter]

/-- R439: release without enter, while nothing stands against it. -/
theorem execCrookRelease_of_key (hv : v = u.noteWrite 1 Reg.CROOK_CTRL.off data.toNat) (hrelease : bitOf data.toNat 0 = true)
    (henter : bitOf data.toNat 1 = false) (hstate : v.crook.state ≠ .clear) (hmay : v.mayRelease = true) :
    execCrookRelease dt data s =
      .next ((v.onCrook (fun c => { c with state := .clear, pressStop := v.replaying, releaseRefused := false })).raiseEv 195) := by
  simp [execCrookRelease, hup, ← hu, hopen, hkey, ← hv, hrelease, henter, hstate, hmay]

end

end

/-- Settles O37, by the conditions under which each command has its effect. -/
theorem foldCommandsComplete : Obligations.FoldCommandsComplete := by
  unfold Obligations.FoldCommandsComplete
  refine ⟨?force, ?inject, ?acknowledge, ?stickyClear, ?selfTest, ?sramError, ?enter, ?release⟩
  case force => exact fun s u dt word data v hup hu hopen hv => execFoldForce_of_open hup hu hopen hv
  case inject =>
    exact fun s u dt data v hup hu hopen hv hgo htest hlc hsource => execFaultInject_of_factory hup hu hopen hv hgo htest hlc hsource
  case acknowledge => exact fun s u dt data v hup hu hopen hv => execClassAcknowledge_of_open hup hu hopen hv
  case stickyClear => exact fun s u dt word lasting data hup hu hopen => execStickyClear_of_open hup hu hopen
  case selfTest =>
    rintro s u dt source target lasting hup hu hmay ⟨hretrain, hword, hlineA, hlineB, hdomain⟩ hpending
    exact execSelfTest_of_pending hup hu hmay hretrain hword hlineA hlineB hdomain hpending
  case sramError =>
    rintro s u dt store _ hup hu rfl hstore hbars
    exact execSramError_of_uncorrectable hup hu hstore hbars
  case enter => exact fun s u dt data hup hu hopen hkey henter => execCrookEnter_of_key hup hu hopen hkey henter
  case release =>
    exact fun s u dt data v hup hu hopen hv hkey hrelease henter hstate hmay =>
      execCrookRelease_of_key hup hu hopen hkey hv hrelease henter hstate hmay

end Sys2Proof.Machine
end

section
/-! PROOFS. The statement of 16_mailboxes_cores.md: mailboxes, stiles, core resets and watchdogs. -/

namespace Sys2Proof.Machine

section
variable {dt : Nat} {data : Word} {s u v w : State} (hup : s.down = false) (hu : u = s.elapse dt)
include hup hu

/-! ### Mailboxes (R455 to R457) -/

/-- R455, R456: the mailbox m is not the poster's own and holds no notice. -/
theorem execMbxPost_of_free {agent : Fin 7} {m : Nat} (hm : m = data.toNat % 16) (hagent : agent.val ≠ 0)
    (hopen : u.writeOpen agent.val Reg.MBX_POST.off = true) (hv : v = u.noteWrite agent.val Reg.MBX_POST.off data.toNat)
    (hother : boxReceiver m ≠ agent.val) (hfree : (v.box m).state ≠ .posted)
    (hw : w = v.onBox m (fun _ => { Mailbox.reset with
      state := .posted, ptr := (v.stage agent.val).ptrLo + 2 ^ 32 * (v.stage agent.val).ptrHi, tag := (v.stage agent.val).tag
      sender := agent.val, postedAt := v.now })) :
    execMbxPost dt agent data s =
      .next ((w.onStage agent.val (fun x => { x with result := 1, mailbox := m })).tellReceiver (boxReceiver m)) := by
  subst hm
  simp only [execMbxPost, hup, ← hu, hagent, hopen, ← hv, hother, hfree, ← hw]
  rfl

section
variable {agent : Fin 7} {box : Fin 16}

/-- R455: the receiver answers a notice that is not an orphan's. -/
theorem execMbxAck_of_receiver (hopen : u.writeOpen agent.val (Reg.MBX_ACK box.val).off = true)
    (hv : v = u.noteWrite agent.val (Reg.MBX_ACK box.val).off data.toNat) (hreceiver : agent.val = boxReceiver box.val)
    (hposted : (v.box box.val).state = .posted) (horphan : (v.box box.val).orphan = false)
    (hw : w = v.onBox box.val (fun b => { b with state := .done, result := data.toNat % 65536, aborted := false })) :
    execMbxAck dt agent box data s = .next (w.tellSender (v.box box.val).sender false) := by
  simp only [execMbxAck, hup, ← hu, hopen, ← hv, hposted, horphan, ← hw]
  simp [hreceiver]

theorem execMbxClear_of_sender (hopen : u.writeOpen agent.val (Reg.MBX_CLEAR box.val).off = true)
    (hv : v = u.noteWrite agent.val (Reg.MBX_CLEAR box.val).off data.toNat) (hclear : bitOf data.toNat 0 = true)
    (hdone : (v.box box.val).state = .done) (hsender : (v.box box.val).sender = agent.val) :
    execMbxClear dt agent box data s = .next (v.onBox box.val (fun _ => Mailbox.reset)) := by
  simp [execMbxClear, hup, ← hu, hopen, ← hv, hclear, hdone, hsender]

theorem execMbxWakeLate_of_due (hposted : (u.box box.val).state = .posted) (hcore : boxReceiver box.val ≠ 1)
    (hseen : (u.box box.val).seen = false) (hsaid : (u.box box.val).late = false)
    (hdue : (u.box box.val).postedAt + u.wakeLimit * 1000 < u.now) :
    execMbxWakeLate dt box s = .next ((u.onBox box.val (fun b => { b with late := true })).fault 98) := by
  simp [execMbxWakeLate, hup, ← hu, hposted, hcore, hseen, hsaid, hdue]

end

/-! ### Stiles (R462, R463) -/

section
variable {stile : Fin 8}

theorem execStileRead_of_answers {agent : Fin 7} (hanswers : u.answers (Reg.MBX_STILE stile.val).off = true) :
    execStileRead dt agent stile s = .next (u.stileTake stile.val agent.val) := by
  simp [execStileRead, hup, ← hu, hanswers]

theorem execStileRelease_of_owner (hopen : u.writeOpen (data.toNat % 16) (Reg.MBX_STILE stile.val).off = true)
    (hv : v = u.noteWrite (data.toNat % 16) (Reg.MBX_STILE stile.val).off data.toNat) (hheld : (v.stile stile.val).owner ≠ 0)
    (howner : data.toNat % 16 = (v.stile stile.val).owner) :
    execStileRelease dt stile data s =
      .next (v.onMbx (fun x => { x with stiles := x.stiles.modify stile.val (fun _ => ⟨0, 0, false⟩) })) := by
  simp only [execStileRelease, hup, ← hu, hopen, ← hv]
  simp [howner, hheld]

theorem execStileLong_of_due (hset : u.f Fld.MBX_LIMITS_stile_max ≠ 0) (hheld : (u.stile stile.val).owner ≠ 0)
    (hsaid : (u.stile stile.val).said = false)
    (hdue : (u.stile stile.val).since + u.f Fld.MBX_LIMITS_stile_max * 1000 < u.now) :
    execStileLong dt stile s = .next ((u.onMbx (fun m => { m with
      stiles := m.stiles.modify stile.val (fun x => { x with said := true }) })).fault 99) := by
  simp [execStileLong, hup, ← hu, hset, hheld, hsaid, hdue]

end

/-- R452: C1 to C3 are reset by their bits. -/
theorem execCoreResetWrite_of_key (hopen : u.writeOpen 1 Reg.MBX_CORE_CTRL.off = true)
    (hv : v = u.noteWrite 1 Reg.MBX_CORE_CTRL.off data.toNat) (hkey : bits data.toNat 31 16 = 0xC0DE) :
    execCoreResetWrite dt data s =
      .next ([1, 2, 3].foldl (fun s n => if bitOf data.toNat n then s.resetCore n 2 else s) v) := by
  simp only [execCoreResetWrite, hup, ← hu, hopen, ← hv, hkey]
  rfl

end

/-- Settles O38, by the conditions under which each command has its effect. -/
theorem mailboxCommandsComplete : Obligations.MailboxCommandsComplete := by
  unfold Obligations.MailboxCommandsComplete
  refine ⟨?post, ?ack, ?clear, ?wakeLate, ?stileRead, ?stileRelease, ?stileLong, ?coreReset, ?watchdog⟩
  case post =>
    exact fun s u dt agent data v w hup hu hagent hopen hv hother hfree hw =>
      execMbxPost_of_free hup hu rfl hagent hopen hv hother hfree hw
  case ack =>
    exact fun s u dt agent box data v w hup hu hopen hv hreceiver hposted horphan hw =>
      execMbxAck_of_receiver hup hu hopen hv hreceiver hposted horphan hw
  case clear =>
    exact fun s u dt agent box data v hup hu hopen hv hclear hdone hsender =>
      execMbxClear_of_sender hup hu hopen hv hclear hdone hsender
  case wakeLate =>
    exact fun s u dt box hup hu hposted hcore hseen hsaid hdue => execMbxWakeLate_of_due hup hu hposted hcore hseen hsaid hdue
  case stileRead => exact fun s u dt agent stile hup hu hanswers => execStileRead_of_answers hup hu hanswers
  case stileRelease =>
    exact fun s u dt stile data v hup hu hopen hv hheld howner => execStileRelease_of_owner hup hu hopen hv hheld howner
  case stileLong => exact fun s u dt stile hup hu hset hheld hsaid hdue => execStileLong_of_due hup hu hset hheld hsaid hdue
  case coreReset => exact fun s u dt data v hup hu hopen hv hkey => execCoreResetWrite_of_key hup hu hopen hv hkey
  case watchdog => exact fun s u dt core hup hu hrun => execWatchdogExpire_of_run hup hu hrun

end Sys2Proof.Machine
end

section
/-! PROOFS. The statement of 17_security_lifecycle.md about commands: tokens, tamper, recovery, the TRNG, sessions and the reset of a transition. -/

namespace Sys2Proof.Machine

/-- R473: the 384 bytes of the token are read from where the registers say. -/
def State.askToken (s : State) : State :=
  (s.onSec (fun x => { x with readDue := false })).emit
    (.hostRead (s.reg Reg.SEC_TOKEN_ADDR_LO + 2 ^ 32 * s.reg Reg.SEC_TOKEN_ADDR_HI) 384 false)

/-- A read that is due is asked for. -/
theorem State.readToken_of_due {s : State} (hdue : s.sec.readDue = true) : s.readToken = s.askToken := by
  simp [State.readToken, hdue, State.askToken]

/-- R473: an accepted token acts; a failed one leaves status 0x15 and raises FS092 for kind DEBUG and FS088 otherwise. -/
def State.judgeToken (token : List Byte) (step : Nat) (s : State) : Nat × State :=
  if step = 0 then s.actOn token
  else (0x15, s.fault (if !s.sec.readLost && decide (leAt token 4 1 = 3) then 92 else 88))

section
variable {dt : Nat} {data : Word} {s u v w : State} (hup : s.down = false) (hu : u = s.elapse dt)
include hup hu

/-- R473, R477: no token is under way, C0 runs, and the TRNG tests pass; the read waits while the host interface is mute. -/
theorem execTokenSubmit_of_ready (hopen : u.writeOpen 1 Reg.SEC_TOKEN_CTRL.off = true)
    (hv : v = u.noteWrite 1 Reg.SEC_TOKEN_CTRL.off data.toNat) (hgo : bitOf data.toNat 0 = true) (hidle : v.sec.busy = false)
    (hruns : v.c0Runs = true) (htrng : v.sec.trngFail = false)
    (hw : w = v.onSec (fun x => { x with busy := true, readDue := true, readLost := false })) :
    execTokenSubmit dt data s = .next (if v.hif.mute then w else w.askToken) := by
  have hread : w.readToken = w.askToken := State.readToken_of_due (by rw [hw]; rfl)
  have hmute : w.hif.mute = v.hif.mute := by rw [hw]; rfl
  simp [execTokenSubmit, hup, ← hu, hopen, ← hv, hgo, hidle, hruns, htrng, ← hw, hread, hmute]

/-- R472, R473, R477: the token has been read, and is judged. -/
theorem execTokenDone_of_read {token nonce : List Byte} {n : Nat} (htoken : token.length = 384) (hnonce : nonce.length = 32)
    (hbusy : u.sec.busy = true) (hread : u.sec.readDue = false) (hv : v = u.onSec (fun x => { x with busy := false }))
    (htrng : v.sec.trngFail = false) (hn : n = if v.sec.readLost then 1 else v.tokenStep token) :
    execTokenDone dt token nonce s = .next (((v.judgeToken token n).2.onSec (fun x => { x with
      status := (v.judgeToken token n).1, step := n, nonce := nonce })).raiseEv 251) := by
  simp only [execTokenDone, hup, htoken, hnonce, ← hu, hbusy, hread, ← hv, htrng, ← hn]
  rfl

theorem execTamper_of_up :
    execTamper dt s = .next (((u.onSec (fun x => { x with tamper := true })).fault 93).raiseEv 253) := by
  simp [execTamper, hup, ← hu]

/-- R475, R487: in recovery mode, while no image is being loaded. -/
theorem execRecoveryLoad_of_recovery (hopen : u.writeOpen 1 Reg.SEC_LOAD_ADDR_HI.off = true)
    (hv : v = u.noteWrite 1 Reg.SEC_LOAD_ADDR_HI.off data.toNat) (hrecovery : v.sec.recovery = true)
    (hidle : v.sec.loading = false)
    (hw : w = (v.setReg Reg.SEC_LOAD_ADDR_HI data.toNat).onSec (fun x => { x with loading := true })) :
    execRecoveryLoad dt data s =
      .next (w.emit (.hostRead (w.reg Reg.SEC_LOAD_ADDR_LO + 2 ^ 32 * data.toNat) 512 false)) := by
  simp [execRecoveryLoad, hup, ← hu, hopen, ← hv, hrecovery, hidle, ← hw]

theorem execTrngHealth_of_up {failing : Bool} (hv : v = u.onSec (fun x => { x with trngFail := failing })) :
    execTrngHealth dt failing s = .next (if failing then (v.fault 94).raiseEv 254 else v) := by
  simp only [execTrngHealth, hup, ← hu, ← hv]
  rfl

/-- R482: a session is open and has run out. -/
theorem execDebugSessionExpire_of_due (hscope : u.sec.scope ≠ 0) (hdue : u.sec.scopeEnd ≤ u.now) :
    execDebugSessionExpire dt s = .next (u.onSec (fun x => { x with scope := 0, scopeEnd := 0 })) := by
  simp [execDebugSessionExpire, hup, ← hu, hscope, hdue]

end

/-- Settles O39, by the conditions under which each command has its effect. -/
theorem securityCommandsComplete : Obligations.SecurityCommandsComplete := by
  unfold Obligations.SecurityCommandsComplete
  refine ⟨?submit, ?done, ?tamper, ?recoveryLoad, ?trngHealth, ?sessionExpire, ?transitionReset⟩
  case submit =>
    exact fun s u dt data v w hup hu hopen hv hgo hidle hruns htrng hw =>
      execTokenSubmit_of_ready hup hu hopen hv hgo hidle hruns htrng hw
  case done =>
    rintro s u dt token nonce _ n v hup hu htoken hnonce hbusy hread hv htrng hn rfl
    exact execTokenDone_of_read hup hu htoken hnonce hbusy hread hv htrng hn
  case tamper => exact fun s u dt hup hu => execTamper_of_up hup hu
  case recoveryLoad =>
    exact fun s u dt data v w hup hu hopen hv hrecovery hidle hw => execRecoveryLoad_of_recovery hup hu hopen hv hrecovery hidle hw
  case trngHealth => exact fun s u dt failing v hup hu hv => execTrngHealth_of_up hup hu hv
  case sessionExpire => exact fun s u dt hup hu hscope hdue => execDebugSessionExpire_of_due hup hu hscope hdue
  case transitionReset => exact fun s u dt hup hu hpend hdue => execLcTransitionReset_of_due hup hu hpend hdue

end Sys2Proof.Machine
end

section
/-! PROOFS. The statement of 18_calibration_nvm.md: calibration runs, records and splice. -/

namespace Sys2Proof.Machine

/-! ### CAL_RUN (R492, R499, R500, R505) -/

section
variable {dt slot : Nat} {ring : Fin 64} {d : Desc} {s u v : State} (hup : s.down = false) (hu : u = s.elapse dt)
include hup hu

/-- R499: the web is STILL, no tile run is under way, and the record of the tile is in use. -/
theorem execCalRunTile_of_still (hdesc : u.calStart ring.val slot 0 = some d) (hstill : u.source.state = .still)
    (htile : (u.calPort (d.byte 9)).tile = false) (hv : v = u.noteRead 0x23 (d.byte 9))
    (hrecord : (v.record 0x23 (d.byte 9)).isSome = true) :
    execCalRunTile dt ring slot s =
      .next (((v.droverDrop (.cal (d.byte 9))).onCalPort (d.byte 9) (fun c => { c with
        tile := true, run := .pending, attempts := 0, meas := Meas.none, first := none, started := false })).joinRun d) := by
  simp [execCalRunTile, hup, ← hu, hdesc, hstill, htile, ← hv, Option.isSome_iff_ne_none.mp hrecord]

theorem execCalRunStrip_of_traced (hdesc : u.calStart ring.val slot 1 = some d) (htraced : (u.calPort (d.byte 9)).traced = true) :
    execCalRunStrip dt ring slot s = .next (u.joinRun d) := by
  simp [execCalRunStrip, hup, ← hu, hdesc, htraced]

/-- R505: the record is in use and fits the buffer. -/
theorem execCalRunRead_of_fits {read : RunRead} {x : RecSlot} {typ sel : Nat} (hdesc : u.calStart ring.val slot 2 = some d)
    (htyp : typ = d.num 10 2) (hsel : sel = d.byte 12) (hout : d.hostOut read.list = some true) (hread : 0x20 ≤ typ)
    (hv : v = ((u.readList d).readErrs typ sel read.errs).noteRead typ sel) (hrecord : (v.mrec typ sel).inUse = some x)
    (hfits : (x.header typ sel ++ x.payload).length ≤ d.buf.length) :
    execCalRunRead dt ring slot read s =
      .next ((v.writeHost d (read.list.map (fun e => e.addr)) (x.header typ sel ++ x.payload)).complete d 0 0) := by
  simp only [execCalRunRead, hup, ← hu, hdesc, hout, ← htyp, ← hsel, Nat.not_lt.mpr hread, ← hv, hrecord, Nat.not_lt.mpr hfits]
  rfl

/-- R492, R505: the payload of a record that the host may write. -/
theorem execCalRunWrite_of_fits {list : List PageEnt} {data b : List Byte} (hdesc : u.calStart ring.val slot 3 = some d)
    (hdata : d.hostIn list data = some (0, b)) (hv : v = u.readHost d list) (hmay : v.mayWrite (d.num 10 2) = true)
    (hfits : recordFits (d.num 10 2) (d.byte 12) b = true) :
    execCalRunWrite dt ring slot list data s = .next ((v.start d).writeRecord (d.num 10 2) (d.byte 12) b (some d.order)) := by
  simp [execCalRunWrite, hup, ← hu, hdesc, hdata, ← hv, hmay, hfits]

end

/-! ### Writes of records, and splice (R492, R493, R497, R508) -/

/-- R493: a write that was put off a second ago is no longer deferred. -/
def MWrite.undefer (typ sel now : Nat) (w : MWrite) : MWrite :=
  if w.typ = typ ∧ w.sel = sel ∧ w.deferred.any (fun t => decide (t ≤ now)) then { w with deferred := none } else w

theorem MWrite.undefer_eq (typ sel now : Nat) (w : MWrite) :
    w.undefer typ sel now = match w.deferred with
      | some t => if w.typ = typ && w.sel = sel && t ≤ now then { w with deferred := none } else w
      | none => w := by
  rw [MWrite.undefer]
  cases hdue : w.deferred <;> simp [and_assoc]

section
variable {dt : Nat} {s u v : State} (hup : s.down = false) (hu : u = s.elapse dt)
include hup hu

/-- R492: the write at the head of those not deferred ends with its readback. -/
theorem execMramWriteDone_of_write {back : Readback} {w : MWrite} (hwrite : u.cal.writes.find? (fun w => w.deferred.isNone) = some w)
    (hv : v = ((u.onCal (fun c => { c with writes := c.writes.erase w })).countEcc back.corrected back.lost).putRecord
      w.typ w.sel w.payload (decide (back.mismatches.val < 2))) :
    execMramWriteDone dt back s =
      .next ((w.descs.foldl (fun s o => s.completeAt o (if back.mismatches.val < 2 then 0 else 0x7C) 0)
        (v.redefer w.typ w.sel)).settleShelf) := by
  simp only [execMramWriteDone, hup, ← hu, hwrite, ← hv]
  rfl

theorem execMramDeferredWrite_of_up {typ sel : Nat} :
    execMramDeferredWrite dt typ sel s =
      .next (u.onCal (fun c => { c with writes := c.writes.map (MWrite.undefer typ sel u.now) })) := by
  simp only [execMramDeferredWrite, hup, ← hu, funext (MWrite.undefer_eq typ sel u.now)]
  rfl

theorem execSpliceSet_of_open (hopen : u.writeOpen 1 Reg.CAL_CTRL.off = true)
    (hv : v = (u.noteWrite 1 Reg.CAL_CTRL.off (putBits (u.reg Reg.CAL_CTRL) 30 30 1)).setF Fld.CAL_CTRL_splice 1) :
    execSpliceSet dt s = .next (v.onCal (fun c => { c with spliceAt := v.now })) := by
  simp [execSpliceSet, hup, ← hu, hopen, ← hv]

theorem execSpliceExpire_of_due (hsplice : u.fb Fld.CAL_CTRL_splice = true)
    (hdue : u.cal.spliceAt + orIfZero (u.f Fld.CAL_CTRL_splice_ms) 1 * 1000000 ≤ u.now) :
    execSpliceExpire dt s = .next (u.setF Fld.CAL_CTRL_splice 0) := by
  simp [execSpliceExpire, hup, ← hu, hsplice, hdue]

end

/-- Settles O14, by the conditions under which each command has its effect. -/
theorem calibrationCommandsComplete : Obligations.CalibrationCommandsComplete := by
  unfold Obligations.CalibrationCommandsComplete
  refine ⟨?tile, ?strip, ?read, ?write, ?writeDone, ?deferred, ?spliceSet, ?spliceExpire⟩
  case tile =>
    exact fun s u dt ring slot d v hup hu hdesc hstill htile hv hrecord =>
      execCalRunTile_of_still hup hu hdesc hstill htile hv hrecord
  case strip => exact fun s u dt ring slot d hup hu hdesc htraced => execCalRunStrip_of_traced hup hu hdesc htraced
  case read =>
    exact fun s u dt ring slot read d x v hup hu hdesc hout hread hv hrecord hfits =>
      execCalRunRead_of_fits hup hu hdesc rfl rfl hout hread hv hrecord hfits
  case write =>
    exact fun s u dt ring slot list data d b v hup hu hdesc hdata hv hmay hfits =>
      execCalRunWrite_of_fits hup hu hdesc hdata hv hmay hfits
  case writeDone => exact fun s u dt back w v hup hu hwrite hv => execMramWriteDone_of_write hup hu hwrite hv
  case deferred => exact fun s u dt typ sel hup hu => execMramDeferredWrite_of_up hup hu
  case spliceSet => exact fun s u dt v hup hu hopen hv => execSpliceSet_of_open hup hu hopen hv
  case spliceExpire => exact fun s u dt hup hu hsplice hdue => execSpliceExpire_of_due hup hu hsplice hdue

end Sys2Proof.Machine
end

section
/-! PROOFS. The statements of 19_record_replay.md: recording, exporting and snapshots, and the commands of replay. -/

namespace Sys2Proof.Machine

/-! ### Recording, sealing and losing (R511, R513 to R515) -/

section
variable {dt : Nat} {s u : State} (hup : s.down = false) (hu : u = s.elapse dt)
include hup hu

section
variable {slot : Nat} {ring : Fin 64} {d : Desc} {y : State} (hy : y = u.wakeDomain 9) (hon : y.isOn 9 = true)
include hy hon

/-- R511: no job and no recording is open, none is starting, and the region is granted or may wait. -/
theorem execTallyStart_of_idle {v : State} (hdesc : u.startOp ring.val slot 0x40 0 = some d) (hjob : y.lay.job = none)
    (hidle : y.tally.state = .idle) (hlate : y.tally.late = []) (hstarting : y.startWaiting = none)
    (hv : v = ((((y.padFree .tally).onTally (fun t => { t with chunks := [], region := 0, pages := 0 })).start d).padAsk
      5 (d.num 12 4) .tally).tallySettle)
    (hregion : (v.padOf .tally).isSome = true ∨ v.stageWait ≠ 0) :
    execTallyStart dt ring slot s = .next v := by
  simp only [execTallyStart, hup, ← hu, hdesc, ← hy, hon, hjob, hidle, hlate, hstarting, ← hv]
  obtain hgranted | hwaits := hregion
  · simp [Option.isSome_iff_ne_none.mp hgranted]
  · simp [hwaits]

theorem execTallyStop_of_recording (hdesc : u.startOp ring.val slot 0x40 1 = some d) (hrec : y.tally.state = .recording) :
    execTallyStop dt ring slot s = .next ((y.endRecording 0).complete d 0 0) := by
  simp [execTallyStop, hup, ← hu, hdesc, ← hy, hon, hrec]

/-! ### Chunks for the host, and snapshots (R516, R518) -/

/-- R516: the chunks from the number that the descriptor gives; 0xFFFFFFFF goes on behind the last one exported before. -/
def State.chunksFrom (first : Nat) (s : State) : List Chunk :=
  s.tally.chunks.filter (fun c => decide ((if first = 0xFFFFFFFF then s.tally.exported else first) ≤ c.num))

/-- R516: the next TALLY_EXPORT goes on behind the last chunk of this one. -/
def State.exportedTo (last : Option Nat) (s : State) : State :=
  match last with
  | some n => s.onTally (fun t => { t with exported := n + 1 })
  | none => s

theorem execTallyExport_of_chunks {list : List PageEnt} {cs : List Chunk} {r : List Byte × Option Nat × Bool} {v : State}
    (hdesc : u.startOp ring.val slot 0x40 2 = some d) (hout : d.hostOut list = some true)
    (hcs : cs = y.chunksFrom (d.num 16 4)) (hsome : cs ≠ []) (hr : r = exportChunks d.buf.length cs)
    (hv : v = (y.readList d).writeHost d (list.map (fun e => e.addr)) r.1) :
    execTallyExport dt ring slot list s =
      .next ((v.exportedTo r.2.1).complete d (if r.2.2 then 0x6A else 0) r.1.length) := by
  have hread : (y.readList d).chunksFrom (d.num 16 4) = cs := hcs.symm
  have hsome : cs.isEmpty = false := by simpa using hsome
  simp only [State.chunksFrom] at hread
  simp only [execTallyExport, hup, ← hu, hdesc, ← hy, hon, hout, hread, hsome, ← hr, ← hv, State.exportedTo]
  cases r.2.1 <;> rfl

theorem execTallySnapDump_of_on {list : List PageEnt} (hdesc : u.startOp ring.val slot 0x40 4 = some d)
    (hout : d.hostOut list = some true) :
    execTallySnapDump dt ring slot list s = .next ((((y.readList d).writeHost d (list.map (fun e => e.addr))
      ((y.tally.banks.getD (d.byte 9 % 2) ⟨0, []⟩).bytes.take d.buf.length)).complete d 0 0).raiseEv 247) := by
  simp only [execTallySnapDump, hup, ← hu, hdesc, ← hy, hon, hout]
  rfl

/-! ### The start of a replay (R519, R520) -/

/-- R519: a replay from the journal, or from chunks in the host buffer, as bit 1 of the flags says. -/
def State.replayChosen (d : Desc) (list : List PageEnt) (b : List Byte) (s : State) : State :=
  if bitOf (d.byte 9) 1 then (s.readHost d list).replayFrom d (parseChunks (b.length + 1) b)
  else s.replayFrom d (soundChunks s.tally.chunks)

theorem execTallyReplay_of_permitted {list : List PageEnt} {data b : List Byte} (hdesc : u.startOp ring.val slot 0x40 3 = some d)
    (hmay : y.replayPermitted = true) (hjob : y.lay.job = none) (hlive : y.anyBarLive = false) (hidle : y.tally.state = .idle)
    (hdata : bitOf (d.byte 9) 1 = true → d.hostIn list data = some (0, b)) :
    execTallyReplay dt ring slot list data s = .next (y.replayChosen d list b) := by
  cases hbuf : bitOf (d.byte 9) 1 with
  | true => simp [execTallyReplay, hup, ← hu, hdesc, ← hy, hon, hmay, hjob, hlive, hidle, hbuf, hdata hbuf, State.replayChosen]
  | false => simp [execTallyReplay, hup, ← hu, hdesc, ← hy, hon, hmay, hjob, hlive, hidle, hbuf, State.replayChosen]

end

/-- R514: chunk_ms have passed since the first entry of the open chunk. -/
theorem execChunk_of_due (hrec : u.tally.state = .recording) (hopened : u.tally.opened ≠ [])
    (hdue : u.tally.openedAt + orIfZero (u.f Fld.TALLY_CHUNK_CFG_chunk_ms) 1 * 1000000 ≤ u.now) :
    execChunk dt s = .next u.sealChunk := by
  simp [execChunk, hup, ← hu, hrec, hopened, hdue]

/-- R515: the event is raised with the first entries lost. -/
theorem execLost_of_recording {n : Nat} {v : State} (hrec : u.tally.state = .recording) (hn : 0 < n)
    (hv : v = (u.onTally (fun t => { t with lost := t.lost + n })).bump ⟨Reg.TALLY_LOST, 31, 0⟩ n) :
    execLost dt n s = .next (if u.tally.lost = 0 then v.raiseEv 243 else v) := by
  simp [execLost, hup, ← hu, hrec, hn.ne', ← hv]

theorem execSnapHold_of_open {data : Word} {v : State} (hopen : u.writeOpen 1 Reg.TALLY_SNAP_CTRL.off = true)
    (hv : v = u.noteWrite 1 Reg.TALLY_SNAP_CTRL.off data.toNat) (hon : v.isOn 9 = true) :
    execSnapHold dt data s = .next (v.onTally (fun t => { t with held := bitOf data.toNat 0 })) := by
  simp [execSnapHold, hup, ← hu, hopen, ← hv, hon]

end

/-- Settles O15, by the conditions under which each command has its effect. -/
theorem tallyRecordingCommandsComplete : Obligations.TallyRecordingCommandsComplete := by
  unfold Obligations.TallyRecordingCommandsComplete
  refine ⟨?start, ?stop, ?chunk, ?lost, ?exported, ?hold, ?dump⟩
  case start =>
    exact fun s u dt ring slot y d v hup hu hdesc hy hon hjob hidle hlate hstarting hv hregion =>
      execTallyStart_of_idle hup hu hy hon hdesc hjob hidle hlate hstarting hv hregion
  case stop => exact fun s u dt ring slot y d hup hu hdesc hy hon hrec => execTallyStop_of_recording hup hu hy hon hdesc hrec
  case chunk => exact fun s u dt hup hu hrec hopened hdue => execChunk_of_due hup hu hrec hopened hdue
  case lost => exact fun s u dt n v hup hu hrec hn hv => execLost_of_recording hup hu hrec hn hv
  case exported =>
    intro s u dt ring slot list y d cs r v w hup hu hdesc hy hon hout hcs hsome hr hv hw
    have hw : w = v.exportedTo r.2.1 := hw.trans (by cases r.2.1 <;> rfl)
    rw [hw]
    exact execTallyExport_of_chunks hup hu hy hon hdesc hout hcs hsome hr hv
  case hold => exact fun s u dt data v hup hu hopen hv hon => execSnapHold_of_open hup hu hopen hv hon
  case dump => exact fun s u dt ring slot list y d hup hu hdesc hy hon hout => execTallySnapDump_of_on hup hu hy hon hdesc hout

/-! ### Replay (R522 to R524, R528) and the judging of Paddock requests (R357) -/

section
variable {dt : Nat} {s u : State} (hup : s.down = false) (hu : u = s.elapse dt)
include hup hu

/-- R522: the replay clock has reached the time of the next entry. -/
theorem execReplayEntry_of_due {e : Entry} {es : List Entry} (hreplay : u.replaying = true) (hfree : u.replayBlocked = false)
    (hplay : u.tally.play = e :: es) (hdue : u.entryAt e ≤ u.tally.clock) :
    execReplayEntry dt s =
      .next ((u.onTally (fun t => { t with play := es, playAt := max t.playAt (u.entryAt e) })).present e) := by
  simp [execReplayEntry, hup, ← hu, hreplay, hfree, hplay, Nat.not_lt.mpr hdue]

section
variable (hblocked : u.replayBlocked = true)
include hblocked

theorem execReplayHalt_of_due (hsaid : u.tally.haltSaid = false) (hdue : u.tally.haltedAt + u.replayWait / 2 ≤ u.now) :
    execReplayHalt dt s = .next ((u.onTally (fun t => { t with haltSaid := true })).raiseEv 246) := by
  simp [execReplayHalt, hup, ← hu, hblocked, hsaid, hdue]

/-- R523: the requester of the first recorded decision has not asked in time. -/
theorem execReplayWaitTimeout_of_due {e : Entry} (hfirst : u.tally.expected.find? (fun e => decide (e.kind = 0x60)) = some e)
    (hdue : u.tally.haltedAt + u.replayWait ≤ u.now) :
    execReplayWaitTimeout dt s = .next ((u.onTally (fun t => { t with
      expected := t.expected.erase e, haltedAt := u.now, haltSaid := false })).diverge ⟨6, 0, e.sub, 0, 0, 0, 0⟩) := by
  simp [execReplayWaitTimeout, hup, ← hu, hfirst, hblocked, hdue]

end

theorem execReplayStop_of_replaying {v : State} (hopen : u.writeOpen 1 Reg.TALLY_CTRL.off = true)
    (hv : v = u.noteWrite 1 Reg.TALLY_CTRL.off (putBits (u.reg Reg.TALLY_CTRL) 31 31 1)) (hreplay : v.replaying = true)
    (hon : v.isOn 9 = true) : execReplayStop dt s = .next v.replayEnd := by
  simp [execReplayStop, hup, ← hu, hopen, ← hv, hreplay, hon]

/-- R519, R524: in PROVISIONED and FIELD a replay ends with the session that permits it. -/
theorem execReplaySessionExpire_of_due (hdue : u.sec.session.any (fun t => decide (t ≤ u.now)) = true)
    (hreplay : u.replaying = true) (hlc : u.sec.lc = .provisioned ∨ u.sec.lc = .field) :
    execReplaySessionExpire dt s = .next (u.onSec (fun x => { x with session := none })).replayEnd := by
  have hkeep : (u.onSec (fun x => { x with session := none })).replaying = true := hreplay
  simp [execReplaySessionExpire, hup, ← hu, hdue, hkeep, hlc]

theorem execPaddockGrant_of_up :
    execPaddockGrant dt s = .next (((padJudge u.paddock.waiting [] u).padSettle).tallySettle) := by
  simp [execPaddockGrant, hup, ← hu]

end

/-- Settles O16, by the conditions under which each command has its effect. -/
theorem replayCommandsComplete : Obligations.ReplayCommandsComplete := by
  unfold Obligations.ReplayCommandsComplete
  refine ⟨?replay, ?entry, ?halt, ?waitTimeout, ?stop, ?sessionExpire, ?grant⟩
  case replay =>
    exact fun s u dt ring slot list data y d b hup hu hdesc hy hon hmay hjob hlive hidle hdata =>
      execTallyReplay_of_permitted hup hu hy hon hdesc hmay hjob hlive hidle hdata
  case entry => exact fun s u dt e es hup hu hreplay hfree hplay hdue => execReplayEntry_of_due hup hu hreplay hfree hplay hdue
  case halt => exact fun s u dt hup hu hblocked hsaid hdue => execReplayHalt_of_due hup hu hblocked hsaid hdue
  case waitTimeout =>
    exact fun s u dt e hup hu hfirst hblocked hdue => execReplayWaitTimeout_of_due hup hu hblocked hfirst hdue
  case stop => exact fun s u dt v hup hu hopen hv hreplay hon => execReplayStop_of_replaying hup hu hopen hv hreplay hon
  case sessionExpire => exact fun s u dt hup hu hdue hreplay hlc => execReplaySessionExpire_of_due hup hu hdue hreplay hlc
  case grant => exact fun s u dt hup hu => execPaddockGrant_of_up hup hu

end Sys2Proof.Machine
end
